-- ==== Sys2Proof/Word.lean ====
section
/-! DEFINITION. The machine word and its plainest names (spec/00_scope.md R3). -/

namespace Sys2Proof

/-- A general register or special register (R5). -/
abbrev Word := BitVec 64

/-- One instruction word (R8). -/
abbrev IWord := BitVec 32

/-- One lane of a vector register (R125). -/
abbrev Lane := BitVec 32

/-- A byte of memory. -/
abbrev Byte := BitVec 8

end Sys2Proof
end

