-- ==== Sys2Proof/Syntax.lean ====
section
/-! DEFINITION. The instructions and events of spec/opcode_table.json, one constructor a row (02_formats_and_opcode_map.md
R22 to R42 for the words, 95_what_each_step_holds.md for the events), with their operands as decoded fields. -/

namespace Sys2Proof

/-- The wait and post codes of a V, M or C word (R33, Table 6). -/
structure Tok where
  wait : Fin 4
  post : Fin 4
  deriving DecidableEq, Repr

/-- Guard, sense and token codes of a per-lane V word (R28). -/
structure VTail where
  guard : Fin 16
  sense : Bool
  wait : Fin 4
  post : Fin 4
  deriving DecidableEq, Repr

/-- The four reasons of ILLEGAL (R42), in the order of their codes 1 to 4. -/
inductive Reason where
  | reservedOpcode
  | undefinedSelector
  | mustBeZero
  | forbiddenOperand
  deriving DecidableEq, Repr

/-- A slot of a core: core id (R15) and slot number. -/
structure SlotId where
  core : Fin 256
  slot : Fin 4
  deriving DecidableEq, Repr

/-- The name space of a segment (R17): that of the task context with this key, or that of a cluster. -/
inductive Space where
  | task (key : Nat)
  | cluster (c : Fin 64)
  deriving DecidableEq, Repr

/-- A segment by name space and name (R17). -/
structure SegId where
  space : Space
  name : Fin 4096
  deriving DecidableEq, Repr

/-- A pool of frames: a core's local store or a cluster store (R1). -/
inductive PoolId where
  | core (c : Fin 256)
  | cluster (c : Fin 64)
  deriving DecidableEq, Repr

/-- A granule: data, seal and poison bit (R189, R387). `inj` marks one that an error injector has made bad, for the error log (R361); it is
the model's mark, and no link carries it. -/
structure Granule where
  data : BitVec 256
  code : BitVec 32
  poison : Bool
  inj : Bool
  deriving DecidableEq, Repr

/-- A Falran flit (R387, Table 6): bytes 0 to 7, 8 to 247 and 248 to 255. -/
structure Flit where
  head : BitVec 64
  payload : BitVec 1920
  crc : BitVec 64
  deriving DecidableEq, Repr

/-- What a device tells the home of a level-5 domain of its fabric group, and what the home tells it (R390; log 75): a task joins, leaves, is
killed, declares, arrives; bytes land; a phase has ended for a task, broken or with excess bytes; a domain is in a phase; it has its home at
the sender, or has it no more. -/
inductive DomMsg where
  | join
  | leave
  | kill
  | declare (n : Nat)
  | arrive
  | land (bytes phase : Nat)
  | ended (phase excess : Nat) (broken : Bool)
  | phase (n : Nat)
  | home
  | gone
  deriving DecidableEq, Repr

/-- What a request asks of the target's home (R389, R390). A transaction's reads are watched at the home; its commit locks a granule, which
is validated if it has been read and checked if it will be written, then writes it, then unlocks it (R218); `owner` tells the sender's transactions
apart. The bytes of a strong store and of an atomic travel under a check code, `crc` (R191). -/
inductive RemoteOp where
  | read
  | write (mask : BitVec 32) (g : Granule) (crc : Option (BitVec 32))
  | atom (op : Fin 16) (off : Fin 4) (operand expected : BitVec 64) (crc : BitVec 32)
  | reduce (op : Fin 3) (rfmt : Fin 16) (mask : BitVec 32) (g : Granule)
  | txRead (owner : Nat)
  | txLock (owner : Nat) (read : Bool) (mask : BitVec 32) (data : BitVec 256) (crc : BitVec 32)
  | txWrite (owner : Nat)
  | txUnlock (owner : Nat)
  | dom (fgid id task : Nat) (m : DomMsg)
  deriving DecidableEq, Repr

/-- A remote request as its flit carries it (R389): the payload layout is not the spec's. `dlog` is the dirty-log bit of the translation that
it went through (R385). -/
structure FalranReq where
  dev : BitVec 12
  endpoint : BitVec 16
  tag : Nat
  pa : BitVec 52
  op : RemoteOp
  dlog : Bool
  deriving DecidableEq, Repr

/-- What the home answers: a granule, and whether its check of the old granule (1) or of the operand (2) has failed (R191); after the
second the granule holds the two check codes. -/
structure Reply where
  g : Granule
  code : Fin 3
  deriving DecidableEq, Repr

/-- A response to the outstanding request named tag (R388, R389). -/
structure FalranResp where
  tag : Nat
  reply : Reply
  deriving DecidableEq, Repr

/-- A firmware image as the boot ROM sees it (R395). -/
structure FirmwareImage where
  version : Nat
  keyHash : BitVec 256
  signatureValid : Bool
  deriving DecidableEq, Repr

/-- SPDM requests on a DOE mailbox (R393). -/
inductive SpdmReq where
  | getMeasurements (nonce : BitVec 256)
  | keyExchange (share : BitVec 768)
  | endSession
  deriving DecidableEq, Repr

/-- The rows of spec/opcode_table.json in its order, but for ILLEGAL, which stands first, and some
events that stand last. -/
inductive Instr where
  /-- ILLEGAL (R41). -/
  | illegal (w : BitVec 32) (r : Reason)
  /-- ADD (R78). -/
  | add (d : Fin 32) (a : Fin 32) (b : Fin 32)
  /-- SUB (R78). -/
  | sub (d : Fin 32) (a : Fin 32) (b : Fin 32)
  /-- AND (R78). -/
  | and (d : Fin 32) (a : Fin 32) (b : Fin 32)
  /-- OR (R78). -/
  | or (d : Fin 32) (a : Fin 32) (b : Fin 32)
  /-- XOR (R78). -/
  | xor (d : Fin 32) (a : Fin 32) (b : Fin 32)
  /-- ANDN (R78). -/
  | andn (d : Fin 32) (a : Fin 32) (b : Fin 32)
  /-- ORN (R78). -/
  | orn (d : Fin 32) (a : Fin 32) (b : Fin 32)
  /-- SLL (R78). -/
  | sll (d : Fin 32) (a : Fin 32) (b : Fin 32)
  /-- SRL (R78). -/
  | srl (d : Fin 32) (a : Fin 32) (b : Fin 32)
  /-- SRA (R78). -/
  | sra (d : Fin 32) (a : Fin 32) (b : Fin 32)
  /-- MUL (R78). -/
  | mul (d : Fin 32) (a : Fin 32) (b : Fin 32)
  /-- MULH (R78). -/
  | mulh (d : Fin 32) (a : Fin 32) (b : Fin 32)
  /-- MULHU (R78). -/
  | mulhu (d : Fin 32) (a : Fin 32) (b : Fin 32)
  /-- DIV (R14). -/
  | div (d : Fin 32) (a : Fin 32) (b : Fin 32)
  /-- DIVU (R78). -/
  | divu (d : Fin 32) (a : Fin 32) (b : Fin 32)
  /-- REM (R14). -/
  | rem (d : Fin 32) (a : Fin 32) (b : Fin 32)
  /-- REMU (R78). -/
  | remu (d : Fin 32) (a : Fin 32) (b : Fin 32)
  /-- SLT (R78). -/
  | slt (d : Fin 32) (a : Fin 32) (b : Fin 32)
  /-- SLTU (R78). -/
  | sltu (d : Fin 32) (a : Fin 32) (b : Fin 32)
  /-- MIN (R78). -/
  | min (d : Fin 32) (a : Fin 32) (b : Fin 32)
  /-- MAX (R78). -/
  | max (d : Fin 32) (a : Fin 32) (b : Fin 32)
  /-- MINU (R78). -/
  | minu (d : Fin 32) (a : Fin 32) (b : Fin 32)
  /-- MAXU (R78). -/
  | maxu (d : Fin 32) (a : Fin 32) (b : Fin 32)
  /-- CLZ (R78). -/
  | clz (d : Fin 32) (a : Fin 32)
  /-- CTZ (R78). -/
  | ctz (d : Fin 32) (a : Fin 32)
  /-- POPC (R78). -/
  | popc (d : Fin 32) (a : Fin 32)
  /-- ROL (R78). -/
  | rol (d : Fin 32) (a : Fin 32) (b : Fin 32)
  /-- ROR (R78). -/
  | ror (d : Fin 32) (a : Fin 32) (b : Fin 32)
  /-- SEXT (R78). -/
  | sext (d : Fin 32) (a : Fin 32) (b : Fin 32)
  /-- ZEXT (R78). -/
  | zext (d : Fin 32) (a : Fin 32) (b : Fin 32)
  /-- BEXT (R79). -/
  | bext (d : Fin 32) (a : Fin 32) (b : Fin 32)
  /-- BINS (R79). -/
  | bins (d : Fin 32) (a : Fin 32) (b : Fin 32)
  /-- ADDI (R80). -/
  | addi (d : Fin 32) (a : Fin 32) (i : BitVec 14)
  /-- ANDI (R80). -/
  | andi (d : Fin 32) (a : Fin 32) (i : BitVec 14)
  /-- ORI (R80). -/
  | ori (d : Fin 32) (a : Fin 32) (i : BitVec 14)
  /-- XORI (R80). -/
  | xori (d : Fin 32) (a : Fin 32) (i : BitVec 14)
  /-- SLTI (R80). -/
  | slti (d : Fin 32) (a : Fin 32) (i : BitVec 14)
  /-- SLTIU (R80). -/
  | sltiu (d : Fin 32) (a : Fin 32) (i : BitVec 14)
  /-- MULI (R80). -/
  | muli (d : Fin 32) (a : Fin 32) (i : BitVec 14)
  /-- SLLI (R81). -/
  | slli (d : Fin 32) (a : Fin 32) (n : Fin 64)
  /-- SRLI (R81). -/
  | srli (d : Fin 32) (a : Fin 32) (n : Fin 64)
  /-- SRAI (R81). -/
  | srai (d : Fin 32) (a : Fin 32) (n : Fin 64)
  /-- ROLI (R81). -/
  | roli (d : Fin 32) (a : Fin 32) (n : Fin 64)
  /-- BEXTI (R82). -/
  | bexti (d : Fin 32) (a : Fin 32) (l : Fin 64) (p : Fin 64)
  /-- BINSI (R82). -/
  | binsi (d : Fin 32) (a : Fin 32) (l : Fin 64) (p : Fin 64)
  /-- LUI (R83). -/
  | lui (d : Fin 32) (i : BitVec 19)
  /-- AUIPC (R83). -/
  | auipc (d : Fin 32) (i : BitVec 19)
  /-- BEQ (R85). -/
  | beq (a : Fin 32) (b : Fin 32) (o : BitVec 14)
  /-- BNE (R85). -/
  | bne (a : Fin 32) (b : Fin 32) (o : BitVec 14)
  /-- BLT (R85). -/
  | blt (a : Fin 32) (b : Fin 32) (o : BitVec 14)
  /-- BGE (R85). -/
  | bge (a : Fin 32) (b : Fin 32) (o : BitVec 14)
  /-- BLTU (R85). -/
  | bltu (a : Fin 32) (b : Fin 32) (o : BitVec 14)
  /-- BGEU (R85). -/
  | bgeu (a : Fin 32) (b : Fin 32) (o : BitVec 14)
  /-- BBS (R86). -/
  | bbs (a : Fin 32) (i : Fin 64) (o : BitVec 13)
  /-- BBC (R86). -/
  | bbc (a : Fin 32) (i : Fin 64) (o : BitVec 13)
  /-- J (R87). -/
  | j (o : BitVec 24)
  /-- JAL (R87). -/
  | jal (o : BitVec 24)
  /-- JALR (R88). -/
  | jalr (d : Fin 32) (a : Fin 32) (i : BitVec 14)
  /-- BRLOOP (R156). -/
  | brloop (a : Fin 32) (o : BitVec 14)
  /-- FADD (R90). -/
  | fadd (d : Fin 32) (a : Fin 32) (b : Fin 32)
  /-- FSUB (R90). -/
  | fsub (d : Fin 32) (a : Fin 32) (b : Fin 32)
  /-- FMUL (R90). -/
  | fmul (d : Fin 32) (a : Fin 32) (b : Fin 32)
  /-- FFMA (R90). -/
  | ffma (d : Fin 32) (a : Fin 32) (b : Fin 32)
  /-- FMIN (R90). -/
  | fmin (d : Fin 32) (a : Fin 32) (b : Fin 32)
  /-- FMAX (R90). -/
  | fmax (d : Fin 32) (a : Fin 32) (b : Fin 32)
  /-- FCMP (R91). -/
  | fcmp (d : Fin 32) (a : Fin 32) (b : Fin 32) (p : Fin 8)
  /-- FCVT (R92). -/
  | fcvt (d : Fin 32) (a : Fin 32) (k : Fin 16)
  /-- LD (R93). -/
  | ld (d : Fin 32) (a : Fin 32) (s : Fin 4) (z : Bool) (i : BitVec 11)
  /-- ST (R94). -/
  | st (t : Fin 32) (a : Fin 32) (s : Fin 4) (i : BitVec 11)
  /-- LD_S (R222). -/
  | ldS (d : Fin 32) (a : Fin 32) (s : Fin 4) (z : Bool) (o : Fin 4) (i : BitVec 9)
  /-- ST_S (R222). -/
  | stS (t : Fin 32) (a : Fin 32) (s : Fin 4) (o : Fin 4) (i : BitVec 9)
  /-- ATOM (R224). -/
  | atom (d : Fin 32) (a : Fin 32) (b : Fin 32) (s : Fin 8) (o : Fin 4) (p : Fin 16)
  /-- CAS (R224). -/
  | cas (d : Fin 32) (a : Fin 32) (b : Fin 32) (s : Fin 8) (o : Fin 4)
  /-- MARK (R225). -/
  | mark
  /-- FENCE_REL (R225). -/
  | fenceRel (s : Fin 8)
  /-- FENCE_ACQ (R225). -/
  | fenceAcq (s : Fin 8)
  /-- FENCE_AR (R225). -/
  | fenceAr (s : Fin 8)
  /-- LBLK (R227). -/
  | lblk (d : Fin 32) (a : Fin 32) (h : Fin 16) (n : Fin 64)
  /-- LBLK_REL (R227). -/
  | lblkRel (d : Fin 32) (h : Fin 16)
  /-- BLKWAIT (R228). -/
  | blkwait (d : Fin 32) (h : Fin 16)
  /-- PSPACE (R229). -/
  | pspace (d : Fin 32) (a : Fin 32)
  /-- PCAST (R230). -/
  | pcast (d : Fin 32) (a : Fin 32) (b : Fin 32)
  /-- TXB (R232). -/
  | txb (d : Fin 32)
  /-- TXE (R235). -/
  | txe (d : Fin 32)
  /-- TXA (R234). -/
  | txa (a : Fin 32)
  /-- PGALLOC (R236). -/
  | pgalloc (d : Fin 32)
  /-- PGALLOC_NB (R236). -/
  | pgallocNb (d : Fin 32)
  /-- PGFREE (R204). -/
  | pgfree (d : Fin 32) (a : Fin 32)
  /-- SGNEW (R238). -/
  | sgnew (d : Fin 32) (a : Fin 32)
  /-- SGNEW_CL (R238). -/
  | sgnewCl (d : Fin 32) (a : Fin 32)
  /-- SGFREE (R239). -/
  | sgfree (d : Fin 32) (a : Fin 32)
  /-- SGPIN (R240). -/
  | sgpin (d : Fin 32) (a : Fin 32)
  /-- SGUNPIN (R240). -/
  | sgunpin (d : Fin 32) (a : Fin 32)
  /-- SGPREF (R241). -/
  | sgpref (d : Fin 32) (a : Fin 32)
  /-- SGINFO (R242). -/
  | sginfo (d : Fin 32) (a : Fin 32)
  /-- SGQUOTA (R243). -/
  | sgquota (d : Fin 32) (a : Fin 32)
  /-- SGSCHED (R245). -/
  | sgsched (d : Fin 32) (a : Fin 32) (b : Fin 32)
  /-- SPAWN (R158). -/
  | spawn (d : Fin 32) (a : Fin 32)
  /-- TEND (R159). -/
  | tend
  /-- YIELD (R160). -/
  | yield
  /-- AWAIT (R161). -/
  | await (d : Fin 32) (a : Fin 32) (b : Fin 32)
  /-- DOMJOIN (R162). -/
  | domjoin (d : Fin 32) (a : Fin 32) (l : Fin 8)
  /-- DOMLEAVE (R162). -/
  | domleave (d : Fin 32) (l : Fin 8)
  /-- BARDECL (R162). -/
  | bardecl (d : Fin 32) (a : Fin 32) (l : Fin 8)
  /-- BARARR (R162). -/
  | bararr (d : Fin 32) (l : Fin 8)
  /-- BARWAIT (R162). -/
  | barwait (d : Fin 32) (l : Fin 8)
  /-- SCNEW (R163). -/
  | scnew (d : Fin 32) (a : Fin 32)
  /-- CANCEL (R351). -/
  | cancel (d : Fin 32) (a : Fin 32)
  /-- CANCELWAIT (R352). -/
  | cancelwait (d : Fin 32) (a : Fin 32)
  /-- GRUN (R164). -/
  | grun (d : Fin 32) (a : Fin 32)
  /-- TKPOST (R293). -/
  | tkpost (e : Fin 4)
  /-- TKWAIT (R293). -/
  | tkwait (e : Fin 4)
  /-- QPUSH (R294). -/
  | qpush (a : Fin 32)
  /-- QPOP (R294). -/
  | qpop (d : Fin 32)
  /-- FMTQ (R295). -/
  | fmtq (a : Fin 32)
  /-- MLEASE (R296). -/
  | mlease
  /-- MLEASE_G (R296). -/
  | mleaseG (d : Fin 32) (a : Fin 32)
  /-- MRELEASE (R296). -/
  | mrelease
  /-- CHWAIT (R297). -/
  | chwait (d : Fin 32) (a : Fin 32) (h : Fin 8)
  /-- CHID (R297). -/
  | chid (d : Fin 32) (h : Fin 8)
  /-- TDSET (R299). -/
  | tdset (d : Fin 32) (a : Fin 32) (n : Fin 16)
  /-- CDSET (R300). -/
  | cdset (d : Fin 32) (a : Fin 32) (n : Fin 16)
  /-- AGSET (R301). -/
  | agset (d : Fin 32) (a : Fin 32) (n : Fin 8)
  /-- PORTBIND (R302). -/
  | portbind (d : Fin 32) (a : Fin 32) (p : Fin 4)
  /-- TRAP (R353). -/
  | trap (i : BitVec 10)
  /-- TRET (R354). -/
  | tret (k : Bool) (r : Bool)
  /-- SRD (R355). -/
  | srd (d : Fin 32) (n : Fin 1024) (m : Fin 4)
  /-- SWR (R355). -/
  | swr (t : Fin 32) (n : Fin 1024) (m : Fin 4)
  /-- SWR_FLAGS (R10). -/
  | swrFlags (t : Fin 32)
  /-- SWR_VTYPE (R129). -/
  | swrVtype (t : Fin 32)
  /-- SWR_RRB (R128). -/
  | swrRrb (t : Fin 32)
  /-- SWR_EC (R128). -/
  | swrEc (t : Fin 32)
  /-- SWR_SRSEED (R65). -/
  | swrSrseed (t : Fin 32)
  /-- SWR_PREEMPT (R332). -/
  | swrPreempt (t : Fin 32)
  /-- SWR_ENVCB (R102). -/
  | swrEnvcb (t : Fin 32)
  /-- SWR_INJCFG (R349). -/
  | swrInjcfg (t : Fin 32)
  /-- ACCSPILL (R359). -/
  | accspill (d : Fin 32) (a : Fin 32) (b : Fin 32)
  /-- ACCFILL (R359). -/
  | accfill (d : Fin 32) (a : Fin 32) (b : Fin 32)
  /-- CTXSAVE (R357). -/
  | ctxsave (d : Fin 32) (a : Fin 32)
  /-- CTXLOAD (R358). -/
  | ctxload (d : Fin 32) (a : Fin 32) (b : Fin 32)
  /-- TLBINV (R360). -/
  | tlbinv (d : Fin 32) (a : Fin 32) (b : Fin 32)
  /-- ELOGRD (R361). -/
  | elogrd (d : Fin 32) (a : Fin 32) (b : Fin 32)
  /-- MONCALL (R362). -/
  | moncall (d : Fin 32) (a : Fin 32) (b : Fin 32)
  /-- HALT (R363). -/
  | halt
  /-- VNOP (R154). -/
  | vnop (t : Tok)
  /-- VADD (R140). -/
  | vadd (d : Fin 32) (a : Fin 32) (b : Fin 32) (t : VTail)
  /-- VSUB (R140). -/
  | vsub (d : Fin 32) (a : Fin 32) (b : Fin 32) (t : VTail)
  /-- VMUL (R140). -/
  | vmul (d : Fin 32) (a : Fin 32) (b : Fin 32) (t : VTail)
  /-- VFMA (R140). -/
  | vfma (d : Fin 32) (a : Fin 32) (b : Fin 32) (t : VTail)
  /-- VFMS (R140). -/
  | vfms (d : Fin 32) (a : Fin 32) (b : Fin 32) (t : VTail)
  /-- VMIN (R140). -/
  | vmin (d : Fin 32) (a : Fin 32) (b : Fin 32) (t : VTail)
  /-- VMAX (R140). -/
  | vmax (d : Fin 32) (a : Fin 32) (b : Fin 32) (t : VTail)
  /-- VABS (R140). -/
  | vabs (d : Fin 32) (a : Fin 32) (t : VTail)
  /-- VNEG (R140). -/
  | vneg (d : Fin 32) (a : Fin 32) (t : VTail)
  /-- VAND (R140). -/
  | vand (d : Fin 32) (a : Fin 32) (b : Fin 32) (t : VTail)
  /-- VOR (R140). -/
  | vor (d : Fin 32) (a : Fin 32) (b : Fin 32) (t : VTail)
  /-- VXOR (R140). -/
  | vxor (d : Fin 32) (a : Fin 32) (b : Fin 32) (t : VTail)
  /-- VSHL (R140). -/
  | vshl (d : Fin 32) (a : Fin 32) (b : Fin 32) (t : VTail)
  /-- VSHR (R140). -/
  | vshr (d : Fin 32) (a : Fin 32) (b : Fin 32) (t : VTail)
  /-- VSHRA (R140). -/
  | vshra (d : Fin 32) (a : Fin 32) (b : Fin 32) (t : VTail)
  /-- VCMPEQ (R141). -/
  | vcmpeq (d : Fin 16) (a : Fin 32) (b : Fin 32) (t : VTail)
  /-- VCMPLT (R141). -/
  | vcmplt (d : Fin 16) (a : Fin 32) (b : Fin 32) (t : VTail)
  /-- VCMPLE (R141). -/
  | vcmple (d : Fin 16) (a : Fin 32) (b : Fin 32) (t : VTail)
  /-- VSEL (R142). -/
  | vsel (d : Fin 32) (a : Fin 32) (b : Fin 32) (t : VTail)
  /-- VCVT (R144). -/
  | vcvt (d : Fin 32) (a : Fin 32) (k : Fin 32) (t : VTail)
  /-- VQMAX (R146). -/
  | vqmax (d : Fin 32) (a : Fin 32) (t : VTail)
  /-- VQCVT (R146). -/
  | vqcvt (d : Fin 32) (a : Fin 32) (b : Fin 32) (t : VTail)
  /-- VDQ (R146). -/
  | vdq (d : Fin 32) (a : Fin 32) (t : VTail)
  /-- VRED (R148). -/
  | vred (d : Fin 32) (a : Fin 32) (o : Fin 32) (t : VTail)
  /-- VANY (R150). -/
  | vany (a : Fin 16) (t : VTail)
  /-- VALL (R150). -/
  | vall (a : Fin 16) (t : VTail)
  /-- VBCAST (R149). -/
  | vbcast (d : Fin 32) (a : Fin 32) (l : Fin 32) (t : VTail)
  /-- VPERM (R149). -/
  | vperm (d : Fin 32) (a : Fin 32) (b : Fin 32) (t : VTail)
  /-- VIOTA (R149). -/
  | viota (d : Fin 32) (t : VTail)
  /-- VMOV (R140). -/
  | vmov (d : Fin 32) (a : Fin 32) (t : VTail)
  /-- VSPLAT (R140). -/
  | vsplat (d : Fin 32) (i : BitVec 10) (t : VTail)
  /-- VEXP2 (R151). -/
  | vexp2 (d : Fin 32) (a : Fin 32) (t : VTail)
  /-- VRCP (R151). -/
  | vrcp (d : Fin 32) (a : Fin 32) (t : VTail)
  /-- VRSQRT (R151). -/
  | vrsqrt (d : Fin 32) (a : Fin 32) (t : VTail)
  /-- VCSUM (R152). -/
  | vcsum (x : Fin 4) (a : Fin 32) (t : VTail)
  /-- VCSUM_SET (R152). -/
  | vcsumSet (x : Fin 4) (a : Fin 32) (t : VTail)
  /-- VCSUM_CLR (R152). -/
  | vcsumClr (x : Fin 4) (t : Tok)
  /-- VCHK (R153). -/
  | vchk (a : Fin 4) (b : Fin 4) (t : Tok)
  /-- KAND (R143). -/
  | kand (d : Fin 16) (a : Fin 16) (b : Fin 16) (t : VTail)
  /-- KOR (R143). -/
  | kor (d : Fin 16) (a : Fin 16) (b : Fin 16) (t : VTail)
  /-- KXOR (R143). -/
  | kxor (d : Fin 16) (a : Fin 16) (b : Fin 16) (t : VTail)
  /-- KNOT (R143). -/
  | knot (d : Fin 16) (a : Fin 16) (t : VTail)
  /-- VCFG (R154). -/
  | vcfg (i : BitVec 10) (t : Tok)
  /-- VXTR (R150). -/
  | vxtr (a : Fin 32) (t : VTail)
  /-- VPACK (R147). -/
  | vpack (d : Fin 32) (a : Fin 32) (s : Fin 32) (t : VTail)
  /-- VUNPK (R147). -/
  | vunpk (d : Fin 32) (a : Fin 32) (s : Fin 32) (t : VTail)
  /-- MNOP (R304). -/
  | mnop (k : Tok)
  /-- MMA (R306). -/
  | mma (u : Fin 8) (t : Fin 16) (a : Fin 16) (b : Fin 16) (m : Bool) (x : Bool) (y : Bool) (k : Bool) (f : Bool) (q : Tok)
  /-- MZERO (R307). -/
  | mzero (t : Fin 16) (k : Tok)
  /-- MDRAIN (R308). -/
  | mdrain (t : Fin 16) (a : Fin 16) (k : Tok)
  /-- MLOADC (R309). -/
  | mloadc (t : Fin 16) (a : Fin 16) (k : Tok)
  /-- CNOP (R311). -/
  | cnop (h : Fin 8) (t : Tok)
  /-- CPY (R311). -/
  | cpy (h : Fin 8) (c : Fin 16) (r : Bool) (t : Tok)
  /-- CRED (R312). -/
  | cred (h : Fin 8) (c : Fin 16) (r : Bool) (o : Fin 16) (t : Tok)
  /-- CGATH (R311). -/
  | cgath (h : Fin 8) (c : Fin 16) (r : Bool) (t : Tok)
  /-- CSCAT (R311). -/
  | cscat (h : Fin 8) (c : Fin 16) (r : Bool) (t : Tok)
  /-- CMCAST (R313). -/
  | cmcast (h : Fin 8) (c : Fin 16) (r : Bool) (t : Tok)
  /-- CFILL (R314). -/
  | cfill (h : Fin 8) (c : Fin 16) (r : Bool) (o : Fin 16) (t : Tok)
  /-- ALLOWANCE_REFILL (R277). -/
  | allowanceRefill (p : Fin 16)
  /-- KILL (R344). -/
  | kill (c : Fin 256)
  /-- V_FINISH (R131). -/
  | vFinish (s : SlotId)
  /-- MARKER_APPLY (R266). -/
  | markerApply (s : SlotId)
  /-- AG_ENTRY (R259). -/
  | agEntry (s : SlotId) (g : Fin 8)
  /-- C_START (R251). -/
  | cStart (s : SlotId)
  /-- COPY_UNIT (R272). -/
  | copyUnit (s : SlotId) (h : Fin 8)
  /-- C_COMPLETE (R252). -/
  | cComplete (s : SlotId) (h : Fin 8)
  /-- M_START (R303). -/
  | mStart (s : SlotId)
  /-- MICRO_STEP (R286). -/
  | microStep (s : SlotId)
  /-- M_COMPLETE (R289). -/
  | mComplete (s : SlotId)
  /-- QUIESCENT_POINT (R288). -/
  | quiescentPoint (s : SlotId)
  /-- LEASE_IDLE_TIMEOUT (R278). -/
  | leaseIdleTimeout (c : Fin 64)
  /-- TICKET_SERVE (R176). -/
  | ticketServe (c : Fin 64)
  /-- POOL_SCRUB (R204). -/
  | poolScrub (p : Fin 16)
  /-- STORE_PERFORM (R206). -/
  | storePerform (s : SlotId)
  /-- LOAD_BLOCK_FILL (R184). -/
  | loadBlockFill (s : SlotId) (h : Fin 16) (k : Fin 64)
  /-- TASK_START (R102). -/
  | taskStart (s : SlotId)
  /-- RESUME (R336). -/
  | resume (s : SlotId)
  /-- TASK_END (R98). -/
  | taskEnd (s : SlotId)
  /-- GRAPH_NODE_PLACE (R114). -/
  | graphNodePlace (p : Fin 16)
  /-- LAUNCH_SCAN (R107). -/
  | launchScan (p : Fin 16)
  /-- PERIODIC_WAKE (R107). -/
  | periodicWake (p : Fin 16)
  /-- WAKE_WINDOW_END (R108). -/
  | wakeWindowEnd (p : Fin 16)
  /-- STEAL (R112). -/
  | steal (c : Fin 256)
  /-- DEQUE_REFILL (R111). -/
  | dequeRefill (c : Fin 256)
  /-- SPILL_SWEEP (R344). -/
  | spillSweep (c : Fin 256)
  /-- PRELOAD (R340). -/
  | preload (s : SlotId)
  /-- PRELOAD_COMPLETE (R340). -/
  | preloadComplete (s : SlotId)
  /-- YIELD_TIMEOUT (R109). -/
  | yieldTimeout (s : SlotId)
  /-- WAIT_SATISFIED (R97). -/
  | waitSatisfied (s : SlotId)
  /-- AWAIT_REREAD (R161). -/
  | awaitReread (s : SlotId)
  /-- BARRIER_LANDING (R119). -/
  | barrierLanding (p : Fin 16)
  /-- BARWAIT_RETURN (R120). -/
  | barwaitReturn (s : SlotId)
  /-- ASYNC_DELIVERY (R326). -/
  | asyncDelivery (s : SlotId)
  /-- WATCHDOG (R338). -/
  | watchdog (s : SlotId)
  /-- PREEMPT_BUDGET (R332). -/
  | preemptBudget (s : SlotId)
  /-- LOOP_DRAIN_TIMEOUT (R333). -/
  | loopDrainTimeout (s : SlotId)
  /-- SAVE_TORN (R334). -/
  | saveTorn (s : SlotId)
  /-- CFG_CTL (R381). -/
  | cfgCtl
  /-- PART_RUN (R384). -/
  | partRun (p : Fin 16)
  /-- PART_STOP (R386). -/
  | partStop (p : Fin 16)
  /-- PART_RESET (R384). -/
  | partReset (p : Fin 16)
  /-- CORE_RUN (R384). -/
  | coreRun (c : Fin 256)
  /-- DMA (R392). -/
  | dma
  /-- LOG_SWAP (R385). -/
  | logSwap (p : Fin 16)
  /-- POWER_CAP (R396). -/
  | powerCap (w : BitVec 64)
  /-- PF_REGISTER_WRITE (R391). -/
  | pfRegisterWrite (off : BitVec 16) (v : BitVec 64)
  /-- DOORBELL (R391). -/
  | doorbell (p : Fin 16) (v : BitVec 64)
  /-- KEY_LOAD (R394). -/
  | keyLoad (p : Fin 16) (k : Fin 16) (wrapped : BitVec 576)
  /-- KEY_CLEAR (R394). -/
  | keyClear (p : Fin 16) (k : Fin 16)
  /-- LINK_CRC_ERROR (R375). -/
  | linkCrcError (l : Fin 4) (failed : Bool)
  /-- FALRAN_REQUEST (R389). -/
  | falranRequest (port : Fin 64) (f : Flit) (q : FalranReq)
  /-- FALRAN_DATA (R387). -/
  | falranData (port : Fin 64) (f : Flit)
  /-- FALRAN_RESPONSE (R387). -/
  | falranResponse (port : Fin 64) (f : Flit) (r : FalranResp)
  /-- FALRAN_ACK (R388). -/
  | falranAck (port : Fin 64) (f : Flit)
  /-- FALRAN_RETRY_REQUEST (R388). -/
  | falranRetryRequest (port : Fin 64) (f : Flit)
  /-- THERMAL_TRIP (R396). -/
  | thermalTrip
  /-- CLOCK_THROTTLE (R396). -/
  | clockThrottle (watts : Nat)
  /-- COLD_RESET (R395). -/
  | coldReset (image : FirmwareImage)
  /-- SPDM_REQUEST (R393). -/
  | spdmRequest (p : Fin 17) (q : SpdmReq)
  /-- WAKE (R108). -/
  | wake (p : Fin 16) (mask : BitVec 4)
  /-- SLOT_RESELECT (R109). -/
  | slotReselect (c : Fin 256)
  /-- STALL_END (R261). -/
  | stallEnd (s : SlotId)
  /-- COMPACTION (R172). -/
  | compaction (p : PoolId)
  /-- SEGMENT_EVICT (R170). -/
  | segmentEvict (g : SegId)
  /-- CONFIG_COMMIT (R381). -/
  | configCommit
  /-- CFG_TMO (R381). -/
  | cfgTmo
  /-- FRESH_FILL (R171). -/
  | freshFill (g : SegId)
  /-- SEGMENT_RECALL (R170). -/
  | segmentRecall (g : SegId)
  /-- WRITE_BACK (R183). -/
  | writeBack (c : Fin 256) (line : Nat)
  deriving DecidableEq, Repr

end Sys2Proof
end

