-- ==== Sys2Proof/Config.lean ====
section
/-! DEFINITION. What an implementation fixes and the spec does not: constants without a body, so that no proof can see their
values (notes/assumptions 15 to 19). -/

namespace Sys2Proof.Config

/-- The ROM version that MONCALL 0 returns (R362): the spec gives none. Log 15. -/
opaque romVersion : BitVec 64

/-- The 32-bit number the error injector draws from a seed for one access (R349): the generator is not the spec's. Log 16. -/
opaque injectorDraw : BitVec 64 → Nat → BitVec 32

/-- The key-encryption key derived from a session (R394). Log 17. -/
opaque wrapKey : BitVec 384 → BitVec 256

/-- The session secret of a key exchange on a DOE mailbox (R393), from the peer's share and a count of exchanges. Log 18. -/
opaque sessionKey : BitVec 768 → Nat → BitVec 384

/-- The device's own share of that exchange (R393). Log 18. -/
opaque deviceShare : Nat → BitVec 768

/-- The LMS/HSS signature with top-tree index and bottom-tree leaf over a digest (R393). Log 18. -/
opaque hssSign : Nat → Nat → BitVec 256 → BitVec 256

/-- SHA-256 over a list of 64-bit words, as the measurements take it (R393, R395). Log 18. -/
opaque digest : List (BitVec 64) → BitVec 256

/-- The fused public-key hash and rollback counter of the boot ROM (R395). Log 18. -/
opaque fusedKeyHash : BitVec 256

/-- The fused rollback counter (R395). Log 18. -/
opaque fusedRollback : Nat

/-- The n-th value that the spec leaves open where one is needed. Log 3. -/
opaque freeValue : Nat → BitVec 64

/-- The payload of a request flit: headers and granules in a layout the spec does not give (R387). Log 19. -/
opaque requestPayload : FalranReq → BitVec 1920

/-- The payload of a response flit (R387). Log 19. -/
opaque responsePayload : FalranResp → BitVec 1920

/-- What stood in a granule of another device when a task started, where this device has stored there before it has read any of it (R95): by
device, granule and the cycle of the start. Log 53. -/
opaque farGranule : Nat → Nat → Nat → BitVec 256

/-- The fused module power limit in watts (R362, R396). -/
def powerLimit : Nat := 3600

end Sys2Proof.Config
end

