-- ==== Sys2Proof/Machine/State.lean ====
section
/-! DEFINITION. The state of the GL-460 as plain data (INVENTORY.md, State), the reasons a step can stop, and the machine at
cold reset. Maps are lists of pairs with rising keys; a key that is not listed holds the default named beside the type. -/

namespace Sys2Proof.Machine

/-- Privilege levels (R11, Table 4). -/
inductive Level where
  | task
  | supervisor
  | monitor
  deriving DecidableEq, Repr

/-- The engines of a token queue (R33, R254). -/
inductive Eng where
  | s
  | v
  | m
  | c
  deriving DecidableEq, Repr

/-- A byte store with seals and poison bits (R188, R189): bytes by address, seals and poison by granule (address / 32). An
unlisted byte reads 0, an unlisted granule carries the seal of 32 zero bytes and no poison (log 5). `inj` are the granules that an error
injector has made bad (R361, log 94). -/
structure Memory where
  bytes : List Host.Cell
  seals : List (Nat × BitVec 32)
  poison : List Nat
  inj : List Nat
  deriving DecidableEq, Repr

/-- Nothing written. -/
def Memory.empty : Memory := ⟨[], [], [], []⟩

/-- One bank of g1 to g31 and FLAGS (R5, R9, R324). -/
structure Bank where
  g : Vector Word 32
  flags : BitVec 12
  deriving DecidableEq, Repr

/-- A bank of zeros (R13). -/
def Bank.zero : Bank := ⟨Vector.replicate 32 0, 0⟩

/-- The trap frame and TVB of a slot (R324, R325). -/
structure Frame where
  tvb : Word
  tepc : Word
  tcause : BitVec 11
  tinfo0 : Word
  tinfo1 : Word
  tinfo2 : Word
  tinfo3 : Word
  plev : Level
  inTrap : Bool
  tx : Bool
  drop : Bool
  deriving DecidableEq, Repr

/-- All zero (R381). -/
def Frame.zero : Frame := ⟨0, 0, 0, 0, 0, 0, 0, .task, false, false, false⟩

/-- The memory context of a slot, from its environment (R102, R170, R339). `key` names the slot's segment name space. -/
structure Ctx where
  ctx : BitVec 8
  privBase : Nat
  privSize : Nat
  segHome : Nat
  root : Nat
  accBase : Nat
  csa : Nat
  l2lim : Nat
  env : Option Nat
  spilled : BitVec 48
  key : Nat
  deriving DecidableEq, Repr

/-- No environment. -/
def Ctx.none : Ctx := ⟨0, 0, 0, 0, 0, 0, 0, 0, Option.none, 0, 0⟩

/-- The caps of a kernel header (R103, R105). -/
structure Caps where
  vcmd : Nat
  mcmd : Nat
  ccmd : Nat
  data : Nat
  deque : Nat
  launch : Nat
  deriving DecidableEq, Repr

/-- A location as a transaction, a queued store or a wait names it: its granule in memory, in a segment, or in the memory of another
device (R389). -/
inductive Loc where
  | phys (granule : Nat)
  | seg (g : SegId) (granule : Nat)
  | far (dev granule : Nat)
  deriving DecidableEq, Repr

/-- What a granule has held since a cycle, as far as this device knows it (R95): the bytes that `mask` names. -/
structure Stored where
  cycle : Nat
  loc : Loc
  mask : BitVec 32
  data : BitVec 256
  deriving DecidableEq, Repr

/-- The task a slot holds (R99, R101, R398, R348); `start` is the cycle at which it started (R95), `quota` what it was admitted with. -/
structure TaskInfo where
  part : Fin 16
  serial : Nat
  scope : Nat
  record : List Word
  root : Nat
  caps : Caps
  quota : Nat
  prio : Nat
  idem : Bool
  rerun : Bool
  node : Option (Nat × Nat)
  start : Nat
  deriving DecidableEq, Repr

/-- Why a slot is Waiting (R97, Table 1). -/
inductive Wait where
  | await (dst : Fin 32) (va : Word) (goal : Word) (loc : Loc)
  | yield
  | barwait (dst : Fin 32) (level : Fin 8)
  | chwait (h : Fin 8) (id : Nat)
  | tkwait (e : Eng)
  deriving DecidableEq, Repr

/-- Slot states (R97, Table 1). -/
inductive Status where
  | free
  | preloaded
  | ready
  | waiting (w : Wait)
  deriving DecidableEq, Repr

/-- Why a Ready slot's instruction does not complete yet (R109, R173, R228, R236, R261, R352, R359, R389). -/
inductive Stall where
  | queueFull (e : Eng)
  | journalFull
  | qpop
  | qpush
  | fmtq
  | tkpost (e : Eng)
  | snapshot
  | srseed
  | segment
  | segmentPins (g : Option SegId)
  | block (line : Nat)
  | blkwait (h : Nat)
  | pool
  | cancel (x : Nat)
  | acc (bank : Nat)
  | remote (tag : Nat)
  | locked (l : Loc)
  | stores
  deriving DecidableEq, Repr

/-- Slot selection and the counters of R109, R332 and R338, kept as cycles of `State.cycle`. -/
structure Sched where
  readySince : Nat
  lastIssue : Nat
  stall : Option Stall
  since : Nat
  budgetUsed : Nat
  wdogSince : Nat
  awaitHit : Bool
  ended : Bool
  deriving DecidableEq, Repr

/-- A deferred store fault (R191) or an engine fault (R328) waiting for delivery, with its trap record. The error that it reports has been
logged (R361). -/
structure PendFault where
  cause : BitVec 8
  eng : Eng
  seq : Nat
  tinfo0 : Word
  tinfo1 : Word
  tinfo2 : Word
  tinfo3 : Word
  deriving DecidableEq, Repr

/-- Pending causes of a slot (R325, R326, R344). -/
structure Pend where
  kill : Option Nat
  killEntered : Bool
  stores : List PendFault
  engines : List PendFault
  wdog : Bool
  preempt : Bool
  deriving DecidableEq, Repr

/-- PREEMPT, WDOG and the loop drain (R332, R333, R338); `ready` tells that a request's stop point is reached, `spent` that the budget has
expired since it was written. -/
structure Loop where
  ld : Bool
  budget : BitVec 32
  wdog : BitVec 32
  inLoop : Bool
  drain : Bool
  dra : Word
  drs : Word
  reqCycle : Nat
  ready : Bool
  spent : Bool
  deriving DecidableEq, Repr

/-- A descriptor register image with the snapshot version in force since its write (R263). -/
structure Desc where
  img : List Word
  ver : Nat
  loaded : Bool
  deriving DecidableEq, Repr

/-- The descriptor registers: keys 0 to 15 td, 16 to 31 cd, 32 to 39 ag; default never loaded. `store` holds the images that
unfinished words still name (R263). -/
structure Descs where
  cur : List (Nat × Desc)
  ver : Nat
  store : List (Nat × Desc)
  deriving DecidableEq, Repr

/-- A journal entry (R262, Table 3; markers R266). -/
structure JEntry where
  word : BitVec 32
  seq : Nat
  done : Bool
  popped : Bool
  eng : Eng
  ver : Nat
  tid : Nat
  deriving DecidableEq, Repr

/-- A word or marker in a command queue: its journal number, the descriptor version, TOL and domain phases taken at forwarding
(R153, R213, R263, R274), whether its wait token has been popped (R262), and whether its engine holds it after a fault, where it
occupies no entry (R251). -/
structure QEntry where
  word : BitVec 32
  seq : Nat
  ver : Nat
  tid : Nat
  tol : BitVec 32
  phases : List (Nat × Nat)
  popped : Bool
  held : Bool
  deriving DecidableEq, Repr

/-- Command queues, the marks of engines stopped by a fault (R253), the journal and the format queue (R22, R251, R253,
R262, R284). -/
structure Queues where
  vq : List QEntry
  mq : List QEntry
  cq : List QEntry
  vStop : Bool
  mStop : Bool
  cStop : Bool
  journal : List JEntry
  nextSeq : Nat
  fq : List (BitVec 32)
  deriving DecidableEq, Repr

/-- A token counter and its reserved places (R255); keys of the table 4 x from + to. -/
structure TokenCtr where
  n : Nat
  resv : Nat
  deriving DecidableEq, Repr

/-- A checksum accumulator (R73): value in units of 2^-149. -/
structure Xa where
  value : Int
  poison : Bool
  deriving DecidableEq, Repr

/-- A register a pending vector write goes to, physical (R128), with the lanes it writes (R137). -/
inductive VDest where
  | v (n : Nat) (lanes : List Lane) (mask : BitVec 256)
  | k (n : Nat) (bits : BitVec 256) (mask : BitVec 256)
  | xa (n : Nat) (x : Xa)
  deriving DecidableEq, Repr

/-- A pending write and the step at which it becomes visible (R131). -/
structure PWrite where
  dest : VDest
  due : Nat
  deriving DecidableEq, Repr

/-- A V word in flight: what it does at its finish (R131, R138); `chk` is the verdict of a VCHK (R153), whose word stays at the head of
the queue until then. -/
structure VFlight where
  seq : Nat
  due : Nat
  post : Eng
  flags : BitVec 6
  v3 : Option (List Lane)
  vs : Option Word
  chk : Option Bool
  deriving DecidableEq, Repr

/-- Vector registers (default zero), pending writes, words in flight, engine-side VTYPE and RRB, generators as changed since
the last seeding (R64, R125 to R133). -/
structure VecState where
  v : List (Nat × List Lane)
  k : List (Nat × BitVec 256)
  xa : List (Nat × Xa)
  pending : List PWrite
  steps : Nat
  flight : List VFlight
  vtype : BitVec 10
  rrb : Nat
  seed : Word
  gens : List (Nat × BitVec 32)
  deriving DecidableEq, Repr

/-- What feeds or drains a port (R258). -/
inductive Binding where
  | none
  | gen (g : Fin 8)
  | chan (h : Fin 8)
  deriving DecidableEq, Repr

/-- The fault that has stopped a port address generator (R259): cause, TINFO0, TINFO1, and whether an injector has caused it (R361). -/
structure AgFault where
  cause : BitVec 8
  t0 : Word
  t1 : Word
  inj : Bool
  deriving DecidableEq, Repr

/-- A walk of a port address generator: image, next entry and the fault that stopped it (R258, R259). -/
structure Walk where
  img : List Word
  next : Nat
  fault : Option AgFault
  deriving DecidableEq, Repr

/-- An entry of a read port: where its first byte came from, if a generator brought it, and its 32 granules (R258, R195). -/
structure PortEntry where
  ptr : Option Word
  grans : List Granule
  deriving DecidableEq, Repr

/-- The data ports, V to S queue and bindings (R126, R138, R258). An entry is 32 granules; an entry of v3 or of the V to S
queue is a reserved place until it is filled. A port that has been bound anew may still take the entry that a channel is moving (R258). -/
structure Ports where
  v0 : List PortEntry
  v1 : List PortEntry
  v2 : List Word
  v3 : List (Nat × Option (List Granule))
  vs : List (Nat × Option Word)
  bind0 : Binding
  bind1 : Binding
  bind3 : Binding
  walks : List (Nat × Walk)
  late : List (Nat × Nat)
  deriving DecidableEq, Repr

/-- A copy command in progress: next element, finished units, the granules of a port's entry that it holds, those of remote pages that
have arrived for its next unit, flags gathered, pinned segments, whether a fault has stopped it, the lines it has written, and the
requests a save left unanswered (R272, R260, R253, R214). -/
structure CRun where
  q : QEntry
  img : List Word
  elem : Nat
  units : Nat
  buf : List Granule
  got : List (Nat × Granule)
  flags : BitVec 6
  pins : List SegId
  admitted : Bool
  stopped : Bool
  lines : List Nat
  unacked : List Nat
  deriving DecidableEq, Repr

/-- A copy channel: last id given, done value, command in progress (R267, R268). -/
structure Chan where
  given : Nat
  doneId : Nat
  run : Option CRun
  deriving DecidableEq, Repr

/-- An M command in progress: first unfinished step, flags, pinned segments, the slots its bands go to with the serials of their tasks, the
banks that each band writes, whether it is admitted and has finished its last step (R286, R287, R303, R279, R343), and the scale granules that
it has fetched and checked, by pointer and number in the segment (R196). -/
structure MRun where
  q : QEntry
  mb : Nat
  nb : Nat
  ks : Nat
  flags : BitVec 6
  pins : List SegId
  bands : List (SlotId × Nat)
  banks : List Nat
  admitted : Bool
  finished : Bool
  scales : List ((Word × Nat) × Granule)
  deriving DecidableEq, Repr

/-- A granule of a write set with the check code of the bytes it holds (R232, R191), and which of them came through a global uncached pointer
(R107). -/
structure TxWrite where
  loc : Loc
  ptr : Word
  key : Fin 16
  dlog : Bool
  mask : BitVec 32
  data : BitVec 256
  crc : BitVec 32
  wake : BitVec 32
  deriving DecidableEq, Repr

/-- Where the commit of a transaction with granules of other devices stands (R218): it locks their homes in order, then waits for the
acknowledgements of its writes. -/
inductive Commit where
  | idle
  | locking
  | writing
  deriving DecidableEq, Repr

/-- An open transaction (R232). -/
structure Tx where
  resume : Word
  dst : Fin 32
  bank : Bank
  reads : List Loc
  writes : List TxWrite
  conflict : Bool
  commit : Commit
  deriving DecidableEq, Repr

/-- A load block (R184): first pointer, physical lines with the mark of those filled, the key slots of
their pages, and its flag. -/
structure Block where
  ptr : Word
  lines : List (Nat × Bool)
  keys : List (Fin 16)
  flag : Bool
  deriving DecidableEq, Repr

/-- A queued store (R206, R207): where, what, the check code that the bytes of a strong one travel under, the class of its access, whether
a later instruction has completed (R191), and the tag under which it has been sent to another device, whose answer it waits for (R389). -/
structure StoreReq where
  loc : Loc
  off : Nat
  size : Nat
  data : Word
  crc : Option (BitVec 32)
  ptr : Word
  pc : Word
  cached : Bool
  uncached : Bool
  key : Fin 16
  dlog : Bool
  later : Bool
  sent : Option Nat
  deriving DecidableEq, Repr

/-- Everything a slot holds for its engines. -/
structure Engines where
  qs : Queues
  tokens : List (Nat × TokenCtr)
  descs : Descs
  vec : VecState
  ports : Ports
  chans : List (Nat × Chan)
  mrun : Option MRun
  mupc : Word
  grant : Option SlotId
  deriving DecidableEq, Repr

/-- What a saved task has that R335 gives no place in the save area (log 14): tags of descriptor images and of forwarded words, walks,
progress within a unit or a command, a lease request, and the words that MRELEASE has left to a lease (R296); deferred store faults not yet
delivered; whether it was in a loop; the M to S tokens that splits have pushed since (R279). -/
structure Extra where
  eng : Engines
  faults : List PendFault
  leased : Bool
  ending : Option Nat
  inLoop : Bool
  owed : Nat
  deriving DecidableEq, Repr

/-- A record in a deque: how it starts (R111, R336, R348). -/
inductive RecKind where
  | fresh
  | resume (csa : Nat) (env : Option Nat) (x : Extra)
  | rerun
  deriving DecidableEq, Repr

/-- An admitted record (R99, R101, R104, R398) with its header's caps, serial and scope; `owner` is the serial of the task that
spawned it, `spilled` whether it lies in spill memory (R111). -/
structure Rec where
  kind : RecKind
  info : TaskInfo
  quota : Nat
  owner : Option Nat
  spilled : Bool
  deriving DecidableEq, Repr

/-- When a slot's loads may bind (R207, R212): not before `acquired`, nor before its last load at the same home, homes being numbered by
`homeOf`; `last` is when its last load bound. -/
structure Binds where
  acquired : Nat
  homes : List (Nat × Nat)
  last : Nat
  deriving DecidableEq, Repr

/-- A hardware task slot. `replies` are the answers to its instruction's remote accesses (R389), `code` the granule of a remote page it
last fetched from, `refused` that its SGPIN cannot be served (R240), `next` the record it preloads (R340), `bare` that its PC is still a
physical address (R379). -/
structure Slot where
  status : Status
  level : Level
  pc : Word
  bank : Bank
  sup : Bank
  frame : Frame
  ctx : Ctx
  task : Option TaskInfo
  quota : Nat
  doms : List (Nat × Nat)
  vtype : BitVec 10
  rrb : Nat
  ec : Word
  srseed : Word
  tol : BitVec 32
  vlw : Bool
  sched : Sched
  pend : Pend
  loop : Loop
  eng : Engines
  tx : Option Tx
  blocks : List (Nat × Block)
  sq : List StoreReq
  replies : List (Nat × Reply)
  code : Option (Nat × Granule)
  refused : Bool
  next : Option Rec
  binds : Binds
  bare : Bool
  deriving DecidableEq, Repr

/-- A granule held by the L1 (R182); `bad` that its array has lost it, which is found when it is read or written back (R188, R197). -/
structure L1Gran where
  g : Granule
  dirty : Bool
  bad : Bool
  deriving DecidableEq, Repr

/-- A line of the L1: PA[51:7], the context that last wrote it, key slot, dirty-log bit, block owner, and the point that its granules were
filled from (R182, R184, R385; log 96). -/
structure L1Line where
  line : Nat
  ctx : BitVec 8
  key : Fin 16
  dlog : Bool
  part : Fin 16
  block : Option (Nat × Nat)
  filled : Nat
  grans : List L1Gran
  deriving DecidableEq, Repr

/-- A TLB entry: partition, root, the page and what its walk found (R201). -/
structure TlbEntry where
  part : Fin 16
  root : Nat
  vpn : Nat
  big : Bool
  pte : Word
  deriving DecidableEq, Repr

/-- The owner of an accumulator bank (R285, R339). -/
structure BankTag where
  ctx : BitVec 8
  slot : Fin 4
  part : Fin 16
  key : Nat
  deriving DecidableEq, Repr

/-- A core: its records newest first, in deque or spilled (R111), LFSR and steal state, L1, dirty FIFO, TLB, accumulators (default 0) and
tags (default free), the slots that its vector and copy engines served last (R127, R251), and the points before which a line is not filled,
since a command of the core that wrote it has completed (R214). -/
structure Core where
  deque : List Rec
  lfsr : BitVec 16
  tries : Nat
  backoff : Nat
  l1 : List L1Line
  fifo : List Nat
  tlb : List TlbEntry
  acc : List (Nat × BitVec 32)
  banks : List (Nat × BankTag)
  halted : Bool
  curSlot : Fin 4
  vecSlot : Fin 4
  copySlot : Fin 4
  floors : List (Nat × Nat)
  deriving DecidableEq, Repr

/-- Campion's lease (R278): `idleSince` is when its last command ended, `ending` the journal number before which MRELEASE lets words
start (R296); `owed` are slots whose lease has ended before those words were done (R288), each with the time since when it waits for another, and
that number. -/
structure Cluster where
  holder : Option SlotId
  cmds : Nat
  steps : Nat
  idleSince : Option Nat
  ending : Option Nat
  reqs : List (SlotId × Nat)
  owed : List (SlotId × Nat × Nat)
  deriving DecidableEq, Repr

/-- An error log entry (R361, Table 6). -/
structure LogEntry where
  w0 : Word
  w1 : Word
  w2 : Word
  w3 : Word
  deriving DecidableEq, Repr

/-- A die: error logs by partition (next number, entries newest first), last-level TLB, monitor registers, the soft L2 limits
by context. -/
structure Die where
  elog : List (Nat × (Nat × List LogEntry))
  tlb : List TlbEntry
  mframe : Word
  injcfg : Word
  injrate : Word
  injseed : Word
  l2lim : List (Nat × Nat)
  deriving DecidableEq, Repr

/-- A live cancel scope (R121, R346, R352): `markedAt` is when it was marked, `seen` the cores that have seen the mark (R342). -/
structure Scope where
  id : Nat
  parent : Nat
  creator : Option Nat
  own : Nat
  mark : Bool
  cword : Option (Nat × Nat)
  acked : Bool
  killed : Nat
  markedAt : Nat
  seen : List Nat
  deriving DecidableEq, Repr

/-- The result of a phase a member has not reported (R120). -/
inductive PhaseEnd where
  | ok (phase : Nat)
  | broken
  deriving DecidableEq, Repr

/-- A member of a domain (R119, Table 8; R120). -/
structure Member where
  task : Nat
  arr : Bool
  decl : Bool
  count : Nat
  early : Nat
  excess : Nat
  broken : Bool
  result : Option PhaseEnd
  overrun : Option (Nat × Nat)
  deriving DecidableEq, Repr

/-- A live domain (R116, R117). -/
structure Dom where
  level : Nat
  id : Nat
  core : Fin 256
  phase : Nat
  members : List Member
  deriving DecidableEq, Repr

/-- A landing on its way to a domain's home (R119, R274). -/
structure Landing where
  level : Nat
  id : Nat
  task : Nat
  bytes : Nat
  phase : Nat
  deriving DecidableEq, Repr

/-- A graph instance (R113, R114): its admitted nodes, their counters and the VA of the counters in its area, the nodes left and those
to be placed. -/
structure GInst where
  graph : Nat
  index : Nat
  root : Nat
  n : Nat
  recs : List Rec
  ctrs : List Nat
  area : Nat
  left : Nat
  unplaced : List Nat
  broken : Bool
  gword : Nat
  deriving DecidableEq, Repr

/-- A request for a page that waits at the pool: the slot, its task, and where it executes (R236). -/
structure PoolWait where
  slot : SlotId
  task : Option Nat
  pc : Word
  deriving DecidableEq, Repr

/-- The key-value page pool (R203, R204); `waits` are the requests that have reached it and have no page yet (R236). -/
structure Pool where
  base : Nat
  lg : Nat
  count : Nat
  map : Nat
  scrubQ : List Nat
  scrubbed : List Nat
  allocated : List Nat
  waits : List PoolWait
  deriving DecidableEq, Repr

/-- An allowance bucket (R277). -/
structure Bucket where
  fill : Nat
  debt : Nat
  deriving DecidableEq, Repr

/-- A partition. `desc` is the descriptor in force, 32 words, empty when not valid (R379); `resetting` that PART_RESET has killed its tasks and
their acknowledgements are still to come (R384). -/
structure Part where
  desc : List Word
  spool : Nat
  lpool : Nat
  serial : Nat
  live : List (Nat × Nat)
  scopes : List Scope
  doms : List Dom
  landings : List Landing
  insts : List GInst
  pool : Option Pool
  envcb : Word
  envBase : Nat
  envCount : Nat
  wakeAgain : BitVec 4
  lastWake : Option Nat
  scanMask : BitVec 4
  lastScan : Nat
  doorbell : Word
  devPend : Bool
  errPend : Bool
  frozen : Bool
  stopped : Bool
  resetting : Bool
  keys : List (Nat × BitVec 512)
  logMode : Nat
  logActive : Bool
  falBucket : Bucket
  hostBucket : Bucket
  deriving DecidableEq, Repr

/-- Segment states (R168, Table 2). -/
inductive SegState where
  | fresh
  | resident
  | absent
  | moving
  deriving DecidableEq, Repr

/-- An allocated segment (R168 to R179): `pool` is where its frames lie, from frame `base`; `creator` the context key charged; `home`
and `root` its home and the root that translates it (R170); `preload` and `prePin` mark frames preloaded for a task (R340), `atSave` a
segment that was Resident at its task's save; `dying` when its creator is gone while a copy into it is in flight (R343); `dirty` its
dirty frames, `bad` the granules that its store has lost (R188, R197) and `everBacked` whether it has been written back since it was Fresh
(R171). The wanted mark of R175 is that of the
tickets that name it. -/
structure Seg where
  id : SegId
  k : Nat
  creator : Nat
  part : Fin 16
  root : Nat
  home : Nat
  pool : PoolId
  state : SegState
  base : Nat
  sgpin : Bool
  pins : Nat
  copyPins : Nat
  claimed : Bool
  preload : Bool
  prePin : Bool
  atSave : Bool
  dying : Bool
  dirty : List Nat
  bad : List Nat
  everBacked : Bool
  data : Memory
  deriving DecidableEq, Repr

/-- The command that holds a ticket (R175). -/
inductive TicketUser where
  | control (s : SlotId)
  | ag (s : SlotId) (g : Fin 8)
  | m (s : SlotId)
  | c (s : SlotId) (h : Fin 8)
  deriving DecidableEq, Repr

/-- A ticket (R175): its number orders all of the package's tickets. `ptrs` are the pointers that name the members and `info2` the
TINFO2 of a control-core access, for R173; `clusters` those whose managers hold it; `quiet` for SGPIN, which is refused instead
(R240). -/
structure Ticket where
  num : Nat
  user : TicketUser
  members : List SegId
  ptrs : List Word
  info2 : Word
  clusters : List (Fin 64)
  quiet : Bool
  deriving DecidableEq, Repr

/-- A loaded eviction schedule (R244, R245): phases of (cluster-shared, name) in rank order. -/
structure SegSched where
  key : Nat
  phases : List (List (Bool × Nat))
  active : Nat
  deriving DecidableEq, Repr

/-- A die-to-die link (R375). -/
structure Link where
  fails : Nat
  down : Bool
  deriving DecidableEq, Repr

/-- A flit kept for replay until it is acknowledged, with the device it goes to (R388). -/
structure Sent where
  seq : Nat
  dev : Nat
  flit : Flit
  deriving DecidableEq, Repr

/-- A Falran port (R387, R388): the next numbers to send and to receive, the flits not acknowledged (those past the 2,048th still wait
to be sent), failed replays of the oldest of them, whether the port is down, whether it drops flits until a replay, and the retry request
it has then sent. -/
structure FPort where
  txSeq : Nat
  rxSeq : Nat
  replay : List Sent
  fails : Nat
  down : Bool
  rxDrop : Bool
  retry : Option Flit
  deriving DecidableEq, Repr

/-- A remote access on its way to a device through a port (R389); for a copy its channel and journal number, and the landing its
acknowledgement reports (R274); `part` for an access that the device makes on its own (R398), `killed` the scope of the task whose run has ended
at the kill points since (R219, R348), and `wake` the bytes that a store through a global uncached pointer writes there (R107). -/
structure Remote where
  tag : Nat
  slot : SlotId
  dev : Nat
  port : Nat
  req : FalranReq
  chan : Option (Fin 8 × Nat)
  land : Option Landing
  part : Option (Fin 16)
  killed : Option (Fin 16 × Nat)
  wake : Option (BitVec 32 × BitVec 256)
  deriving DecidableEq, Repr

/-- A configuration transaction (R381, Table 3): when its third step began, and the partitions it affects. -/
structure CfgState where
  status : Nat
  start : Option Nat
  affected : List Nat
  deriving DecidableEq, Repr

/-- SPDM identity and sessions, by VF, 16 for the PF (R393). -/
structure Spdm where
  top : Nat
  leaf : Nat
  exchanges : Nat
  sessions : List (Nat × BitVec 384)
  answers : List (BitVec 256)
  deriving DecidableEq, Repr

/-- A granule locked for the commit of a transaction (R218): who locked it, and for one of another device the bytes that it will write with the
granule that they make, which the home has checked (R191, R235). -/
structure Lock where
  loc : Loc
  dev : BitVec 12
  endpoint : BitVec 16
  owner : Nat
  write : Option (BitVec 32 × Granule)
  deriving DecidableEq, Repr

/-- A granule that a transaction of another device has read, and whether it has been written since (R218). -/
structure Watch where
  granule : Nat
  dev : BitVec 12
  endpoint : BitVec 16
  owner : Nat
  hit : Bool
  deriving DecidableEq, Repr

/-- A write of this device that has reached a locked home and waits for the unlock (R218): what it asks of the home, how it reaches the page,
the core whose L1 it leaves, and whether the device reports it (R391). -/
structure Held where
  granule : Nat
  op : RemoteOp
  part : Fin 16
  key : Option (Fin 16)
  dlog : Bool
  core : Option (Fin 256)
  report : Bool
  deriving DecidableEq, Repr

/-- The package: PF registers as written (R391), interleave entries in force (R377) and, for regions that have none, the last that was
(R381), configuration, mailbox, links and their keys (R374),
Falran, the granules that answered the device's own remote reads (R398), the locks of commits, the watches of other devices' transactions, and
the requests that wait at locked granules, with their ports, and this device's writes that do (R218), the
devices that keep level-5 domains, by fabric group and id (R390), identity, clock and firmware, and the shared pools of allowance for Falran
egress and host DMA (R277). -/
structure Package where
  pf : List (Nat × Word)
  inter : List (Nat × Word)
  lastInter : List (Nat × Word)
  cfg : CfgState
  mbox : List (List Nat)
  links : List (Nat × Link)
  linkKeys : List (Nat × BitVec 256)
  ports : List (Nat × FPort)
  remotes : List Remote
  nextTag : Nat
  fetched : List (Nat × Granule)
  locks : List Lock
  watches : List Watch
  waiting : List (Nat × FalranReq)
  held : List Held
  domHomes : List (Nat × Nat)
  spdm : Spdm
  clockMHz : Nat
  firmware : Option FirmwareImage
  msix : List Nat
  falPool : Nat
  hostPool : Nat
  deriving DecidableEq, Repr

/-- A natural error (R188, R191, R197): in a granule of HBM, in its copy in an L2 slice, in a granule that an L1 or a segment's store holds,
corrected or not; in bits of a queued store, or of the next operand on its way to a home. -/
inductive Upset where
  | hbm (p : Fin 16) (granule : Nat) (corrected : Bool)
  | l2 (p : Fin 16) (granule : Nat) (corrected : Bool)
  | l1 (c : Fin 256) (granule : Nat) (corrected : Bool)
  | store (g : SegId) (granule : Nat) (corrected : Bool)
  | queued (s : SlotId) (n : Nat) (bits : Word)
  | operand (bits : Word)
  deriving DecidableEq, Repr

/-- Who moves next: the slot a core chooses (R109), the vector engine for a slot (R127), an event, a natural error, or time alone. -/
inductive Choice where
  | core (c : Fin 256)
  | vector (s : SlotId)
  | event (i : Instr)
  | upset (u : Upset)
  | tick (n : Nat)
  deriving DecidableEq, Repr

/-- Which unit runs the word that `exec` is given. -/
inductive Actor where
  | control
  | vector
  deriving DecidableEq, Repr

/-- A granule as it was before a write at its home: the write's cycle, and who made it: a slot, or a core's L1 (R207, R212, R95; log 96). -/
structure Past where
  cycle : Nat
  loc : Loc
  gran : Granule
  slot : Option SlotId
  core : Option (Fin 256)
  deriving DecidableEq, Repr

/-- The machine. `keyed` are the 64 KiB pages of HBM that a translated write stored under a key slot (R194, R389), `under` the keys that
granules are stored under (R394), `past` what writes have replaced, newest first (log 96), `stored` what granules have held since stores to an L1
or to other devices, newest first (R95), `strike` the bits that the next operand on its way to a home loses (R191, log 94). -/
structure State where
  agenda : List Choice
  free : Nat
  cycle : Nat
  cur : SlotId
  actor : Actor
  slots : List (Nat × Slot)
  cores : List (Nat × Core)
  clusters : List (Nat × Cluster)
  dies : List (Nat × Die)
  parts : List (Nat × Part)
  segs : List Seg
  scheds : List SegSched
  tickets : List Ticket
  nextTicket : Nat
  mem : Memory
  keyed : List Nat
  under : List (Nat × BitVec 512)
  past : List Past
  stored : List Stored
  strike : Word
  pkg : Package
  deriving DecidableEq, Repr

/-- Why the machine stops. -/
inductive Fault where
  /-- Raised by CTXSAVE, CTXLOAD, ACCSPILL and ACCFILL when their untranslated physical operand names neither HBM nor host memory (R350,
  R376): the spec gives no effect. Safe. -/
  | physicalHole
  deriving DecidableEq, Repr

/-- Why a step has no meaning. -/
inductive Refusal where
  /-- Raised by an arm of `exec` that has no meaning yet. Safe. -/
  | notModelled (mnemonic : String)
  deriving DecidableEq, Repr

/-- A slot that has never held a task (log 4). -/
def Slot.initial : Slot where
  status := .free
  level := .task
  pc := 0
  bank := .zero
  sup := .zero
  frame := .zero
  ctx := .none
  task := none
  quota := 0
  doms := []
  vtype := 0x088
  rrb := 0
  ec := 0
  srseed := 0
  tol := 0
  vlw := false
  sched := ⟨0, 0, none, 0, 0, 0, false, false⟩
  pend := ⟨none, false, [], [], false, false⟩
  loop := ⟨false, 0, 0, false, false, 0, 0, 0, false, false⟩
  eng :=
    { qs := ⟨[], [], [], false, false, false, [], 0, []⟩
      tokens := []
      descs := ⟨[], 0, []⟩
      vec := ⟨[], [], [], [], 0, [], 0x088, 0, 0, []⟩
      ports := ⟨[], [], [], [], [], .none, .none, .none, [], []⟩
      chans := []
      mrun := none
      mupc := 0
      grant := none }
  tx := none
  blocks := []
  sq := []
  replies := []
  code := none
  refused := false
  next := none
  binds := ⟨0, [], 0⟩
  bare := false

/-- A core with nothing in it; the LFSR's seed is R112's, set when a partition is configured, and 0xACE1 before (log 4). -/
def Core.initial : Core := ⟨[], 0xACE1, 0, 0, [], [], [], [], [], false, 0, 0, 0, []⟩

/-- A cluster without a lease. -/
def Cluster.initial : Cluster := ⟨none, 0, 0, none, none, [], []⟩

/-- A die with empty logs and TLB; the monitor's registers read zero (log 4). -/
def Die.initial : Die := ⟨[], [], 0, 0, 0, 0, []⟩

/-- A partition that does not exist (R381). -/
def Part.initial : Part where
  desc := []
  spool := 0
  lpool := 0
  serial := 0
  live := []
  scopes := []
  doms := []
  landings := []
  insts := []
  pool := none
  envcb := 0
  envBase := 0
  envCount := 0
  wakeAgain := 0
  lastWake := none
  scanMask := 0
  lastScan := 0
  doorbell := 0
  devPend := false
  errPend := false
  frozen := false
  stopped := false
  resetting := false
  keys := []
  logMode := 0
  logActive := false
  falBucket := ⟨0, 0⟩
  hostBucket := ⟨0, 0⟩

/-- A Falran port after cold reset (log 4). -/
def FPort.initial : FPort := ⟨0, 0, [], 0, false, false, none⟩

/-- Cold reset (20_package_fabric_host.md, Bring-up; R381): no partition is valid, every slot is Free, nothing is written. -/
def State.reset : State where
  agenda := []
  free := 0
  cycle := 0
  cur := ⟨0, 0⟩
  actor := .control
  slots := []
  cores := []
  clusters := []
  dies := []
  parts := []
  segs := []
  scheds := []
  tickets := []
  nextTicket := 0
  mem := .empty
  keyed := []
  under := []
  past := []
  stored := []
  strike := 0
  pkg :=
    { pf := []
      inter := []
      lastInter := []
      cfg := ⟨0, none, []⟩
      mbox := []
      links := []
      linkKeys := []
      ports := []
      remotes := []
      nextTag := 0
      fetched := []
      locks := []
      watches := []
      waiting := []
      held := []
      domHomes := []
      spdm := ⟨0, 0, 0, [], []⟩
      clockMHz := 1600
      firmware := none
      msix := []
      falPool := 0
      hostPool := 0 }

end Sys2Proof.Machine
end

