-- ==== Sys2Proof/Machine/Base.lean ====
section
/-! DEFINITION. Tables, bit fields, granules, seals, and the accessors of the state through which every meaning reads and
writes it. -/

namespace Sys2Proof.Machine

/-! ### Tables: lists of pairs with rising keys -/

/-- The value at a key, or the default. -/
def tget {α : Type} (d : α) : List (Nat × α) → Nat → α
  | [], _ => d
  | (k, v) :: r, i => if k = i then v else tget d r i

/-- Sets the value at a key. -/
def tput {α : Type} (l : List (Nat × α)) (i : Nat) (v : α) : List (Nat × α) :=
  match l with
  | [] => [(i, v)]
  | (k, w) :: r => if k = i then (i, v) :: r else if i < k then (i, v) :: (k, w) :: r else (k, w) :: tput r i v

/-- Removes a key. -/
def tdrop {α : Type} (l : List (Nat × α)) (i : Nat) : List (Nat × α) :=
  l.filter fun e => e.1 != i

/-- Whether a key is listed. -/
def thas {α : Type} (l : List (Nat × α)) (i : Nat) : Bool :=
  l.any fun e => e.1 == i

/-- Puts a number into a rising list without repeats. -/
def nput (l : List Nat) (i : Nat) : List Nat :=
  match l with
  | [] => [i]
  | k :: r => if k = i then k :: r else if i < k then i :: k :: r else k :: nput r i

/-- Replaces the n-th element of a list. -/
def setAt {α : Type} (l : List α) (n : Nat) (v : α) : List α :=
  match l, n with
  | [], _ => []
  | _ :: r, 0 => v :: r
  | x :: r, n + 1 => x :: setAt r n v

/-- The first element that satisfies a test, changed; later ones stay. -/
def updFirst {α : Type} (p : α → Bool) (f : α → α) : List α → List α
  | [] => []
  | x :: r => if p x then f x :: r else x :: updFirst p f r

/-! ### Bit fields and byte order -/

/-- Bits lo + len - 1 down to lo as a number. -/
def bitsOf {n : Nat} (w : BitVec n) (lo len : Nat) : Nat :=
  (w.extractLsb' lo len).toNat

/-- A 64-bit word from a number. -/
def word (n : Nat) : Word :=
  BitVec.ofNat 64 n

/-- One bit as a word. -/
def wbit (b : Bool) : Word :=
  if b then 1 else 0

/-- A number's k low bytes, lowest first (R8: little-endian). -/
def natBytes : Nat → Nat → List Byte
  | 0, _ => []
  | k + 1, n => BitVec.ofNat 8 n :: natBytes k (n / 256)

/-- The number whose bytes, lowest first, are given. -/
def bytesNat : List Byte → Nat
  | [] => 0
  | b :: r => b.toNat + 256 * bytesNat r

/-- Sign extension of the low len bits of a word. -/
def sextLow (w : Word) (len : Nat) : Word :=
  (w <<< (64 - len)).sshiftRight (64 - len)

/-- PC + 4 with bits 63:48 held at zero (R8; log 22). -/
def nextPc (pc : Word) : Word :=
  ((pc.setWidth 48) + 4).setWidth 64

/-! ### Seals (R189) -/

/-- One bit of the reflected CRC-32C. -/
def crcBit (c : Nat) : Nat :=
  if c % 2 = 1 then (c / 2) ^^^ 0x82F63B78 else c / 2

/-- One byte of the reflected CRC-32C. -/
def crcByte (c : Nat) (b : Byte) : Nat :=
  crcBit (crcBit (crcBit (crcBit (crcBit (crcBit (crcBit (crcBit (c ^^^ b.toNat))))))))

/-- CRC-32C of bytes in ascending order (R189). -/
def crc32c (bs : List Byte) : BitVec 32 :=
  BitVec.ofNat 32 (bs.foldl crcByte 0xFFFFFFFF ^^^ 0xFFFFFFFF)

/-- The seal of 32 bytes of data (R189). -/
def sealOf (d : BitVec 256) : BitVec 32 :=
  crc32c (natBytes 32 d.toNat)

/-- The seal of 32 zero bytes (R189). -/
def zeroSeal : BitVec 32 := 0x8A9136AA

/-- A granule as a producer makes it. -/
def mkGran (d : BitVec 256) : Granule :=
  ⟨d, sealOf d, false, false⟩

/-- Zeros with a fresh seal. -/
def zeroGran : Granule := ⟨0, zeroSeal, false, false⟩

/-- What a consumer finds wrong with a granule (R195): its cause and TINFO1. -/
def checkGran (g : Granule) : Option (BitVec 8 × Word) :=
  if g.poison then some (0x0D, 0)
  else if g.code = sealOf g.data then none
  else some (0x0C, ((sealOf g.data).setWidth 64 <<< 32) ||| g.code.setWidth 64)

/-- The bytes of a granule that a mask names are replaced. -/
def mergeBytes (old new : BitVec 256) (mask : BitVec 32) : BitVec 256 :=
  BitVec.ofNat 256 (bytesNat ((List.range 32).map fun i =>
    if mask.getLsbD i then new.extractLsb' (8 * i) 8 else old.extractLsb' (8 * i) 8))

/-- The mask of size bytes at an offset. -/
def byteMask (off size : Nat) : BitVec 32 :=
  BitVec.ofNat 32 ((2 ^ size - 1) * 2 ^ off)

/-- Data placed at a byte offset of a granule. -/
def placeAt (data : Word) (off : Nat) : BitVec 256 :=
  data.setWidth 256 <<< (8 * off)

/-- size bytes at an offset of a granule, zero-extended. -/
def takeAt (d : BitVec 256) (off size : Nat) : Word :=
  word (bitsOf d (8 * off) (8 * size))

/-! ### Byte stores -/

/-- What an address that is not listed reads as (log 5). -/
def unlisted : Byte := 0

/-- A byte of a store. -/
def Memory.byte (m : Memory) (a : Nat) : Byte :=
  tget unlisted m.bytes a

/-- Writes one byte in canonical form: an entry equal to the unlisted value is removed. -/
def Memory.putByte (m : Memory) (a : Nat) (b : Byte) : Memory :=
  { m with bytes := if b = unlisted then tdrop m.bytes a else tput m.bytes a b }

/-- k bytes from an address. -/
def Memory.take (m : Memory) : Nat → Nat → List Byte
  | _, 0 => []
  | a, k + 1 => m.byte a :: m.take (a + 1) k

/-- Writes bytes at rising addresses. -/
def Memory.putBytes (m : Memory) : Nat → List Byte → Memory
  | _, [] => m
  | a, b :: r => (m.putByte a b).putBytes (a + 1) r

/-- The seal a granule carries. -/
def Memory.sealAt (m : Memory) (g : Nat) : BitVec 32 :=
  tget zeroSeal m.seals g

/-- The poison bit of a granule. -/
def Memory.poisonAt (m : Memory) (g : Nat) : Bool :=
  m.poison.contains g

/-- Whether an error injector has made a granule bad (R361). -/
def Memory.injAt (m : Memory) (g : Nat) : Bool :=
  m.inj.contains g

/-- A granule with seal and poison bit. -/
def Memory.gran (m : Memory) (g : Nat) : Granule :=
  ⟨BitVec.ofNat 256 (bytesNat (m.take (32 * g) 32)), m.sealAt g, m.poisonAt g, m.injAt g⟩

/-- Puts a number into a rising list, or takes it out. -/
def nmark (l : List Nat) (g : Nat) (b : Bool) : List Nat := if b then nput l g else l.filter (· != g)

/-- Writes seal, poison bit and injector mark of a granule. -/
def Memory.putMeta (m : Memory) (g : Nat) (c : BitVec 32) (p i : Bool) : Memory :=
  { m with
    seals := if c = zeroSeal then tdrop m.seals g else tput m.seals g c
    poison := nmark m.poison g p
    inj := nmark m.inj g i }

/-- Writes a granule with seal and poison bit. -/
def Memory.putGran (m : Memory) (g : Nat) (x : Granule) : Memory :=
  (m.putBytes (32 * g) (natBytes 32 x.data.toNat)).putMeta g x.code x.poison x.inj

/-- Keys strictly rising. -/
def rising : List Nat → Bool
  | [] => true
  | [_] => true
  | a :: b :: r => a < b && rising (b :: r)

/-- The canonical form of a store: strictly rising keys, no entry equal to what an unlisted one reads as. -/
def Memory.wf (m : Memory) : Bool :=
  rising (m.bytes.map (·.1)) && m.bytes.all (fun c => c.2 != unlisted) &&
    rising (m.seals.map (·.1)) && m.seals.all (fun c => c.2 != zeroSeal) && rising m.poison && rising m.inj

/-! ### Parts of the state -/

/-- The key of a slot in `State.slots`. -/
def slotKey (i : SlotId) : Nat := 4 * i.core.val + i.slot.val

/-- A slot. -/
def State.slotOf (s : State) (i : SlotId) : Slot :=
  tget Slot.initial s.slots (slotKey i)

/-- Replaces a slot. -/
def State.setSlot (s : State) (i : SlotId) (x : Slot) : State :=
  { s with slots := tput s.slots (slotKey i) x }

/-- Changes a slot. -/
def State.mapSlot (s : State) (i : SlotId) (f : Slot → Slot) : State :=
  s.setSlot i (f (s.slotOf i))

/-- The slot whose unit moves. -/
def State.me (s : State) : Slot := s.slotOf s.cur

/-- Replaces it. -/
def State.setMe (s : State) (x : Slot) : State := s.setSlot s.cur x

/-- A core. -/
def State.coreOf (s : State) (c : Fin 256) : Core :=
  tget Core.initial s.cores c.val

/-- Changes a core. -/
def State.mapCore (s : State) (c : Fin 256) (f : Core → Core) : State :=
  { s with cores := tput s.cores c.val (f (s.coreOf c)) }

/-- A cluster (R15: core id bits 7:2). -/
def State.clusterOf (s : State) (c : Fin 64) : Cluster :=
  tget Cluster.initial s.clusters c.val

/-- Changes a cluster. -/
def State.mapCluster (s : State) (c : Fin 64) (f : Cluster → Cluster) : State :=
  { s with clusters := tput s.clusters c.val (f (s.clusterOf c)) }

/-- A die. -/
def State.dieOf (s : State) (d : Nat) : Die :=
  tget Die.initial s.dies d

/-- Changes a die. -/
def State.mapDie (s : State) (d : Nat) (f : Die → Die) : State :=
  { s with dies := tput s.dies d (f (s.dieOf d)) }

/-- A partition. -/
def State.partOf (s : State) (p : Fin 16) : Part :=
  tget Part.initial s.parts p.val

/-- Changes a partition. -/
def State.mapPart (s : State) (p : Fin 16) (f : Part → Part) : State :=
  { s with parts := tput s.parts p.val (f (s.partOf p)) }

/-- Changes the package. -/
def State.mapPkg (s : State) (f : Package → Package) : State :=
  { s with pkg := f s.pkg }

/-- The cluster of a core. -/
def clusterOfCore (c : Fin 256) : Fin 64 := ⟨c.val / 4, by omega⟩

/-- The die of a core. -/
def dieOfCore (c : Fin 256) : Nat := c.val / 64

/-- A core id from a number. -/
def coreNo (n : Nat) : Fin 256 := Fin.ofNat 256 n

/-- A slot number from a number. -/
def slotNo (n : Nat) : Fin 4 := Fin.ofNat 4 n

/-- The four slots of a core. -/
def slotsOf (c : Fin 256) : List SlotId :=
  [⟨c, 0⟩, ⟨c, 1⟩, ⟨c, 2⟩, ⟨c, 3⟩]

/-- A double word of a partition's descriptor (R379, Table 2); zero where there is no descriptor. -/
def Part.word (p : Part) (i : Nat) : Word := p.desc.getD i 0

/-- The partition exists. -/
def Part.valid (p : Part) : Bool := (p.word 0).getLsbD 63

/-- The logical quarters it holds. -/
def Part.lmask (p : Part) : Nat := bitsOf (p.word 0) 0 16

/-- Its interrupt core. -/
def Part.icore (p : Part) : Fin 256 := coreNo (bitsOf (p.word 0) 24 8)

/-- Its test flag. -/
def Part.testFlag (p : Part) : Bool := (p.word 0).getLsbD 20

/-- Its supervisor root. -/
def Part.root (p : Part) : Nat := (p.word 3).toNat

/-- The partition of a core: the valid one whose lmask holds the core's quarter (R379); partition 0 where there is none. -/
def State.partNo (s : State) (c : Fin 256) : Fin 16 :=
  ((List.finRange 16).find? fun p => (s.partOf p).valid && (s.partOf p).lmask.testBit (c.val / 16)).getD 0

/-- Whether the core belongs to a valid partition. -/
def State.coreValid (s : State) (c : Fin 256) : Bool :=
  (s.partOf (s.partNo c)).valid && (s.partOf (s.partNo c)).lmask.testBit (c.val / 16)

/-- The cores of a partition in ascending order. -/
def State.coresOf (s : State) (p : Fin 16) : List (Fin 256) :=
  (List.finRange 256).filter fun c => (s.partOf p).valid && (s.partOf p).lmask.testBit (c.val / 16)

/-! ### Registers -/

/-- The bank in use: the task bank at task level, otherwise the supervisor bank (R324). -/
def Slot.active (x : Slot) : Bank :=
  if x.level = .task then x.bank else x.sup

/-- Replaces the bank in use. -/
def Slot.setActive (x : Slot) (b : Bank) : Slot :=
  if x.level = .task then { x with bank := b } else { x with sup := b }

/-- Reads a register of a bank; g0 is zero (R6). -/
def Bank.get (b : Bank) (r : Fin 32) : Word :=
  if r = 0 then 0 else b.g[r]

/-- Writes a register of a bank; writes to g0 are discarded (R6). -/
def Bank.set (b : Bank) (r : Fin 32) (v : Word) : Bank :=
  if r = 0 then b else { b with g := b.g.set r v }

/-- Reads a register of the current slot. -/
def State.reg (s : State) (r : Fin 32) : Word :=
  s.me.active.get r

/-- Writes a register of the current slot. -/
def State.setReg (s : State) (r : Fin 32) (v : Word) : State :=
  s.setMe (s.me.setActive (s.me.active.set r v))

/-- FLAGS of the current slot's bank (R9). -/
def State.flags (s : State) : BitVec 12 := s.me.active.flags

/-- Sets sticky bits (R10): bit 5 DIVZERO to bit 0 SAT. -/
def State.stick (s : State) (f : BitVec 12) : State :=
  s.setMe (s.me.setActive { s.me.active with flags := s.me.active.flags ||| f })

/-- PC of the current slot. -/
def State.pc (s : State) : Word := s.me.pc

/-- What issuing an instruction leaves on its slot (R109, R332, R338) besides the PC. -/
def Slot.issued (x : Slot) (c : Nat) : Slot :=
  { x with
    sched := { x.sched with
      readySince := c
      lastIssue := c
      stall := none
      since := c
      budgetUsed := if x.level = .task then x.sched.budgetUsed + 1 else x.sched.budgetUsed
      wdogSince := c }
    sq := x.sq.map fun q => { q with later := true }
    replies := [] }

/-- The instruction completes and the next is at a target; a transfer of control leaves the physical addresses of a supervisor's start
(R379; log 8). -/
def State.retireTo (s : State) (t : Word) : State :=
  s.setMe { s.me.issued s.cycle with pc := t, bare := s.me.bare && t == nextPc s.me.pc }

/-- The instruction completes; PC := PC + 4 (R8). -/
def State.retire (s : State) : State :=
  s.retireTo (nextPc s.pc)

/-- The instruction completes with a result. -/
def State.result (s : State) (d : Fin 32) (v : Word) : State :=
  (s.setReg d v).retire

/-- A value the spec leaves open: the next number of `Config.freeValue`, which nothing constrains (log 3). -/
def State.draw (s : State) : Word × State :=
  (Config.freeValue s.free, { s with free := s.free + 1 })

/-- Two of them. -/
def State.drawTwo (s : State) : (Word × Word) × State :=
  ((Config.freeValue s.free, Config.freeValue (s.free + 1)), { s with free := s.free + 2 })

end Sys2Proof.Machine
end

