-- ==== Sys2Proof/Machine/Flags.lean ====
section
/-! DEFINITION. The sticky bits of FLAGS (01 R9, R10) and the flag computations of integer arithmetic (01 R14). -/

namespace Sys2Proof.Machine

/-- Bit 3 OVERFLOW. -/
def flagOverflow : BitVec 12 := 0x008

/-- Bit 5 DIVZERO. -/
def flagDivzero : BitVec 12 := 0x020

/-- Bits 10:8 of FLAGS: the rounding mode of scalar FP (R9). -/
def rmOf (f : BitVec 12) : Nat := bitsOf f 8 3

/-- Bit 11 of FLAGS: VFTZ (R9). -/
def vftzOf (f : BitVec 12) : Bool := f.getLsbD 11

/-- Flags of DIV (R14, Table 6). -/
def divFlags (a b : Word) : BitVec 12 :=
  if b = 0 then flagDivzero
  else if a = BitVec.intMin 64 ∧ b = BitVec.allOnes 64 then flagOverflow
  else 0

/-- Flags of DIVU, REM and REMU (R14, Table 6). -/
def zeroFlags (b : Word) : BitVec 12 :=
  if b = 0 then flagDivzero else 0

/-- FLAGS as SWR writes it: bits 5:0 as given, VFTZ, and RM unless its code is 6 or 7 (R10). -/
def writeFlags (old : BitVec 12) (v : Word) : BitVec 12 :=
  let n := v.setWidth 12 &&& 0x83F
  if bitsOf v 8 3 ≥ 6 then n ||| (old &&& 0x700) else n ||| (v.setWidth 12 &&& 0x700)

end Sys2Proof.Machine
end

