-- ==== Sys2Proof/Machine/Operands.lean ====
section
/-! DEFINITION. Operand forms: immediates (02 R25), effective pointers (01 R16), the sizes of accesses (02 R26), bit fields (04 R79),
and the memory and segment operands of later chapters' checks. -/

namespace Sys2Proof.Machine

/-- A sign-extended immediate of any width (R25). -/
def simm {n : Nat} (i : BitVec n) : Word := i.signExtend 64

/-- imm19 x 2^13, sign-extended (R83). -/
def upperImm (i : BitVec 19) : Word := simm i <<< 13

/-- A branch target: PC + 4 x offset (R85 to R87). -/
def branchTarget {n : Nat} (pc : Word) (o : BitVec n) : Word := pc + (simm o <<< 2)

/-- The effective pointer of base and displacement, modulo 2^64 (R16). -/
def effPtr {n : Nat} (a : Word) (i : BitVec n) : Word := a + simm i

/-- Bytes of a size code: 1, 2, 4, 8 (R26). -/
def sizeBytes (s : Fin 4) : Nat := 2 ^ s.val

/-- A loaded value in its register: zero-extended with zx or at size D, otherwise sign-extended (R93). -/
def extendLoad (v : Word) (s : Fin 4) (zx : Bool) : Word :=
  if zx ∨ s = 3 then v else sextLow v (8 * sizeBytes s)

/-- The low len bits set. -/
def lowMask (len : Nat) : Word := word (2 ^ len - 1)

/-- Field(x, pos, len) (R79). -/
def extractField (x : Word) (pos len : Nat) : Word := (x >>> pos) &&& lowMask len

/-- Insert(d, x, pos, len) (R79). -/
def insertField (d x : Word) (pos len : Nat) : Word :=
  (d &&& ~~~(lowMask len <<< pos)) ||| ((x &&& lowMask len) <<< pos)

/-- The low 6 bits of a shift or rotate amount (R14). -/
def amount (b : Word) : Nat := b.toNat % 64

/-- Leading zero bits: 64 for zero (R78). -/
def clzNat (a : Word) : Nat := if a = 0 then 64 else 63 - Nat.log2 a.toNat

/-- Trailing zero bits from a position on. -/
def ctzFrom (a : Word) : Nat → Nat → Nat
  | 0, i => i
  | n + 1, i => if a.getLsbD i then i else ctzFrom a n (i + 1)

/-- One bits below a position. -/
def popBelow (a : Word) : Nat → Nat
  | 0 => 0
  | n + 1 => popBelow a n + if a.getLsbD n then 1 else 0

end Sys2Proof.Machine
end

