-- ==== Sys2Proof/WellFormed.lean ====
section
/-! DEFINITION. Which operands an instruction word may hold (02_formats_and_opcode_map.md R26 to R32, R36 to R41;
07_vector_and_task_instructions.md R137, R148, R154). The three checks answer to the reasons 2, 3 and 4 of R42. -/

namespace Sys2Proof

/-- The special register numbers of R356, Table 4. -/
def sregNumbers : List Nat :=
  [0x000, 0x001, 0x002, 0x003, 0x004, 0x005, 0x008, 0x009, 0x00A, 0x00B, 0x00C, 0x00D, 0x010, 0x011, 0x012, 0x013, 0x014,
   0x015, 0x016, 0x018, 0x020, 0x021, 0x022, 0x023, 0x024, 0x025, 0x026, 0x027, 0x030, 0x100, 0x101, 0x102, 0x103, 0x104,
   0x105, 0x106, 0x107, 0x108, 0x109, 0x10A, 0x10B, 0x10C, 0x200, 0x201, 0x202, 0x203, 0x204]

/-- The numbers whose SWR is a row of its own. -/
def sregRows : List Nat := [0x010, 0x011, 0x012, 0x013, 0x015, 0x10A, 0x10C, 0x201]

/-- A written vector register is none of the read ports v0, v1, v2 (R30). -/
def writableV (d : Fin 32) : Bool := 3 ≤ d.val

/-- A read vector register is not the write port v3 (R30). -/
def readableV (a : Fin 32) : Bool := a.val != 3

/-- Guard k0 acts with sense 0 only (R29). -/
def VTail.ok (t : VTail) : Bool := t.guard.val != 0 || !t.sense

namespace Instr

/-- Every function, selector, order and scope value has a meaning (reason 2). -/
def selectorOk : Instr → Bool
  | .fcmp _ _ _ p => p.val < 4
  | .fcvt _ _ k => k.val < 6
  | .ldS _ _ _ _ o _ => o.val < 2
  | .stS _ _ _ o _ => o.val == 0 || o.val == 2
  | .atom _ _ _ s _ p => s.val < 6 && p.val < 9
  | .cas _ _ _ s _ => s.val < 6
  | .fenceRel s | .fenceAcq s | .fenceAr s => s.val < 6
  | .domjoin _ _ l | .domleave _ l | .bardecl _ _ l | .bararr _ l | .barwait _ l => l.val < 6
  | .tkpost e | .tkwait e => e.val != 0
  | .portbind _ _ p => p.val != 2
  | .srd _ n m => m.val == 0 && sregNumbers.contains n.val
  | .swr _ n m => m.val == 0 && sregNumbers.contains n.val && !sregRows.contains n.val
  | .vcvt _ _ k _ => k.val < 20
  | .vred _ _ o _ => o.val < 3
  | .vcfg i _ => (i.extractLsb' 0 4).toNat < 10 && (i.extractLsb' 4 3).toNat < 6
  | .mma u _ _ _ _ _ _ _ f _ => u.val < 3 && (!f || u.val == 0)
  | .cred _ _ _ o _ => o.val < 3
  | .cfill _ _ _ o _ => o.val < 2
  | _ => true

/-- A must-be-zero bit that is a field of the instruction (reason 3): zx of a doubleword load (R26) and bit 9 of VCFG (R154). -/
def zeroOk : Instr → Bool
  | .ld _ _ s z _ => s.val != 3 || !z
  | .ldS _ _ s z _ _ => s.val != 3 || !z
  | .vcfg i _ => !i.getLsbD 9
  | _ => true

/-- No operand is forbidden by R29 or R30 (reason 4). -/
def operandOk : Instr → Bool
  | .vadd d a b t | .vsub d a b t | .vmul d a b t | .vmin d a b t | .vmax d a b t | .vand d a b t | .vor d a b t
  | .vxor d a b t | .vshl d a b t | .vshr d a b t | .vshra d a b t | .vsel d a b t | .vqcvt d a b t | .vperm d a b t =>
    writableV d && readableV a && readableV b && t.ok
  | .vfma d a b t | .vfms d a b t => writableV d && readableV d && readableV a && readableV b && t.ok
  | .vabs d a t | .vneg d a t | .vqmax d a t | .vdq d a t | .vmov d a t | .vexp2 d a t | .vrcp d a t | .vrsqrt d a t =>
    writableV d && readableV a && t.ok
  | .vcvt d a _ t | .vred d a _ t | .vbcast d a _ t | .vpack d a _ t | .vunpk d a _ t => writableV d && readableV a && t.ok
  | .vcmpeq d a b t | .vcmplt d a b t | .vcmple d a b t => d.val != 0 && readableV a && readableV b && t.ok
  | .viota d t | .vsplat d _ t => writableV d && t.ok
  | .vany _ t | .vall _ t => t.ok
  | .vxtr a t | .vcsum _ a t | .vcsumSet _ a t => readableV a && t.ok
  | .kand d _ _ t | .kor d _ _ t | .kxor d _ _ t | .knot d _ t => d.val != 0 && t.ok
  | _ => true

/-- The instruction is one the decoder gives for some word, or an event. -/
def WellFormed (i : Instr) : Bool := i.selectorOk && i.zeroOk && i.operandOk

end Instr

end Sys2Proof
end

