-- ==== Sys2Proof/Decode.lean ====
section
/-! DEFINITION. Decoding of instruction words (02_formats_and_opcode_map.md R22 to R42), total on every word and refusing by
the reason of R42, and the encoder written from the same tables. -/

namespace Sys2Proof

/-- Bits lo + n - 1 down to lo of w. -/
def fld (w lo n : Nat) : Nat := w / 2^lo % 2^n

/-- The field at lo as a number below n. -/
def pick (n : Nat) [NeZero n] (w lo : Nat) : Fin n := Fin.ofNat n (w / 2^lo)

/-- Bit lo of w. -/
def bit (w lo : Nat) : Bool := w / 2^lo % 2 == 1

/-- Bits 3:0 of an engine word (R33). -/
def tok (w : Nat) : Tok := ⟨pick 4 w 2, pick 4 w 0⟩

/-- Bits 8:0 of a per-lane V word (R28). -/
def vtail (w : Nat) : VTail := ⟨pick 16 w 5, bit w 4, pick 4 w 2, pick 4 w 0⟩

/-- R41 and R42: the lowest reason that holds. `sel` is a selector value outside the instruction's own fields, `hide` a nonzero
must-be-zero modifier bit, which R37's examples report as reason 3 whatever the named modifier field holds (log 21), and `zero`
any other nonzero must-be-zero field. -/
def check (sel hide zero : Bool) (i : Instr) : Except Reason Instr :=
  if sel || (!hide && !i.selectorOk) then .error .undefinedSelector
  else if hide || zero || !i.zeroOk then .error .mustBeZero
  else if !i.operandOk then .error .forbiddenOperand
  else .ok i

/-- ALU.R (R77, R78): fn9 is the function code, with modifier 1000 for DIVU and REMU alone (R35). -/
def decodeAlu (w : Nat) : Except Reason Instr :=
  match fld w 0 9 with
  | 0x001 => check false false false (.add (pick 32 w 19) (pick 32 w 14) (pick 32 w 9))
  | 0x002 => check false false false (.sub (pick 32 w 19) (pick 32 w 14) (pick 32 w 9))
  | 0x003 => check false false false (.and (pick 32 w 19) (pick 32 w 14) (pick 32 w 9))
  | 0x004 => check false false false (.or (pick 32 w 19) (pick 32 w 14) (pick 32 w 9))
  | 0x005 => check false false false (.xor (pick 32 w 19) (pick 32 w 14) (pick 32 w 9))
  | 0x006 => check false false false (.andn (pick 32 w 19) (pick 32 w 14) (pick 32 w 9))
  | 0x007 => check false false false (.orn (pick 32 w 19) (pick 32 w 14) (pick 32 w 9))
  | 0x008 => check false false false (.sll (pick 32 w 19) (pick 32 w 14) (pick 32 w 9))
  | 0x009 => check false false false (.srl (pick 32 w 19) (pick 32 w 14) (pick 32 w 9))
  | 0x00A => check false false false (.sra (pick 32 w 19) (pick 32 w 14) (pick 32 w 9))
  | 0x00B => check false false false (.mul (pick 32 w 19) (pick 32 w 14) (pick 32 w 9))
  | 0x00C => check false false false (.mulh (pick 32 w 19) (pick 32 w 14) (pick 32 w 9))
  | 0x00D => check false false false (.mulhu (pick 32 w 19) (pick 32 w 14) (pick 32 w 9))
  | 0x00E => check false false false (.div (pick 32 w 19) (pick 32 w 14) (pick 32 w 9))
  | 0x00F => check false false false (.rem (pick 32 w 19) (pick 32 w 14) (pick 32 w 9))
  | 0x010 => check false false false (.slt (pick 32 w 19) (pick 32 w 14) (pick 32 w 9))
  | 0x011 => check false false false (.sltu (pick 32 w 19) (pick 32 w 14) (pick 32 w 9))
  | 0x012 => check false false false (.min (pick 32 w 19) (pick 32 w 14) (pick 32 w 9))
  | 0x013 => check false false false (.max (pick 32 w 19) (pick 32 w 14) (pick 32 w 9))
  | 0x014 => check false false false (.minu (pick 32 w 19) (pick 32 w 14) (pick 32 w 9))
  | 0x015 => check false false false (.maxu (pick 32 w 19) (pick 32 w 14) (pick 32 w 9))
  | 0x016 => check false false (fld w 9 5 != 0) (.clz (pick 32 w 19) (pick 32 w 14))
  | 0x017 => check false false (fld w 9 5 != 0) (.ctz (pick 32 w 19) (pick 32 w 14))
  | 0x018 => check false false (fld w 9 5 != 0) (.popc (pick 32 w 19) (pick 32 w 14))
  | 0x019 => check false false false (.rol (pick 32 w 19) (pick 32 w 14) (pick 32 w 9))
  | 0x01A => check false false false (.ror (pick 32 w 19) (pick 32 w 14) (pick 32 w 9))
  | 0x01B => check false false false (.sext (pick 32 w 19) (pick 32 w 14) (pick 32 w 9))
  | 0x01C => check false false false (.zext (pick 32 w 19) (pick 32 w 14) (pick 32 w 9))
  | 0x01D => check false false false (.bext (pick 32 w 19) (pick 32 w 14) (pick 32 w 9))
  | 0x01E => check false false false (.bins (pick 32 w 19) (pick 32 w 14) (pick 32 w 9))
  | 0x10E => check false false false (.divu (pick 32 w 19) (pick 32 w 14) (pick 32 w 9))
  | 0x10F => check false false false (.remu (pick 32 w 19) (pick 32 w 14) (pick 32 w 9))
  | _ => .error .undefinedSelector

/-- FP.R (R89 to R92). -/
def decodeFp (w : Nat) : Except Reason Instr :=
  match fld w 0 5 with
  | 1 => check (fld w 5 4 != 0) false false (.fadd (pick 32 w 19) (pick 32 w 14) (pick 32 w 9))
  | 2 => check (fld w 5 4 != 0) false false (.fsub (pick 32 w 19) (pick 32 w 14) (pick 32 w 9))
  | 3 => check (fld w 5 4 != 0) false false (.fmul (pick 32 w 19) (pick 32 w 14) (pick 32 w 9))
  | 4 => check (fld w 5 4 != 0) false false (.ffma (pick 32 w 19) (pick 32 w 14) (pick 32 w 9))
  | 5 => check (fld w 5 4 != 0) false false (.fmin (pick 32 w 19) (pick 32 w 14) (pick 32 w 9))
  | 6 => check (fld w 5 4 != 0) false false (.fmax (pick 32 w 19) (pick 32 w 14) (pick 32 w 9))
  | 7 => check false false (fld w 5 1 != 0) (.fcmp (pick 32 w 19) (pick 32 w 14) (pick 32 w 9) (pick 8 w 6))
  | 8 => check false false (fld w 9 5 != 0) (.fcvt (pick 32 w 19) (pick 32 w 14) (pick 16 w 5))
  | _ => .error .undefinedSelector

/-- SWR (R38, R355): eight registers have rows of their own. -/
def decodeSwr (w : Nat) : Instr :=
  match fld w 5 2, fld w 9 10 with
  | 0, 0x010 => .swrFlags (pick 32 w 19)
  | 0, 0x011 => .swrVtype (pick 32 w 19)
  | 0, 0x012 => .swrRrb (pick 32 w 19)
  | 0, 0x013 => .swrEc (pick 32 w 19)
  | 0, 0x015 => .swrSrseed (pick 32 w 19)
  | 0, 0x10A => .swrPreempt (pick 32 w 19)
  | 0, 0x10C => .swrEnvcb (pick 32 w 19)
  | 0, 0x201 => .swrInjcfg (pick 32 w 19)
  | _, _ => .swr (pick 32 w 19) (pick 1024 w 9) (pick 4 w 5)

/-- Load blocks, op6 0x28 (R37, Table 10). -/
def decodeBlk (w : Nat) : Except Reason Instr :=
  match fld w 0 5 with
  | 1 => check false (fld w 5 4 != 0) (fld w 9 5 != 0 || fld w 18 1 != 0) (.blkwait (pick 32 w 19) (pick 16 w 14))
  | _ => .error .undefinedSelector

/-- Pointer inspection, op6 0x29 (R37, Table 10). -/
def decodePtrInfo (w : Nat) : Except Reason Instr :=
  match fld w 0 5 with
  | 1 => check false (fld w 5 4 != 0) (fld w 9 5 != 0) (.pspace (pick 32 w 19) (pick 32 w 14))
  | 2 => check false (fld w 5 4 != 0) false (.pcast (pick 32 w 19) (pick 32 w 14) (pick 32 w 9))
  | _ => .error .undefinedSelector

/-- Transactions, op6 0x2A (R37, Table 10). -/
def decodeTx (w : Nat) : Except Reason Instr :=
  match fld w 0 5 with
  | 1 => check false (fld w 5 4 != 0) (fld w 9 10 != 0) (.txb (pick 32 w 19))
  | 2 => check false (fld w 5 4 != 0) (fld w 9 10 != 0) (.txe (pick 32 w 19))
  | 3 => check false (fld w 5 4 != 0) (fld w 9 5 != 0 || fld w 19 5 != 0) (.txa (pick 32 w 14))
  | _ => .error .undefinedSelector

/-- The page pool, op6 0x2B (R37, Table 10). -/
def decodePg (w : Nat) : Except Reason Instr :=
  match fld w 0 5 with
  | 1 => if bit w 5 then check false (fld w 6 3 != 0) (fld w 9 10 != 0) (.pgallocNb (pick 32 w 19)) else check false (fld w 6 3 != 0) (fld w 9 10 != 0) (.pgalloc (pick 32 w 19))
  | 2 => check false (fld w 5 4 != 0) (fld w 9 5 != 0) (.pgfree (pick 32 w 19) (pick 32 w 14))
  | _ => .error .undefinedSelector

/-- Segments, op6 0x2C (R37, Table 10). -/
def decodeSeg (w : Nat) : Except Reason Instr :=
  match fld w 0 5 with
  | 1 => if bit w 5 then check false (fld w 6 3 != 0) (fld w 9 5 != 0) (.sgnewCl (pick 32 w 19) (pick 32 w 14)) else check false (fld w 6 3 != 0) (fld w 9 5 != 0) (.sgnew (pick 32 w 19) (pick 32 w 14))
  | 2 => check false (fld w 5 4 != 0) (fld w 9 5 != 0) (.sgfree (pick 32 w 19) (pick 32 w 14))
  | 3 => check false (fld w 5 4 != 0) (fld w 9 5 != 0) (.sgpin (pick 32 w 19) (pick 32 w 14))
  | 4 => check false (fld w 5 4 != 0) (fld w 9 5 != 0) (.sgunpin (pick 32 w 19) (pick 32 w 14))
  | 5 => check false (fld w 5 4 != 0) (fld w 9 5 != 0) (.sgpref (pick 32 w 19) (pick 32 w 14))
  | 6 => check false (fld w 5 4 != 0) (fld w 9 5 != 0) (.sginfo (pick 32 w 19) (pick 32 w 14))
  | 7 => check false (fld w 5 4 != 0) (fld w 9 5 != 0) (.sgquota (pick 32 w 19) (pick 32 w 14))
  | 8 => check false (fld w 5 4 != 0) false (.sgsched (pick 32 w 19) (pick 32 w 14) (pick 32 w 9))
  | _ => .error .undefinedSelector

/-- Tasks, op6 0x30 (R37, Table 10). -/
def decodeTask (w : Nat) : Except Reason Instr :=
  match fld w 0 5 with
  | 1 => check false (fld w 5 4 != 0) (fld w 9 5 != 0) (.spawn (pick 32 w 19) (pick 32 w 14))
  | 2 => check false (fld w 5 4 != 0) (fld w 9 15 != 0) (.tend)
  | 3 => check false (fld w 5 4 != 0) (fld w 9 15 != 0) (.yield)
  | 4 => check false (fld w 5 4 != 0) false (.await (pick 32 w 19) (pick 32 w 14) (pick 32 w 9))
  | _ => .error .undefinedSelector

/-- Domains and barriers, op6 0x31 (R37, Table 10). -/
def decodeDom (w : Nat) : Except Reason Instr :=
  match fld w 0 5 with
  | 1 => check false (fld w 8 1 != 0) (fld w 9 5 != 0) (.domjoin (pick 32 w 19) (pick 32 w 14) (pick 8 w 5))
  | 2 => check false (fld w 8 1 != 0) (fld w 9 10 != 0) (.domleave (pick 32 w 19) (pick 8 w 5))
  | 3 => check false (fld w 8 1 != 0) (fld w 9 5 != 0) (.bardecl (pick 32 w 19) (pick 32 w 14) (pick 8 w 5))
  | 4 => check false (fld w 8 1 != 0) (fld w 9 10 != 0) (.bararr (pick 32 w 19) (pick 8 w 5))
  | 5 => check false (fld w 8 1 != 0) (fld w 9 10 != 0) (.barwait (pick 32 w 19) (pick 8 w 5))
  | _ => .error .undefinedSelector

/-- Cancel scopes, op6 0x32 (R37, Table 10). -/
def decodeScope (w : Nat) : Except Reason Instr :=
  match fld w 0 5 with
  | 1 => check false (fld w 5 4 != 0) (fld w 9 5 != 0) (.scnew (pick 32 w 19) (pick 32 w 14))
  | 2 => check false (fld w 5 4 != 0) (fld w 9 5 != 0) (.cancel (pick 32 w 19) (pick 32 w 14))
  | 3 => check false (fld w 5 4 != 0) (fld w 9 5 != 0) (.cancelwait (pick 32 w 19) (pick 32 w 14))
  | _ => .error .undefinedSelector

/-- Graphs, op6 0x33 (R37, Table 10). -/
def decodeGraph (w : Nat) : Except Reason Instr :=
  match fld w 0 5 with
  | 1 => check false (fld w 5 4 != 0) (fld w 9 5 != 0) (.grun (pick 32 w 19) (pick 32 w 14))
  | _ => .error .undefinedSelector

/-- Tokens, queues, leases and channels, op6 0x34 (R37, Table 10). -/
def decodeEng (w : Nat) : Except Reason Instr :=
  match fld w 0 5 with
  | 1 => check false (fld w 7 2 != 0) (fld w 9 15 != 0) (.tkpost (pick 4 w 5))
  | 2 => check false (fld w 7 2 != 0) (fld w 9 15 != 0) (.tkwait (pick 4 w 5))
  | 3 => check false (fld w 5 4 != 0) (fld w 9 5 != 0 || fld w 19 5 != 0) (.qpush (pick 32 w 14))
  | 4 => check false (fld w 5 4 != 0) (fld w 9 10 != 0) (.qpop (pick 32 w 19))
  | 5 => check false (fld w 5 4 != 0) (fld w 9 5 != 0 || fld w 19 5 != 0) (.fmtq (pick 32 w 14))
  | 6 => if bit w 5 then check false (fld w 6 3 != 0) (fld w 9 5 != 0) (.mleaseG (pick 32 w 19) (pick 32 w 14)) else check false (fld w 6 3 != 0) (fld w 9 15 != 0) (.mlease)
  | 7 => check false (fld w 5 4 != 0) (fld w 9 15 != 0) (.mrelease)
  | 8 => check false (fld w 8 1 != 0) (fld w 9 5 != 0) (.chwait (pick 32 w 19) (pick 32 w 14) (pick 8 w 5))
  | 9 => check false (fld w 8 1 != 0) (fld w 9 10 != 0) (.chid (pick 32 w 19) (pick 8 w 5))
  | _ => .error .undefinedSelector

/-- Descriptors and ports, op6 0x35 (R37, Table 10). -/
def decodeDesc (w : Nat) : Except Reason Instr :=
  match fld w 0 5 with
  | 1 => check false false (fld w 9 5 != 0) (.tdset (pick 32 w 19) (pick 32 w 14) (pick 16 w 5))
  | 2 => check false false (fld w 9 5 != 0) (.cdset (pick 32 w 19) (pick 32 w 14) (pick 16 w 5))
  | 3 => check false (fld w 8 1 != 0) (fld w 9 5 != 0) (.agset (pick 32 w 19) (pick 32 w 14) (pick 8 w 5))
  | 4 => check false (fld w 7 2 != 0) (fld w 9 5 != 0) (.portbind (pick 32 w 19) (pick 32 w 14) (pick 4 w 5))
  | _ => .error .undefinedSelector

/-- SYS, op6 0x38 (R37, Table 10). -/
def decodeSys (w : Nat) : Except Reason Instr :=
  match fld w 0 5 with
  | 1 => check false (fld w 5 4 != 0) (fld w 19 5 != 0) (.trap (.ofNat 10 (w / 2^9)))
  | 2 => check false (fld w 5 4 != 0) (fld w 11 13 != 0) (.tret (bit w 10) (bit w 9))
  | 3 => check false false (fld w 7 2 != 0) (.srd (pick 32 w 19) (pick 1024 w 9) (pick 4 w 5))
  | 4 => check false false (fld w 7 2 != 0) (decodeSwr w)
  | 5 => check false (fld w 5 4 != 0) false (.accspill (pick 32 w 19) (pick 32 w 14) (pick 32 w 9))
  | 6 => check false (fld w 5 4 != 0) false (.accfill (pick 32 w 19) (pick 32 w 14) (pick 32 w 9))
  | 7 => check false (fld w 5 4 != 0) (fld w 9 5 != 0) (.ctxsave (pick 32 w 19) (pick 32 w 14))
  | 8 => check false (fld w 5 4 != 0) false (.ctxload (pick 32 w 19) (pick 32 w 14) (pick 32 w 9))
  | 9 => check false (fld w 5 4 != 0) false (.tlbinv (pick 32 w 19) (pick 32 w 14) (pick 32 w 9))
  | 10 => check false (fld w 5 4 != 0) false (.elogrd (pick 32 w 19) (pick 32 w 14) (pick 32 w 9))
  | 11 => check false (fld w 5 4 != 0) false (.moncall (pick 32 w 19) (pick 32 w 14) (pick 32 w 9))
  | 12 => check false (fld w 5 4 != 0) (fld w 9 15 != 0) (.halt)
  | _ => .error .undefinedSelector

/-- The families of R37, Table 10, by op6. -/
def decodeFamily (op w : Nat) : Except Reason Instr :=
  match op with
  | 0x28 => decodeBlk w
  | 0x29 => decodePtrInfo w
  | 0x2A => decodeTx w
  | 0x2B => decodePg w
  | 0x2C => decodeSeg w
  | 0x30 => decodeTask w
  | 0x31 => decodeDom w
  | 0x32 => decodeScope w
  | 0x33 => decodeGraph w
  | 0x34 => decodeEng w
  | 0x35 => decodeDesc w
  | 0x38 => decodeSys w
  | _ => .error .reservedOpcode

/-- V words (R28 to R30, R39; 07_vector_and_task_instructions.md). -/
def decodeV (w : Nat) : Except Reason Instr :=
  match fld w 24 6 with
  | 0x00 => check false false (fld w 4 20 != 0) (.vnop (tok w))
  | 0x01 => check false false false (.vadd (pick 32 w 19) (pick 32 w 14) (pick 32 w 9) (vtail w))
  | 0x02 => check false false false (.vsub (pick 32 w 19) (pick 32 w 14) (pick 32 w 9) (vtail w))
  | 0x03 => check false false false (.vmul (pick 32 w 19) (pick 32 w 14) (pick 32 w 9) (vtail w))
  | 0x04 => check false false false (.vfma (pick 32 w 19) (pick 32 w 14) (pick 32 w 9) (vtail w))
  | 0x05 => check false false false (.vfms (pick 32 w 19) (pick 32 w 14) (pick 32 w 9) (vtail w))
  | 0x06 => check false false false (.vmin (pick 32 w 19) (pick 32 w 14) (pick 32 w 9) (vtail w))
  | 0x07 => check false false false (.vmax (pick 32 w 19) (pick 32 w 14) (pick 32 w 9) (vtail w))
  | 0x08 => check false false (fld w 9 5 != 0) (.vabs (pick 32 w 19) (pick 32 w 14) (vtail w))
  | 0x09 => check false false (fld w 9 5 != 0) (.vneg (pick 32 w 19) (pick 32 w 14) (vtail w))
  | 0x0A => check false false false (.vand (pick 32 w 19) (pick 32 w 14) (pick 32 w 9) (vtail w))
  | 0x0B => check false false false (.vor (pick 32 w 19) (pick 32 w 14) (pick 32 w 9) (vtail w))
  | 0x0C => check false false false (.vxor (pick 32 w 19) (pick 32 w 14) (pick 32 w 9) (vtail w))
  | 0x0D => check false false false (.vshl (pick 32 w 19) (pick 32 w 14) (pick 32 w 9) (vtail w))
  | 0x0E => check false false false (.vshr (pick 32 w 19) (pick 32 w 14) (pick 32 w 9) (vtail w))
  | 0x0F => check false false false (.vshra (pick 32 w 19) (pick 32 w 14) (pick 32 w 9) (vtail w))
  | 0x10 => check false false (fld w 23 1 != 0) (.vcmpeq (pick 16 w 19) (pick 32 w 14) (pick 32 w 9) (vtail w))
  | 0x11 => check false false (fld w 23 1 != 0) (.vcmplt (pick 16 w 19) (pick 32 w 14) (pick 32 w 9) (vtail w))
  | 0x12 => check false false (fld w 23 1 != 0) (.vcmple (pick 16 w 19) (pick 32 w 14) (pick 32 w 9) (vtail w))
  | 0x13 => check false false false (.vsel (pick 32 w 19) (pick 32 w 14) (pick 32 w 9) (vtail w))
  | 0x14 => check false false false (.vcvt (pick 32 w 19) (pick 32 w 14) (pick 32 w 9) (vtail w))
  | 0x15 => check false false (fld w 9 5 != 0) (.vqmax (pick 32 w 19) (pick 32 w 14) (vtail w))
  | 0x16 => check false false false (.vqcvt (pick 32 w 19) (pick 32 w 14) (pick 32 w 9) (vtail w))
  | 0x17 => check false false (fld w 9 5 != 0) (.vdq (pick 32 w 19) (pick 32 w 14) (vtail w))
  | 0x18 => check false false false (.vred (pick 32 w 19) (pick 32 w 14) (pick 32 w 9) (vtail w))
  | 0x19 => check false false (fld w 9 5 != 0 || fld w 18 6 != 0) (.vany (pick 16 w 14) (vtail w))
  | 0x1A => check false false (fld w 9 5 != 0 || fld w 18 6 != 0) (.vall (pick 16 w 14) (vtail w))
  | 0x1B => check false false false (.vbcast (pick 32 w 19) (pick 32 w 14) (pick 32 w 9) (vtail w))
  | 0x1C => check false false false (.vperm (pick 32 w 19) (pick 32 w 14) (pick 32 w 9) (vtail w))
  | 0x1D => check false false (fld w 9 10 != 0) (.viota (pick 32 w 19) (vtail w))
  | 0x1E => check false false (fld w 9 5 != 0) (.vmov (pick 32 w 19) (pick 32 w 14) (vtail w))
  | 0x1F => check false false false (.vsplat (pick 32 w 19) (.ofNat 10 (w / 2^9)) (vtail w))
  | 0x20 => check false false (fld w 9 5 != 0) (.vexp2 (pick 32 w 19) (pick 32 w 14) (vtail w))
  | 0x21 => check false false (fld w 9 5 != 0) (.vrcp (pick 32 w 19) (pick 32 w 14) (vtail w))
  | 0x22 => check false false (fld w 9 5 != 0) (.vrsqrt (pick 32 w 19) (pick 32 w 14) (vtail w))
  | 0x23 => match fld w 9 5 with
    | 0 => check false false (fld w 21 3 != 0) (.vcsum (pick 4 w 19) (pick 32 w 14) (vtail w))
    | 1 => check false false (fld w 21 3 != 0) (.vcsumSet (pick 4 w 19) (pick 32 w 14) (vtail w))
    | 2 => check (fld w 4 5 != 0) false (fld w 14 5 != 0 || fld w 21 3 != 0) (.vcsumClr (pick 4 w 19) (tok w))
    | _ => .error .undefinedSelector
  | 0x24 => check (fld w 4 5 != 0) false (fld w 11 3 != 0 || fld w 16 8 != 0) (.vchk (pick 4 w 14) (pick 4 w 9) (tok w))
  | 0x25 => check false false (fld w 13 1 != 0 || fld w 18 1 != 0 || fld w 23 1 != 0) (.kand (pick 16 w 19) (pick 16 w 14) (pick 16 w 9) (vtail w))
  | 0x26 => check false false (fld w 13 1 != 0 || fld w 18 1 != 0 || fld w 23 1 != 0) (.kor (pick 16 w 19) (pick 16 w 14) (pick 16 w 9) (vtail w))
  | 0x27 => check false false (fld w 13 1 != 0 || fld w 18 1 != 0 || fld w 23 1 != 0) (.kxor (pick 16 w 19) (pick 16 w 14) (pick 16 w 9) (vtail w))
  | 0x28 => check false false (fld w 9 5 != 0 || fld w 18 1 != 0 || fld w 23 1 != 0) (.knot (pick 16 w 19) (pick 16 w 14) (vtail w))
  | 0x29 => check false false (fld w 4 5 != 0 || fld w 19 5 != 0) (.vcfg (.ofNat 10 (w / 2^9)) (tok w))
  | 0x2A => check false false (fld w 9 5 != 0 || fld w 19 5 != 0) (.vxtr (pick 32 w 14) (vtail w))
  | 0x2B => check false false false (.vpack (pick 32 w 19) (pick 32 w 14) (pick 32 w 9) (vtail w))
  | 0x2C => check false false false (.vunpk (pick 32 w 19) (pick 32 w 14) (pick 32 w 9) (vtail w))
  | _ => .error .reservedOpcode

/-- M words (R31, R40, R303). -/
def decodeM (w : Nat) : Except Reason Instr :=
  match fld w 25 5 with
  | 0 => check false false (fld w 4 21 != 0) (.mnop (tok w))
  | 1 => check false false (fld w 4 1 != 0) (.mma (pick 8 w 22) (pick 16 w 18) (pick 16 w 14) (pick 16 w 10) (bit w 9) (bit w 8) (bit w 7) (bit w 6) (bit w 5) (tok w))
  | 2 => check false false (fld w 4 14 != 0 || fld w 22 3 != 0) (.mzero (pick 16 w 18) (tok w))
  | 3 => check false false (fld w 4 10 != 0 || fld w 22 3 != 0) (.mdrain (pick 16 w 18) (pick 16 w 14) (tok w))
  | 4 => check false false (fld w 4 10 != 0 || fld w 22 3 != 0) (.mloadc (pick 16 w 18) (pick 16 w 14) (tok w))
  | _ => .error .reservedOpcode

/-- C words (R32, R40, R310): imm10 bit 8 must be set, and a command without an operator defines only the value 0. -/
def decodeC (w : Nat) : Except Reason Instr :=
  match fld w 25 5 with
  | 0 => check (fld w 8 4 != 0 || bit w 13) false (!bit w 12 || fld w 4 4 != 0 || fld w 14 8 != 0) (.cnop (pick 8 w 22) (tok w))
  | 1 => check (fld w 8 4 != 0) false (!bit w 12 || fld w 4 4 != 0 || fld w 14 4 != 0) (.cpy (pick 8 w 22) (pick 16 w 18) (bit w 13) (tok w))
  | 2 => check false false (!bit w 12 || fld w 4 4 != 0 || fld w 14 4 != 0) (.cred (pick 8 w 22) (pick 16 w 18) (bit w 13) (pick 16 w 8) (tok w))
  | 3 => check (fld w 8 4 != 0) false (!bit w 12 || fld w 4 4 != 0 || fld w 14 4 != 0) (.cgath (pick 8 w 22) (pick 16 w 18) (bit w 13) (tok w))
  | 4 => check (fld w 8 4 != 0) false (!bit w 12 || fld w 4 4 != 0 || fld w 14 4 != 0) (.cscat (pick 8 w 22) (pick 16 w 18) (bit w 13) (tok w))
  | 5 => check (fld w 8 4 != 0) false (!bit w 12 || fld w 4 4 != 0 || fld w 14 4 != 0) (.cmcast (pick 8 w 22) (pick 16 w 18) (bit w 13) (tok w))
  | 6 => check false false (!bit w 12 || fld w 4 4 != 0 || fld w 14 4 != 0) (.cfill (pick 8 w 22) (pick 16 w 18) (bit w 13) (pick 16 w 8) (tok w))
  | _ => .error .reservedOpcode

/-- S words (R24, R34). -/
def decodeS (w : Nat) : Except Reason Instr :=
  match fld w 24 6 with
  | 0x00 => decodeAlu w
  | 0x01 => check false false false (.addi (pick 32 w 19) (pick 32 w 14) (.ofNat 14 (w / 2^0)))
  | 0x02 => check false false false (.andi (pick 32 w 19) (pick 32 w 14) (.ofNat 14 (w / 2^0)))
  | 0x03 => check false false false (.ori (pick 32 w 19) (pick 32 w 14) (.ofNat 14 (w / 2^0)))
  | 0x04 => check false false false (.xori (pick 32 w 19) (pick 32 w 14) (.ofNat 14 (w / 2^0)))
  | 0x05 => check false false false (.slti (pick 32 w 19) (pick 32 w 14) (.ofNat 14 (w / 2^0)))
  | 0x06 => check false false false (.sltiu (pick 32 w 19) (pick 32 w 14) (.ofNat 14 (w / 2^0)))
  | 0x07 => match fld w 12 2 with
    | 0 => check false false (fld w 6 6 != 0) (.slli (pick 32 w 19) (pick 32 w 14) (pick 64 w 0))
    | 1 => check false false (fld w 6 6 != 0) (.srli (pick 32 w 19) (pick 32 w 14) (pick 64 w 0))
    | 2 => check false false (fld w 6 6 != 0) (.srai (pick 32 w 19) (pick 32 w 14) (pick 64 w 0))
    | _ => check false false (fld w 6 6 != 0) (.roli (pick 32 w 19) (pick 32 w 14) (pick 64 w 0))
  | 0x08 => check false false false (.lui (pick 32 w 19) (.ofNat 19 (w / 2^0)))
  | 0x09 => check false false false (.auipc (pick 32 w 19) (.ofNat 19 (w / 2^0)))
  | 0x0A => check false false false (.muli (pick 32 w 19) (pick 32 w 14) (.ofNat 14 (w / 2^0)))
  | 0x0B => check false false (fld w 12 2 != 0) (.bexti (pick 32 w 19) (pick 32 w 14) (pick 64 w 6) (pick 64 w 0))
  | 0x0C => check false false (fld w 12 2 != 0) (.binsi (pick 32 w 19) (pick 32 w 14) (pick 64 w 6) (pick 64 w 0))
  | 0x0F => decodeFp w
  | 0x10 => check false false false (.beq (pick 32 w 19) (pick 32 w 14) (.ofNat 14 (w / 2^0)))
  | 0x11 => check false false false (.bne (pick 32 w 19) (pick 32 w 14) (.ofNat 14 (w / 2^0)))
  | 0x12 => check false false false (.blt (pick 32 w 19) (pick 32 w 14) (.ofNat 14 (w / 2^0)))
  | 0x13 => check false false false (.bge (pick 32 w 19) (pick 32 w 14) (.ofNat 14 (w / 2^0)))
  | 0x14 => check false false false (.bltu (pick 32 w 19) (pick 32 w 14) (.ofNat 14 (w / 2^0)))
  | 0x15 => check false false false (.bgeu (pick 32 w 19) (pick 32 w 14) (.ofNat 14 (w / 2^0)))
  | 0x16 => check false false false (.bbs (pick 32 w 19) (pick 64 w 13) (.ofNat 13 (w / 2^0)))
  | 0x17 => check false false false (.bbc (pick 32 w 19) (pick 64 w 13) (.ofNat 13 (w / 2^0)))
  | 0x18 => check false false false (.j (.ofNat 24 (w / 2^0)))
  | 0x19 => check false false false (.jal (.ofNat 24 (w / 2^0)))
  | 0x1A => check false false false (.jalr (pick 32 w 19) (pick 32 w 14) (.ofNat 14 (w / 2^0)))
  | 0x1B => check false false (fld w 14 5 != 0) (.brloop (pick 32 w 19) (.ofNat 14 (w / 2^0)))
  | 0x20 => check false false false (.ld (pick 32 w 19) (pick 32 w 14) (pick 4 w 12) (bit w 11) (.ofNat 11 (w / 2^0)))
  | 0x21 => check false false (fld w 11 1 != 0) (.st (pick 32 w 19) (pick 32 w 14) (pick 4 w 12) (.ofNat 11 (w / 2^0)))
  | 0x22 => check false false false (.ldS (pick 32 w 19) (pick 32 w 14) (pick 4 w 12) (bit w 11) (pick 4 w 9) (.ofNat 9 (w / 2^0)))
  | 0x23 => check false false (fld w 11 1 != 0) (.stS (pick 32 w 19) (pick 32 w 14) (pick 4 w 12) (pick 4 w 9) (.ofNat 9 (w / 2^0)))
  | 0x24 => check false false false (.atom (pick 32 w 19) (pick 32 w 14) (pick 32 w 9) (pick 8 w 6) (pick 4 w 4) (pick 16 w 0))
  | 0x25 => check false false (fld w 0 4 != 0) (.cas (pick 32 w 19) (pick 32 w 14) (pick 32 w 9) (pick 8 w 6) (pick 4 w 4))
  | 0x26 => match fld w 4 2 with
    | 0 => check (fld w 6 3 != 0) false (fld w 0 4 != 0 || fld w 9 15 != 0) .mark
    | 1 => check false false (fld w 0 4 != 0 || fld w 9 15 != 0) (.fenceRel (pick 8 w 6))
    | 2 => check false false (fld w 0 4 != 0 || fld w 9 15 != 0) (.fenceAcq (pick 8 w 6))
    | _ => check false false (fld w 0 4 != 0 || fld w 9 15 != 0) (.fenceAr (pick 8 w 6))
  | 0x27 => if bit w 0 then check false false (fld w 1 9 != 0 || fld w 14 5 != 0) (.lblkRel (pick 32 w 19) (pick 16 w 10)) else check false false (fld w 1 3 != 0) (.lblk (pick 32 w 19) (pick 32 w 14) (pick 16 w 10) (pick 64 w 4))
  | op => decodeFamily op w

/-- R41: every 32-bit word is an instruction of the tables or takes ILLEGAL with the reason given. -/
def decode (w : IWord) : Except Reason Instr :=
  match fld w.toNat 30 2 with
  | 0 => decodeS w.toNat
  | 1 => decodeV w.toNat
  | 2 => decodeM w.toNat
  | _ => decodeC w.toNat

/-- A little-endian word from its four bytes (R3, R8). -/
def wordOfBytes (b0 b1 b2 b3 : Byte) : IWord := b3 ++ b2 ++ b1 ++ b0

/-- Decoding from the bytes in memory: one word is read, whatever follows. -/
def decodeBytes (bs : List Byte) : Option (Except Reason Instr × List Byte) :=
  match bs with
  | b0 :: b1 :: b2 :: b3 :: rest => some (decode (wordOfBytes b0 b1 b2 b3), rest)
  | _ => none

/-- The instruction read from a word numbered as spec/opcode_table.json numbers it. -/
def decodeTableWord (nbits w : Nat) : Option Instr :=
  if nbits > 32 then none
  else
    let x : IWord := .ofNat 32 w
    match decodeBytes [x.extractLsb' 0 8, x.extractLsb' 8 8, x.extractLsb' 16 8, x.extractLsb' 24 8] with
    | some (.ok i, _) => some i
    | _ => none

/-- Fields, each with its lowest bit, added to the fixed bits of an opcode. -/
def put (fixed : Nat) (fields : List (Nat × Nat)) : Nat := fields.foldl (fun n f => n + f.1 * 2^f.2) fixed

/-- The word of an instruction as a number, from the encoding tables (R24 to R40); 0, which is no instruction (R41), for an
event. -/
def encodeNat (i : Instr) : Nat :=
  match i with
  | .add d a b => put 0x00000001 [(d.val, 19), (a.val, 14), (b.val, 9)]
  | .sub d a b => put 0x00000002 [(d.val, 19), (a.val, 14), (b.val, 9)]
  | .and d a b => put 0x00000003 [(d.val, 19), (a.val, 14), (b.val, 9)]
  | .or d a b => put 0x00000004 [(d.val, 19), (a.val, 14), (b.val, 9)]
  | .xor d a b => put 0x00000005 [(d.val, 19), (a.val, 14), (b.val, 9)]
  | .andn d a b => put 0x00000006 [(d.val, 19), (a.val, 14), (b.val, 9)]
  | .orn d a b => put 0x00000007 [(d.val, 19), (a.val, 14), (b.val, 9)]
  | .sll d a b => put 0x00000008 [(d.val, 19), (a.val, 14), (b.val, 9)]
  | .srl d a b => put 0x00000009 [(d.val, 19), (a.val, 14), (b.val, 9)]
  | .sra d a b => put 0x0000000A [(d.val, 19), (a.val, 14), (b.val, 9)]
  | .mul d a b => put 0x0000000B [(d.val, 19), (a.val, 14), (b.val, 9)]
  | .mulh d a b => put 0x0000000C [(d.val, 19), (a.val, 14), (b.val, 9)]
  | .mulhu d a b => put 0x0000000D [(d.val, 19), (a.val, 14), (b.val, 9)]
  | .div d a b => put 0x0000000E [(d.val, 19), (a.val, 14), (b.val, 9)]
  | .divu d a b => put 0x0000010E [(d.val, 19), (a.val, 14), (b.val, 9)]
  | .rem d a b => put 0x0000000F [(d.val, 19), (a.val, 14), (b.val, 9)]
  | .remu d a b => put 0x0000010F [(d.val, 19), (a.val, 14), (b.val, 9)]
  | .slt d a b => put 0x00000010 [(d.val, 19), (a.val, 14), (b.val, 9)]
  | .sltu d a b => put 0x00000011 [(d.val, 19), (a.val, 14), (b.val, 9)]
  | .min d a b => put 0x00000012 [(d.val, 19), (a.val, 14), (b.val, 9)]
  | .max d a b => put 0x00000013 [(d.val, 19), (a.val, 14), (b.val, 9)]
  | .minu d a b => put 0x00000014 [(d.val, 19), (a.val, 14), (b.val, 9)]
  | .maxu d a b => put 0x00000015 [(d.val, 19), (a.val, 14), (b.val, 9)]
  | .clz d a => put 0x00000016 [(d.val, 19), (a.val, 14)]
  | .ctz d a => put 0x00000017 [(d.val, 19), (a.val, 14)]
  | .popc d a => put 0x00000018 [(d.val, 19), (a.val, 14)]
  | .rol d a b => put 0x00000019 [(d.val, 19), (a.val, 14), (b.val, 9)]
  | .ror d a b => put 0x0000001A [(d.val, 19), (a.val, 14), (b.val, 9)]
  | .sext d a b => put 0x0000001B [(d.val, 19), (a.val, 14), (b.val, 9)]
  | .zext d a b => put 0x0000001C [(d.val, 19), (a.val, 14), (b.val, 9)]
  | .bext d a b => put 0x0000001D [(d.val, 19), (a.val, 14), (b.val, 9)]
  | .bins d a b => put 0x0000001E [(d.val, 19), (a.val, 14), (b.val, 9)]
  | .addi d a i => put 0x01000000 [(d.val, 19), (a.val, 14), (i.toNat, 0)]
  | .andi d a i => put 0x02000000 [(d.val, 19), (a.val, 14), (i.toNat, 0)]
  | .ori d a i => put 0x03000000 [(d.val, 19), (a.val, 14), (i.toNat, 0)]
  | .xori d a i => put 0x04000000 [(d.val, 19), (a.val, 14), (i.toNat, 0)]
  | .slti d a i => put 0x05000000 [(d.val, 19), (a.val, 14), (i.toNat, 0)]
  | .sltiu d a i => put 0x06000000 [(d.val, 19), (a.val, 14), (i.toNat, 0)]
  | .muli d a i => put 0x0A000000 [(d.val, 19), (a.val, 14), (i.toNat, 0)]
  | .slli d a n => put 0x07000000 [(d.val, 19), (a.val, 14), (n.val, 0)]
  | .srli d a n => put 0x07001000 [(d.val, 19), (a.val, 14), (n.val, 0)]
  | .srai d a n => put 0x07002000 [(d.val, 19), (a.val, 14), (n.val, 0)]
  | .roli d a n => put 0x07003000 [(d.val, 19), (a.val, 14), (n.val, 0)]
  | .bexti d a l p => put 0x0B000000 [(d.val, 19), (a.val, 14), (l.val, 6), (p.val, 0)]
  | .binsi d a l p => put 0x0C000000 [(d.val, 19), (a.val, 14), (l.val, 6), (p.val, 0)]
  | .lui d i => put 0x08000000 [(d.val, 19), (i.toNat, 0)]
  | .auipc d i => put 0x09000000 [(d.val, 19), (i.toNat, 0)]
  | .beq a b o => put 0x10000000 [(a.val, 19), (b.val, 14), (o.toNat, 0)]
  | .bne a b o => put 0x11000000 [(a.val, 19), (b.val, 14), (o.toNat, 0)]
  | .blt a b o => put 0x12000000 [(a.val, 19), (b.val, 14), (o.toNat, 0)]
  | .bge a b o => put 0x13000000 [(a.val, 19), (b.val, 14), (o.toNat, 0)]
  | .bltu a b o => put 0x14000000 [(a.val, 19), (b.val, 14), (o.toNat, 0)]
  | .bgeu a b o => put 0x15000000 [(a.val, 19), (b.val, 14), (o.toNat, 0)]
  | .bbs a i o => put 0x16000000 [(a.val, 19), (i.val, 13), (o.toNat, 0)]
  | .bbc a i o => put 0x17000000 [(a.val, 19), (i.val, 13), (o.toNat, 0)]
  | .j o => put 0x18000000 [(o.toNat, 0)]
  | .jal o => put 0x19000000 [(o.toNat, 0)]
  | .jalr d a i => put 0x1A000000 [(d.val, 19), (a.val, 14), (i.toNat, 0)]
  | .brloop a o => put 0x1B000000 [(a.val, 19), (o.toNat, 0)]
  | .fadd d a b => put 0x0F000001 [(d.val, 19), (a.val, 14), (b.val, 9)]
  | .fsub d a b => put 0x0F000002 [(d.val, 19), (a.val, 14), (b.val, 9)]
  | .fmul d a b => put 0x0F000003 [(d.val, 19), (a.val, 14), (b.val, 9)]
  | .ffma d a b => put 0x0F000004 [(d.val, 19), (a.val, 14), (b.val, 9)]
  | .fmin d a b => put 0x0F000005 [(d.val, 19), (a.val, 14), (b.val, 9)]
  | .fmax d a b => put 0x0F000006 [(d.val, 19), (a.val, 14), (b.val, 9)]
  | .fcmp d a b p => put 0x0F000007 [(d.val, 19), (a.val, 14), (b.val, 9), (p.val, 6)]
  | .fcvt d a k => put 0x0F000008 [(d.val, 19), (a.val, 14), (k.val, 5)]
  | .ld d a s z i => put 0x20000000 [(d.val, 19), (a.val, 14), (s.val, 12), (z.toNat, 11), (i.toNat, 0)]
  | .st t a s i => put 0x21000000 [(t.val, 19), (a.val, 14), (s.val, 12), (i.toNat, 0)]
  | .ldS d a s z o i => put 0x22000000 [(d.val, 19), (a.val, 14), (s.val, 12), (z.toNat, 11), (o.val, 9), (i.toNat, 0)]
  | .stS t a s o i => put 0x23000000 [(t.val, 19), (a.val, 14), (s.val, 12), (o.val, 9), (i.toNat, 0)]
  | .atom d a b s o p => put 0x24000000 [(d.val, 19), (a.val, 14), (b.val, 9), (s.val, 6), (o.val, 4), (p.val, 0)]
  | .cas d a b s o => put 0x25000000 [(d.val, 19), (a.val, 14), (b.val, 9), (s.val, 6), (o.val, 4)]
  | .mark => put 0x26000000 []
  | .fenceRel s => put 0x26000010 [(s.val, 6)]
  | .fenceAcq s => put 0x26000020 [(s.val, 6)]
  | .fenceAr s => put 0x26000030 [(s.val, 6)]
  | .lblk d a h n => put 0x27000000 [(d.val, 19), (a.val, 14), (h.val, 10), (n.val, 4)]
  | .lblkRel d h => put 0x27000001 [(d.val, 19), (h.val, 10)]
  | .blkwait d h => put 0x28000001 [(d.val, 19), (h.val, 14)]
  | .pspace d a => put 0x29000001 [(d.val, 19), (a.val, 14)]
  | .pcast d a b => put 0x29000002 [(d.val, 19), (a.val, 14), (b.val, 9)]
  | .txb d => put 0x2A000001 [(d.val, 19)]
  | .txe d => put 0x2A000002 [(d.val, 19)]
  | .txa a => put 0x2A000003 [(a.val, 14)]
  | .pgalloc d => put 0x2B000001 [(d.val, 19)]
  | .pgallocNb d => put 0x2B000021 [(d.val, 19)]
  | .pgfree d a => put 0x2B000002 [(d.val, 19), (a.val, 14)]
  | .sgnew d a => put 0x2C000001 [(d.val, 19), (a.val, 14)]
  | .sgnewCl d a => put 0x2C000021 [(d.val, 19), (a.val, 14)]
  | .sgfree d a => put 0x2C000002 [(d.val, 19), (a.val, 14)]
  | .sgpin d a => put 0x2C000003 [(d.val, 19), (a.val, 14)]
  | .sgunpin d a => put 0x2C000004 [(d.val, 19), (a.val, 14)]
  | .sgpref d a => put 0x2C000005 [(d.val, 19), (a.val, 14)]
  | .sginfo d a => put 0x2C000006 [(d.val, 19), (a.val, 14)]
  | .sgquota d a => put 0x2C000007 [(d.val, 19), (a.val, 14)]
  | .sgsched d a b => put 0x2C000008 [(d.val, 19), (a.val, 14), (b.val, 9)]
  | .spawn d a => put 0x30000001 [(d.val, 19), (a.val, 14)]
  | .tend => put 0x30000002 []
  | .yield => put 0x30000003 []
  | .await d a b => put 0x30000004 [(d.val, 19), (a.val, 14), (b.val, 9)]
  | .domjoin d a l => put 0x31000001 [(d.val, 19), (a.val, 14), (l.val, 5)]
  | .domleave d l => put 0x31000002 [(d.val, 19), (l.val, 5)]
  | .bardecl d a l => put 0x31000003 [(d.val, 19), (a.val, 14), (l.val, 5)]
  | .bararr d l => put 0x31000004 [(d.val, 19), (l.val, 5)]
  | .barwait d l => put 0x31000005 [(d.val, 19), (l.val, 5)]
  | .scnew d a => put 0x32000001 [(d.val, 19), (a.val, 14)]
  | .cancel d a => put 0x32000002 [(d.val, 19), (a.val, 14)]
  | .cancelwait d a => put 0x32000003 [(d.val, 19), (a.val, 14)]
  | .grun d a => put 0x33000001 [(d.val, 19), (a.val, 14)]
  | .tkpost e => put 0x34000001 [(e.val, 5)]
  | .tkwait e => put 0x34000002 [(e.val, 5)]
  | .qpush a => put 0x34000003 [(a.val, 14)]
  | .qpop d => put 0x34000004 [(d.val, 19)]
  | .fmtq a => put 0x34000005 [(a.val, 14)]
  | .mlease => put 0x34000006 []
  | .mleaseG d a => put 0x34000026 [(d.val, 19), (a.val, 14)]
  | .mrelease => put 0x34000007 []
  | .chwait d a h => put 0x34000008 [(d.val, 19), (a.val, 14), (h.val, 5)]
  | .chid d h => put 0x34000009 [(d.val, 19), (h.val, 5)]
  | .tdset d a n => put 0x35000001 [(d.val, 19), (a.val, 14), (n.val, 5)]
  | .cdset d a n => put 0x35000002 [(d.val, 19), (a.val, 14), (n.val, 5)]
  | .agset d a n => put 0x35000003 [(d.val, 19), (a.val, 14), (n.val, 5)]
  | .portbind d a p => put 0x35000004 [(d.val, 19), (a.val, 14), (p.val, 5)]
  | .trap i => put 0x38000001 [(i.toNat, 9)]
  | .tret k r => put 0x38000002 [(k.toNat, 10), (r.toNat, 9)]
  | .srd d n m => put 0x38000003 [(d.val, 19), (n.val, 9), (m.val, 5)]
  | .swr t n m => put 0x38000004 [(t.val, 19), (n.val, 9), (m.val, 5)]
  | .swrFlags t => put 0x38002004 [(t.val, 19)]
  | .swrVtype t => put 0x38002204 [(t.val, 19)]
  | .swrRrb t => put 0x38002404 [(t.val, 19)]
  | .swrEc t => put 0x38002604 [(t.val, 19)]
  | .swrSrseed t => put 0x38002A04 [(t.val, 19)]
  | .swrPreempt t => put 0x38021404 [(t.val, 19)]
  | .swrEnvcb t => put 0x38021804 [(t.val, 19)]
  | .swrInjcfg t => put 0x38040204 [(t.val, 19)]
  | .accspill d a b => put 0x38000005 [(d.val, 19), (a.val, 14), (b.val, 9)]
  | .accfill d a b => put 0x38000006 [(d.val, 19), (a.val, 14), (b.val, 9)]
  | .ctxsave d a => put 0x38000007 [(d.val, 19), (a.val, 14)]
  | .ctxload d a b => put 0x38000008 [(d.val, 19), (a.val, 14), (b.val, 9)]
  | .tlbinv d a b => put 0x38000009 [(d.val, 19), (a.val, 14), (b.val, 9)]
  | .elogrd d a b => put 0x3800000A [(d.val, 19), (a.val, 14), (b.val, 9)]
  | .moncall d a b => put 0x3800000B [(d.val, 19), (a.val, 14), (b.val, 9)]
  | .halt => put 0x3800000C []
  | .vnop t => put 0x40000000 [(t.wait.val, 2), (t.post.val, 0)]
  | .vadd d a b t => put 0x41000000 [(d.val, 19), (a.val, 14), (b.val, 9), (t.guard.val, 5), (t.sense.toNat, 4), (t.wait.val, 2), (t.post.val, 0)]
  | .vsub d a b t => put 0x42000000 [(d.val, 19), (a.val, 14), (b.val, 9), (t.guard.val, 5), (t.sense.toNat, 4), (t.wait.val, 2), (t.post.val, 0)]
  | .vmul d a b t => put 0x43000000 [(d.val, 19), (a.val, 14), (b.val, 9), (t.guard.val, 5), (t.sense.toNat, 4), (t.wait.val, 2), (t.post.val, 0)]
  | .vfma d a b t => put 0x44000000 [(d.val, 19), (a.val, 14), (b.val, 9), (t.guard.val, 5), (t.sense.toNat, 4), (t.wait.val, 2), (t.post.val, 0)]
  | .vfms d a b t => put 0x45000000 [(d.val, 19), (a.val, 14), (b.val, 9), (t.guard.val, 5), (t.sense.toNat, 4), (t.wait.val, 2), (t.post.val, 0)]
  | .vmin d a b t => put 0x46000000 [(d.val, 19), (a.val, 14), (b.val, 9), (t.guard.val, 5), (t.sense.toNat, 4), (t.wait.val, 2), (t.post.val, 0)]
  | .vmax d a b t => put 0x47000000 [(d.val, 19), (a.val, 14), (b.val, 9), (t.guard.val, 5), (t.sense.toNat, 4), (t.wait.val, 2), (t.post.val, 0)]
  | .vabs d a t => put 0x48000000 [(d.val, 19), (a.val, 14), (t.guard.val, 5), (t.sense.toNat, 4), (t.wait.val, 2), (t.post.val, 0)]
  | .vneg d a t => put 0x49000000 [(d.val, 19), (a.val, 14), (t.guard.val, 5), (t.sense.toNat, 4), (t.wait.val, 2), (t.post.val, 0)]
  | .vand d a b t => put 0x4A000000 [(d.val, 19), (a.val, 14), (b.val, 9), (t.guard.val, 5), (t.sense.toNat, 4), (t.wait.val, 2), (t.post.val, 0)]
  | .vor d a b t => put 0x4B000000 [(d.val, 19), (a.val, 14), (b.val, 9), (t.guard.val, 5), (t.sense.toNat, 4), (t.wait.val, 2), (t.post.val, 0)]
  | .vxor d a b t => put 0x4C000000 [(d.val, 19), (a.val, 14), (b.val, 9), (t.guard.val, 5), (t.sense.toNat, 4), (t.wait.val, 2), (t.post.val, 0)]
  | .vshl d a b t => put 0x4D000000 [(d.val, 19), (a.val, 14), (b.val, 9), (t.guard.val, 5), (t.sense.toNat, 4), (t.wait.val, 2), (t.post.val, 0)]
  | .vshr d a b t => put 0x4E000000 [(d.val, 19), (a.val, 14), (b.val, 9), (t.guard.val, 5), (t.sense.toNat, 4), (t.wait.val, 2), (t.post.val, 0)]
  | .vshra d a b t => put 0x4F000000 [(d.val, 19), (a.val, 14), (b.val, 9), (t.guard.val, 5), (t.sense.toNat, 4), (t.wait.val, 2), (t.post.val, 0)]
  | .vcmpeq d a b t => put 0x50000000 [(d.val, 19), (a.val, 14), (b.val, 9), (t.guard.val, 5), (t.sense.toNat, 4), (t.wait.val, 2), (t.post.val, 0)]
  | .vcmplt d a b t => put 0x51000000 [(d.val, 19), (a.val, 14), (b.val, 9), (t.guard.val, 5), (t.sense.toNat, 4), (t.wait.val, 2), (t.post.val, 0)]
  | .vcmple d a b t => put 0x52000000 [(d.val, 19), (a.val, 14), (b.val, 9), (t.guard.val, 5), (t.sense.toNat, 4), (t.wait.val, 2), (t.post.val, 0)]
  | .vsel d a b t => put 0x53000000 [(d.val, 19), (a.val, 14), (b.val, 9), (t.guard.val, 5), (t.sense.toNat, 4), (t.wait.val, 2), (t.post.val, 0)]
  | .vcvt d a k t => put 0x54000000 [(d.val, 19), (a.val, 14), (k.val, 9), (t.guard.val, 5), (t.sense.toNat, 4), (t.wait.val, 2), (t.post.val, 0)]
  | .vqmax d a t => put 0x55000000 [(d.val, 19), (a.val, 14), (t.guard.val, 5), (t.sense.toNat, 4), (t.wait.val, 2), (t.post.val, 0)]
  | .vqcvt d a b t => put 0x56000000 [(d.val, 19), (a.val, 14), (b.val, 9), (t.guard.val, 5), (t.sense.toNat, 4), (t.wait.val, 2), (t.post.val, 0)]
  | .vdq d a t => put 0x57000000 [(d.val, 19), (a.val, 14), (t.guard.val, 5), (t.sense.toNat, 4), (t.wait.val, 2), (t.post.val, 0)]
  | .vred d a o t => put 0x58000000 [(d.val, 19), (a.val, 14), (o.val, 9), (t.guard.val, 5), (t.sense.toNat, 4), (t.wait.val, 2), (t.post.val, 0)]
  | .vany a t => put 0x59000000 [(a.val, 14), (t.guard.val, 5), (t.sense.toNat, 4), (t.wait.val, 2), (t.post.val, 0)]
  | .vall a t => put 0x5A000000 [(a.val, 14), (t.guard.val, 5), (t.sense.toNat, 4), (t.wait.val, 2), (t.post.val, 0)]
  | .vbcast d a l t => put 0x5B000000 [(d.val, 19), (a.val, 14), (l.val, 9), (t.guard.val, 5), (t.sense.toNat, 4), (t.wait.val, 2), (t.post.val, 0)]
  | .vperm d a b t => put 0x5C000000 [(d.val, 19), (a.val, 14), (b.val, 9), (t.guard.val, 5), (t.sense.toNat, 4), (t.wait.val, 2), (t.post.val, 0)]
  | .viota d t => put 0x5D000000 [(d.val, 19), (t.guard.val, 5), (t.sense.toNat, 4), (t.wait.val, 2), (t.post.val, 0)]
  | .vmov d a t => put 0x5E000000 [(d.val, 19), (a.val, 14), (t.guard.val, 5), (t.sense.toNat, 4), (t.wait.val, 2), (t.post.val, 0)]
  | .vsplat d i t => put 0x5F000000 [(d.val, 19), (i.toNat, 9), (t.guard.val, 5), (t.sense.toNat, 4), (t.wait.val, 2), (t.post.val, 0)]
  | .vexp2 d a t => put 0x60000000 [(d.val, 19), (a.val, 14), (t.guard.val, 5), (t.sense.toNat, 4), (t.wait.val, 2), (t.post.val, 0)]
  | .vrcp d a t => put 0x61000000 [(d.val, 19), (a.val, 14), (t.guard.val, 5), (t.sense.toNat, 4), (t.wait.val, 2), (t.post.val, 0)]
  | .vrsqrt d a t => put 0x62000000 [(d.val, 19), (a.val, 14), (t.guard.val, 5), (t.sense.toNat, 4), (t.wait.val, 2), (t.post.val, 0)]
  | .vcsum x a t => put 0x63000000 [(x.val, 19), (a.val, 14), (t.guard.val, 5), (t.sense.toNat, 4), (t.wait.val, 2), (t.post.val, 0)]
  | .vcsumSet x a t => put 0x63000200 [(x.val, 19), (a.val, 14), (t.guard.val, 5), (t.sense.toNat, 4), (t.wait.val, 2), (t.post.val, 0)]
  | .vcsumClr x t => put 0x63000400 [(x.val, 19), (t.wait.val, 2), (t.post.val, 0)]
  | .vchk a b t => put 0x64000000 [(a.val, 14), (b.val, 9), (t.wait.val, 2), (t.post.val, 0)]
  | .kand d a b t => put 0x65000000 [(d.val, 19), (a.val, 14), (b.val, 9), (t.guard.val, 5), (t.sense.toNat, 4), (t.wait.val, 2), (t.post.val, 0)]
  | .kor d a b t => put 0x66000000 [(d.val, 19), (a.val, 14), (b.val, 9), (t.guard.val, 5), (t.sense.toNat, 4), (t.wait.val, 2), (t.post.val, 0)]
  | .kxor d a b t => put 0x67000000 [(d.val, 19), (a.val, 14), (b.val, 9), (t.guard.val, 5), (t.sense.toNat, 4), (t.wait.val, 2), (t.post.val, 0)]
  | .knot d a t => put 0x68000000 [(d.val, 19), (a.val, 14), (t.guard.val, 5), (t.sense.toNat, 4), (t.wait.val, 2), (t.post.val, 0)]
  | .vcfg i t => put 0x69000000 [(i.toNat, 9), (t.wait.val, 2), (t.post.val, 0)]
  | .vxtr a t => put 0x6A000000 [(a.val, 14), (t.guard.val, 5), (t.sense.toNat, 4), (t.wait.val, 2), (t.post.val, 0)]
  | .vpack d a s t => put 0x6B000000 [(d.val, 19), (a.val, 14), (s.val, 9), (t.guard.val, 5), (t.sense.toNat, 4), (t.wait.val, 2), (t.post.val, 0)]
  | .vunpk d a s t => put 0x6C000000 [(d.val, 19), (a.val, 14), (s.val, 9), (t.guard.val, 5), (t.sense.toNat, 4), (t.wait.val, 2), (t.post.val, 0)]
  | .mnop k => put 0x80000000 [(k.wait.val, 2), (k.post.val, 0)]
  | .mma u t a b m x y k f q => put 0x82000000 [(u.val, 22), (t.val, 18), (a.val, 14), (b.val, 10), (m.toNat, 9), (x.toNat, 8), (y.toNat, 7), (k.toNat, 6), (f.toNat, 5), (q.wait.val, 2), (q.post.val, 0)]
  | .mzero t k => put 0x84000000 [(t.val, 18), (k.wait.val, 2), (k.post.val, 0)]
  | .mdrain t a k => put 0x86000000 [(t.val, 18), (a.val, 14), (k.wait.val, 2), (k.post.val, 0)]
  | .mloadc t a k => put 0x88000000 [(t.val, 18), (a.val, 14), (k.wait.val, 2), (k.post.val, 0)]
  | .cnop h t => put 0xC0001000 [(h.val, 22), (t.wait.val, 2), (t.post.val, 0)]
  | .cpy h c r t => put 0xC2001000 [(h.val, 22), (c.val, 18), (r.toNat, 13), (t.wait.val, 2), (t.post.val, 0)]
  | .cred h c r o t => put 0xC4001000 [(h.val, 22), (c.val, 18), (r.toNat, 13), (o.val, 8), (t.wait.val, 2), (t.post.val, 0)]
  | .cgath h c r t => put 0xC6001000 [(h.val, 22), (c.val, 18), (r.toNat, 13), (t.wait.val, 2), (t.post.val, 0)]
  | .cscat h c r t => put 0xC8001000 [(h.val, 22), (c.val, 18), (r.toNat, 13), (t.wait.val, 2), (t.post.val, 0)]
  | .cmcast h c r t => put 0xCA001000 [(h.val, 22), (c.val, 18), (r.toNat, 13), (t.wait.val, 2), (t.post.val, 0)]
  | .cfill h c r o t => put 0xCC001000 [(h.val, 22), (c.val, 18), (r.toNat, 13), (o.val, 8), (t.wait.val, 2), (t.post.val, 0)]
  | .vFinish _ => 0
  | .markerApply _ => 0
  | .agEntry _ _ => 0
  | .cStart _ => 0
  | .copyUnit _ _ => 0
  | .cComplete _ _ => 0
  | .mStart _ => 0
  | .microStep _ => 0
  | .mComplete _ => 0
  | .quiescentPoint _ => 0
  | .leaseIdleTimeout _ => 0
  | .ticketServe _ => 0
  | .segmentEvict _ => 0
  | .segmentRecall _ => 0
  | .freshFill _ => 0
  | .compaction _ => 0
  | .poolScrub _ => 0
  | .storePerform _ => 0
  | .writeBack _ _ => 0
  | .loadBlockFill _ _ _ => 0
  | .taskStart _ => 0
  | .resume _ => 0
  | .taskEnd _ => 0
  | .graphNodePlace _ => 0
  | .launchScan _ => 0
  | .periodicWake _ => 0
  | .wake _ _ => 0
  | .wakeWindowEnd _ => 0
  | .steal _ => 0
  | .dequeRefill _ => 0
  | .spillSweep _ => 0
  | .preload _ => 0
  | .preloadComplete _ => 0
  | .slotReselect _ => 0
  | .yieldTimeout _ => 0
  | .waitSatisfied _ => 0
  | .stallEnd _ => 0
  | .awaitReread _ => 0
  | .barrierLanding _ => 0
  | .barwaitReturn _ => 0
  | .asyncDelivery _ => 0
  | .watchdog _ => 0
  | .preemptBudget _ => 0
  | .loopDrainTimeout _ => 0
  | .saveTorn _ => 0
  | .kill _ => 0
  | .cfgCtl => 0
  | .configCommit => 0
  | .cfgTmo => 0
  | .partRun _ => 0
  | .partStop _ => 0
  | .partReset _ => 0
  | .coreRun _ => 0
  | .dma => 0
  | .logSwap _ => 0
  | .powerCap _ => 0
  | .pfRegisterWrite _ _ => 0
  | .doorbell _ _ => 0
  | .keyLoad _ _ _ => 0
  | .keyClear _ _ => 0
  | .linkCrcError _ _ => 0
  | .falranRequest _ _ _ => 0
  | .falranData _ _ => 0
  | .falranResponse _ _ _ => 0
  | .falranAck _ _ => 0
  | .falranRetryRequest _ _ => 0
  | .thermalTrip => 0
  | .clockThrottle _ => 0
  | .coldReset _ => 0
  | .illegal _ _ => 0
  | .allowanceRefill _ => 0
  | .spdmRequest _ _ => 0

/-- The word of an instruction. -/
def encode (i : Instr) : IWord := .ofNat 32 (encodeNat i)

end Sys2Proof
end

