-- ==== Sys2Proof/Machine/Cipher.lean ====
section
/-! DEFINITION. AES-256-XTS of 36-byte units (08 R194) and AES key unwrap (20 R394), which the spec names and FIPS 197, IEEE 1619 and RFC 3394
define (log 17). A block is sixteen bytes, a byte a number below 256. -/

namespace Sys2Proof.Machine

/-! ### AES (FIPS 197) -/

/-- The substitution table, byte n at bits 8n + 7 to 8n. -/
def sboxTable : Nat := 0x16BB54B00F2D99416842E6BF0D89A18CDF2855CEE9871E9B948ED9691198F8E19E1DC186B95735610EF6034866B53E708A8BBD4B1F74DDE8C6B4A61C2E2578BA08AE7A65EAF4566CA94ED58D6D37C8E779E4959162ACD3C25C2406490A3A32E0DB0B5EDE14B8EE4688902A22DC4F816073195D643D7EA7C41744975FEC130CCDD2F3FF1021DAB6BCF5389D928F40A351A89F3C507F02F94585334D43FBAAEFD0CF584C4A39BECB6A5BB1FC20ED00D153842FE329B3D63B52A05A6E1B1A2C830975B227EBE28012079A059618C323C7041531D871F1E5A534CCF73F362693FDB7C072A49CAFA2D4ADF04759FA7DC982CA76ABD7FE2B670130C56F6BF27B777C63

/-- Its inverse. -/
def invSboxTable : Nat := 0x7D0C2155631469E126D677BA7E042B17619953833CBBEBC8B0F52AAE4D3BE0A0EF9CC9939F7AE52D0D4AB519A97F51605FEC8027591012B131C7078833A8DD1FF45ACD78FEC0DB9A2079D2C64B3E56FC1BBE18AA0E62B76F89C5291D711AF1476EDF751CE837F9E28535ADE72274AC9673E6B4F0CECFF297EADC674F4111913A6B8A130103BDAFC1020F3FCA8F1E2CD00645B3B80558E4F70AD3BC8C00ABD890849D8DA75746155EDAB9EDFD5048706C92B6655DCC5CA4D41698688664F6F87225D18B6D49A25B76B224D92866A12E084EC3FA420B954CEE3D23C2A632947B54CBE9DEC444438E3487FF2F9B8239E37CFBD7F3819EA340BF38A53630D56A0952

/-- SubBytes of a byte. -/
def sbox (b : Nat) : Nat := sboxTable / 256 ^ b % 256

/-- InvSubBytes of a byte. -/
def invSbox (b : Nat) : Nat := invSboxTable / 256 ^ b % 256

/-- Multiplication by x in GF(2^8). -/
def xtime (b : Nat) : Nat := if b < 128 then 2 * b else (2 * b % 256) ^^^ 0x1B

/-- Multiplication in GF(2^8) by a factor below 16. -/
def gmul (k b : Nat) : Nat :=
  let b2 := xtime b
  let b4 := xtime b2
  let part := fun (n v : Nat) => if k.testBit n then v else 0
  part 0 b ^^^ part 1 b2 ^^^ part 2 b4 ^^^ part 3 (xtime b4)

/-- The bitwise sum of two byte strings. -/
def xorBytes (a b : List Nat) : List Nat := (a.zip b).map fun e => e.1 ^^^ e.2

/-- Bytes moved to new places. -/
def shuffle (b : List Nat) (from_ : Nat → Nat) : List Nat := (List.range 16).map fun n => b.getD (from_ n) 0

/-- ShiftRows: row r of column c comes from column c + r. -/
def shiftRows (b : List Nat) : List Nat := shuffle b fun n => (n + 4 * (n % 4)) % 16

/-- InvShiftRows. -/
def invShiftRows (b : List Nat) : List Nat := shuffle b fun n => (n + 12 * (n % 4)) % 16

/-- Each column multiplied by the circulant matrix whose first row is m. -/
def mixColumns (m : List Nat) (b : List Nat) : List Nat :=
  (List.range 16).map fun n =>
    (List.range 4).foldl (fun a k => a ^^^ gmul (m.getD ((k + 4 - n % 4) % 4) 0) (b.getD (n / 4 * 4 + k) 0)) 0

/-- Words 8 on of a key schedule, newest first, from the words before. -/
def expandKey (w : List (List Nat)) (rcon i : Nat) : Nat → List (List Nat)
  | 0 => w
  | n + 1 =>
    let t := w.headD []
    let u := if i % 8 = 0 then xorBytes ((t.drop 1 ++ t.take 1).map sbox) [rcon, 0, 0, 0]
      else if i % 8 = 4 then t.map sbox else t
    expandKey (xorBytes (w.getD 7 []) u :: w) (if i % 8 = 0 then xtime rcon else rcon) (i + 1) n

/-- The fifteen round keys of a 32-byte key. -/
def roundKeys (key : List Nat) : List (List Nat) :=
  let w := (List.range 8).map fun i => (key.drop (4 * i)).take 4
  let all := (expandKey w.reverse 1 8 52).reverse
  (List.range 15).map fun r => ((all.drop (4 * r)).take 4).flatten

/-- The middle rounds and the last one, from the round keys that are left. -/
def encryptRounds : List (List Nat) → List Nat → List Nat
  | [], b => b
  | [k], b => xorBytes (shiftRows (b.map sbox)) k
  | k :: l, b => encryptRounds l (xorBytes (mixColumns [2, 3, 1, 1] (shiftRows (b.map sbox))) k)

/-- AES-256 of a block. -/
def aesEncrypt (key b : List Nat) : List Nat :=
  let ks := roundKeys key
  encryptRounds (ks.drop 1) (xorBytes b (ks.headD []))

/-- The inverse rounds, from the round keys in reverse. -/
def decryptRounds : List (List Nat) → List Nat → List Nat
  | [], b => b
  | [k], b => xorBytes ((invShiftRows b).map invSbox) k
  | k :: l, b => decryptRounds l (mixColumns [14, 11, 13, 9] (xorBytes ((invShiftRows b).map invSbox) k))

/-- The inverse of `aesEncrypt`. -/
def aesDecrypt (key b : List Nat) : List Nat :=
  let ks := (roundKeys key).reverse
  decryptRounds (ks.drop 1) (xorBytes b (ks.headD []))

/-! ### XTS (IEEE 1619) -/

/-- n bytes of a number, lowest first. -/
def numBytes (n v : Nat) : List Nat := (List.range n).map fun k => v / 256 ^ k % 256

/-- The number of bytes, lowest first. -/
def bytesNum (b : List Nat) : Nat := b.foldr (fun x a => x + 256 * a) 0

/-- A tweak multiplied by alpha in GF(2^128). -/
def nextTweak (t : Nat) : Nat := if t < 2 ^ 127 then 2 * t else (2 * t % 2 ^ 128) ^^^ 0x87

/-- The three tweaks of a unit under the second key. -/
def tweaks (key2 : List Nat) (unit : Nat) : List Nat × List Nat × List Nat :=
  let t := bytesNum (aesEncrypt key2 (numBytes 16 unit))
  (numBytes 16 t, numBytes 16 (nextTweak t), numBytes 16 (nextTweak (nextTweak t)))

/-- One block between its tweak's sums. -/
def tweaked (f : List Nat → List Nat) (t b : List Nat) : List Nat := xorBytes (f (xorBytes b t)) t

/-- The two keys of a key pair: the data key in the low half. -/
def keyPair (k : BitVec 512) : List Nat × List Nat :=
  ((numBytes 32 (bitsOf k 0 256)), numBytes 32 (bitsOf k 256 256))

/-- AES-256-XTS of a 36-byte unit, with ciphertext stealing for its last 4 bytes (R194). -/
def xtsEncrypt (k : BitVec 512) (unit : Nat) (v : BitVec 288) : BitVec 288 :=
  let (k1, k2) := keyPair k
  let (t0, t1, t2) := tweaks k2 unit
  let p := numBytes 36 v.toNat
  let cc := tweaked (aesEncrypt k1) t1 ((p.drop 16).take 16)
  let last := tweaked (aesEncrypt k1) t2 (p.drop 32 ++ cc.drop 4)
  BitVec.ofNat 288 (bytesNum (tweaked (aesEncrypt k1) t0 (p.take 16) ++ last ++ cc.take 4))

/-- Its inverse. -/
def xtsDecrypt (k : BitVec 512) (unit : Nat) (v : BitVec 288) : BitVec 288 :=
  let (k1, k2) := keyPair k
  let (t0, t1, t2) := tweaks k2 unit
  let c := numBytes 36 v.toNat
  let pp := tweaked (aesDecrypt k1) t2 ((c.drop 16).take 16)
  let mid := tweaked (aesDecrypt k1) t1 (c.drop 32 ++ pp.drop 4)
  BitVec.ofNat 288 (bytesNum (tweaked (aesDecrypt k1) t0 (c.take 16) ++ mid ++ pp.take 4))

/-! ### Key unwrap (RFC 3394) -/

/-- The inverse steps from t down to 1 over the register a and the n blocks of 8 bytes; bytes stand highest first. -/
def unwrapSteps (kek : List Nat) (n : Nat) : Nat → List Nat → List (List Nat) → List Nat × List (List Nat)
  | 0, a, r => (a, r)
  | t + 1, a, r =>
    let i := t % n
    let b := aesDecrypt kek (xorBytes a (numBytes 8 (t + 1)).reverse ++ r.getD i [])
    unwrapSteps kek n t (b.take 8) (setAt r i (b.drop 8))

/-- AES key unwrap of a 512-bit key pair: none where the integrity value is not the standard one (R394). -/
def keyUnwrap (kek : BitVec 256) (w : BitVec 576) : Option (BitVec 512) :=
  let c := numBytes 72 w.toNat
  let blocks := (List.range 8).map fun i => (c.drop (8 * (i + 1))).take 8
  let x := unwrapSteps (numBytes 32 kek.toNat) 8 48 (c.take 8) blocks
  if x.1 = List.replicate 8 0xA6 then some (BitVec.ofNat 512 (bytesNum x.2.flatten)) else none

end Sys2Proof.Machine
end

