-- ==== Sys2Proof/Machine/Homes.lean ====
section
/-! DEFINITION. Where bytes live and how they move: physical memory and its homes (20 R376, R377; 08 R186, R194), the dirty log
(R385), the error log (R361), the L1 data cache (08 R182, R183), segments at their stores (R166), the notes a write leaves with transactions
and waits (R218, R161), and when a load binds (09 R207, R212). -/

namespace Sys2Proof.Machine

/-! ### Physical memory -/

/-- What a physical address names (R376). -/
inductive Phys where
  | hbm
  | host
  | hole
  deriving DecidableEq, Repr

/-- R376. -/
def physOf (pa : Nat) : Phys :=
  if pa < 0xC000000000 then .hbm else if pa / 2 ^ 48 = 0xF then .host else .hole

/-- The interleave entry in force for a region of HBM (R377). -/
def State.interOf (s : State) (pa : Nat) : Word :=
  tget 0 s.pkg.inter (pa / 2 ^ 30)

/-- The region of the address is mapped and belongs to the partition (R377). -/
def State.regionOk (s : State) (p : Fin 16) (pa : Nat) : Bool :=
  (s.interOf pa).getLsbD 63 && bitsOf (s.interOf pa) 56 4 == p.val

/-- The partition that owns an address by the interleave table (R377, R389). -/
def State.ownerPart (s : State) (pa : Nat) : Option (Fin 16) :=
  if physOf pa = .hbm ∧ (s.interOf pa).getLsbD 63 = true then some (Fin.ofNat 16 (bitsOf (s.interOf pa) 56 4)) else none

/-- The logical stack, which is the logical quarter, that homes an HBM address (R377). -/
def State.stackOf (s : State) (pa : Nat) : Nat :=
  bitsOf (s.interOf pa) 4 4 + (pa / 4096) % 2 ^ bitsOf (s.interOf pa) 0 3

/-- The home slice of an HBM address: quarter and logical slice (R186). -/
def State.sliceOf (s : State) (pa : Nat) : Nat × Nat :=
  (s.stackOf pa, (pa / 128) % 20)

/-- The logical die that homes an address. -/
def State.homeDie (s : State) (pa : Nat) : Nat := s.stackOf pa / 4

/-! ### Injection (R349; log 16) -/

/-- Sites of the injector by their INJCFG bit (Table 12). -/
inductive Site where
  | seal
  | hbmc
  | hbmu
  | store
  | acc
  | lane
  | flit
  | l1
  deriving DecidableEq, Repr

/-- The INJCFG bit of a site. -/
def Site.bit : Site → Nat
  | .seal => 8
  | .hbmc => 9
  | .hbmu => 10
  | .store => 11
  | .acc => 12
  | .lane => 13
  | .flit => 14
  | .l1 => 15

/-- Whether the access numbered n at a site of a die for a partition is hit. -/
def State.hit (s : State) (die : Nat) (p : Fin 16) (x : Site) (n : Nat) : Bool :=
  let d := s.dieOf die
  d.injcfg.getLsbD 0 && d.injcfg.getLsbD x.bit && bitsOf d.injcfg 20 4 == p.val && (s.partOf p).testFlag &&
    decide ((Config.injectorDraw d.injseed ((s.cycle * 2 ^ 64 + n) * 16 + x.bit)).toNat < bitsOf d.injrate 0 32)

/-- What an error that hits changes: a number of the injector's too. -/
def State.struckBits (s : State) (die : Nat) (x : Site) (n : Nat) : Nat :=
  (Config.injectorDraw (s.dieOf die).injseed ((s.cycle * 2 ^ 64 + 2 ^ 63 + n) * 16 + x.bit)).toNat

/-- A granule as an uncorrectable error leaves it (R188). -/
def poisonIf (b : Bool) (g : Granule) : Granule :=
  if b then { g with poison := true } else g

/-- A granule that an injector's uncorrectable error hits: it is the injector that makes it bad, if it was good (R361). -/
def injectIf (b : Bool) (g : Granule) : Granule :=
  if b then { g with poison := true, inj := g.inj || (checkGran g).isNone } else g

/-- A granule whose carried seal an injector's error has flipped (Table 12). -/
def sealFlipIf (b : Bool) (g : Granule) : Granule :=
  if b then { g with code := g.code ^^^ 1, inj := g.inj || (checkGran g).isNone } else g

/-! ### The stored form (R194) -/

/-- The key a page's accesses use: the loaded key of its slot, in HBM. -/
def State.keyOf (s : State) (p : Fin 16) (key : Option (Fin 16)) (pa : Nat) : Option (BitVec 512) :=
  match key with
  | none => none
  | some k => if physOf pa = .hbm then ((s.partOf p).keys.find? fun e => e.1 == k.val).map (·.2) else none

/-- A granule and its seal as one 36-byte unit. -/
def unit36 (g : Granule) : BitVec 288 := g.code ++ g.data

/-- The granule of a unit. -/
def ofUnit36 (u : BitVec 288) (p i : Bool) : Granule :=
  ⟨u.extractLsb' 0 256, u.extractLsb' 256 32, p, i⟩

/-- What a partition may not reach in HBM or where no memory is (R376, R377). -/
def State.closed (s : State) (p : Fin 16) (pa : Nat) : Bool :=
  decide (physOf pa = .hole) || (decide (physOf pa = .hbm) && !s.regionOk p pa)

/-- A granule of HBM under a page's key slot (R194): decrypted if it was stored under that key, and as it stands if under another (R394).
Where raw DMA brought it, the key is that whose unit has a good seal (log 17). -/
def State.underKey (s : State) (k : BitVec 512) (g : Nat) : Granule :=
  let raw := s.mem.gran g
  let d := ofUnit36 (xtsDecrypt k g (unit36 raw)) raw.poison raw.inj
  match s.under.find? fun e => e.1 == g with
  | some e => if e.2 = k then d else raw
  | none => if d.code = sealOf d.data then d else raw

/-- A granule as it leaves its store: from host memory with the seal that the host interface makes (R190). -/
def State.storedGran (s : State) (p : Fin 16) (key : Option (Fin 16)) (g : Nat) : Granule :=
  if physOf (32 * g) = .host then { mkGran (s.mem.gran g).data with poison := s.mem.poisonAt g, inj := s.mem.injAt g }
  else match s.keyOf p key (32 * g) with
    | none => s.mem.gran g
    | some k => s.underKey k g

/-- A granule read at its home by a partition (R377: poisoned where the region is not its own). -/
def State.homeGran (s : State) (p : Fin 16) (key : Option (Fin 16)) (g : Nat) : Granule :=
  let pa := 32 * g
  if s.closed p pa then ⟨0, zeroSeal, true, false⟩
  else
    let inHbm := decide (physOf pa = .hbm)
    sealFlipIf (inHbm && s.hit (s.homeDie pa) p .seal g) (injectIf (inHbm && s.hit (s.homeDie pa) p .hbmu g) (s.storedGran p key g))

/-! ### Logs -/

/-- Appends to a die's error log for a partition; 256 entries stay (R361). -/
def State.logError (s : State) (die : Nat) (p : Fin 16) (e : LogEntry) : State :=
  s.mapDie die fun d =>
    let r := tget (0, []) d.elog p.val
    { d with elog := tput d.elog p.val ((r.1 + 1) % 2 ^ 32, (e :: r.2).take 256) }

/-- Word 0 of an entry (R361, Table 6). -/
def logWord (kind : Nat) (ctx : Option (BitVec 8)) (inj : Bool) (core : Fin 256) (site : Nat) : Word :=
  word (2 ^ 63 + (if ctx.isSome then 2 ^ 62 else 0) + (if inj then 2 ^ 61 else 0) + kind * 2 ^ 48 +
    (ctx.getD 0).toNat * 2 ^ 40 + core.val * 2 ^ 32 + site * 2 ^ 24)

/-- An error of a store that holds granules is logged at its site: kind 1 corrected, kind 4 returned as poison (R188, R361; log 94). -/
def State.logArray (s : State) (die : Nat) (p : Fin 16) (c : Fin 256) (site : Nat) (corrected inj : Bool) (pa : Nat) : State :=
  s.logError die p ⟨logWord (if corrected then 1 else 4) none inj c site, word pa, word s.cycle, 0⟩

/-- The errors of an access to HBM are logged (R188, R349, R361). -/
def State.corrected (s : State) (c : Fin 256) (p : Fin 16) (g : Nat) : State :=
  let die := s.homeDie (32 * g)
  if physOf (32 * g) ≠ .hbm then s
  else
    let s1 := if s.hit die p .hbmc g then s.logArray die p c 4 true true (32 * g) else s
    if s.hit die p .hbmu g then s1.logArray die p c 4 false true (32 * g) else s1

/-- ERROR_INTERRUPT becomes pending for a partition (R197, R98). -/
def State.raiseError (s : State) (p : Fin 16) : State :=
  s.mapPart p fun q => { q with errPend := true }

/-- A failed device access is logged with kind 8 and raises ERROR_INTERRUPT (R98, R361). -/
def State.devFail (s : State) (p : Fin 16) : State :=
  (s.logError (dieOfCore (s.partOf p).icore) p ⟨logWord 8 none false (s.partOf p).icore 6, 0, word s.cycle, 0⟩).raiseError p

/-- What the host interface has failed to pass on is logged as the consumer it is (R190). -/
def State.logEgress (s : State) (p : Fin 16) (cause : BitVec 8) (pa : Nat) : State :=
  s.logError (dieOfCore (s.partOf p).icore) p
    ⟨logWord (if cause = 0x0C then 3 else 4) none false (s.partOf p).icore 5, word pa, word s.cycle, 0⟩

/-- A value of a PF register as written (R391). -/
def State.pfReg (s : State) (off : Nat) : Word :=
  tget 0 s.pkg.pf off

/-- A slot learns of a write performed at a home: a transaction that read the granule conflicts (R218), an AWAIT on it reads again
(R161). -/
def Slot.noted (x : Slot) (l : Loc) : Slot :=
  { x with
    tx := x.tx.map fun t => if t.reads.contains l then { t with conflict := true } else t
    sched := match x.status with
      | .waiting (.await _ _ _ m) => if m = l then { x.sched with awaitHit := true } else x.sched
      | _ => x.sched }

/-- Every slot learns of it, and so does a transaction of another device that has read the granule (R218). -/
def State.noted (s : State) (l : Loc) : State :=
  { s with
    slots := s.slots.map fun e => (e.1, e.2.noted l)
    pkg := { s.pkg with watches := s.pkg.watches.map fun w => if l = .phys w.granule then { w with hit := true } else w } }

/-- What a write replaces stays known to loads that have not bound yet (log 96). -/
def State.keepPast (s : State) (l : Loc) (old : Granule) : State :=
  { s with past := ⟨s.cycle, l, old, none, none⟩ :: s.past }

/-- Notes who made the newest write of a location. -/
def State.writtenBy (s : State) (l : Loc) (slot : Option SlotId) (core : Option (Fin 256)) : State :=
  { s with past := updFirst (fun e => decide (e.loc = l)) (fun e => { e with slot := slot, core := core }) s.past }

/-- A granule of memory is replaced; `old` is what it was to those who read it. -/
def State.putStored (s : State) (g : Nat) (y old : Granule) : State :=
  ({ s with mem := s.mem.putGran g y }.keepPast (.phys g) old).noted (.phys g)

/-- Sets one bit of the active dirty bitmap for a page of the partition's HBM (R385). The bitmap's granule is sealed anew; its own
write is not logged. -/
def State.setDirtyBit (s : State) (p : Fin 16) (pa : Nat) : State :=
  let q := s.partOf p
  let base := (s.pfReg (0x400 + 32 * p.val + (if q.logActive then 24 else 16))).toNat
  let i := pa / 2 ^ 16
  let a := base + i / 8
  let g := a / 32
  let old := s.mem.gran g
  s.putStored g (mkGran (old.data ||| ((1 : BitVec 256) <<< (8 * (a % 32) + i % 8)))) old

/-- Logs a write performed at a home in HBM: in mode 1 if its translation had dlog = 1, in mode 2 always (R385). -/
def State.logDirty (s : State) (p : Fin 16) (dlog : Bool) (pa : Nat) : State :=
  let m := (s.partOf p).logMode
  if physOf pa = .hbm ∧ (m = 2 ∨ (m = 1 ∧ dlog = true)) then s.setDirtyBit p pa else s

/-- A granule that leaves for host memory: the host interface consumes it, and what fails its check goes poisoned and is logged (R190). -/
def State.egress (s : State) (p : Fin 16) (g : Nat) (x : Granule) : State × Granule :=
  match checkGran x with
  | some (c, _) => (s.logEgress p c (32 * g), { x with poison := true })
  | none => (s, x)

/-- A granule of HBM in stored form, with the keys and pages that are stored under a key slot (R194, R389). A write through a translation
tells whether its page is. -/
def State.hbmPut (s : State) (p : Fin 16) (key : Option (Fin 16)) (g : Nat) (x : Granule) : State :=
  let k := s.keyOf p key (32 * g)
  let y := match k with
    | none => x
    | some k => ofUnit36 (xtsEncrypt k g (unit36 x)) x.poison x.inj
  let pages := match key, k with
    | none, _ => s.keyed
    | some _, none => s.keyed.filter (· != g / 2048)
    | some _, some _ => nput s.keyed (g / 2048)
  ({ s with
    keyed := pages
    under := match k with
      | none => tdrop s.under g
      | some k => tput s.under g k }).putStored g y (s.storedGran p key g)

/-- A granule is written at its home; one that the partition cannot reach is not written, and the failed access is logged (R377; log 97). -/
def State.homePutNow (s : State) (p : Fin 16) (key : Option (Fin 16)) (dlog : Bool) (g : Nat) (x : Granule) : State :=
  let pa := 32 * g
  if s.closed p pa then s.devFail p
  else if physOf pa = .host then
    let e := s.egress p g x
    e.1.putStored g e.2 (s.storedGran p key g)
  else (s.hbmPut p key g x).logDirty p dlog pa

/-- A commit holds the home of a location locked (R218). -/
def State.isLocked (s : State) (l : Loc) : Bool := s.pkg.locks.any fun k => decide (k.loc = l)

/-- A write waits at a locked home for the unlock (R218). -/
def State.hold (s : State) (h : Held) : State := s.mapPkg fun k => { k with held := k.held ++ [h] }

/-- A granule that reaches its home: it is written there, or waits while a commit holds the home locked (R218). -/
def State.homePut (s : State) (p : Fin 16) (key : Option (Fin 16)) (dlog : Bool) (g : Nat) (x : Granule) : State :=
  if s.isLocked (.phys g) then s.hold ⟨g, .write (BitVec.allOnes 32) x none, p, key, dlog, none, false⟩
  else s.homePutNow p key dlog g x

/-! ### When a load binds (R207, R212; log 96) -/

/-- The point after every write performed so far. -/
def State.now (s : State) : Nat := s.cycle + 1

/-- A number for the home of a location (R166, R186, R207). -/
def State.homeOf (s : State) (l : Loc) : Nat :=
  match l with
  | .phys n => match physOf (32 * n) with
    | .hbm => 20 * s.stackOf (32 * n) + (32 * n / 128) % 20
    | _ => 1000
  | .seg g _ => match s.segs.find? fun x => x.id = g with
    | some x => match x.pool with
      | .core c => 2000 + c.val
      | .cluster c => 3000 + c.val
    | none => 1001
  | .far d _ => 4000 + d

/-- A granule as it was at a point: what the earliest later write replaced, or what it is now. -/
def State.versionAt (s : State) (l : Loc) (t : Nat) (cur : Granule) : Granule :=
  match (s.past.filter fun e => decide (e.loc = l) && decide (t ≤ e.cycle)).getLast? with
  | some e => e.gran
  | none => cur

/-- A slot's own writes come before its loads of the same granule (R207). -/
def State.ownSince (s : State) (i : SlotId) (l : Loc) : Nat :=
  ((s.past.filter fun e => decide (e.loc = l) && (e.slot == some i || e.core == some i.core)).map fun e => e.cycle + 1).foldl max 0

/-- The earliest point at which a slot's load may bind. -/
def State.bindFloor (s : State) (i : SlotId) (l : Loc) : Nat :=
  let b := (s.slotOf i).binds
  max (max b.acquired (tget 0 b.homes (s.homeOf l))) (s.ownSince i l)

/-- The points that give different values of some locations, from the earliest: the floor, and each write after it. -/
def State.bindPoints (s : State) (ls : List Loc) (lo : Nat) : List Nat :=
  lo :: (s.past.filter fun e => ls.contains e.loc && decide (lo ≤ e.cycle)).map fun e => e.cycle + 1

/-- The point at which a load of some locations binds: a free value chooses where more than one gives a value. -/
def State.bindAt (s : State) (ls : List Loc) (lo : Nat) : Nat × State :=
  match s.bindPoints ls lo with
  | [t] => (t, s)
  | ts => ((ts.getD ((Config.freeValue s.free).toNat % ts.length) lo), { s with free := s.free + 1 })

/-- A load of a slot has bound at a home. -/
def Slot.bound (x : Slot) (home t : Nat) : Slot :=
  { x with binds := { x.binds with homes := tput x.binds.homes home t, last := t } }

/-- No later load of a slot binds before a point (R210). -/
def Slot.loadsFrom (x : Slot) (t : Nat) : Slot :=
  { x with binds := { x.binds with acquired := max x.binds.acquired t } }

/-- When the latest of a slot's loads bound. -/
def Slot.latestBind (x : Slot) : Nat := (x.binds.homes.map (·.2)).foldl max x.binds.acquired

/-! ### The L1 data cache (R182, R183) -/

/-- The line of an address. -/
def lineOf (pa : Nat) : Nat := pa / 128

/-- The locations of a line. -/
def lineLocs (n : Nat) : List Loc := (List.range 4).map fun k => .phys (4 * n + k)

/-- A line the L1 of a core holds. -/
def State.l1Line (s : State) (c : Fin 256) (n : Nat) : Option L1Line :=
  (s.coreOf c).l1.find? fun l => l.line == n

/-- A granule that leaves a core's L1 reaches its home, or waits there for an unlock (R218). -/
def State.homeFrom (s : State) (c : Fin 256) (l : L1Line) (n : Nat) (x : Granule) : State :=
  if s.isLocked (.phys n) then s.hold ⟨n, .write (BitVec.allOnes 32) x none, l.part, some l.key, l.dlog, some c, false⟩
  else (s.homePutNow l.part (some l.key) l.dlog n x).writtenBy (.phys n) none (some c)

/-- One dirty granule of a line goes to its home (R182); an uncorrectable one is written poisoned, logged, and raises
ERROR_INTERRUPT (R197). -/
def State.writeBackGran (s : State) (c : Fin 256) (l : L1Line) (i : Nat) (x : L1Gran) : State :=
  if x.dirty then
    let n := 4 * l.line + i
    let inj := s.hit (dieOfCore c) l.part .l1 n
    let bad := inj || x.bad
    let s1 := s.homeFrom c l n (poisonIf x.bad (injectIf inj x.g))
    if bad then
      (s1.logError (dieOfCore c) l.part
        ⟨logWord 2 (some l.ctx) inj c 0, word (128 * l.line + 32 * i), word s.cycle, 0⟩).raiseError l.part
    else s1
  else s

/-- The dirty granules of a list, numbered from i. -/
def State.writeBackGrans (s : State) (c : Fin 256) (l : L1Line) : Nat → List L1Gran → State
  | _, [] => s
  | i, x :: r => (s.writeBackGran c l i x).writeBackGrans c l (i + 1) r

/-- Writes a line's dirty granules back; the line stays, clean, and its FIFO entry leaves (R182, R183). -/
def State.writeBackLine (s : State) (c : Fin 256) (n : Nat) : State :=
  match s.l1Line c n with
  | none => s.mapCore c fun k => { k with fifo := k.fifo.filter (· != n) }
  | some l =>
    (s.writeBackGrans c l 0 l.grans).mapCore c fun k =>
      { k with
        l1 := updFirst (·.line == n) (fun l => { l with grans := l.grans.map fun x => { x with dirty := false } }) k.l1
        fifo := k.fifo.filter (· != n) }

/-- Drops a line without writing it back. -/
def State.dropLine (s : State) (c : Fin 256) (n : Nat) : State :=
  s.mapCore c fun k => { k with l1 := k.l1.filter (·.line != n), fifo := k.fifo.filter (· != n) }

/-- Writes a line back and invalidates it. Where it is a line of a load block, the block stays declared with its flag, and a later miss brings the line
back as an ordinary one (log 110, DESIGN CHOICE: R184 and R222 do not say). -/
def State.evictLine (s : State) (c : Fin 256) (n : Nat) : State :=
  (s.writeBackLine c n).dropLine c n

/-- The victim of a fill in a set that is full: the least recently used line that is no block line (R182, R184). -/
def victimOf (l1 : List L1Line) (set : Nat) : Option L1Line :=
  let ways := l1.filter fun l => l.line % 512 == set
  if ways.length < 10 then none else (ways.filter (·.block.isNone)).getLast?

/-- How a page is reached: its partition, key slot, dirty-log bit. -/
structure PageUse where
  part : Fin 16
  key : Option (Fin 16)
  dlog : Bool
  deriving DecidableEq, Repr

/-- Makes a line present, as the most recently used of the core, with its granules as they were at a point (R182: transport, no check). -/
def State.l1FillAt (s : State) (c : Fin 256) (u : PageUse) (ctx : BitVec 8) (n t : Nat) : State :=
  match s.l1Line c n with
  | some l => s.mapCore c fun k => { k with l1 := l :: k.l1.filter (·.line != n) }
  | none =>
    let s1 := match victimOf (s.coreOf c).l1 (n % 512) with
      | none => s
      | some v => s.evictLine c v.line
    let l : L1Line :=
      { line := n, ctx := ctx, key := u.key.getD 0, dlog := u.dlog, part := u.part, block := none, filled := t
        grans := (List.range 4).map fun i => ⟨s1.versionAt (.phys (4 * n + i)) t (s1.homeGran u.part u.key (4 * n + i)), false, false⟩ }
    let s2 := (List.range 4).foldl (fun t i => t.corrected c u.part (4 * n + i)) s1
    s2.mapCore c fun k => { k with l1 := l :: k.l1 }

/-- Makes a line present as it is now. -/
def State.l1Fill (s : State) (c : Fin 256) (u : PageUse) (ctx : BitVec 8) (n : Nat) : State :=
  s.l1FillAt c u ctx n s.now

/-- A granule of a line. -/
def L1Line.gran (l : L1Line) (g : Nat) : L1Gran := l.grans.getD (g % 4) ⟨zeroGran, false, false⟩

/-- The array of a core's L1 has lost a granule that it holds (R188). -/
def State.l1Bad (s : State) (c : Fin 256) (g : Nat) : Bool := (s.l1Line c (g / 4)).any fun l => (l.gran g).bad

/-- An uncorrectable error of a granule that the L1 gives is logged (R188). -/
def State.l1Errors (s : State) (c : Fin 256) (p : Fin 16) (g : Nat) : State :=
  let inj := s.hit (dieOfCore c) p .l1 g
  if inj || s.l1Bad c g then s.logArray (dieOfCore c) p c 0 false inj (32 * g) else s

/-- A granule as the L1 holds it. -/
def State.l1Gran (s : State) (c : Fin 256) (g : Nat) : Granule :=
  match s.l1Line c (g / 4) with
  | none => zeroGran
  | some l => poisonIf (l.gran g).bad (injectIf (s.hit (dieOfCore c) l.part .l1 g) (l.gran g).g)

/-- A store into a line that is present: the granule becomes dirty, and a line that was clean enters the FIFO, whose oldest line is
first written back when it is full (R183). -/
def State.l1Store (s : State) (c : Fin 256) (u : PageUse) (ctx : BitVec 8) (g : Nat) (x : Granule) : State :=
  let n := g / 4
  let s1 := match (s.coreOf c).fifo with
    | o :: r => if r.length + 1 ≥ 256 ∧ (o :: r).contains n = false then s.writeBackLine c o else s
    | [] => s
  s1.mapCore c fun k =>
    { k with
      l1 := updFirst (·.line == n)
        (fun l => { l with grans := setAt l.grans (g % 4) ⟨x, true, false⟩, ctx := ctx, dlog := u.dlog }) k.l1
      fifo := if k.fifo.contains n then k.fifo else k.fifo ++ [n] }

/-- Every line of the dirty FIFO is written back, oldest first (R183). -/
def State.drainLines (s : State) (c : Fin 256) : List Nat → State
  | [] => s
  | n :: r => (s.writeBackLine c n).drainLines c r

/-- The FIFO drains to a marker placed now. -/
def State.drainFifo (s : State) (c : Fin 256) : State :=
  s.drainLines c (s.coreOf c).fifo

/-- Evicts lines of a list. -/
def State.evictSome (s : State) (c : Fin 256) : List Nat → State
  | [] => s
  | n :: r => (s.evictLine c n).evictSome c r

/-- Lines that have clean granules beside dirty ones. -/
def State.mixedLines (s : State) (c : Fin 256) : List Nat :=
  ((s.coreOf c).l1.filter fun l => l.grans.any (·.dirty) && l.grans.any fun x => !x.dirty).map (·.line)

/-- The clean lines of a core's L1 become invalid (R210), and a line with clean granules beside dirty ones is first written back, so that
no clean granule outlives the acquire (R212; log 98); a block line stays declared and is filled again, with its flag clear until every line
is (R227). -/
def State.dropClean (s : State) (c : Fin 256) : State :=
  let clean := fun (l : L1Line) => l.grans.all fun x => !x.dirty
  let s1 := (s.evictSome c (s.mixedLines c)).mapCore c fun k => { k with l1 := k.l1.filter fun l => !clean l }
  { s1 with slots := s1.slots.map fun e =>
      if e.1 / 4 = c.val then
        (e.1, { e.2 with blocks := e.2.blocks.map fun b =>
          let lines := b.2.lines.map fun m => (m.1, m.2 && (s1.l1Line c m.1).isSome)
          (b.1, { b.2 with lines := lines, flag := lines.all (·.2) }) })
      else e }

/-! ### Segments at their stores (R166) -/

/-- The allocated segment with this identity. -/
def State.segOf (s : State) (i : SegId) : Option Seg :=
  s.segs.find? fun g => g.id = i

/-- Changes a segment. -/
def State.mapSeg (s : State) (i : SegId) (f : Seg → Seg) : State :=
  { s with segs := updFirst (fun g => decide (g.id = i)) f s.segs }

/-- The die of a pool. -/
def poolDie : PoolId → Nat
  | .core c => dieOfCore c
  | .cluster c => c.val / 16

/-- A granule of a segment. -/
def State.segGran (s : State) (i : SegId) (g : Nat) : Granule :=
  match s.segOf i with
  | none => zeroGran
  | some x => poisonIf (x.bad.contains g) (injectIf (s.hit (poolDie x.pool) x.part .store (x.base * 128 + g)) (x.data.gran g))

/-- The core that names a store in a log entry. -/
def poolCore : PoolId → Fin 256
  | .core c => c
  | .cluster c => coreNo (4 * c.val)

/-- The site of a store in a log entry (R361, Table 6). -/
def poolSite : PoolId → Nat
  | .core _ => 2
  | .cluster _ => 3

/-- An uncorrectable error of a granule that a store gives is logged (R188). -/
def State.storeErrors (s : State) (i : SegId) (g : Nat) : State :=
  match s.segOf i with
  | none => s
  | some x =>
    let inj := s.hit (poolDie x.pool) x.part .store (x.base * 128 + g)
    if inj || x.bad.contains g then s.logArray (poolDie x.pool) x.part (poolCore x.pool) (poolSite x.pool) false inj 0 else s

/-- Writes a granule of a segment at its store. -/
def State.segPut (s : State) (i : SegId) (g : Nat) (v : Granule) : State :=
  let old := match s.segOf i with
    | none => zeroGran
    | some x => x.data.gran g
  ((s.mapSeg i fun x => { x with data := x.data.putGran g v, bad := x.bad.filter (· != g), dirty := nput x.dirty (g / 128) }).keepPast (.seg i g) old).noted (.seg i g)

end Sys2Proof.Machine
end

