-- ==== Sys2Proof/Machine/Xlate.lean ====
section
/-! DEFINITION. Generic pointers (01 R15 to R21), translation and the TLBs (08 R198 to R202), and the pin-set rule with its tickets
(08 R174, R175). -/

namespace Sys2Proof.Machine

/-- What an access does, for permissions and for TINFO2 (R199, R20). -/
inductive Access where
  | load
  | store
  | atomic
  | fetch
  deriving DecidableEq, Repr

/-- TINFO2 as in R20. -/
def tinfo2 (size : Nat) (acc : Access) : Word :=
  word (size + match acc with
    | .load => 0
    | .store => 16
    | .atomic => 48
    | .fetch => 64)

/-- A trap record without its TEPC (R324). -/
structure TrapInfo where
  cause : BitVec 8
  t0 : Word
  t1 : Word
  t2 : Word
  t3 : Word
  deriving DecidableEq, Repr

/-! ### DecodePtr (R16) -/

/-- What a pointer names after DecodePtr. -/
inductive Place where
  | glob (win : Nat) (va : Nat)
  | seg (i : SegId) (off : Nat)
  deriving DecidableEq, Repr

/-- The name space of a slot's window 0x8 and of its cluster's window 0x9 (R16, R17). -/
def State.spaceOf (s : State) (i : SlotId) (win : Nat) : Space :=
  if win = 8 then .task (s.slotOf i).ctx.key else .cluster (clusterOfCore i.core)

/-- The segment a pointer of window 0x8 or 0x9 names. -/
def State.segNamed (s : State) (i : SlotId) (p : Word) : SegId :=
  ⟨s.spaceOf i (bitsOf p 60 4), Fin.ofNat 4096 (bitsOf p 40 12)⟩

/-- Bytes of a segment. -/
def Seg.size (g : Seg) : Nat := 4096 * 2 ^ g.k

/-- Frames of a segment. -/
def Seg.frames (g : Seg) : Nat := 2 ^ g.k

/-- DecodePtr for a slot: the place, or the cause of the first check that fails with its TINFO1 (R16, R20). Where a supervisor has set
PrivBase and PrivSize beyond R13's bound, PrivBase + offset wraps at 2^48 (log 22, DESIGN CHOICE: the spec gives no sum there). -/
def State.decodePtr (s : State) (i : SlotId) (p : Word) (size : Nat) : Except (BitVec 8 × Word) Place :=
  let w := bitsOf p 60 4
  if w ≤ 2 then
    if bitsOf p 48 12 ≠ 0 then .error (0x04, 0)
    else if p.toNat % size ≠ 0 then .error (0x03, 0)
    else .ok (.glob w (bitsOf p 0 48))
  else if w = 4 then
    if bitsOf p 48 12 ≠ 0 ∨ bitsOf p 0 48 ≥ (s.slotOf i).ctx.privSize then .error (0x04, 0)
    else if p.toNat % size ≠ 0 then .error (0x03, 0)
    else .ok (.glob w (((s.slotOf i).ctx.privBase + bitsOf p 0 48) % 2 ^ 48))
  else if w = 8 ∨ w = 9 then
    if bitsOf p 20 20 ≠ 0 then .error (0x04, 0)
    else if w = 9 ∧ bitsOf p 58 2 ≠ 0 then .error (0x04, 0)
    else if p.toNat % size ≠ 0 then .error (0x03, 0)
    else if w = 8 ∧ bitsOf p 52 8 ≠ i.core.val then .error (0x05, word i.core.val)
    else if w = 9 ∧ bitsOf p 52 6 ≠ i.core.val / 4 then .error (0x06, word i.core.val)
    else match s.segOf (s.segNamed i p) with
      | none => .error (0x09, 0)
      | some g =>
        if bitsOf p 0 20 ≥ g.size then .error (0x07, word g.size)
        else .ok (.seg g.id (bitsOf p 0 20))
  else .error (0x04, 0)

/-! ### Page tables (R198 to R202) -/

/-- A translation fault: cause, TINFO1 and TINFO3 (R202, R201), and whether an injector has made the table's granule bad (R361). -/
structure XFault where
  cause : BitVec 8
  t1 : Word
  t3 : Word
  inj : Bool
  deriving DecidableEq, Repr

/-- What a page entry yields for an address. -/
structure Page where
  pa : Nat
  use : PageUse
  rem : Bool
  dev : Nat
  pte : Word
  big : Bool
  deriving DecidableEq, Repr

/-- Malformed(e, lv) (R199; log 23 for dev), of an entry that is valid. -/
def malformed (e : Word) (lv : Nat) : Bool :=
  bitsOf e 12 4 != 0 ||
  (lv == 1 && e.getLsbD 1) ||
  (lv == 3 && !e.getLsbD 1) ||
  (lv == 2 && e.getLsbD 1 && bitsOf e 16 9 != 0) ||
  (lv != 3 && e.getLsbD 5) ||
  (!e.getLsbD 1 && (bitsOf e 52 12 != 0 || bitsOf e 2 10 != 0)) ||
  (e.getLsbD 1 && !e.getLsbD 7 && bitsOf e 52 12 != 0)

/-- Whether an entry permits an access (R199). -/
def permits (e : Word) (acc : Access) : Bool :=
  match acc with
  | .load => e.getLsbD 2
  | .store => e.getLsbD 3
  | .atomic => e.getLsbD 2 && e.getLsbD 3
  | .fetch => e.getLsbD 4

/-- What a leaf gives: PAGE_PERM, PAGE_NOT_PRESENT for an address that names no memory (R376), or the page (R199; log 24). -/
def leafPage (p : Fin 16) (e : Word) (lv va : Nat) (acc : Access) : Except XFault Page :=
  if permits e acc = false then .error ⟨0x0B, word lv, e, false⟩
  else
    let pa := bitsOf e 16 36 * 2 ^ 16 + (if lv = 2 then va % 2 ^ 25 else va % 2 ^ 16)
    if e.getLsbD 7 = false ∧ physOf pa = .hole then .error ⟨0x0A, word (lv + 4), e, false⟩
    else .ok ⟨pa, ⟨p, some (Fin.ofNat 16 (bitsOf e 8 4)), e.getLsbD 6⟩, e.getLsbD 7, bitsOf e 52 12, e, lv == 2⟩

/-- The index of an address at a level (R199). -/
def walkIndex (va lv : Nat) : Nat :=
  if lv = 1 then va / 2 ^ 37 % 2 ^ 11 else if lv = 2 then va / 2 ^ 25 % 2 ^ 12 else va / 2 ^ 16 % 2 ^ 9

/-- The walk from a table on, through the levels that are left (R199, R201; log 25 for a table outside memory). -/
def State.walkFrom (s : State) (p : Fin 16) (va : Nat) (acc : Access) : List Nat → Nat → Except XFault Page
  | [], _ => .error ⟨0x0A, 7, 0, false⟩
  | lv :: r, t =>
    let ea := t + 8 * walkIndex va lv
    if physOf ea = .hole then .error ⟨0x0A, word (lv + 4), 0, false⟩
    else
      let g := s.homeGran p none (ea / 32)
      match checkGran g with
      | some (c, i) => .error ⟨c, i, word (2 ^ 63 + ea / 32 * 32), g.inj⟩
      | none =>
        let e := takeAt g.data (ea % 32) 8
        if e.getLsbD 0 = false ∨ malformed e lv = true then
          .error ⟨0x0A, word (lv + if e.getLsbD 0 && malformed e lv then 4 else 0), e, false⟩
        else if e.getLsbD 1 then leafPage p e lv va acc
        else s.walkFrom p va acc r (bitsOf e 16 36 * 2 ^ 16)

/-- The granule of a table that a walk has found bad, as TINFO3 names it (R201). -/
def XFault.table (x : XFault) : Nat := bitsOf x.t3 0 52 / 32

/-- A walk met a bad granule of a table, and not an entry that fails (R201). -/
def XFault.sealed (e : XFault) : Bool := e.cause == 0x0C || e.cause == 0x0D

/-- The three-level walk (R199). -/
def State.walk (s : State) (p : Fin 16) (root va : Nat) (acc : Access) : Except XFault Page :=
  s.walkFrom p va acc [1, 2, 3] root

/-- Whether a TLB entry covers an address (R201). -/
def TlbEntry.covers (e : TlbEntry) (p : Fin 16) (root va : Nat) : Bool :=
  e.part == p && e.root == root && e.vpn == (if e.big then va / 2 ^ 25 else va / 2 ^ 16)

/-- Translation through the core's TLB, the die's, or a walk (R201). -/
def State.translate (s : State) (c : Fin 256) (p : Fin 16) (root va : Nat) (acc : Access) : Except XFault Page :=
  match ((s.coreOf c).tlb ++ (s.dieOf (dieOfCore c)).tlb).find? fun e => e.covers p root va with
  | some e => leafPage p e.pte (if e.big then 2 else 3) va acc
  | none => s.walk p root va acc

/-- The TLBs take a translation (R201: 64 entries a core, 16,384 a die). -/
def State.tlbNote (s : State) (c : Fin 256) (p : Fin 16) (root va : Nat) (g : Page) : State :=
  let e : TlbEntry := ⟨p, root, if g.big then va / 2 ^ 25 else va / 2 ^ 16, g.big, g.pte⟩
  let add := fun (n : Nat) (l : List TlbEntry) => if l.any (fun x => x.covers p root va) then l else (e :: l).take n
  (s.mapCore c fun k => { k with tlb := add 64 k.tlb }).mapDie (dieOfCore c) fun d => { d with tlb := add 16384 d.tlb }

/-- The root a slot translates through at its level (R102). -/
def State.rootOf (s : State) (i : SlotId) : Nat :=
  if (s.slotOf i).level = .task then (s.slotOf i).ctx.root else (s.partOf (s.partNo i.core)).root

/-! ### Pages stored under a key slot (R194, R389, R392) -/

/-- A leaf of a table tree names a 64 KiB page of memory under a loaded key slot; the walk takes every valid entry, level by level. -/
def State.leafKeyed (s : State) (p : Fin 16) (page : Nat) : List Nat → Nat → Bool
  | [], _ => false
  | lv :: r, t =>
    (List.range (if lv = 1 then 2 ^ 11 else if lv = 2 then 2 ^ 12 else 2 ^ 9)).any fun n =>
      let ea := t + 8 * n
      let e := takeAt (s.storedGran p none (ea / 32)).data (ea % 32) 8
      if s.closed p ea || !e.getLsbD 0 || malformed e lv then false
      else if e.getLsbD 1 then
        let first := bitsOf e 16 36
        !e.getLsbD 7 && decide (first ≤ page) && decide (page < first + if lv = 2 then 2 ^ 9 else 1) &&
          (s.keyOf p (some (Fin.ofNat 16 (bitsOf e 8 4))) (2 ^ 16 * page)).isSome
      else s.leafKeyed p page r (bitsOf e 16 36 * 2 ^ 16)

/-- Every record in a deque or preloaded: that of a saved task is among them. -/
def State.resumeRecs (s : State) : List Rec :=
  s.cores.flatMap (fun k => k.2.deque) ++ s.slots.flatMap fun e => e.2.next.toList

/-- The roots of a partition's saved tasks, as the headers of their save areas hold them (R335). -/
def State.savedRoots (s : State) (p : Fin 16) : List Nat :=
  s.resumeRecs.filterMap fun r => match r.kind with
    | .resume a _ _ => if r.info.part = p then some (takeAt (s.storedGran p none ((a + 0x38) / 32)).data ((a + 0x38) % 32) 8).toNat else none
    | _ => none

/-! ### Pin sets and tickets (R174, R175) -/

/-- The context a slot's segments are charged to. -/
def State.keyOfSlot (s : State) (i : SlotId) : Nat := (s.slotOf i).ctx.key

/-- Segments charged to a context. -/
def State.chargedTo (s : State) (key : Nat) : List Seg :=
  s.segs.filter fun g => g.creator == key

/-- A segment that holds frames. -/
def Seg.framed (g : Seg) : Bool := g.state = .resident ∨ g.state = .moving

/-- Frames charged to a context now (R169). -/
def State.framesOf (s : State) (key : Nat) : Nat :=
  (((s.chargedTo key).filter (·.framed)).map (·.frames)).sum

/-- F of R175 for a pin set of a slot. -/
def State.setFrames (s : State) (i : SlotId) (m : List SegId) : Nat :=
  ((s.segs.filter fun g => m.contains g.id).map (·.frames)).sum +
    (((s.chargedTo (s.keyOfSlot i)).filter fun g => g.sgpin && !m.contains g.id).map (·.frames)).sum

/-- Whether every member can be pinned at once (R175). -/
def State.setReady (s : State) (m : List SegId) : Bool :=
  m.all fun i => match s.segOf i with
    | none => false
    | some g => g.state = .resident && !g.claimed

/-- The ticket a command holds. -/
def State.ticketOf (s : State) (u : TicketUser) : Option Ticket :=
  s.tickets.find? fun t => t.user = u

/-- Withdraws a command's ticket, and with it its wanted marks (R175, R181). -/
def State.dropTicket (s : State) (u : TicketUser) : State :=
  match s.ticketOf u with
  | none => s
  | some t => { s with tickets := s.tickets.filter fun x => x.num != t.num }

/-- The cluster whose segment manager serves a pool. -/
def poolCluster : PoolId → Fin 64
  | .core c => clusterOfCore c
  | .cluster c => c

/-- A member that a ticket waits for: not Resident, or claimed. -/
def Seg.lacking (g : Seg) : Bool := g.claimed || !decide (g.state = .resident)

/-- The clusters that hold a member which is not Resident or is claimed (R175). -/
def State.lackingAt (s : State) (m : List SegId) : List (Fin 64) :=
  ((s.segs.filter fun g => m.contains g.id && g.lacking).map fun g => poolCluster g.pool).dedup

/-- Unpins the frames preloaded for Preloaded slots of a core (R340). -/
def State.unpinPreloads (s : State) (c : Fin 256) : State :=
  { s with segs := s.segs.map fun g => if poolCluster g.pool = clusterOfCore c ∧
      ((slotsOf c).any fun i => (s.slotOf i).status = .preloaded && (s.slotOf i).ctx.key == g.creator)
    then { g with prePin := false } else g }

/-- The slot of a command. -/
def TicketUser.slot : TicketUser → SlotId
  | .control i => i
  | .ag i _ => i
  | .m i => i
  | .c i _ => i

/-- Gives a command a ticket if it holds none; its Resident members are wanted from then on (R175). The segment fault leaves frames
preloaded for another slot of the core without their pin (R340). -/
def State.takeTicket (s : State) (u : TicketUser) (m : List SegId) (ptrs : List Word) (info2 : Word) (quiet : Bool) : State :=
  match s.ticketOf u with
  | some _ => s
  | none =>
    { s.unpinPreloads u.slot.core with
      tickets := s.tickets ++ [⟨s.nextTicket, u, m, ptrs, info2, s.lackingAt m, quiet⟩]
      nextTicket := s.nextTicket + 1 }

/-- The clusters whose managers hold a ticket: those that lacked a member at its issue, and those that lack one now (R175, R180). -/
def State.clustersOf (s : State) (t : Ticket) : List (Fin 64) :=
  (t.clusters ++ s.lackingAt t.members).dedup

/-- The oldest ticket that wants a segment (R175). -/
def State.wantedBy (s : State) (g : SegId) : Option Nat :=
  (s.tickets.find? fun t => t.members.contains g).map (·.num)

/-- What admission decides for a pin set (R175). -/
inductive Admission where
  | tooLarge (f : Nat)
  | go (s : State)
  | wait (s : State)

/-- Admission of a command of a slot (R175). -/
def State.admitSet (s : State) (i : SlotId) (u : TicketUser) (m : List SegId) (ptrs : List Word) (info2 : Word) (quiet : Bool) :
    Admission :=
  if s.setFrames i m > (s.slotOf i).quota ∧ m ≠ [] then .tooLarge (s.setFrames i m)
  else if s.setReady m then .go (s.dropTicket u)
  else .wait (s.takeTicket u m ptrs info2 quiet)

/-- Pins or unpins the segments of a started command (R175). -/
def State.pinAll (s : State) (m : List SegId) : State :=
  { s with segs := s.segs.map fun g => if m.contains g.id then { g with pins := g.pins + 1 } else g }

/-- Releases them. -/
def State.unpinAll (s : State) (m : List SegId) : State :=
  { s with segs := s.segs.map fun g => if m.contains g.id then { g with pins := g.pins - 1 } else g }

end Sys2Proof.Machine
end

