-- ==== Sys2Proof/Machine/Engine.lean ====
section
/-! DEFINITION. What a slot holds for its engines: token counters (12 R254, R255), the journal and the command queues (R251, R262),
markers (R266), descriptor snapshots (R263), the Campion lease (R278), and dropping unfinished words (R354). -/

namespace Sys2Proof.Machine

/-! ### Token counters -/

/-- Code of an engine in pairs. -/
def Eng.code : Eng → Nat
  | .s => 0
  | .v => 1
  | .m => 2
  | .c => 3

/-- The engine a token code names in a word of an engine (R33, Table 6): none for code 0. -/
def tokenEng (e : Eng) (code : Nat) : Option Eng :=
  match e, code with
  | _, 0 => none
  | _, 1 => some .s
  | .v, 2 => some .m
  | .v, _ => some .c
  | .m, 2 => some .v
  | .m, _ => some .c
  | .c, 2 => some .v
  | .c, _ => some .m
  | .s, 2 => some .m
  | .s, _ => some .c

/-- The wait code's engine in an engine word (bits 3:2). -/
def waitEng (e : Eng) (w : BitVec 32) : Option Eng := tokenEng e (bitsOf w 2 2)

/-- The post code's engine (bits 1:0). -/
def postEng (e : Eng) (w : BitVec 32) : Option Eng := tokenEng e (bitsOf w 0 2)

/-- The counter from one engine to another (R254). -/
def Slot.token (x : Slot) (a b : Eng) : TokenCtr :=
  tget ⟨0, 0⟩ x.eng.tokens (4 * a.code + b.code)

/-- Sets it. -/
def Slot.setToken (x : Slot) (a b : Eng) (t : TokenCtr) : Slot :=
  { x with eng := { x.eng with tokens := tput x.eng.tokens (4 * a.code + b.code) t } }

/-- A place can be reserved (R255). -/
def Slot.tokenRoom (x : Slot) (a b : Eng) : Bool :=
  (x.token a b).n + (x.token a b).resv < 15

/-- Pops one. -/
def Slot.popToken (x : Slot) (a b : Eng) : Slot :=
  x.setToken a b { x.token a b with n := (x.token a b).n - 1 }

/-- Reserves a place. -/
def Slot.reserveToken (x : Slot) (a b : Eng) : Slot :=
  x.setToken a b { x.token a b with resv := (x.token a b).resv + 1 }

/-- The push at a finish: the reserved place is filled. -/
def Slot.postToken (x : Slot) (a b : Eng) : Slot :=
  x.setToken a b ⟨min 15 ((x.token a b).n + 1), (x.token a b).resv - 1⟩

/-- Gives a reserved place up without a push. -/
def Slot.unreserve (x : Slot) (a b : Eng) : Slot :=
  x.setToken a b { x.token a b with resv := (x.token a b).resv - 1 }

/-- A token pushed without a reservation, while the counter and the places kept for posts leave room (R254, R279); one that finds none is
dropped (log 109, DESIGN CHOICE: the spec does not say what becomes of it). -/
def Slot.pushToken (x : Slot) (a b : Eng) : Slot :=
  if x.tokenRoom a b then x.setToken a b { x.token a b with n := (x.token a b).n + 1 } else x

/-- What starting a word asks of its tokens (R251, R255): the wait token popped unless it has been, and the post place reserved.
None while the word must wait. -/
def Slot.startTokens (x : Slot) (e : Eng) (w : BitVec 32) (popped : Bool) : Option Slot :=
  let y := match waitEng e w with
    | none => some x
    | some a => if popped then some x else if (x.token a e).n = 0 then none else some (x.popToken a e)
  match y, postEng e w with
  | none, _ => none
  | some y, none => some y
  | some y, some b => if y.tokenRoom e b then some (y.reserveToken e b) else none

/-! ### Journal and queues -/

/-- Changes what the slot holds for its engines. -/
def Slot.mapQs (x : Slot) (f : Queues → Queues) : Slot :=
  { x with eng := { x.eng with qs := f x.eng.qs } }

/-- The entries that are not free: from the oldest one that is not done (R262). -/
def liveEntries : List JEntry → List JEntry
  | [] => []
  | e :: r => if e.done then liveEntries r else e :: r

/-- The ring of 256 entries without room for one more keeps those that are not free (R262). -/
def ringFor (l : List JEntry) : List JEntry :=
  if l.length < 256 then l else (l.drop 1)

/-- The journal has no room for n more entries beside those that are not free. -/
def Slot.journalLacks (x : Slot) (n : Nat) : Bool := decide (256 < (liveEntries x.eng.qs.journal).length + n)

/-- The journal holds 256 entries that are not free. -/
def Slot.journalFull (x : Slot) : Bool := x.journalLacks 1

/-- Some entry is not done. -/
def Slot.anyUnfinished (x : Slot) : Bool := x.eng.qs.journal.any fun e => !e.done

/-- The completion number that an engine keeps for a slot: the greatest number, not beyond the newest entry's, up to which every entry of
the engine is done (R264); the number before 0 counts as 2^32 - 1. -/
def Slot.completed (x : Slot) (e : Eng) : Nat :=
  match x.eng.qs.journal.find? fun j => decide (j.eng = e) && !j.done with
  | some j => (j.seq + (2 ^ 32 - 1)) % 2 ^ 32
  | none => (x.eng.qs.nextSeq + (2 ^ 32 - 1)) % 2 ^ 32

/-- Marks an entry done; a completed command ends a watchdog interval (R338). -/
def Slot.journalDone (x : Slot) (seq c : Nat) : Slot :=
  let y := x.mapQs fun q =>
    { q with journal := q.journal.map fun e => if e.seq = seq then { e with done := true } else e }
  { y with sched := { y.sched with wdogSince := c } }

/-- Notes that an entry's wait token has been popped (R262). -/
def Slot.journalPopped (x : Slot) (seq : Nat) : Slot :=
  x.mapQs fun q => { q with journal := q.journal.map fun e => if e.seq = seq then { e with popped := true } else e }

/-- The queue of an engine. -/
def Slot.queue (x : Slot) (e : Eng) : List QEntry :=
  match e with
  | .m => x.eng.qs.mq
  | .c => x.eng.qs.cq
  | _ => x.eng.qs.vq

/-- Replaces it. -/
def Slot.setQueue (x : Slot) (e : Eng) (l : List QEntry) : Slot :=
  x.mapQs fun q => match e with
    | .m => { q with mq := l }
    | .c => { q with cq := l }
    | _ => { q with vq := l }

/-- A marker's word (R266, Table 3a). -/
def isMarker (w : BitVec 32) : Bool := bitsOf w 24 8 == 0x7F

/-- Entries a queue's depth and cap count (R251, R266). -/
def Slot.depth (x : Slot) (e : Eng) : Nat :=
  ((x.queue e).filter fun q => !isMarker q.word && !q.held).length

/-- The depth of a queue (R22, Table 1) under the cap of the kernel header (R105). -/
def Slot.depthLimit (x : Slot) (e : Eng) : Nat :=
  match x.task, e with
  | some t, .m => min 8 t.caps.mcmd
  | some t, .c => min 8 t.caps.ccmd
  | some t, _ => min 32 t.caps.vcmd
  | none, .m => 8
  | none, .c => 8
  | none, _ => 32

/-- The domain a slot belongs to at a level; 0 for none (R116). -/
def Slot.dom (x : Slot) (level : Nat) : Nat := tget 0 x.doms level

/-- The partition that keeps a domain: for level 5 the lowest one of the fabric group (R390). -/
def State.domPart (s : State) (p : Fin 16) (level : Nat) : Fin 16 :=
  if level = 5 then
    ((List.finRange 16).find? fun q =>
      (s.partOf q).valid && bitsOf ((s.partOf q).word 8) 0 16 == bitsOf ((s.partOf p).word 8) 0 16).getD p
  else p

/-- The current phase of a domain of a partition. -/
def State.domPhase (s : State) (p : Fin 16) (level id : Nat) : Nat :=
  match (s.partOf (s.domPart p level)).doms.find? fun d => d.level == level && d.id == id with
  | some d => d.phase
  | none => 0

/-- The phases of a slot's domains by level, as a barrier-tagged word takes them at forwarding (R119, R274). -/
def State.phasesOf (s : State) (i : SlotId) : List (Nat × Nat) :=
  (s.slotOf i).doms.map fun d => (d.1, s.domPhase (s.partNo i.core) d.1 d.2)

/-- Appends a word or marker to its queue with a journal entry of its own (R262, R266). -/
def State.enqueue (s : State) (i : SlotId) (e : Eng) (w : BitVec 32) (tid : Nat) : State :=
  let ph := s.phasesOf i
  s.mapSlot i fun x =>
    let n := x.eng.qs.nextSeq
    let ver := if isMarker w then 0 else x.eng.descs.ver
    let x1 := x.setQueue e (x.queue e ++ [⟨w, n, ver, tid, x.tol, if e = .c then ph else [], false, false⟩])
    x1.mapQs fun q =>
      { q with
        journal := ringFor q.journal ++ [⟨w, n, false, false, e, ver, tid⟩]
        nextSeq := (n + 1) % 2 ^ 32 }

/-! ### Markers (R266, R128 to R130) -/

/-- A marker's word: kind and value. -/
def markerWord (kind value : Nat) : BitVec 32 := BitVec.ofNat 32 (0x7F * 2 ^ 24 + kind * 2 ^ 22 + value)

/-- The physical register of a vector register name under a rotation (R128). -/
def physV (n rrb : Nat) : Nat := if n < 16 then n else 16 + (n - 16 + rrb) % 16

/-- The physical register of a mask register name (R128). -/
def physK (n rrb : Nat) : Nat := if n < 8 then n else 8 + (n - 8 + rrb) % 8

/-- Writes a physical mask register at once; pending writes to it never become visible (R130). -/
def VecState.setKNow (v : VecState) (p : Nat) (b : BitVec 256) : VecState :=
  { v with
    k := tput v.k p b
    pending := v.pending.filter fun w => match w.dest with
      | .k n _ _ => n != p
      | _ => true }

/-- The refill of a loop's stage predicates (R333; log 26): k8 all ones, k9 to k(7 + n) zeros. -/
def VecState.refill (v : VecState) : Nat → VecState
  | 0 => v
  | n + 1 => (v.refill n).setKNow (physK (8 + n) v.rrb) (if n = 0 then BitVec.allOnes 256 else 0)

/-- Applies a marker to the engine's side. -/
def VecState.marker (v : VecState) (w : BitVec 32) : VecState :=
  match bitsOf w 22 2 with
  | 0 =>
    if w.getLsbD 9 then v.refill (bitsOf w 1 4)
    else
      let v1 := { v with rrb := (v.rrb + 15) % 16 }
      v1.setKNow (physK 8 v1.rrb) (if w.getLsbD 0 then BitVec.allOnes 256 else 0)
  | 1 => { v with vtype := BitVec.ofNat 10 (bitsOf w 0 10) }
  | 2 => { v with rrb := bitsOf w 0 4 }
  | _ => v

/-- Applies a marker and marks its entry done (R266). -/
def Slot.applyMarker (x : Slot) (q : QEntry) (c : Nat) : Slot :=
  ({ x with eng := { x.eng with vec := x.eng.vec.marker q.word } }).journalDone q.seq c

/-- Applies every marker of a list in order. -/
def Slot.applyMarkers (x : Slot) (c : Nat) : List QEntry → Slot
  | [] => x
  | q :: r => if isMarker q.word then (x.applyMarker q c).applyMarkers c r else x.applyMarkers c r

/-! ### Vector registers and pending writes (R125, R131) -/

/-- All lanes. -/
def allLanes : BitVec 256 := BitVec.allOnes 256

/-- A vector register's 256 lanes (R125: zero at start). -/
def VecState.vreg (v : VecState) (p : Nat) : List Lane :=
  match tget [] v.v p with
  | [] => List.replicate 256 0
  | l => l

/-- A mask register; k0 reads as all ones (R125). -/
def VecState.kreg (v : VecState) (p : Nat) : BitVec 256 :=
  if p = 0 then allLanes else tget 0 v.k p

/-- A checksum accumulator. -/
def VecState.xreg (v : VecState) (n : Nat) : Xa := tget ⟨0, false⟩ v.xa n

/-- The lanes of a mask are replaced (R137). -/
def mergeLanes (old new : List Lane) (mask : BitVec 256) : List Lane :=
  (List.range 256).map fun i => if mask.getLsbD i then new.getD i 0 else old.getD i 0

/-- A pending write lands. -/
def VecState.landOne (v : VecState) (w : PWrite) : VecState :=
  match w.dest with
  | .v n l m => { v with v := tput v.v n (mergeLanes (v.vreg n) l m) }
  | .k n b m => { v with k := tput v.k n ((v.kreg n &&& ~~~m) ||| (b &&& m)) }
  | .xa n x => { v with xa := tput v.xa n x }

/-- Writes that are visible to the word that issues next: those due by its step, in issue order (R131). Steps pass one at a time, so that
all writes landing together are due at one step. -/
def VecState.landDue (v : VecState) : VecState :=
  (v.pending.filter fun w => decide (w.due ≤ v.steps)).foldl VecState.landOne
    { v with pending := v.pending.filter fun w => !decide (w.due ≤ v.steps) }

/-- Every pending write lands, the later visible one last (R131, R139). -/
def VecState.landAll (v : VecState) : VecState :=
  (v.pending.mergeSort fun a b => decide (a.due ≤ b.due)).foldl VecState.landOne { v with pending := [] }

/-! ### Descriptor snapshots (R263) -/

/-- An image that was never loaded. -/
def Desc.initial : Desc := ⟨[], 0, false⟩

/-- A double word of an image. -/
def imgWord (l : List Word) (i : Nat) : Word := l.getD i 0

/-- The image of a descriptor register at a version: the one written last at or before it. -/
def Descs.imageAt (d : Descs) (key ver : Nat) : Desc :=
  let c := tget Desc.initial d.cur key
  if c.ver ≤ ver then c
  else
    ((d.store.filter fun e => e.1 == key && decide (e.2.ver ≤ ver)).foldl
      (fun (b : Desc) e => if b.ver ≤ e.2.ver then e.2 else b) Desc.initial)

/-- The descriptor registers that a word names, by their keys: td of an M word, cd of a C word (R263). -/
def descKeys (w : BitVec 32) : List Nat :=
  match decode w with
  | .ok (.mma _ t a b _ _ _ _ _ _) => [t.val, a.val, b.val]
  | .ok (.mzero t _) => [t.val]
  | .ok (.mdrain t a _) => [t.val, a.val]
  | .ok (.mloadc t a _) => [t.val, a.val]
  | .ok (.cpy _ c _ _) => [16 + c.val]
  | .ok (.cred _ c _ _ _) => [16 + c.val]
  | .ok (.cgath _ c _ _) => [16 + c.val]
  | .ok (.cscat _ c _ _) => [16 + c.val]
  | .ok (.cmcast _ c _ _) => [16 + c.val]
  | .ok (.cfill _ c _ _ _) => [16 + c.val]
  | _ => []

/-- The descriptor registers and versions that the unfinished words of a journal name, in the order in which they first do (R263). -/
def namedImages (j : List JEntry) : List (Nat × Nat) :=
  ((j.filter fun e => !e.done && !isMarker e.word).flatMap fun e => (descKeys e.word).map fun k => (k, e.ver)).eraseDups

/-- The images that a snapshot store keeps for the unfinished words of a journal, in the order in which they first name them; one that a word
names and its register still holds needs no place (R263). -/
def Descs.keptFor (d : Descs) (j : List JEntry) : List (Nat × Desc) :=
  ((namedImages j).filterMap fun n =>
    if (tget Desc.initial d.cur n.1).ver ≤ n.2 then none else some (n.1, d.imageAt n.1 n.2)).eraseDups

/-- A slot's snapshot store in the order in which it is saved (R335; log 14). -/
def Slot.orderStore (x : Slot) : Slot :=
  { x with eng := { x.eng with descs := { x.eng.descs with store := x.eng.descs.keptFor x.eng.qs.journal } } }

/-- The last version at which an unfinished word of a journal names an image of the snapshot store. -/
def Descs.lastNamed (d : Descs) (j : List JEntry) (e : Nat × Desc) : Nat :=
  (((namedImages j).filter fun n => n.1 == e.1 && decide (n.2 < (tget Desc.initial d.cur n.1).ver) && decide (d.imageAt n.1 n.2 = e.2)).map
    (·.2)).foldl max 0

/-- Whether some entry that is not done names a descriptor register at a version from lo to below hi. -/
def Slot.namedBetween (x : Slot) (key lo hi : Nat) : Bool :=
  x.eng.qs.journal.any fun e => !e.done && !isMarker e.word && decide (lo ≤ e.ver) && decide (e.ver < hi) &&
    (descKeys e.word).contains key

/-- The version after a stored image's: that of the next image of the same register. -/
def Descs.nextVer (d : Descs) (key ver : Nat) : Nat :=
  ((d.store.filter fun e => e.1 == key && decide (ver < e.2.ver)).foldl
    (fun (b : Nat) e => min b e.2.ver) (tget Desc.initial d.cur key).ver)

/-- Drops stored images that no unfinished entry names. -/
def Slot.pruneStore (x : Slot) : Slot :=
  let d := x.eng.descs
  { x with eng := { x.eng with descs := { d with
      store := d.store.filter fun e => x.namedBetween e.1 e.2.ver (d.nextVer e.1 e.2.ver) } } }

/-- A descriptor write: none while the store must take the old image and is full (R263). -/
def Slot.setDesc (x : Slot) (key : Nat) (img : List Word) : Option Slot :=
  let y := x.pruneStore
  let d := y.eng.descs
  let old := tget Desc.initial d.cur key
  let v := d.ver + 1
  let named := y.namedBetween key old.ver v
  if named && decide (d.store.length ≥ 64) then none
  else
    some { y with eng := { y.eng with descs :=
      { cur := tput d.cur key ⟨img, v, true⟩
        ver := v
        store := if named then d.store ++ [(key, old)] else d.store } } }

/-! ### The Campion lease (R278) and its progress record (R287) -/

/-- MUPC (R287, Table 8). -/
def mupcWord (seq mb nb ks : Nat) : Word :=
  word (2 ^ 63 + seq * 2 ^ 16 + mb * 2 ^ 14 + nb * 2 ^ 11 + ks)

/-- One journal number comes before another, modulo 2^32 (R262). -/
def seqBefore (a b : Nat) : Bool := decide (0 < (b + 2 ^ 32 - a) % 2 ^ 32 ∧ (b + 2 ^ 32 - a) % 2 ^ 32 < 2 ^ 31)

/-- Some M word before a journal number is not done: MRELEASE has left it to the slot's lease (R296). -/
def Slot.leftBefore (x : Slot) (n : Nat) : Bool := x.eng.qs.journal.any fun j => !j.done && decide (j.eng = .m) && seqBefore j.seq n

/-- Ends the lease of a cluster; the holder's request stays, pending since now. Where it has withdrawn its request, and words that came before are
not done, it waits for a lease for those alone (R288, R296; log 117). -/
def State.endLease (s : State) (c : Fin 64) : State :=
  s.mapCluster c fun k =>
    match k.holder with
    | none => k
    | some h =>
      { k with
        owed := match k.ending with
          | some n => if (s.slotOf h).leftBefore n then k.owed ++ [(h, s.cycle, n)] else k.owed
          | none => k.owed
        holder := none
        cmds := 0
        steps := 0
        idleSince := none
        ending := none
        reqs := k.reqs.map fun r => if r.1 = h then (h, s.cycle) else r }

/-- Withdraws a slot's request; a lease it holds ends. -/
def State.dropLease (s : State) (i : SlotId) : State :=
  let c := clusterOfCore i.core
  let s1 := if (s.clusterOf c).holder = some i then s.endLease c else s
  s1.mapCluster c fun k => { k with reqs := k.reqs.filter fun r => r.1 ≠ i, owed := k.owed.filter fun r => r.1 ≠ i }

/-- The stop of an M command at its quiescent point: MUPC is written and the lease ends (R288). -/
def State.stopCampion (s : State) (i : SlotId) : State :=
  match (s.slotOf i).eng.mrun with
  | none => s
  | some r =>
    let s1 := s.mapSlot i fun x => { x with eng := { x.eng with mupc := mupcWord r.q.seq r.mb r.nb r.ks } }
    if (s1.clusterOf (clusterOfCore i.core)).holder = some i then s1.endLease (clusterOfCore i.core) else s1

/-! ### Finishing a V word (R131) -/

/-- Fills the reserved place of a queue. -/
def fillPlace {α : Type} (l : List (Nat × Option α)) (seq : Nat) (v : α) : List (Nat × Option α) :=
  l.map fun e => if e.1 = seq then (seq, some v) else e

/-- Lanes as 32 sealed granules, eight lanes a granule. -/
def lanesGrans (l : List Lane) : List Granule :=
  (List.range 32).map fun g =>
    mkGran (BitVec.ofNat 256 (((List.range 8).map fun j => (l.getD (8 * g + j) 0).toNat * 2 ^ (32 * j)).sum))

/-- Granules as lanes. -/
def gransLanes (l : List Granule) : List Lane :=
  (List.range 256).map fun i => (l.getD (i / 8) zeroGran).data.extractLsb' (32 * (i % 8)) 32

/-- The place a word in flight keeps for its post token. -/
def Slot.giveUpPost (x : Slot) (f : VFlight) : Slot :=
  if f.post = .v then x else x.unreserve .v f.post

/-- The effects of a word at its finish: FLAGS of the task bank, its v3 entry or V to S value, its post token, its journal entry. A VCHK
leaves the queue, unless it has failed: then nothing of it happens (R139, R153). -/
def Slot.finishV (x : Slot) (f : VFlight) (c : Nat) : Slot :=
  let p := x.eng.ports
  let p1 := match f.v3 with
    | none => p
    | some l => { p with v3 := fillPlace p.v3 f.seq (lanesGrans l) }
  let p2 := match f.vs with
    | none => p1
    | some w => { p1 with vs := fillPlace p1.vs f.seq w }
  let y := { x with
    bank := { x.bank with flags := x.bank.flags ||| f.flags.setWidth 12 }
    eng := { x.eng with
      ports := p2
      vec := { x.eng.vec with flight := x.eng.vec.flight.filter fun g => g.seq != f.seq } } }
  match f.chk with
  | some false => y.giveUpPost f
  | c0 =>
    let z := if c0.isSome then y.mapQs fun q => { q with vq := q.vq.filter fun e => e.seq != f.seq } else y
    (if f.post = .v then z else z.postToken .v f.post).journalDone f.seq c

/-- Finishes every word in flight, in issue order. -/
def Slot.finishAll (x : Slot) (c : Nat) : List VFlight → Slot
  | [] => x
  | f :: r => (x.finishV f c).finishAll c r

/-! ### Dropping unfinished words (R354, R343) -/

/-- Releases a copy command's pins; a dying segment whose last copy ends is freed (R343). -/
def State.endCopyPins (s : State) (m : List SegId) : State :=
  let s1 : State := { s with
    segs := s.segs.map fun g =>
      if m.contains g.id then { g with pins := g.pins - 1, copyPins := g.copyPins - 1 } else g }
  { s1 with segs := s1.segs.filter fun g => !(g.dying && g.copyPins == 0) }

/-- Releases the pins that a slot's copy commands hold, in a list of channels. -/
def State.endRuns (s : State) : List (Nat × Chan) → State
  | [] => s
  | (_, ch) :: r => (match ch.run with
    | some k => s.endCopyPins k.pins
    | none => s).endRuns r

/-- The reservations of started commands that are dropped are given up. -/
def Slot.dropResv (x : Slot) : Slot :=
  let give := fun (e : Eng) (w : BitVec 32) (y : Slot) => match postEng e w with
    | some b => y.unreserve e b
    | none => y
  let y := match x.eng.mrun with
    | some r => give .m r.q.word x
    | none => x
  y.eng.chans.foldl (fun z e => match e.2.run with
    | some r => give .c r.q.word z
    | none => z) y

/-- The lease of a cluster ends if MRELEASE asked for it and no word it covers is left (R296). -/
def State.releaseIfDone (s : State) (c : Fin 64) : State :=
  let k := s.clusterOf c
  match k.holder, k.ending with
  | some i, some n => if (s.slotOf i).leftBefore n then s else s.endLease c
  | _, _ => s

/-- A holder whose words are gone is idle from now on, and a lease that MRELEASE has released ends (R278, R296). -/
def State.idleLease (s0 : State) (i : SlotId) : State :=
  let c := clusterOfCore i.core
  let s := s0.mapCluster c fun k => { k with owed := k.owed.filter fun r => r.1 ≠ i }
  if (s.clusterOf c).holder = some i then
    (s.mapCluster c fun k => { k with idleSince := some (k.idleSince.getD s.cycle) }).releaseIfDone c
  else s

/-- Answers to a slot's copies that are on their way no longer reach a command; what they report at a domain stays (R389). -/
def State.orphanCopies (s : State) (i : SlotId) : State :=
  s.mapPkg fun k => { k with remotes := k.remotes.map fun r =>
    if r.slot = i ∧ r.chan.isSome then { r with chan := some (0, 2 ^ 32) } else r }

/-- DropEngineWords (R354): words in issue complete; every other unfinished word is discarded without its tokens, its pins and
tickets are released, markers are applied in order, and the ids of discarded C words count as completed. What SRD reads of VTYPE stays the value of a
VCFG that is dropped (log 116, DESIGN CHOICE: R354 does not say). -/
def State.dropEngines (s : State) (i : SlotId) : State :=
  let x := s.slotOf i
  let s1 := match x.eng.mrun with
    | some r => s.unpinAll r.pins
    | none => s
  let s2 := s1.endRuns x.eng.chans
  let s3 := (List.finRange 8).foldl (fun t h => t.dropTicket (.c i h)) (s2.dropTicket (.m i))
  State.idleLease ((s3.orphanCopies i).mapSlot i fun x =>
    let y := x.finishAll s.cycle x.eng.vec.flight
    let y := (y.applyMarkers s.cycle y.eng.qs.vq).dropResv
    { y with eng := { y.eng with
        mrun := none
        mupc := 0
        chans := y.eng.chans.map fun e => (e.1, { e.2 with doneId := e.2.given, run := none })
        qs := { y.eng.qs with
          vq := []
          mq := []
          cq := []
          vStop := false
          mStop := false
          cStop := false
          journal := y.eng.qs.journal.map fun e => { e with done := true } } } }) i

end Sys2Proof.Machine
end

