-- ==== Sys2Proof/Machine/Wire.lean ====
section
/-! DEFINITION. Falran, how requests leave (20 R387 to R389): flits, ports and their replay buffers, routes, outstanding requests. -/

namespace Sys2Proof.Machine

/-! ### Flits (R387, Table 6) -/

/-- One bit of CRC-64 (R387; the highest bit first, log 19). -/
def crc64Bit (c : BitVec 64) : BitVec 64 :=
  if c.msb then (c <<< 1) ^^^ 0x42F0E1EBA9EA3693 else c <<< 1

/-- One byte. -/
def crc64Byte (c : BitVec 64) (b : Byte) : BitVec 64 :=
  crc64Bit (crc64Bit (crc64Bit (crc64Bit (crc64Bit (crc64Bit (crc64Bit (crc64Bit (c ^^^ (b.setWidth 64 <<< 56)))))))))

/-- CRC-64 of bytes in rising order. -/
def crc64 (bs : List Byte) : BitVec 64 :=
  bs.foldl crc64Byte (BitVec.allOnes 64) ^^^ BitVec.allOnes 64

/-- Bytes 0 to 247 of a flit. -/
def flitBytes (head : BitVec 64) (payload : BitVec 1920) : List Byte :=
  natBytes 8 head.toNat ++ natBytes 240 payload.toNat

/-- A flit passes its CRC. -/
def flitOk (f : Flit) : Bool := f.crc == crc64 (flitBytes f.head f.payload)

/-- The sequence number of a flit. -/
def flitSeq (f : Flit) : Nat := bitsOf f.head 52 12

/-- The newest sequence number its sender has received in order. -/
def flitAck (f : Flit) : Nat := bitsOf f.head 40 12

/-- Its type. -/
def flitType (f : Flit) : Nat := bitsOf f.head 36 4

/-- A flit. -/
def mkFlit (seq ack type vc : Nat) (payload : BitVec 1920) : Flit :=
  let head := BitVec.ofNat 64 (seq * 2 ^ 52 + ack * 2 ^ 40 + type * 2 ^ 36 + vc * 2 ^ 34)
  ⟨head, payload, crc64 (flitBytes head payload)⟩

/-! ### Ports (R388) -/

/-- Flits that may be sent and not acknowledged. -/
def replayWindow : Nat := 2048

/-- A port. -/
def State.portOf (s : State) (n : Nat) : FPort := tget FPort.initial s.pkg.ports n

/-- Changes a port. -/
def State.mapPort (s : State) (n : Nat) (f : FPort → FPort) : State :=
  s.mapPkg fun k => { k with ports := tput k.ports n (f (tget FPort.initial k.ports n)) }

/-- A flit enters the replay buffer of its port and is sent. -/
def FPort.send (k : FPort) (dev type vc : Nat) (payload : BitVec 1920) : FPort :=
  { k with
    txSeq := (k.txSeq + 1) % 4096
    replay := k.replay ++ [⟨k.txSeq, dev, mkFlit k.txSeq ((k.rxSeq + 4095) % 4096) type vc payload⟩] }

/-- The flits after the one with a number. -/
def afterSeq (a : Nat) : List Sent → List Sent
  | [] => []
  | e :: r => if e.seq = a then r else afterSeq a r

/-- An acknowledgement frees the flits up to the one it names, if that one has been sent. -/
def FPort.acked (k : FPort) (a : Nat) : FPort :=
  if (k.replay.take replayWindow).any fun e => e.seq == a then { k with replay := afterSeq a k.replay, fails := 0 } else k

/-- A flit is lost: flits are dropped from it on until the replay, and a retry request goes out that names it in seq, and in ack the last one
received (R388; log 19). -/
def FPort.lose (k : FPort) : FPort :=
  { k with rxDrop := true, retry := some (mkFlit k.rxSeq ((k.rxSeq + 4095) % 4096) 5 0 0) }

/-- What a port makes of a flit (R387, R388): one that fails its CRC, or skips a number, is lost, and after it every flit is dropped until the
replay, which begins with the number lost; one that has been received already is dropped, and so is one of a type that Table 6 does not have
(log 19). The flag tells whether it is accepted. -/
def FPort.receive (k : FPort) (f : Flit) (bad : Bool) : FPort × Bool :=
  if k.down then (k, false)
  else if bad || !flitOk f then (k.lose, false)
  else if decide (5 < flitType f) || (k.rxDrop && !(decide (1 ≤ flitType f ∧ flitType f ≤ 3) && flitSeq f == k.rxSeq)) then (k, false)
  else if flitType f = 0 ∨ flitType f = 4 ∨ flitType f = 5 then (k.acked (flitAck f), true)
  else if flitSeq f = k.rxSeq then
    (({ k with rxSeq := (k.rxSeq + 1) % 4096, rxDrop := false, retry := none }).acked (flitAck f), true)
  else if (k.rxSeq + 4096 - flitSeq f) % 4096 ≤ replayWindow then (k, false)
  else (k.lose, false)

/-- The die of a port: 16 ports a die (log 19). -/
def portDie (n : Nat) : Nat := n / 16

/-- A port receives a flit that belongs to a partition; the injector may hit it (R349). -/
def State.receive (s : State) (n : Nat) (f : Flit) (p : Option (Fin 16)) : State × Bool :=
  let bad := match p with
    | some p => s.hit (portDie n) p .flit n
    | none => false
  ((s.mapPort n fun k => (k.receive f bad).1), ((s.portOf n).receive f bad).2)

/-! ### Requests (R387, R389) -/

/-- The port by which traffic of a core leaves to a device: that of rank c mod k among the k ports of its route entry that are up (R387);
none where there is none, and requests are answered poisoned (R388). -/
def State.routeTo (s : State) (core : Fin 256) (dev : Nat) : Option Nat :=
  let ports := (List.range 64).filter fun p => (s.pfReg (0x4000 + 8 * dev)).getLsbD p && !(s.portOf p).down
  ports[core.val % ports.length]?

/-- The virtual channel of a request: 2 for domains (R390). -/
def reqVc : RemoteOp → Nat
  | .dom _ _ _ _ => 2
  | _ => 0

/-- The request flit of an access. -/
def State.sendRequest (s : State) (r : Remote) : State :=
  s.mapPort r.port fun k => k.send r.dev 1 (reqVc r.req.op) (Config.requestPayload r.req)

/-- A request to a remote device joins those outstanding (R389): of the control core of a slot, of a copy channel, or of the device itself
for a partition; it carries the sender's DEVID and endpoint, and the dirty-log bit of its translation (R385). -/
def State.sendAs (s : State) (i : SlotId) (chan : Option (Fin 8 × Nat)) (land : Option Landing) (part : Option (Fin 16)) (dev pa : Nat)
    (op : RemoteOp) (dlog : Bool) (wake : Option (BitVec 32 × BitVec 256)) : State :=
  let devid : BitVec 12 := (s.pfReg 0x38).setWidth 12
  let endpoint := BitVec.ofNat 16 (bitsOf ((s.partOf (s.partNo i.core)).word 8) 16 16)
  let r : Remote :=
    { tag := s.pkg.nextTag
      slot := i
      dev := dev
      port := (s.routeTo i.core dev).getD 0
      req := ⟨devid, endpoint, s.pkg.nextTag, BitVec.ofNat 52 pa, op, dlog⟩
      chan := chan
      land := land
      part := part
      killed := none
      wake := wake }
  (s.mapPkg fun k => { k with remotes := k.remotes ++ [r], nextTag := k.nextTag + 1 }).sendRequest r

/-- A request of a copy channel. -/
def State.sendFor (s : State) (i : SlotId) (chan : Option (Fin 8 × Nat)) (land : Option Landing) (dev pa : Nat) (op : RemoteOp)
    (dlog : Bool) : State :=
  s.sendAs i chan land none dev pa op dlog none

/-- A request of the control core. -/
def State.sendRemote (s : State) (i : SlotId) (dev pa : Nat) (op : RemoteOp) (dlog : Bool) : State :=
  s.sendAs i none none none dev pa op dlog none

/-- A store of the control core leaves; `wake` are the bytes that may wake the launch engine when it has been performed (R107). -/
def State.sendStore (s : State) (i : SlotId) (dev pa : Nat) (op : RemoteOp) (dlog : Bool) (wake : Option (BitVec 32 × BitVec 256)) : State :=
  s.sendAs i none none none dev pa op dlog wake

/-- A request that the device makes on its own for a partition, by way of its interrupt core (R398). -/
def State.sendOwn (s : State) (p : Fin 16) (dev pa : Nat) (op : RemoteOp) (dlog : Bool) : State :=
  s.sendAs ⟨(s.partOf p).icore, 0⟩ none none (some p) dev pa op dlog none

/-- A granule of a remote page, as a key. -/
def remoteKey (dev pa : Nat) : Nat := dev * 2 ^ 47 + pa / 32

end Sys2Proof.Machine
end

