-- ==== Sys2Proof/Machine/Doms.lean ====
section
/-! DEFINITION. The device's own memory accesses (05 R398, R98), domains and their barrier (05 R116 to R120), and cancel scopes
(05 R121, R122; 16 R342, R346). -/

namespace Sys2Proof.Machine

/-! ### The device's own accesses (R398) -/

/-- Where an access that the device makes on its own goes: to a page of this device, or of another (R389), with the dirty-log bit of its
translation (R385). -/
inductive DevSite where
  | here (g : Page)
  | far (dev pa : Nat) (dlog : Bool)
  deriving DecidableEq, Repr

/-- The place of a VA for an access that the device makes on its own; none where it does not translate. -/
def State.devSite (s : State) (p : Fin 16) (root va : Nat) (acc : Access) : Option DevSite :=
  match s.walk p root (va % 2 ^ 48) acc with
  | .ok g => some (if g.rem then .far g.dev g.pa g.use.dlog else .here g)
  | .error _ => none

/-- The page of this device that a VA names. -/
def State.devPage (s : State) (p : Fin 16) (root va : Nat) (acc : Access) : Option Page :=
  match s.devSite p root va acc with
  | some (.here g) => some g
  | _ => none

/-- The key under which the answer to a request of the device's own is kept. -/
def ownKey (p : Fin 16) (dev pa : Nat) (op : RemoteOp) : Nat :=
  match op with
  | .dom _ id task _ => 2 ^ 72 + task * 2 ^ 16 + id
  | _ => p.val * 2 ^ 60 + remoteKey dev pa

/-- A granule that another device has answered. -/
def State.fetchedGran (s : State) (key : Nat) : Option Granule :=
  (s.pkg.fetched.find? fun e => e.1 == key).map (·.2)

/-- One granule read as a consumer at its home; one of another device as it has answered (see `State.reading`). -/
def State.devGran (s : State) (p : Fin 16) (root va : Nat) : Option (BitVec 256) :=
  let x := match s.devSite p root va .load with
    | none => none
    | some (.here g) => some (s.homeGran p g.use.key (g.pa / 32))
    | some (.far dev pa _) => s.fetchedGran (ownKey p dev pa .read)
  match x with
  | none => none
  | some x => if (checkGran x).isSome then none else some x.data

/-- A 64-bit word at an 8-byte aligned VA. -/
def State.devRead (s : State) (p : Fin 16) (root va : Nat) : Option Word :=
  (s.devGran p root va).map fun d => takeAt d (va % 32) 8

/-- n double words from an 8-byte aligned VA. -/
def State.devWords (s : State) (p : Fin 16) (root : Nat) : Nat → Nat → Option (List Word)
  | _, 0 => some []
  | va, n + 1 =>
    match s.devRead p root va, s.devWords p root (va + 8) n with
    | some w, some r => some (w :: r)
    | _, _ => none

/-- A 16-bit number at a 2-byte aligned VA. -/
def State.devRead16 (s : State) (p : Fin 16) (root va : Nat) : Option Nat :=
  (s.devGran p root va).map fun d => bitsOf d (8 * (va % 32)) 16

/-- n bytes from any VA. -/
def State.devBytes (s : State) (p : Fin 16) (root : Nat) : Nat → Nat → Option (List Byte)
  | _, 0 => some []
  | va, n + 1 =>
    match s.devGran p root va, s.devBytes p root (va + 1) n with
    | some d, some r => some (d.extractLsb' (8 * (va % 32)) 8 :: r)
    | _, _ => none

/-! ### Waiting for other devices (R398, R389) -/

/-- What the device has still to ask another device for. -/
structure Want where
  dev : Nat
  pa : Nat
  op : RemoteOp
  deriving DecidableEq, Repr

/-- What reading n granules from a VA on has still to ask for. -/
def State.wants (s : State) (p : Fin 16) (root va n : Nat) : List Want :=
  (List.range n).filterMap fun k =>
    match s.devSite p root (va + 32 * k) .load with
    | some (.far dev pa _) =>
      if (s.fetchedGran (ownKey p dev pa .read)).isSome then none else some ⟨dev, pa / 32 * 32, .read⟩
    | _ => none

/-- What a request gets that is answered poisoned (R388). -/
def poisoned : Granule := ⟨0, zeroSeal, true, false⟩

/-- An answer is kept for the device. -/
def State.keepFetched (s : State) (key : Nat) (g : Granule) : State :=
  s.mapPkg fun k => { k with fetched := tput k.fetched key g }

/-- Asks for what is wanted, once; where no port leads to a device the answer is poisoned. -/
def State.ask (s : State) (p : Fin 16) : List Want → State
  | [] => s
  | w :: r =>
    (if s.pkg.remotes.any fun q => q.part = some p ∧ q.dev = w.dev ∧ q.req.pa = BitVec.ofNat 52 w.pa ∧ q.req.op = w.op then s
      else if (s.routeTo (s.partOf p).icore w.dev).isNone then s.keepFetched (ownKey p w.dev w.pa w.op) poisoned
      else s.sendOwn p w.dev w.pa w.op false).ask p r

/-- Forgets what was read for a partition. -/
def State.forget (s : State) (p : Fin 16) : State :=
  s.mapPkg fun k => { k with fetched := k.fetched.filter fun e => e.1 / 2 ^ 60 != p.val }

/-- An action of the device on memory of a partition: it waits, and is tried again, until nothing is wanted of other devices. -/
def State.reading (s : State) (p : Fin 16) (l : List Want) (f : State → State) : State :=
  if l.isEmpty then (f s).forget p else s.ask p l

/-! ### Writes of the device -/

/-- A write that the device makes on its own: a whole granule, an atomic on 8 bytes, or some bytes. -/
inductive DevWrite where
  | whole (d : BitVec 256)
  | add (n : Word)
  | and (n : Word)
  | or (n : Word)
  | put (size : Nat) (v : Word)
  deriving DecidableEq, Repr

/-- The access that it makes. -/
def DevWrite.access : DevWrite → Access
  | .whole _ => .store
  | .put _ _ => .store
  | _ => .atomic

/-- The granule after it, at an offset. -/
def DevWrite.on (w : DevWrite) (d : BitVec 256) (o : Nat) : BitVec 256 :=
  let old := takeAt d o 8
  match w with
  | .whole n => n
  | .add n => mergeBytes d (placeAt (old + n) o) (byteMask o 8)
  | .and n => mergeBytes d (placeAt (old &&& n) o) (byteMask o 8)
  | .or n => mergeBytes d (placeAt (old ||| n) o) (byteMask o 8)
  | .put k v => mergeBytes d (placeAt v o) (byteMask o k)

/-- What it asks of another device's home. -/
def DevWrite.request (w : DevWrite) (o : Nat) : RemoteOp :=
  let atom := fun (op : Fin 16) (n : Word) => RemoteOp.atom op (Fin.ofNat 4 (o / 8)) n 0 (crc32c (natBytes 8 n.toNat))
  match w with
  | .whole n => .write (BitVec.allOnes 32) (mkGran n) none
  | .add n => atom 0 n
  | .and n => atom 1 n
  | .or n => atom 2 n
  | .put k v => .write (byteMask o k) (mkGran (placeAt v o)) none

/-- The bytes it leaves alone are consumed, and checked (R191); a whole granule leaves none. -/
def DevWrite.reads : DevWrite → Bool
  | .whole _ => false
  | _ => true

/-- MSI-X vector 0 of the partition's VF (R391). -/
def State.raiseMsix (s : State) (p : Fin 16) : State :=
  s.mapPkg fun k => { k with msix := k.msix ++ [bitsOf ((s.partOf p).word 0) 16 4] }

/-- A write by the device, at the home of its granule, where it waits for an unlock (R191, R218); what fails is skipped and reported (R98,
R398). `report` tells that one to host memory is followed by MSI-X vector 0 (R391). -/
def State.devWrite (s : State) (p : Fin 16) (root va : Nat) (w : DevWrite) (report : Bool) : State :=
  match s.devSite p root va w.access with
  | none => s.devFail p
  | some (.far dev pa dlog) =>
    if (s.routeTo (s.partOf p).icore dev).isNone then s.devFail p else s.sendOwn p dev (pa / 32 * 32) (w.request (pa % 32)) dlog
  | some (.here g) =>
    let x := s.homeGran p g.use.key (g.pa / 32)
    if s.isLocked (.phys (g.pa / 32)) then s.hold ⟨g.pa / 32, w.request (g.pa % 32), p, g.use.key, g.use.dlog, none, report⟩
    else if w.reads && (checkGran x).isSome then s.devFail p
    else
      let t := s.homePut p g.use.key g.use.dlog (g.pa / 32) (mkGran (w.on x.data (g.pa % 32)))
      if report ∧ physOf g.pa = .host then t.raiseMsix p else t

/-- A write by the device that it does not report. -/
def State.devUpdate (s : State) (p : Fin 16) (root va : Nat) (w : DevWrite) : State := s.devWrite p root va w false

/-- A write to a completion or acknowledgement word, which the device reports. -/
def State.devReport (s : State) (p : Fin 16) (root va : Nat) (w : DevWrite) : State := s.devWrite p root va w true

/-- ATOM.ADD.rel.sys by the device on a completion word; nothing for pointer 0 (R98, R114). -/
def State.devAdd (s : State) (p : Fin 16) (root ptr : Nat) (n : Word) : State :=
  if ptr = 0 then s else s.devReport p root (ptr % 2 ^ 48) (.add n)

/-- Writes one bit of a bitmap by the device (R203, R204). -/
def State.devBit (s : State) (p : Fin 16) (root va i : Nat) (b : Bool) : State :=
  let m : Word := (1 : Word) <<< (i % 64)
  s.devUpdate p root (va / 8 * 8 + i / 64 * 8) (if b then .or m else .and (~~~m))

/-! ### Domains -/

/-- The number of the span of a level that contains a core (R116, Table 7). -/
def spanOf (level core : Nat) : Nat :=
  match level with
  | 0 => core
  | 1 => core / 4
  | 2 => core / 16
  | 3 => core / 64
  | _ => 0

/-- A task as domains name it: partition and serial. -/
def taskNo (p : Fin 16) (serial : Nat) : Nat := p.val * 2 ^ 32 + serial

/-- A live domain. -/
def State.domOf (s : State) (p : Fin 16) (level id : Nat) : Option Dom :=
  (s.partOf (s.domPart p level)).doms.find? fun d => d.level == level && d.id == id

/-- Changes a domain; one without members ceases to exist (R117). -/
def State.mapDom (s : State) (p : Fin 16) (level id : Nat) (f : Dom → Dom) : State :=
  s.mapPart (s.domPart p level) fun q =>
    { q with doms := (updFirst (fun d => d.level == level && d.id == id) f q.doms).filter fun d => !d.members.isEmpty }

/-- A member of a domain. -/
def Dom.member (d : Dom) (t : Nat) : Option Member := d.members.find? fun m => m.task == t

/-- Changes a member. -/
def Dom.mapMember (d : Dom) (t : Nat) (f : Member → Member) : Dom :=
  { d with members := updFirst (fun m => m.task == t) f d.members }

/-- A member without arrival or declaration (R118). -/
def Member.new (t : Nat) : Member := ⟨t, false, false, 0, 0, 0, false, none, none⟩

/-- Bytes land against a member (R119, Landing). -/
def Member.land (m : Member) (b : Nat) : Member :=
  if m.decl = false then { m with early := m.early + b }
  else if b > m.count then { m with excess := m.excess + b - m.count, count := 0 }
  else { m with count := m.count - b }

/-- Declare (R119). -/
def Member.declare (m : Member) (n : Nat) : Member :=
  if m.decl = false then ({ m with decl := true, count := n, early := 0 }).land m.early
  else { m with count := m.count + n }

/-- Arrive (R119): a new arrival replaces an unreported result (R120). -/
def Member.arrive (m : Member) : Member :=
  { (if m.decl then m else m.declare 0) with arr := true, result := none, overrun := none }

/-- A member at the completion of a phase (R119, R120). -/
def Member.completed (m : Member) (phase : Nat) : Member :=
  { m with
    arr := false
    decl := false
    count := 0
    early := 0
    excess := 0
    result := some (.ok phase)
    overrun := if m.excess > 0 then some (m.excess, phase) else none }

/-- Completes the phase when every member has arrived with count 0 (R119). -/
def Dom.settle (d : Dom) : Dom :=
  if d.members.isEmpty = false ∧ d.members.all (fun m => m.arr && m.count == 0) = true then
    { d with phase := d.phase + 1, members := d.members.map (·.completed d.phase) }
  else d

/-- A phase broken by a kill: the member is removed, counts are zero, arrived members get BROKEN, the others the mark (R120). -/
def Dom.breakPhase (d : Dom) (t : Nat) : Dom :=
  { d with
    phase := d.phase + 1
    members := (d.members.filter fun m => m.task != t).map fun m =>
      let n := { m with arr := false, decl := false, count := 0, early := 0, excess := 0 }
      if m.arr then { n with result := some .broken } else { n with broken := true } }

/-- A landing reaches the home (R119). -/
def Dom.landing (d : Dom) (t b phase : Nat) : Dom :=
  if phase ≠ d.phase then d else (d.mapMember t (·.land b)).settle

/-- Leaves a domain (R118). -/
def Dom.leave (d : Dom) (t : Nat) : Dom :=
  ({ d with members := d.members.filter fun m => m.task != t }).settle

/-- Live domains of a partition over all levels. -/
def State.domCount (s : State) (p : Fin 16) : Nat := (s.partOf p).doms.length

/-! ### Domains of a fabric group (R390; log 75) -/

/-- The fabric group of a partition. -/
def State.fgid (s : State) (p : Fin 16) : Nat := bitsOf ((s.partOf p).word 8) 0 16

/-- The device that keeps a domain: none where this one does. -/
def State.domHome (s : State) (p : Fin 16) (level id : Nat) : Option Nat :=
  if level = 5 then (s.pkg.domHomes.find? fun e => e.1 == s.fgid p * 2 ^ 16 + id).map (·.2) else none

/-- A message to the home of a domain on another device. -/
def State.sendDom (s : State) (p : Fin 16) (dev id task : Nat) (m : DomMsg) : State :=
  if (s.routeTo (s.partOf p).icore dev).isNone then s.devFail p else s.sendOwn p dev 0 (.dom (s.fgid p) id task m) false

/-- The devices that a partition's peering table names (R389, Table 8). -/
def State.peerDevs (s : State) (p : Fin 16) : List Nat :=
  (((List.range 32).map fun k => s.pfReg (0xC000 + 256 * p.val + 8 * k)).filterMap fun e =>
    if e.getLsbD 63 then some (bitsOf e 16 12) else none).dedup

/-- A level-5 domain that begins here has its home on this device: the peers learn of it. -/
def State.announceHome (s : State) (p : Fin 16) (level id : Nat) : State :=
  if level = 5 then
    (s.peerDevs (s.domPart p 5)).foldl (fun t d =>
      if (t.routeTo (t.partOf p).icore d).isNone then t else t.sendOwn (t.domPart p 5) d 0 (.dom (t.fgid p) id 0 .home) false) s
  else s

/-- The level and id that a message to another device's domain is about, as it is asked for the first time. -/
def State.domWant (s : State) (p : Fin 16) (dev id task : Nat) (m : DomMsg) : Want := ⟨dev, 0, .dom (s.fgid p) id task m⟩

/-- The mirror here of a member of a domain that another device keeps, in the phase that its home has told. -/
def State.domMirror (s : State) (p : Fin 16) (core : Fin 256) (t level id phase : Nat) : State :=
  if (s.domOf p level id).isSome then
    s.mapPart (s.domPart p level) fun q =>
      let add := fun (d : Dom) => { d with phase := phase, members := d.members ++ [Member.new t] }
      { q with doms := updFirst (fun d => d.level == level && d.id == id) add q.doms }
  else s.mapPart (s.domPart p level) fun q => { q with doms := q.doms ++ [⟨level, id, core, phase, [Member.new t]⟩] }

/-- A member of a domain that another device keeps, as it is here: the mirror of a member that leaves. -/
def Dom.without (d : Dom) (t : Nat) : Dom := { d with members := d.members.filter fun m => m.task != t }

/-! ### Joining and leaving -/

/-- DOMJOIN of a task on a core (R117, R118): none where it is refused. A new domain begins in phase 0, for which the spec gives no number
(log 99, DESIGN CHOICE). -/
def State.domJoin (s : State) (p : Fin 16) (core : Fin 256) (t level id : Nat) : Option State :=
  if level = 5 ∧ bitsOf ((s.partOf p).word 8) 0 16 = 0 then none
  else match s.domOf p level id with
    | none =>
      if s.domCount (s.domPart p level) ≥ 4096 then none
      else some ((s.mapPart (s.domPart p level) fun q =>
        { q with doms := q.doms ++ [⟨level, id, core, 0, [Member.new t]⟩] }).announceHome p level id)
    | some d =>
      if spanOf level d.core.val ≠ spanOf level core.val ∨ d.members.length ≥ 65535 ∨ (d.member t).isSome = true then none
      else some (s.mapDom p level id fun d => { d with members := d.members ++ [Member.new t] })

/-- A task leaves a domain, by leaving or, when killed, by breaking the phase (R98, R343). -/
def State.leaveDom (s : State) (p : Fin 16) (t level id : Nat) (killed : Bool) : State :=
  match s.domHome p level id with
  | some dev => (s.mapDom p level id (·.without t)).sendDom p dev id t (if killed then .kill else .leave)
  | none => s.mapDom p level id fun d => if killed then d.breakPhase t else d.leave t

/-- A task leaves every domain of its list. -/
def State.leaveAll (s : State) (p : Fin 16) (t : Nat) (killed : Bool) : List (Nat × Nat) → State
  | [] => s
  | (level, id) :: r => (if id = 0 then s else s.leaveDom p t level id killed).leaveAll p t killed r

/-! ### Scopes -/

/-- A live scope. -/
def Part.scope (q : Part) (id : Nat) : Option Scope := q.scopes.find? fun x => x.id == id

/-- Changes a scope. -/
def Part.mapScope (q : Part) (id : Nat) (f : Scope → Scope) : Part :=
  { q with scopes := updFirst (fun x => x.id == id) f q.scopes }

/-- A scope and its ancestors, nearest first. -/
def Part.lineage (q : Part) : Nat → Nat → List Nat
  | 0, _ => []
  | n + 1, id => if id = 0 then [0] else id :: (match q.scope id with
    | some x => q.lineage n x.parent
    | none => [])

/-- The lineage in full: at most 4,097 scopes are live. -/
def Part.line (q : Part) (id : Nat) : List Nat := q.lineage 4098 id

/-- y is x or a descendant of x. -/
def Part.within (q : Part) (y x : Nat) : Bool := (q.line y).contains x

/-- Cancelled by its own mark or through an ancestor (R122). -/
def Part.cancelled (q : Part) (id : Nat) : Bool :=
  (q.line id).any fun x => match q.scope x with
    | some z => z.mark
    | none => false

/-- Cancelled as a core sees it: it has been told of the mark, or 2 microseconds have passed since (R342). -/
def Part.cancelSeen (q : Part) (c : Fin 256) (now id : Nat) : Bool :=
  (q.line id).any fun x => match q.scope x with
    | some z => z.mark && (z.seen.contains c.val || decide (z.markedAt + 3200 ≤ now))
    | none => false

/-- A scope takes its mark. -/
def Part.markScope (q : Part) (id now : Nat) : Part :=
  if q.cancelled id then q else q.mapScope id fun z => { z with mark := true, markedAt := now, seen := [] }

/-- Live tasks of a scope and its descendants (R121). -/
def Part.taskCount (q : Part) (id : Nat) : Nat :=
  ((q.scopes.filter fun x => q.within x.id id).map (·.own)).sum

/-- Live child scopes. -/
def Part.hasChild (q : Part) (id : Nat) : Bool :=
  q.scopes.any fun x => x.id != 0 && x.parent == id

/-- A task enters a scope. -/
def Part.enter (q : Part) (id : Nat) : Part := q.mapScope id fun x => { x with own := x.own + 1 }

/-- A task leaves its scope; one killed is counted by every cancelled scope above it (R344, R346). -/
def Part.exit (q : Part) (id : Nat) (killed : Bool) : Part :=
  let q1 := q.mapScope id fun x => { x with own := x.own - 1 }
  if killed then
    { q1 with scopes := q1.scopes.map fun x =>
        if q1.within id x.id && q1.cancelled x.id then { x with killed := min (x.killed + 1) (2 ^ 32 - 1) } else x }
  else q1

/-- Writes of a core's L1 lines that a partition's lines have made wait for an unlock (R218). -/
def State.heldFrom (s : State) (p : Fin 16) : Bool := s.pkg.held.any fun h => decide (h.part = p) && h.core.isSome

/-- The tasks of a scope are gone, what the L1s of its partition have written back is at its homes, and what killed tasks have sent to other
devices is answered (R219, R346). -/
def State.ackReady (s : State) (p : Fin 16) (id : Nat) : Bool :=
  (s.partOf p).taskCount id == 0 && !s.heldFrom p && !s.pkg.remotes.any fun r => match r.killed with
    | some (n, x) => decide (n = p) && (s.partOf p).within x id
    | none => false

/-- Writes a scope's acknowledgement once (R346). -/
def State.acknowledge (s : State) (p : Fin 16) (id : Nat) : State :=
  match (s.partOf p).scope id with
  | none => s
  | some x =>
    if x.acked then s
    else
      let s1 := s.mapPart p fun q => q.mapScope id fun x => { x with acked := true }
      match x.cword with
      | none => s1
      | some (root, va) => s1.devReport p root va (.put 8 (word (2 ^ 63 + x.killed)))

/-- A scope can be freed: its creator is gone, it has no task and no child (R121). -/
def Part.freeable (q : Part) (x : Scope) : Bool :=
  x.id != 0 && x.creator.isNone && q.taskCount x.id == 0 && !q.hasChild x.id

/-- A CANCELWAIT on a scope stalls on a slot of a partition: it is to return OK (R352). -/
def State.waitedOn (s : State) (p : Fin 16) (id : Nat) : Bool :=
  s.slots.any fun e => e.2.sched.stall == some (.cancel id) && e.2.task.any fun t => decide (t.part = p)

/-- It can be freed now: a cancelled one must be ready for its acknowledgement, and no CANCELWAIT may still stall on it (R352). -/
def State.freeable (s : State) (p : Fin 16) (x : Scope) : Bool :=
  (s.partOf p).freeable x && (!(s.partOf p).cancelled x.id || (s.ackReady p x.id && !s.waitedOn p x.id))

/-- Frees scopes until none can be freed; a cancelled one is first acknowledged (R121, R352). -/
def State.reapScopes (s : State) (p : Fin 16) : Nat → State
  | 0 => s
  | n + 1 =>
    match (s.partOf p).scopes.find? fun x => s.freeable p x with
    | none => s
    | some x =>
      let s1 := if (s.partOf p).cancelled x.id then s.acknowledge p x.id else s
      (s1.mapPart p fun q => { q with scopes := q.scopes.filter fun y => y.id != x.id }).reapScopes p n

/-- Frees what can be freed. -/
def State.reap (s : State) (p : Fin 16) : State := s.reapScopes p (s.partOf p).scopes.length

/-- The scopes a task created lose their creator when it ends or is killed (R121). -/
def Part.disown (q : Part) (serial : Nat) : Part :=
  { q with scopes := q.scopes.map fun x => if x.creator = some serial then { x with creator := none } else x }

end Sys2Proof.Machine
end

