-- ==== Sys2Proof/Machine/Work.lean ====
section
/-! DEFINITION. Ending a task's work: what a slot gives back (05 R98, 16 R343), the deque (05 R111), reruns (16 R348), and engine
faults (12 R253, 16 R328). -/

namespace Sys2Proof.Machine

/-! ### Deque -/

/-- Spills the oldest record of a full deque (R111). -/
def spillOldest (l : List Rec) : List Rec :=
  if (l.filter fun r => !r.spilled).length < 64 then l
  else (updFirst (fun r => !r.spilled) (fun r => { r with spilled := true }) l.reverse).reverse

/-- Pushes a record at the head of a core's deque (R111). -/
def State.pushHead (s : State) (c : Fin 256) (r : Rec) : State :=
  s.mapCore c fun k => { k with deque := { r with spilled := false } :: spillOldest k.deque }

/-- Places a record at its oldest end (R336). -/
def State.pushTail (s : State) (c : Fin 256) (r : Rec) : State :=
  s.mapCore c fun k => { k with deque := spillOldest k.deque ++ [{ r with spilled := false }] }

/-! ### What a slot holds -/

/-- Evicts the lines of a block, dirty data written back (R184). -/
def State.evictLines (s : State) (c : Fin 256) : List (Nat × Bool) → State
  | [] => s
  | m :: r => (s.evictLine c m.1).evictLines c r

/-- Evicts a load block whole and empties its handle (R184). -/
def State.evictBlock (s : State) (i : SlotId) (h : Nat) : State :=
  match ((s.slotOf i).blocks.find? fun b => b.1 == h) with
  | none => s
  | some b => (s.evictLines i.core b.2.lines).mapSlot i fun x => { x with blocks := tdrop x.blocks h }

/-- Evicts every block of a slot (R184, R337). -/
def State.evictBlocks (s : State) (i : SlotId) : List (Nat × Block) → State
  | [] => s
  | b :: r => (s.evictBlock i b.1).evictBlocks i r

/-- Withdraws every ticket of a slot's commands (R175). -/
def State.dropTickets (s : State) (i : SlotId) : State :=
  let s1 := (s.dropTicket (.control i)).dropTicket (.m i)
  (List.finRange 8).foldl (fun t h => (t.dropTicket (.c i h)).dropTicket (.ag i h)) s1

/-- What marks the segments and banks of a context that is gone while a copy or a split still writes them (R343). -/
def deadKey : Nat := 2 ^ 50

/-- The identity of a segment whose creator is gone: one of a task's space leaves that space, which the environment's next task finds empty
(R13, R17). -/
def deadId (cycle key : Nat) (g : SegId) : SegId :=
  match g.space with
  | .task _ => ⟨.task (2 ^ 60 * (cycle + 1) + key), g.name⟩
  | .cluster _ => g

/-- The copies of a slot know a segment by its new identity. -/
def Slot.renamePins (x : Slot) (f : SegId → SegId) : Slot :=
  { x with eng := { x.eng with chans := x.eng.chans.map fun e =>
    (e.1, { e.2 with run := e.2.run.map fun r => { r with pins := r.pins.map f } }) } }

/-- Frees the segments a context created; one that a copy is under way into is freed when that copy ends (R238, R343). -/
def State.freeSegs (s : State) (key : Nat) : State :=
  let dead := fun (i : SegId) =>
    if s.segs.any fun g => decide (g.id = i) && g.creator == key && g.copyPins != 0 then deadId s.cycle key i else i
  { s with
    segs := (s.segs.filter fun g => !(g.creator == key && g.copyPins == 0)).map fun g =>
      if g.creator = key then { g with id := dead g.id, creator := deadKey + key, dying := true, sgpin := false } else g
    slots := s.slots.map fun e => (e.1, e.2.renamePins dead)
    scheds := s.scheds.filter fun x => x.key != key }

/-- The M command that a saved task has begun. -/
def Rec.mrun (r : Rec) : Option MRun :=
  match r.kind with
  | .resume _ _ x => x.eng.mrun
  | _ => none

/-- A split MMA in progress, of a slot or of a saved task, writes a bank of a core (R343). -/
def State.inSplit (s : State) (c : Fin 256) (bank : Nat) : Bool :=
  ((s.slots.filterMap fun e => e.2.eng.mrun) ++ s.resumeRecs.filterMap Rec.mrun).any fun r =>
    r.banks.contains bank && r.bands.any fun b => decide (b.1.core = c)

/-- Frees a context's accumulator banks (R285); those that a split in progress writes are freed when it completes (R343). -/
def State.freeBanks (s : State) (c : Fin 256) (key : Nat) : State :=
  s.mapCore c fun k => { k with
    banks := (k.banks.filter fun b => b.2.key != key || s.inSplit c b.1).map fun b =>
      if b.2.key = key then (b.1, { b.2 with key := deadKey + key }) else b }

/-- Banks of contexts that are gone become free when no split writes them any more (R343). -/
def State.sweepBanks (s : State) (c : Fin 256) : State :=
  s.mapCore c fun k => { k with banks := k.banks.filter fun b => decide (b.2.key < deadKey) || s.inSplit c b.1 }

/-- Sweeps the cores of a split that has ended. -/
def State.sweepBands (s : State) (l : List (SlotId × Nat)) : State :=
  l.foldl (fun t b => t.sweepBanks b.1.core) s

/-- The unfinished engine words of a slot are dropped, and with them a split's hold on the banks of partners that are gone (R354, R343). -/
def State.dropWords (s : State) (i : SlotId) : State :=
  (s.dropEngines i).sweepBands (((s.slotOf i).eng.mrun.map (·.bands)).getD [])

/-- A saved task of a core is owed a token (R279). -/
def oweToken (n : Nat) : List Rec → List Rec :=
  updFirst (fun r => r.info.serial == n && match r.kind with
    | .resume _ _ _ => true
    | _ => false)
    fun r => match r.kind with
      | .resume a e x => { r with kind := .resume a e { x with owed := x.owed + 1 } }
      | _ => r

/-- One M to S token into each slot that granted a split's leader its band (R279, R345), wherever its task is now: on a slot, or in a record of the
deque or of a preload. -/
def State.grantTokens (s : State) (i : SlotId) : List (SlotId × Nat) → State
  | [] => s
  | (b, n) :: r =>
    (if b.core = i.core then s
      else match (slotsOf b.core).find? fun j => (s.slotOf j).task.map (·.serial) = some n with
        | some j => s.mapSlot j fun x => x.pushToken .m .s
        | none => ((slotsOf b.core).foldl (fun t j => t.mapSlot j fun x => { x with next := (oweToken n x.next.toList).head? }) s).mapCore b.core
            fun k => { k with deque := oweToken n k.deque }).grantTokens i r

/-- The command counts in its lease, which ends after the 16th command or the 65,536th step (R278), or as MRELEASE asked. -/
def State.countCommand (s : State) (c : Fin 64) : State :=
  let s1 := s.mapCluster c fun k => { k with cmds := k.cmds + 1, idleSince := some s.cycle }
  let k := s1.clusterOf c
  if k.cmds ≥ 16 ∨ k.steps ≥ 65536 then s1.endLease c else s1.releaseIfDone c

/-- An M command whose last step is finished completes (R289, R252): token, flags, pins, format word, grant tokens; it counts in its lease. -/
def State.mFinish (s : State) (i : SlotId) (r : MRun) : State :=
  let s1 := (s.unpinAll r.pins).mapSlot i fun x =>
    let y := match postEng .m r.q.word with
      | some b => x.postToken .m b
      | none => x
    let z := { y with
      bank := { y.bank with flags := y.bank.flags ||| r.flags.setWidth 12 }
      eng := { y.eng with mrun := none, mupc := 0, qs := { y.eng.qs with fq := y.eng.qs.fq.tail } } }
    z.journalDone r.q.seq s.cycle
  let s2 := (s1.grantTokens i r.bands).sweepBands r.bands
  if (s2.clusterOf (clusterOfCore i.core)).holder = some i then s2.countCommand (clusterOfCore i.core) else s2

/-- The granules that a transaction locks at its commit, in ascending order of device and address (R218; log 104). -/
def State.txLocs (s : State) (t : Tx) : List Loc :=
  let key := fun (l : Loc) => match l with
    | .phys n => bitsOf (s.pfReg 0x38) 0 12 * 2 ^ 47 + n
    | .far d n => d * 2 ^ 47 + n
    | .seg g n => 2 ^ 80 + g.name.val * 2 ^ 20 + n
  ((t.reads ++ t.writes.map (·.loc)).dedup).mergeSort fun a b => decide (key a ≤ key b)

/-- Asks the home of a granule of another device to unlock it. -/
def State.sendUnlock (s : State) (i : SlotId) (l : Loc) : State :=
  match l with
  | .far d n => if (s.routeTo i.core d).isNone then s else s.sendRemote i d (32 * n) (.txUnlock (slotKey i)) false
  | _ => s

/-- The locks that a slot's commit holds are released (R218). -/
def State.unlockOf (s : State) (i : SlotId) : State :=
  match (s.slotOf i).tx with
  | none => s
  | some t =>
    if t.commit = .idle then s
    else ((s.txLocs t).foldl (fun u l => u.sendUnlock i l) s).mapPkg fun k =>
      { k with locks := k.locks.filter fun l => !(decide (l.dev = (s.pfReg 0x38).setWidth 12) && l.owner == slotKey i) }

/-- The kill points of a slot's work (R343): engine words and stores are discarded, and what the task held is released. -/
def State.stopWork (s : State) (i : SlotId) : State :=
  let key := s.keyOfSlot i
  let bands := ((s.slotOf i).eng.mrun.map (·.bands)).getD []
  let s1 := ((((s.unlockOf i).stopCampion i).grantTokens i bands).dropEngines i).dropLease i
  let s2 := s1.mapSlot i fun x => { x with sq := [], tx := none, eng := { x.eng with grant := none } }
  let s3 := (s2.evictBlocks i (s2.slotOf i).blocks).dropTickets i
  ((s3.freeSegs key).freeBanks i.core key).sweepBands bands

/-- A slot that holds no task any more keeps its supervisor registers (R324, R332, R338). -/
def Slot.freed (x : Slot) : Slot :=
  { Slot.initial with
    frame := { x.frame with inTrap := false, tx := false, drop := false }
    sup := x.sup
    loop := { Slot.initial.loop with ld := x.loop.ld, budget := x.loop.budget, wdog := x.loop.wdog } }

/-- Frees a slot. -/
def State.freeSlot (s : State) (i : SlotId) : State :=
  s.mapSlot i Slot.freed

/-- Takes reservations (R104): none where a pool is short. -/
def Part.reserve (q : Part) (deque launch : Nat) : Option Part :=
  if deque > q.spool ∨ launch > q.lpool then none
  else some { q with spool := q.spool - deque, lpool := q.lpool - launch }

/-- Returns reservations. -/
def Part.giveBack (q : Part) (c : Caps) : Part :=
  { q with spool := q.spool + c.deque, lpool := q.lpool + c.launch }

/-- Steps 1 to 3 of R98 for a task that ends or is killed: it leaves its domains, its reservations return, its scope loses it; the
scopes it created lose their creator, and what can be freed is. -/
def State.leaveTask (s : State) (t : TaskInfo) (doms : List (Nat × Nat)) (killed : Bool) : State :=
  let s1 := s.leaveAll t.part (taskNo t.part t.serial) killed doms
  (s1.mapPart t.part fun q =>
    (({ q.giveBack t.caps with live := q.live.filter fun e => e.1 != t.serial }).exit t.scope killed).disown t.serial).reap t.part

/-! ### Graph instances (R114) -/

/-- An instance with this number is changed. -/
def Part.mapInst (q : Part) (graph index : Nat) (f : GInst → GInst) : Part :=
  { q with insts := updFirst (fun g => g.graph == graph && g.index == index) f q.insts }

/-- Decrements the counters of the nodes of a dependents list; a bad id or a counter below zero breaks the instance, and a counter
that reaches zero queues its node for placement (R114). -/
def GInst.dependents (g : GInst) : List Nat → GInst
  | [] => g
  | d :: r =>
    if d ≥ g.n ∨ g.ctrs.getD d 0 = 0 then { g with broken := true }
    else
      let c := g.ctrs.getD d 0 - 1
      ({ g with
        ctrs := setAt g.ctrs d c
        unplaced := if c = 0 then g.unplaced ++ [d] else g.unplaced }).dependents r

/-- Reads a dependents list up to 0xFFFF; none where it cannot be read (R113, R398). -/
def State.depList (s : State) (p : Fin 16) (root : Nat) : Nat → Nat → Option (List Nat)
  | 0, _ => some []
  | n + 1, va =>
    match s.devRead16 p root va with
    | none => none
    | some d => if d = 0xFFFF then some [] else (s.depList p root n (va + 2)).map (d :: ·)

/-- What reading a dependents list has still to ask for: its first granule that another device has not answered (R398). -/
def State.depWants (s : State) (p : Fin 16) (root : Nat) : Nat → Nat → List Want
  | 0, _ => []
  | n + 1, va =>
    match s.wants p root va 1, s.devRead16 p root va with
    | w :: _, _ => [w]
    | [], none => []
    | [], some d => if d = 0xFFFF then [] else s.depWants p root n (va + 2)

/-- A counter of an instance as its area holds it (R113). -/
def State.putCtr (s : State) (p : Fin 16) (g : GInst) (d : Nat) : State :=
  let va := g.area + 2 * d
  s.devUpdate p g.root va (.put 2 (word (g.ctrs.getD d 0)))

/-- Counters of a list of nodes. -/
def State.putCtrs (s : State) (p : Fin 16) (g : GInst) : List Nat → State
  | [] => s
  | d :: r => (if d < g.n then s.putCtr p g d else s).putCtrs p g r

/-- An instance whose nodes have all ended becomes free, and its completion word is incremented, by 2^32 when it is broken (R114).
A broken instance ends when its placed nodes have. -/
def State.settleInst (s : State) (p : Fin 16) (graph index : Nat) : State :=
  match (s.partOf p).insts.find? fun g => g.graph == graph && g.index == index with
  | none => s
  | some g =>
    if g.left = 0 then
      (s.mapPart p fun q => { q with insts := q.insts.filter fun h => !(h.graph == graph && h.index == index) }).devAdd p g.root
        g.gword (if g.broken then 0x100000000 else 1)
    else s

/-- A broken instance drops its nodes that have not been placed: their reservations return and their scopes lose them. -/
def State.dropUnplaced (s : State) (p : Fin 16) (graph index : Nat) : List Rec → State
  | [] => s
  | r :: l =>
    ((s.leaveTask r.info [] ((s.partOf p).cancelled r.info.scope)).mapPart p fun q =>
      q.mapInst graph index fun g => { g with left := g.left - 1 }).dropUnplaced p graph index l

/-- The records of an instance that have never been placed and are not to be, by their node ids. -/
def GInst.waiting (g : GInst) : List Rec :=
  g.recs.filter fun r => match r.info.node with
    | some (_, n) => g.ctrs.getD (n % 65536) 0 != 0 || g.unplaced.contains (n % 65536)
    | none => false

/-- A node of an instance has ended or been killed (R114, R344). `node` names the graph, the instance index x 2^16 + node id. A dependents list
that cannot be read breaks the instance too, for which R114 gives no outcome; and where an entry breaks it, a node whose counter has reached zero
earlier in the list counts as not placed, and is dropped (log 74, DESIGN CHOICE). -/
def State.nodeEnded (s : State) (t : TaskInfo) (ended : Bool) : State :=
  match t.node with
  | none => s
  | some (graph, n) =>
    let index := n / 65536
    match (s.partOf t.part).insts.find? fun g => g.graph == graph && g.index == index with
    | none => s
    | some g =>
      let g1 := { g with left := g.left - 1, broken := g.broken || !ended }
      let deps := s.depList t.part g.root 65536 (bitsOf (t.record.getD 5 0) 16 48)
      let g2 := if g1.broken || !ended then g1
        else match deps with
          | none => { g1 with broken := true }
          | some l => g1.dependents l
      let s0 := if g1.broken || !ended then s else s.putCtrs t.part g2 (deps.getD [])
      let s1 := s0.mapPart t.part fun q => q.mapInst graph index fun _ => g2
      let s2 := if g2.broken then
          (s1.dropUnplaced t.part graph index g2.waiting).mapPart t.part fun q =>
            q.mapInst graph index fun g => { g with recs := [], unplaced := [], ctrs := g.ctrs.map fun _ => 1 }
        else s1
      s2.settleInst t.part graph index

/-! ### Kills (R344) -/

/-- What a killed task has sent to other devices holds its scope's acknowledgement back (R219). -/
def State.markRemotes (s : State) (p : Fin 16) (scope : Nat) (f : Remote → Bool) : State :=
  s.mapPkg fun k => { k with remotes := k.remotes.map fun r => if f r then { r with killed := some (p, scope) } else r }

/-- Writes that a task's copies sent before a save and that are not acknowledged (R214). -/
def Engines.unacked (e : Engines) : List Nat := e.chans.flatMap fun k => (k.2.run.map (·.unacked)).getD []

/-- A request that a run on a slot has sent, or that a save of its task left unanswered. -/
def Slot.hasSent (x : Slot) (i : SlotId) (r : Remote) : Bool :=
  (decide (r.slot = i) || x.eng.unacked.contains r.tag) && r.part.isNone && r.killed.isNone

/-- A task on a slot is killed at the points of R343; the dirty FIFO of its core drains to a marker placed now (R219). -/
def State.killSlot (s : State) (i : SlotId) : State :=
  let x := s.slotOf i
  let s1 := ((s.stopWork i).freeSlot i).drainFifo i.core
  match x.task with
  | none => s1
  | some t =>
    ((s1.markRemotes t.part t.scope (x.hasSent i)).leaveTask t x.doms true).nodeEnded t false

/-! ### Consumed errors (R348, R361) -/

/-- Logs a consumed SEAL or POISON (kinds 3 and 4); `inj` tells that an injector has caused it. Other causes are not logged. -/
def State.logConsumed (s : State) (i : SlotId) (inj : Bool) (cause : BitVec 8) (eng : Nat) (seq : Nat) : State :=
  if cause ≠ 0x0C ∧ cause ≠ 0x0D then s
  else s.logError (dieOfCore i.core) (s.partNo i.core)
    ⟨logWord (if cause = 0x0C then 3 else 4) (some (s.slotOf i).ctx.ctx) inj i.core 6, 0, word s.cycle,
      word (eng * 2 ^ 32 + seq)⟩

/-- A consumed error that is redone and not trapped: the first run of an idempotent task (R348). -/
def Slot.redoes (x : Slot) (cause : BitVec 8) : Bool :=
  (cause == 0x0C || cause == 0x0D) && x.level == .task && match x.task with
    | some t => t.idem && !t.rerun
    | none => false

/-- The rerun of R348: the run ends at the kill points, but for its scope, reservations and completion word, and its record enters
the head of the core's deque with rerun = 1. Should the record be killed later, what the run has sent and left dirty in its core's L1 comes
before the acknowledgement (R219): the requests are marked, and the dirty FIFO drains now. -/
def State.rerun (s : State) (i : SlotId) : State :=
  let x := s.slotOf i
  match x.task with
  | none => s
  | some t =>
    let s0 := ((((s.unpinPreloads i.core).stopWork i).freeSlot i).drainFifo i.core).markRemotes t.part t.scope (x.hasSent i)
    let s1 := s0.leaveAll t.part (taskNo t.part t.serial) true x.doms
    let s2 := s1.logError (dieOfCore i.core) t.part
      ⟨logWord 5 (some x.ctx.ctx) false i.core 6, 0, word s.cycle, 0⟩
    s2.pushHead i.core ⟨.rerun, { t with rerun := true }, t.quota, none, false⟩

/-- The bits of TCAUSE for an engine. -/
def Eng.field (e : Eng) : Nat := e.code

/-- TINFO2 of an engine fault (R328). -/
def engInfo2 (e : Eng) (seq channel : Nat) : Word := word (seq + e.code * 2 ^ 32 + channel * 2 ^ 34)

/-- An engine fault (R253): the engine starts no later word of the slot, and the fault waits for delivery; a consumed error, which is logged
(R361), of a first idempotent run is redone instead. -/
def State.engineFault (s : State) (i : SlotId) (inj : Bool) (f : PendFault) : State :=
  let x := s.slotOf i
  let s1 := (s.unpinPreloads i.core).logConsumed i inj f.cause f.eng.code f.seq
  if ({ x with level := .task }).redoes f.cause then s1.rerun i
  else s1.mapSlot i fun x =>
    let y := x.mapQs fun q => match f.eng with
      | .m => { q with mStop := true }
      | .c => { q with cStop := true }
      | _ => { q with vStop := true }
    { y with pend := { y.pend with engines := y.pend.engines ++ [f] } }

/-- A fault of a slot's M command (R253, R288): MUPC is written and the lease ends; it stays pinned what it was, until it starts again or is
dropped (R175). -/
def State.mFault (s : State) (i : SlotId) (inj : Bool) (cause : BitVec 8) (t0 t1 : Word) : State :=
  match (s.slotOf i).eng.mrun with
  | none => s
  | some r =>
    let s2 := (s.stopCampion i).mapSlot i fun x => { x with eng := { x.eng with mrun := some { r with admitted := false } } }
    s2.engineFault i inj ⟨cause, .m, r.q.seq, t0, t1, engInfo2 .m r.q.seq 0, mupcWord r.q.seq r.mb r.nb r.ks⟩

/-- A channel of a slot. -/
def Slot.chan (x : Slot) (h : Fin 8) : Chan := tget ⟨0, 0, none⟩ x.eng.chans h.val

/-- Replaces it. -/
def Slot.setChan (x : Slot) (h : Fin 8) (k : Chan) : Slot :=
  { x with eng := { x.eng with chans := tput x.eng.chans h.val k } }

/-- A fault of the command on a copy channel (R253, R328): the finished units stay, and so do its pins until it completes (R175, R179);
`core` is the failing receiver of a multicast. -/
def State.cFault (s : State) (i : SlotId) (h : Fin 8) (inj : Bool) (cause : BitVec 8) (t0 t1 : Word) (core : Nat) : State :=
  match ((s.slotOf i).chan h).run with
  | none => s
  | some r =>
    let s2 := s.mapSlot i fun x => x.setChan h { x.chan h with run := some { r with stopped := true } }
    s2.engineFault i inj ⟨cause, .c, r.q.seq, t0, t1, engInfo2 .c r.q.seq h.val, word (r.units + core * 2 ^ 48)⟩

/-- The fault that stops a port address generator (R259): the next V word that names the port takes it, with its own TINFO2 and TINFO3 (R328;
log 63). -/
def State.agFault (s : State) (i : SlotId) (g : Fin 8) (f : AgFault) : State :=
  s.mapSlot i fun x => { x with eng := { x.eng with ports := { x.eng.ports with
    walks := x.eng.ports.walks.map fun e =>
      if e.1 = g.val then (e.1, { e.2 with fault := some f }) else e } } }

end Sys2Proof.Machine
end

