-- ==== Sys2Proof/Machine/Falran.lean ====
section
/-! DEFINITION. Falran, what requests bring back (20 R388, R389): lost writes, and the answers that a slot takes. -/

namespace Sys2Proof.Machine

/-- A write to a device that is answered poisoned is logged, and ERROR_INTERRUPT is raised (R388). -/
def State.lostWrite (s : State) (i : SlotId) (l : Loc) : State :=
  let p := s.partNo i.core
  let pa := match l with
    | .phys n => 32 * n
    | .far _ n => 32 * n
    | .seg _ _ => 0
  (s.logError (dieOfCore i.core) p ⟨logWord 8 (some (s.slotOf i).ctx.ctx) false i.core 5, word pa, word s.cycle, 0⟩).raiseError p

/-! ### Answers -/

/-- A request that brings a granule back. -/
def isRead : RemoteOp → Bool
  | .read => true
  | .atom _ _ _ _ _ => true
  | .txRead _ => true
  | .txLock _ _ _ _ _ => true
  | .dom _ _ _ _ => true
  | _ => false

/-- The key of the answer to a request of an instruction: its granule and what it asked. -/
def replyKey (dev pa : Nat) (op : RemoteOp) : Nat :=
  4 * remoteKey dev pa + match op with
    | .atom _ _ _ _ _ => 1
    | .txLock _ _ _ _ _ => 2
    | .dom _ _ _ _ => 3
    | _ => 0

/-- The answer reaches whoever waits for it: the copy command that asked, or the stalled instruction. -/
def Slot.answered (x : Slot) (r : Remote) (a : Reply) : Slot :=
  match r.chan with
  | some (h, seq) =>
    let c := x.chan h
    match c.run with
    | some k =>
      if k.q.seq = seq then
        x.setChan h { c with run := some { k with got := k.got ++ [(remoteKey r.dev r.req.pa.toNat, a.g)] } }
      else x
    | none => x
  | none => if x.sched.stall = some (.remote r.tag) then
      { x with replies := tput x.replies (replyKey r.dev r.req.pa.toNat r.req.op) a }
    else x

end Sys2Proof.Machine
end

