-- ==== Sys2Proof/Machine/Ops.lean ====
section
/-! DEFINITION. Taking an exception and returning from one (16 R324 to R330; 17 R354), the ways an instruction ends, and the
operations of the control core over memory: loads, queued stores, releases and acquires, transactions, forwarding. -/

namespace Sys2Proof.Machine

/-! ### Transactions end (R234) -/

/-- The status word of TXB, TXE and TXA (R231). -/
def txStatus (st code byte : Nat) : Word := word (st + code * 2 ^ 8 + byte * 2 ^ 16)

/-- An abort: the write set is discarded, the registers are restored, TXB's gd receives ABORT and the slot goes on at TXB + 4. -/
def Slot.abortTx (x : Slot) (code byte : Nat) : Slot :=
  match x.tx with
  | none => x
  | some t =>
    { x.setActive (t.bank.set t.dst (txStatus 1 code byte)) with pc := t.resume, tx := none }

/-! ### Taking a trap (R324) -/

/-- A cause as TCAUSE holds it (R324, Table 1). -/
def tcauseOf (async : Bool) (eng : Nat) (cause : BitVec 8) : BitVec 11 :=
  BitVec.ofNat 11 ((if async then 1024 else 0) + eng * 256 + cause.toNat)

/-- R324: the slot enters supervisor level and bank, the frame is written, and the PC goes to TVB + 64 x cause; where a TVB with bits 63:48
set would take it out of a PC's 48 bits (R8), the sum is cut to them (log 22, DESIGN CHOICE). Its wait ends (R326). An answer it waited for is
given up, and the trap of a store that is still queued would not be precise any more (R191). -/
def Slot.enter (x : Slot) (c : Nat) (tcause : BitVec 11) (tepc t0 t1 t2 t3 : Word) (tx : Bool) : Slot :=
  { x with
    status := .ready
    level := .supervisor
    pc := ((x.frame.tvb + 64 * (tcause.setWidth 8).setWidth 64).setWidth 48).setWidth 64
    frame := { x.frame with
      tepc := tepc
      tcause := tcause
      tinfo0 := t0
      tinfo1 := t1
      tinfo2 := t2
      tinfo3 := t3
      plev := x.level
      inTrap := true
      tx := tx
      drop := false }
    sched := { x.sched with stall := none, readySince := c, since := c, awaitHit := false, ended := false }
    sq := x.sq.map fun q => { q with later := true }
    replies := []
    bare := false
    refused := false }

/-- A trap at a slot, after an open transaction has been aborted with code trap (R234); TEPC is then TXB + 4. -/
def State.enterTrap (s : State) (i : SlotId) (tcause : BitVec 11) (tepc t0 t1 t2 t3 : Word) : State :=
  let s1 := s.dropTicket (.control i)
  let x := s1.slotOf i
  if x.tx.isSome then
    let y := x.abortTx 4 0
    s1.setSlot i (y.enter s.cycle tcause y.pc t0 t1 t2 t3 true)
  else s1.setSlot i (x.enter s.cycle tcause tepc t0 t1 t2 t3 false)

/-- A code for a level (R11, Table 4). -/
def Level.code : Level → Nat
  | .task => 0
  | .supervisor => 1
  | .monitor => 3

/-- TSTATUS of a slot with its pending bits (R325). -/
def State.tstatus (s : State) (i : SlotId) : Word :=
  let x := s.slotOf i
  let q := s.partOf (s.partNo i.core)
  let ic := decide (q.icore = i.core)
  word (x.frame.plev.code + (if x.frame.inTrap then 4 else 0) + (if x.frame.tx then 8 else 0) +
    (if x.pend.engines.isEmpty then 0 else 2 ^ 10) + (if ic && q.errPend then 2 ^ 11 else 0) +
    (if x.pend.wdog then 2 ^ 12 else 0) + (if x.pend.preempt then 2 ^ 13 else 0) +
    (if ic && q.devPend then 2 ^ 14 else 0) + (if x.pend.kill.isSome then 2 ^ 15 else 0))

/-- A write of the monitor in the HBM of a partition is in its log of every write (R385). -/
def State.logMonitor (s : State) (pa : Nat) : State :=
  match s.ownerPart pa with
  | some p => s.logDirty p false pa
  | none => s

/-- Double words written by the monitor at a physical address, sealed; nothing is written where no memory is (log 27). -/
def State.monWrite (s : State) : Nat → List Word → State
  | _, [] => s
  | pa, w :: r =>
    let g := mkGran (mergeBytes (s.mem.gran (pa / 32)).data (placeAt w (pa % 32)) (byteMask (pa % 32) 8))
    (if physOf pa = .hole then s else (s.putStored (pa / 32) g (s.mem.gran (pa / 32))).logMonitor pa).monWrite (pa + 8) r

/-- A report in the PF mailbox: cause, partition, core, slot (R330, R391). -/
def State.report (s : State) (cause : Nat) (i : SlotId) : State :=
  s.mapPkg fun k => { k with mbox := k.mbox ++ [[cause, (s.partNo i.core).val, i.core.val, i.slot.val]] }

/-- A configuration transaction ends: the launch engines of the partitions it held scan what was merged (R381). -/
def State.endConfig (s : State) (status : Nat) : State :=
  let held := s.pkg.cfg.affected
  let s1 := s.mapPkg fun k => { k with cfg := ⟨status, k.cfg.start, []⟩ }
  (List.finRange 16).foldl (fun t p => if held.contains p.val then
    t.mapPart p fun q => { q with scanMask := q.scanMask ||| q.wakeAgain, wakeAgain := 0 } else t) s1

/-- A configuration transaction holds a partition. -/
def State.cfgHolds (s : State) (p : Fin 16) : Bool :=
  s.pkg.cfg.status == 3 && s.pkg.cfg.affected.contains p.val

/-- DOUBLE or SAVE_TORN in an affected partition ends the transaction BUSY (R383). -/
def State.cfgBusy (s : State) (p : Fin 16) : State :=
  if s.cfgHolds p then s.endConfig 1 else s

/-- DOUBLE (R330): the second frame goes to the slot's record of the die's monitor area, with the level of this trap in its TSTATUS, the
partition freezes, and the monitor reports to the host; the first frame stays. At monitor level the core stops. -/
def State.double (s : State) (i : SlotId) (tepc : Word) (t : TrapInfo) (tx : Bool) : State :=
  let x := s.slotOf i
  let die := dieOfCore i.core
  let p := s.partNo i.core
  let base := (s.dieOf die).mframe.toNat + 64 * (4 * (i.core.val % 64) + i.slot.val)
  let st := (s.tstatus i &&& ~~~(15 : Word)) ||| word (x.level.code + 4 + if tx then 8 else 0)
  let s1 := s.monWrite base [tepc, (tcauseOf false 0 t.cause).setWidth 64, t.t0, t.t1, t.t2, t.t3, st, 0]
  let s2 := s1.mapSlot i fun x => { x with level := .monitor, sched := { x.sched with stall := none } }
  let s3 := (s2.mapPart p fun q => { q with frozen := true }).logError die p
    ⟨logWord 6 none false i.core 6, 0, word s.cycle, 0⟩
  let s4 := if x.level = .monitor then s3.mapCore i.core fun k => { k with halted := true } else s3
  (s4.report 0x17 i).cfgBusy p

/-- A synchronous fault of a slot at an instruction (R12, R324, R330, R348); `inj` tells that an injector has made the granule bad that it
has consumed (R361). -/
def State.syncTrapBy (s : State) (inj : Bool) (i : SlotId) (tepc : Word) (t : TrapInfo) : State :=
  let x := s.slotOf i
  let s1 := (s.unpinPreloads i.core).logConsumed i inj t.cause 0 0
  if x.level = .monitor ∨ (x.level = .supervisor ∧ x.frame.inTrap = true) then
    let y := x.abortTx 4 0
    (s1.setSlot i y).double i (if x.tx.isSome then y.pc else tepc) t x.tx.isSome
  else if x.redoes t.cause then s1.rerun i
  else s1.enterTrap i (tcauseOf false 0 t.cause) tepc t.t0 t.t1 t.t2 t.t3

/-- A synchronous fault that is no injector's doing. -/
def State.syncTrap (s : State) (i : SlotId) (tepc : Word) (t : TrapInfo) : State := s.syncTrapBy false i tepc t

/-! ### Returning from a trap (R354) -/

/-- Every generator that stopped tries its entry again (R259, R328). -/
def Slot.retryWalks (x : Slot) : Slot :=
  { x with eng := { x.eng with ports := { x.eng.ports with
    walks := x.eng.ports.walks.map fun e => (e.1, { e.2 with fault := none }) } } }

/-- The copies that a fault has stopped go on (R328). -/
def Slot.resumeCopies (x : Slot) : Slot :=
  { x with eng := { x.eng with chans := x.eng.chans.map fun e =>
    (e.1, { e.2 with run := e.2.run.map fun r => { r with stopped := false } }) } }

/-- R354: to TEPC, or TEPC + 4 with skip, at plev, in its bank; `drop` discards the unfinished engine words. A stopped engine starts its
word again, unless its fault still waits for delivery (R328). A pending kill takes the return over (R344): first to its vector, then to its end. -/
def State.trapReturn (s : State) (i : SlotId) (skip drop : Bool) : State :=
  let x := s.slotOf i
  match x.pend.kill with
  | some k =>
    if x.pend.killEntered then s.killSlot i
    else s.setSlot i
      { x.issued s.cycle with
        pend := { x.pend with killEntered := true }
        pc := ((x.frame.tvb + 64 * 0x16).setWidth 48).setWidth 64
        bare := false
        frame := { x.frame with tcause := 0x16, tinfo0 := word k, inTrap := true } }
  | none =>
    let s1 := if drop || x.frame.drop then s.dropWords i else s
    s1.mapSlot i fun x =>
      let waits := fun (e : Eng) => x.pend.engines.any fun f => decide (f.eng = e)
      let y := (x.issued s.cycle).mapQs fun q =>
        { q with vStop := q.vStop && waits .v, mStop := q.mStop && waits .m, cStop := q.cStop && waits .c }
      let z := if waits .c then y else y.resumeCopies
      { z.retryWalks with
        pc := if skip then x.frame.tepc + 4 else x.frame.tepc
        bare := false
        level := x.frame.plev
        frame := { x.frame with inTrap := false, drop := false }
        sched := { y.sched with readySince := s.cycle } }

/-! ### How an instruction ends -/

/-- The ways an instruction does not complete. -/
inductive Stop where
  | trap (t : TrapInfo)
  | become (s : State)
  | abort (code : Nat)
  | fault (f : Fault)

/-- An instruction of the current slot as a program over the state: what it has done is dropped where it stops. -/
abbrev Op := StateT State (Except Stop)

/-- The trap of an instruction of the current slot, with no effect of its own (R12). -/
def State.trapMe (s : State) (t : TrapInfo) : State := s.syncTrap s.cur s.pc t

/-- The trap of an instruction of the current slot that has consumed a bad granule. -/
def State.consumedMe (s : State) (inj : Bool) (t : TrapInfo) : State := s.syncTrapBy inj s.cur s.pc t

/-- The outcome of an instruction of the current slot. -/
def runOp (m : Op Unit) (s : State) : Host.Outcome State Fault Refusal :=
  match m s with
  | .ok (_, t) => .next t
  | .error (.trap t) => .next (s.trapMe t)
  | .error (.become t) => .next t
  | .error (.abort c) => .next (s.setMe (s.me.abortTx c 0 |>.issued s.cycle))
  | .error (.fault f) => .fault f

/-- Stops with a trap. -/
def trapOp {α : Type} (cause : BitVec 8) (t0 t1 t2 t3 : Word) : Op α :=
  throw (.trap ⟨cause, t0, t1, t2, t3⟩)

/-- Stops with the trap of a consumer of a bad granule: what its read has logged, and brought into caches and TLBs, stays (R188, R195). -/
def consumedOp {α : Type} (g : Granule) (cause : BitVec 8) (t0 t1 t2 t3 : Word) : Op α :=
  fun s => .error (.become (s.consumedMe g.inj ⟨cause, t0, t1, t2, t3⟩))

/-- The instruction waits at its word: the slot's stall begins, or goes on (R109). -/
def State.stallMe (s : State) (r : Stall) : State :=
  s.setMe { s.me with sched := { s.me.sched with
    stall := some r
    since := if s.me.sched.stall.isSome then s.me.sched.since else s.cycle
    readySince := if s.me.sched.stall.isSome then s.me.sched.readySince else s.cycle } }

/-- Stalls, keeping the state. -/
def stallOp {α : Type} (r : Stall) : Op α :=
  fun s => .error (.become (s.stallMe r))

/-- Enters a wait (R97) at the waiting instruction. -/
def State.waitMe (s : State) (w : Wait) : State :=
  s.setMe { s.me.issued s.cycle with
    status := .waiting w
    sched := { (s.me.issued s.cycle).sched with awaitHit := false } }

/-- Ends as waiting. -/
def waitOp {α : Type} (w : Wait) : Op α :=
  fun s => .error (.become (s.waitMe w))

/-- A result in a register, and the next instruction. -/
def resultOp (d : Fin 32) (v : Word) : Op Unit := modify fun s => s.result d v

/-- Nothing but a word that R233 names may be executed inside a transaction. -/
def noTx : Op Unit := do
  if (← get).me.tx.isSome then throw (.abort 3)

/-- The level an instruction requires (R11, R42). -/
def needLevel (l : Level) (w : IWord) : Op Unit := do
  if (← get).me.level.code < l.code then trapOp 0x02 (w.setWidth 64) (word l.code) 0 0

/-! ### Stores reach their places (R191, R206) -/

/-- What a failed store reports: cause, TINFO1, code, and whether an injector has made the old granule bad (R361). -/
structure StoreFault where
  cause : BitVec 8
  t1 : Word
  code : Nat
  inj : Bool
  deriving DecidableEq, Repr

/-- The check of operand bytes that travel under a CRC-32C (R191): carried and computed code, where they differ. -/
def operandFault (bytes : List Byte) (crc : Option (BitVec 32)) : Option StoreFault :=
  match crc with
  | none => none
  | some c => if crc32c bytes = c then none else some ⟨0x0C, ((crc32c bytes).setWidth 64 <<< 32) ||| c.setWidth 64, 2, false⟩

/-- The granule of a store: old bytes and operand bytes checked, new bytes in place, a new seal (R191). -/
def storeGran (old : Granule) (off size : Nat) (data : Word) (crc : Option (BitVec 32)) : Except StoreFault Granule :=
  match checkGran old with
  | some (c, t) => .error ⟨c, t, 1, old.inj⟩
  | none => match operandFault (natBytes size data.toNat) crc with
    | some f => .error f
    | none => .ok (mkGran (mergeBytes old.data (placeAt data off) (byteMask off size)))

/-- The granule that a granule of a write set becomes at its home: the old one and the bytes' check code are checked first (R191, R235). -/
def writeSetGran (old : Granule) (m : BitVec 32) (d : BitVec 256) (crc : BitVec 32) : Except StoreFault Granule :=
  match checkGran old with
  | some (c, e) => .error ⟨c, e, 1, old.inj⟩
  | none => match operandFault (natBytes 32 (mergeBytes 0 d m).toNat) (some crc) with
    | some f => .error f
    | none => .ok (mkGran (mergeBytes old.data d m))

/-- The page use of a queued store. -/
def State.useOf (s : State) (i : SlotId) (q : StoreReq) : PageUse :=
  ⟨s.partNo i.core, some q.key, q.dlog⟩

/-- The launch engine is woken for the queues of a mask (R107, R108). -/
def State.wakeQueues (s : State) (p : Fin 16) (mask : BitVec 4) : State :=
  s.mapPart p fun q => { q with scanMask := q.scanMask ||| mask }

/-- A write to the partition's wake word wakes the launch engine, wherever the word's home is (R107). -/
def State.wakeBy (s : State) (p : Fin 16) (l : Loc) (mask : BitVec 32) (data : BitVec 256) : State :=
  let w := (s.partOf p).word 10
  let here := fun (m : Loc) (pa : Nat) =>
    if l = m ∧ mask.getLsbD (pa % 32) = true then s.wakeQueues p (data.extractLsb' (8 * (pa % 32)) 4) else s
  if w = 0 then s
  else match s.devSite p (s.partOf p).root w.toNat .load with
    | some (.here g) => here (.phys (g.pa / 32)) g.pa
    | some (.far dev pa _) => here (.far dev (pa / 32)) pa
    | none => s

/-- The bytes of a queued store that may wake the launch engine when it is performed: those of one through window 0x2 (R107). -/
def StoreReq.wake (q : StoreReq) : Option (BitVec 32 × BitVec 256) :=
  if bitsOf q.ptr 60 4 = 2 then some (byteMask q.off q.size, placeAt q.data q.off) else none

/-- A write that covers the partition's wake word, and may wake the launch engine, does so when it is performed (R107). -/
def State.noteWake (s : State) (p : Fin 16) (l : Loc) (wake : Option (BitVec 32 × BitVec 256)) : State :=
  match wake with
  | some w => s.wakeBy p l w.1 w.2
  | none => s

/-- The bytes of a granule that a queued store names. -/
def StoreReq.mask (q : StoreReq) : BitVec 32 := byteMask q.off q.size

/-- Its data in their place. -/
def StoreReq.bytes (q : StoreReq) : BitVec 256 := placeAt q.data q.off

/-- The lock that a queued store must wait for: of its home, or of a granule of the line that the L1 would take for it (R218). -/
def State.storeLock (s : State) (i : SlotId) (q : StoreReq) : Option Loc :=
  (q.loc :: match q.loc with
    | .phys n => if q.cached ∧ (s.l1Line i.core (n / 4)).isNone = true then lineLocs (n / 4) else []
    | _ => []).find? s.isLocked

/-- Some queued store of a slot waits at a locked home. -/
def State.lockedStores (s : State) (i : SlotId) : Bool :=
  (s.slotOf i).sq.any fun q => q.sent.isNone && (s.storeLock i q).isSome

/-- Some queued store of a slot is for another device: it has not been answered (R389). -/
def Slot.farStores (x : Slot) : Bool := x.sq.any fun q => match q.loc with
  | .far _ _ => true
  | _ => false

/-- A store leaves its place in a slot's queue. -/
def Slot.dropStore (x : Slot) (n : Nat) : Slot := { x with sq := x.sq.eraseIdx n }

/-- A store stays in its place in a slot's queue, under the tag that it has been sent with. -/
def Slot.sentStore (x : Slot) (n : Nat) (q : StoreReq) (tag : Nat) : Slot := { x with sq := setAt x.sq n { q with sent := some tag } }

/-- What a granule holds from now on, as far as this device knows it, stays known to fetches (R95). -/
def State.keepStored (s : State) (l : Loc) (mask : BitVec 32) (data : BitVec 256) : State :=
  { s with stored := ⟨s.cycle, l, mask, data⟩ :: s.stored }

/-- What this device knows of a granule of another device: what it has last read or stored there. -/
def State.farKnown (s : State) (l : Loc) : Stored := (s.stored.find? fun w => decide (w.loc = l)).getD ⟨s.cycle, l, 0, 0⟩

/-- A store to another device stays known to fetches, with what is known of the bytes that it leaves (R95). -/
def State.keepFar (s : State) (q : StoreReq) : State :=
  let w := s.farKnown q.loc
  s.keepStored q.loc (w.mask ||| q.mask) (mergeBytes w.data q.bytes q.mask)

/-- The store at a place of a slot's queue is performed and leaves it (R182, R167, R191); one for another device is sent, and stays until it is
answered. -/
def State.performStore (s : State) (i : SlotId) (k : Nat) (q : StoreReq) : Except StoreFault State :=
  let s0 := s.mapSlot i fun x => x.dropStore k
  let u := s.useOf i q
  let ctx := (s.slotOf i).ctx.ctx
  match q.loc with
  | .seg g n =>
    match storeGran (s0.segGran g n) q.off q.size q.data q.crc with
    | .error f => .error f
    | .ok v => .ok (((s0.storeErrors g n).segPut g n v).writtenBy q.loc (some i) none)
  | .far d n =>
    match s.routeTo i.core d with
    | none => .ok (s0.lostWrite i q.loc)
    | some _ =>
      let t := s.mapSlot i fun x => x.sentStore k q s.pkg.nextTag
      .ok ((t.sendStore i d (32 * n) (.write q.mask (mkGran q.bytes) q.crc) q.dlog q.wake).keepFar q)
  | .phys n =>
    if q.cached ∨ (q.uncached = false ∧ (s.l1Line i.core (n / 4)).isSome = true) then
      let s1 := (s0.l1Fill i.core u ctx (n / 4)).l1Errors i.core u.part n
      match storeGran (s1.l1Gran i.core n) q.off q.size q.data q.crc with
      | .error f => .error f
      | .ok v => .ok ((s1.l1Store i.core u ctx n v).keepStored q.loc (BitVec.allOnes 32) v.data)
    else
      let s1 := (s0.evictLine i.core (n / 4)).corrected i.core u.part n
      match storeGran (s1.homeGran u.part u.key n) q.off q.size q.data q.crc with
      | .error f => .error f
      | .ok v =>
        .ok (((s1.homePut u.part u.key u.dlog n v).writtenBy q.loc (some i) none).noteWake u.part q.loc q.wake)

/-- The trap record of a failed store (R195, R191): precise, or deferred with the store's address in TINFO3. -/
def storeTrap (q : StoreReq) (f : StoreFault) : TrapInfo :=
  ⟨f.cause, q.ptr &&& ~~~(31 : Word), f.t1, tinfo2 q.size .store, word f.code⟩

/-- The old granule that a queued store reads shows its errors, which are logged (R188). -/
def State.storeSite (s : State) (i : SlotId) (q : StoreReq) : State :=
  let p := (s.useOf i q).part
  match q.loc with
  | .seg g n => s.storeErrors g n
  | .phys n => if (s.l1Line i.core (n / 4)).isSome = true then s.l1Errors i.core p n else s.corrected i.core p n
  | .far _ _ => s

/-- A failed store: a precise trap that names it if no later instruction has completed, otherwise a deferred store fault (R191), which is
logged now. -/
def State.storeFails (s : State) (i : SlotId) (q : StoreReq) (f : StoreFault) : State :=
  let t := storeTrap q f
  if q.later = false then s.syncTrapBy f.inj i q.pc t
  else (s.logConsumed i f.inj f.cause 0 0).mapSlot i fun x =>
    { x with pend := { x.pend with stores := x.pend.stores ++
      [⟨f.cause, .s, 0, t.t0, t.t1, t.t2, (q.pc &&& 0xFFFFFFFFFFFC) ||| word f.code⟩] } }

/-- The store at a place of a slot's queue fails, and leaves it. -/
def State.failStore (s : State) (i : SlotId) (k : Nat) (q : StoreReq) (f : StoreFault) : State :=
  ((s.storeSite i q).mapSlot i fun x => x.dropStore k).storeFails i q f

/-- The first store of a slot's queue that meets a test and has not been sent, with its place. -/
def Slot.nextStore (x : Slot) (f : StoreReq → Bool) : Option (StoreReq × Nat) :=
  x.sq.zipIdx.find? fun e => e.1.sent.isNone && f e.1

/-- The store at a place of a slot's queue is performed, or fails. -/
def State.performQueued (s : State) (i : SlotId) (k : Nat) : State :=
  match (s.slotOf i).sq[k]? with
  | none => s
  | some q => match s.performStore i k q with
    | .ok t => t
    | .error f => s.failStore i k q f

/-- What draining a store queue comes to: every store is performed or sent, a precise trap is taken on the way, or a store waits at a locked home. -/
inductive Drained where
  | done
  | trapped
  | held (l : Loc)
  deriving DecidableEq, Repr

/-- Performs a slot's queued stores that meet a test, in order (R210). -/
def State.drainQueue (s : State) (i : SlotId) (f : StoreReq → Bool) : Nat → State × Drained
  | 0 => (s, .done)
  | n + 1 =>
    match (s.slotOf i).nextStore f with
    | none => (s, .done)
    | some (q, k) =>
      match s.storeLock i q, s.performStore i k q with
        | some l, _ => (s, .held l)
        | none, .ok t => t.drainQueue i f n
        | none, .error e => if q.later then (s.failStore i k q e).drainQueue i f n else (s.failStore i k q e, .trapped)

/-- The earlier stores of the slot that meet a test are performed, or a precise trap ends the instruction. -/
def drainFor (f : StoreReq → Bool) : Op Unit := fun s =>
  match s.drainQueue s.cur f s.me.sq.length with
  | (t, .done) => .ok ((), t)
  | (t, .trapped) => .error (.become t)
  | (t, .held l) => .error (.become (t.stallMe (.locked l)))

/-- Every earlier store of the slot is performed. -/
def drainOp : Op Unit := drainFor fun _ => true

/-- The earlier stores of the slot at the home of a location are performed: those to other homes may be passed (R207). -/
def drainHome (l : Loc) : Op Unit := fun s => drainFor (fun q => s.homeOf q.loc == s.homeOf l) s

/-- A request of a slot's control core that is not answered. -/
def State.unanswered (s : State) (i : SlotId) : Option Remote :=
  s.pkg.remotes.find? fun r => decide (r.slot = i) && r.chan.isNone && r.part.isNone

/-- A dirty granule in a core's FIFO whose home is locked. -/
def State.lockedDirty (s : State) (c : Fin 256) : Option Loc :=
  ((s.coreOf c).fifo.flatMap fun n => (List.range 4).map fun k => Loc.phys (4 * n + k)).find? s.isLocked

/-- A line of a core has been written back to a home that is locked (R218). -/
def State.heldLine (s : State) (c : Fin 256) : Option Loc := (s.pkg.held.find? fun h => decide (h.core = some c)).map fun h => .phys h.granule

/-- Release at a scope code 0 (.core) to 5 (.sys) (R210): stores to other devices are performed when they are acknowledged. -/
def releaseOp (scope : Nat) : Op Unit := do
  drainOp
  match (← get).unanswered (← get).cur with
  | some r => stallOp (.remote r.tag)
  | none => pure ()
  if scope ≥ 1 then
    match ((← get).lockedDirty (← get).cur.core).or ((← get).heldLine (← get).cur.core) with
    | some l => stallOp (.locked l)
    | none => modify fun s => s.drainFifo s.cur.core

/-- Acquire of a slot at a scope code (R210): no later load binds before a point. -/
def State.acquire (s : State) (i : SlotId) (scope t : Nat) : State :=
  (if scope ≥ 1 then s.dropClean i.core else s).mapSlot i fun x => x.loadsFrom t

/-! ### Locating an access -/

/-- Where an access of the control core goes; for a page of another device with the dirty-log bit of its translation (R385). -/
inductive Target where
  | seg (i : SegId) (off : Nat)
  | mem (win pa : Nat) (use : PageUse)
  | remote (dev pa : Nat) (dlog : Bool)
  deriving DecidableEq, Repr

/-- Admission of a control-core access to its one segment (R175). -/
def admitOp (p : Word) (info2 : Word) (g : SegId) : Op Unit := fun s =>
  match s.admitSet s.cur (.control s.cur) [g] [p] info2 false with
  | .tooLarge f => .error (.trap ⟨0x08, word f, word s.me.quota, info2, p⟩)
  | .go t => .ok ((), t)
  | .wait t => .error (.become (t.stallMe .segment))

/-- Translation of an access of the control core through its level's root (R199, R202). -/
def pageOp (p : Word) (va : Nat) (info2 : Word) (acc : Access) : Op Page := fun s =>
  let part := s.partNo s.cur.core
  match s.translate s.cur.core part (s.rootOf s.cur) va acc with
  | .error x =>
    let t := if x.sealed then s.corrected s.cur.core part x.table else s
    .error (.become (t.consumedMe x.inj ⟨x.cause, p, x.t1, info2, x.t3⟩))
  | .ok g => .ok (g, s.tlbNote s.cur.core part (s.rootOf s.cur) va g)

/-- Checks, admits and translates an access (R16, R202). -/
def locate (p : Word) (size : Nat) (acc : Access) : Op Target := do
  let s ← get
  match s.decodePtr s.cur p size with
  | .error (c, t1) => trapOp c p t1 (tinfo2 size acc) 0
  | .ok (.seg g off) => admitOp p (tinfo2 size acc) g; pure (.seg g off)
  | .ok (.glob w va) =>
    let g ← pageOp p va (tinfo2 size acc) acc
    pure (if g.rem then .remote g.dev g.pa g.use.dlog else .mem w g.pa g.use)

/-- The granule of a target. -/
def Target.loc : Target → Loc
  | .seg g off => .seg g (off / 32)
  | .mem _ pa _ => .phys (pa / 32)
  | .remote d pa _ => .far d (pa / 32)

/-- Its offset in the granule. -/
def Target.off : Target → Nat
  | .seg _ off => off % 32
  | .mem _ pa _ => pa % 32
  | .remote _ pa _ => pa % 32

/-! ### Loads -/

/-- The bytes that queued stores give a granule: merged data and their mask (R207). -/
def overlay (q : List StoreReq) (l : Loc) : BitVec 256 → BitVec 32 → BitVec 256 × BitVec 32 :=
  fun d m => q.foldl (fun (a : BitVec 256 × BitVec 32) r =>
    if r.loc = l then
      (mergeBytes a.1 (placeAt r.data r.off) (byteMask r.off r.size), a.2 ||| byteMask r.off r.size)
    else a) (d, m)

/-- Whether a line waits for a load block's fill (R184). -/
def State.blockPending (s : State) (c : Fin 256) (n : Nat) : Bool :=
  (slotsOf c).any fun i => (s.slotOf i).blocks.any fun b => b.2.lines.any fun m => m.1 == n && !m.2

/-- The bytes a load gives a consumer: a granule that fails its check traps unless queued stores supply every byte (R195, R207). -/
def consume (g : Granule) (q : List StoreReq) (l : Loc) (off size : Nat) (p : Word) (info2 : Word) : Op Word :=
  let o := overlay q l g.data 0
  if byteMask off size &&& ~~~o.2 = 0 then pure (takeAt o.1 off size)
  else match checkGran g with
    | some (c, t) => consumedOp g c (p &&& ~~~(31 : Word)) t info2 0
    | none => pure (takeAt o.1 off size)

/-- An answer to a remote access, or the request and a stall (R389; poisoned with no port up, R388). An instruction keeps its answers until
it ends, and asks for each granule once. -/
def remoteOp (dev pa : Nat) (op : RemoteOp) (dlog : Bool) : Op Reply := fun s =>
  match s.me.replies.find? fun e => e.1 == replyKey dev pa op with
  | some e => .ok (e.2, s.setMe (s.me.bound (s.homeOf (.far dev 0)) s.now))
  | none =>
    match s.routeTo s.cur.core dev with
    | none => .ok (⟨poisoned, 0⟩, s)
    | some _ => .error (.become ((s.sendRemote s.cur dev pa op dlog).stallMe (.remote s.pkg.nextTag)))

/-- An access waits at a locked home (R218). -/
def unlockedOp (l : Loc) : Op Unit := do
  if (← get).isLocked l then stallOp (.locked l)

/-- A location as it is now at its home, for what reads and writes it at once or must see the newest write. -/
def homeOp (t : Target) (rop : RemoteOp) : Op Granule := do
  unlockedOp t.loc
  let s ← get
  let c := s.cur.core
  match t with
  | .seg g off => do
    set ((s.storeErrors g (off / 32)).setMe (s.me.bound (s.homeOf t.loc) s.now))
    pure (s.segGran g (off / 32))
  | .remote dev pa _ => do
    drainHome t.loc
    pure (← remoteOp dev (pa / 32 * 32) rop false).g
  | .mem _ pa u =>
    let n := pa / 32
    if s.blockPending c (n / 4) then stallOp (.block (n / 4))
    else do
      set ((s.evictLine c (n / 4)).corrected c u.part n)
      modify fun s => s.setMe (s.me.bound (s.homeOf t.loc) s.now)
      pure ((← get).homeGran u.part u.key n)

/-- A load binds at its home: at some point that its order allows (R207, R212; log 96). -/
def bindOp (l : Loc) (cur : Granule) : Op Granule := do
  let s ← get
  let b := s.bindAt [l] (s.bindFloor s.cur l)
  set (b.2.setMe (b.2.me.bound (s.homeOf l) b.1))
  pure (s.versionAt l b.1 cur)

/-- The earliest point that a core may fill a line from: for each of its granules after what any slot of the core must see there (R207, R210),
and after the writes of the core's copies that have completed (R214; log 96). -/
def State.fillFloor (s : State) (c : Fin 256) (n : Nat) : Nat :=
  ((slotsOf c).flatMap fun i => (lineLocs n).map (s.bindFloor i)).foldl max (tget 0 (s.coreOf c).floors n)

/-- The L1 takes a line, as it was at a point that the order of loads of every slot of the core allows, or gives the one that it holds: the load
has bound at its home where the line was filled (R182, R207, R212; log 96). -/
def fillOp (u : PageUse) (n : Nat) : Op Unit := do
  let s ← get
  let c := s.cur.core
  let home := s.homeOf (.phys n)
  match s.l1Line c (n / 4) with
  | some l =>
    let x := s.me.bound home (max (tget 0 s.me.binds.homes home) l.filled)
    set ((s.l1Fill c u s.me.ctx.ctx (n / 4)).setMe (x.bound (5000 + c.val) s.now))
  | none =>
    match (lineLocs (n / 4)).find? s.isLocked with
    | some l => stallOp (.locked l)
    | none =>
      let b := s.bindAt (lineLocs (n / 4)) (s.fillFloor c (n / 4))
      let t := b.2.l1FillAt c u s.me.ctx.ctx (n / 4) b.1
      set (t.setMe (t.me.bound home b.1))

/-- A granule as a load of a class sees it (R166, R167, R206). -/
def granOp (t : Target) (strong : Bool) : Op Granule := do
  unlockedOp t.loc
  let s ← get
  let c := s.cur.core
  match t with
  | .seg g off => do
    set (s.storeErrors g (off / 32))
    bindOp t.loc (s.segGran g (off / 32))
  | .remote dev pa _ => do
    drainHome t.loc
    pure (← remoteOp dev (pa / 32 * 32) .read false).g
  | .mem w pa u =>
    let n := pa / 32
    if s.blockPending c (n / 4) then stallOp (.block (n / 4))
    else if !strong && (w == 0 || w == 4 || (w == 1 && (s.l1Line c (n / 4)).isSome)) then do
      fillOp u n
      modify fun s => s.l1Errors c u.part n
      pure ((← get).l1Gran c n)
    else do
      set ((if strong || w == 2 then s.evictLine c (n / 4) else s).corrected c u.part n)
      bindOp t.loc ((← get).homeGran u.part u.key n)

/-- The byte image of a transaction's write set over a granule (R232). -/
def txOverlay (t : Tx) (l : Loc) (d : BitVec 256) : BitVec 256 × BitVec 32 :=
  match t.writes.find? fun w => w.loc = l with
  | some w => (mergeBytes d w.data w.mask, w.mask)
  | none => (d, 0)

/-- A transactional load (R232): at the home, its granule joins the read set, of at most 16; another device's home watches it (R218). -/
def txLoad (t : Tx) (x : Target) (size : Nat) (p : Word) (info2 : Word) : Op Word := do
  drainOp
  if !t.reads.contains x.loc && t.reads.length ≥ 16 then throw (.abort 2)
  let owner := slotKey (← get).cur
  let g ← homeOp x (if t.reads.contains x.loc then .read else .txRead owner)
  let o := txOverlay t x.loc g.data
  if byteMask x.off size &&& ~~~o.2 ≠ 0 then
    match checkGran g with
    | some (c, e) => consumedOp g c (p &&& ~~~(31 : Word)) e info2 0
    | none => pure ()
  let note := fun (t : Tx) => if t.reads.contains x.loc then t else { t with reads := t.reads ++ [x.loc] }
  modify fun s => s.setMe { s.me with tx := s.me.tx.map note }
  pure (takeAt o.1 x.off size)

/-- A load of the control core (R93, R222): zero-extended bytes. -/
def loadOp (p : Word) (size : Nat) (strong : Bool) : Op Word := do
  let t ← locate p size .load
  match (← get).me.tx with
  | some tx => txLoad tx t size p (tinfo2 size .load)
  | none => do
    let g ← granOp t strong
    let q := (← get).me.sq.filter (·.sent.isNone)
    consume g q t.loc t.off size p (tinfo2 size .load)

/-! ### Stores of the control core -/

/-- The check code of the bytes that a granule's mask names (R191). -/
def maskCrc (d : BitVec 256) (m : BitVec 32) : BitVec 32 := crc32c (natBytes 32 (mergeBytes 0 d m).toNat)

/-- The dirty-log bit of the translation of an access to memory (R198, R385). -/
def Target.dlog (t : Target) : Bool :=
  match t with
  | .mem _ _ u => u.dlog
  | .remote _ _ d => d
  | .seg _ _ => false

/-- A transactional store joins the write set, of at most 8 granules (R232). -/
def txStore (t : Tx) (x : Target) (size : Nat) (p : Word) (v : Word) : Op Unit := do
  let m := byteMask x.off size
  let d := placeAt v x.off
  let wake := if bitsOf p 60 4 = 2 then m else 0
  let key := match x with
    | .mem _ _ u => u.key.getD 0
    | _ => 0
  let held := updFirst (fun (w : TxWrite) => decide (w.loc = x.loc))
    (fun w =>
      let data := mergeBytes w.data d m
      { w with mask := w.mask ||| m, data := data, crc := maskCrc data (w.mask ||| m), wake := w.wake ||| wake }) t.writes
  if t.writes.any fun w => w.loc = x.loc then
    modify fun s => s.setMe { s.me with tx := some { t with writes := held } }
  else if t.writes.length ≥ 8 then throw (.abort 2)
  else
    let w : TxWrite := ⟨x.loc, p &&& ~~~(31 : Word), key, x.dlog, m, d, maskCrc d m, wake⟩
    modify fun s => s.setMe { s.me with tx := some { t with writes := t.writes ++ [w] } }

/-- The queued form of a store. -/
def storeReq (t : Target) (size : Nat) (strong : Bool) (p pc v : Word) : StoreReq :=
  { loc := t.loc
    off := t.off
    size := size
    data := v
    crc := if strong then some (crc32c (natBytes size v.toNat)) else none
    ptr := p
    pc := pc
    cached := match t with
      | .mem w _ _ => !strong && (w == 0 || w == 4)
      | _ => false
    uncached := match t with
      | .mem w _ _ => strong || w == 2
      | _ => true
    key := match t with
      | .mem _ _ u => u.key.getD 0
      | _ => 0
    dlog := t.dlog
    later := false
    sent := none }

/-- A store issues: the instruction completes and the store waits in the slot's queue (R206). -/
def State.issueStore (s : State) (q : StoreReq) : State :=
  let s1 := s.retire
  s1.setMe { s1.me with sq := s1.me.sq ++ [q] }

/-- A store of the control core (R94, R222). -/
def storeOp (p : Word) (size : Nat) (strong : Bool) (v : Word) : Op Unit := do
  let t ← locate p size .store
  match (← get).me.tx with
  | some tx => do txStore tx t size p v; modify State.retire
  | none => modify fun s => s.issueStore (storeReq t size strong p s.pc v)

/-- A granule that the control core writes at its home, on this device. -/
def State.putHome (s : State) (t : Target) (g : Granule) : State :=
  match t with
  | .seg i off => (s.segPut i (off / 32) g).writtenBy t.loc (some s.cur) none
  | .mem _ pa u => (s.homePut u.part u.key u.dlog (pa / 32) g).writtenBy t.loc (some s.cur) none
  | .remote _ _ _ => s

/-- The operand of an atomic as it reaches its home under its check code: a natural error may have struck it (R191; log 94). -/
def operandOp (b : Word) (p : Word) : Op Word := fun s =>
  let v := b ^^^ s.strike
  let s1 := { s with strike := 0 }
  match operandFault (natBytes 8 v.toNat) (some (crc32c (natBytes 8 b.toNat))) with
  | none => .ok (v, s1)
  | some f => .error (.become (s1.trapMe ⟨f.cause, p &&& ~~~(31 : Word), f.t1, tinfo2 8 .atomic, word f.code⟩))

/-- The trap of an atomic whose check of the old granule (1) or of the operand (2) has failed (R191, R224). -/
def atomTrap {α : Type} (g : Granule) (p : Word) (cause : BitVec 8) (t1 : Word) (code : Nat) : Op α :=
  consumedOp g cause (p &&& ~~~(31 : Word)) t1 (tinfo2 8 .atomic) (word code)

/-- An atomic at the home of another device, whose operand travels under its check code (R191, R389): the old word. Where no port reaches the
device the write is lost, and the spec states no value, so it is a free one (R388; log 28). -/
def farAtomic (p b : Word) (t : Target) (dev pa : Nat) (dlog : Bool) (rop : Word → BitVec 32 → RemoteOp) : Op Word := do
  let s ← get
  let req := rop (b ^^^ s.strike) (crc32c (natBytes 8 b.toNat))
  let asked := s.me.replies.any fun e => e.1 == replyKey dev (pa / 32 * 32) req
  if !asked && (s.routeTo s.cur.core dev).isNone then do
    let (v, u) := (s.lostWrite s.cur t.loc).draw
    set u
    pure v
  else do
    if !asked then set { s with strike := 0 }
    let a ← remoteOp dev (pa / 32 * 32) req dlog
    if a.code = 2 then atomTrap a.g p 0x0C (word (bitsOf a.g.data 0 64)) 2
    else match checkGran a.g with
      | some (c, e) => atomTrap a.g p c e 1
      | none => pure (takeAt a.g.data t.off 8)

/-- A read-check-modify-seal at the home by the control core, answered at once (R191, R224): the old word of 8 bytes. Stores to other homes may
still be queued (R207). -/
def atomicOp (p b : Word) (f : Word → Word → Option Word) (rop : Word → BitVec 32 → RemoteOp) : Op Word := do
  let t ← locate p 8 .atomic
  drainHome t.loc
  match t with
  | .remote dev pa dlog => farAtomic p b t dev pa dlog rop
  | _ => do
    let g ← homeOp t .read
    match checkGran g with
    | some (c, e) => atomTrap g p c e 1
    | none => do
      let old := takeAt g.data t.off 8
      let v ← operandOp b p
      match f v old with
      | none => pure ()
      | some w => modify fun s => s.putHome t (mkGran (mergeBytes g.data (placeAt w t.off) (byteMask t.off 8)))
      pure old

/-! ### Forwarding (R22, R251) -/

/-- Forwards an engine word: ILLEGAL at supervisor level (R324), nothing inside a transaction (R233), and a stall while the queue or the
journal is full (R261). A C word takes its channel's next transfer id (R268). -/
def forwardOp (e : Eng) (w : IWord) (chan : Option (Fin 8)) : Op Unit := do
  let s ← get
  let i := s.cur
  if s.me.level ≠ .task then trapOp 0x01 (w.setWidth 64) 2 0 0
  noTx
  if s.me.depth e ≥ s.me.depthLimit e then stallOp (.queueFull e)
  if s.me.journalFull then stallOp .journalFull
  let tid := match chan with
    | some h => ((tget ⟨0, 0, none⟩ s.me.eng.chans h.val).given + 1) % 2 ^ 48
    | none => 0
  modify fun s => s.enqueue i e w tid
  match chan with
  | some h => modify fun s => s.mapSlot i fun x => { x with eng := { x.eng with
      chans := tput x.eng.chans h.val { tget ⟨0, 0, none⟩ x.eng.chans h.val with given := tid } } }
  | none => pure ()
  modify State.retire

/-- Sends a marker (R266): the instruction stalls while the journal is full. -/
def markerOp (w : BitVec 32) : Op Unit := do
  let s ← get
  if s.me.journalFull then stallOp .journalFull
  modify fun s => s.enqueue s.cur .v w 0

end Sys2Proof.Machine
end

