-- ==== Sys2Proof/Machine/Alu.lean ====
section
/-! DEFINITION. Integer register and immediate operations (04 R77 to R83). Every member reads its sources, writes gd and goes on at
PC + 4; the only flags are those of R14. -/

namespace Sys2Proof.Machine

/-- ADD (R78). -/
def execAdd (d a b : Fin 32) (s : State) : Host.Outcome State Fault Refusal :=
  .next (s.result d ((s.reg a) + (s.reg b)))

/-- SUB (R78). -/
def execSub (d a b : Fin 32) (s : State) : Host.Outcome State Fault Refusal :=
  .next (s.result d ((s.reg a) - (s.reg b)))

/-- AND (R78). -/
def execAnd (d a b : Fin 32) (s : State) : Host.Outcome State Fault Refusal :=
  .next (s.result d ((s.reg a) &&& (s.reg b)))

/-- OR (R78). -/
def execOr (d a b : Fin 32) (s : State) : Host.Outcome State Fault Refusal :=
  .next (s.result d ((s.reg a) ||| (s.reg b)))

/-- XOR (R78). -/
def execXor (d a b : Fin 32) (s : State) : Host.Outcome State Fault Refusal :=
  .next (s.result d ((s.reg a) ^^^ (s.reg b)))

/-- ANDN (R78). -/
def execAndn (d a b : Fin 32) (s : State) : Host.Outcome State Fault Refusal :=
  .next (s.result d ((s.reg a) &&& ~~~(s.reg b)))

/-- ORN (R78). -/
def execOrn (d a b : Fin 32) (s : State) : Host.Outcome State Fault Refusal :=
  .next (s.result d ((s.reg a) ||| ~~~(s.reg b)))

/-- SLL (R78). -/
def execSll (d a b : Fin 32) (s : State) : Host.Outcome State Fault Refusal :=
  .next (s.result d ((s.reg a) <<< amount (s.reg b)))

/-- SRL (R78). -/
def execSrl (d a b : Fin 32) (s : State) : Host.Outcome State Fault Refusal :=
  .next (s.result d ((s.reg a) >>> amount (s.reg b)))

/-- SRA (R78). -/
def execSra (d a b : Fin 32) (s : State) : Host.Outcome State Fault Refusal :=
  .next (s.result d ((s.reg a).sshiftRight (amount (s.reg b))))

/-- MUL (R78). -/
def execMul (d a b : Fin 32) (s : State) : Host.Outcome State Fault Refusal :=
  .next (s.result d ((s.reg a) * (s.reg b)))

/-- MULH: bits 127:64 of the signed product (R78). -/
def execMulh (d a b : Fin 32) (s : State) : Host.Outcome State Fault Refusal :=
  .next (s.result d ((((s.reg a).signExtend 128) * ((s.reg b).signExtend 128)).extractLsb' 64 64))

/-- MULHU: bits 127:64 of the unsigned product (R78). -/
def execMulhu (d a b : Fin 32) (s : State) : Host.Outcome State Fault Refusal :=
  .next (s.result d ((((s.reg a).setWidth 128) * ((s.reg b).setWidth 128)).extractLsb' 64 64))

/-- DIV (R78, R14): divisor 0 gives all ones; -2^63 / -1 gives -2^63. -/
def execDiv (d a b : Fin 32) (s : State) : Host.Outcome State Fault Refusal :=
  .next ((s.stick (divFlags (s.reg a) (s.reg b))).result d (if (s.reg b) = 0 then BitVec.allOnes 64 else (s.reg a).sdiv (s.reg b)))

/-- DIVU (R78, R14): divisor 0 gives all ones. -/
def execDivu (d a b : Fin 32) (s : State) : Host.Outcome State Fault Refusal :=
  .next ((s.stick (zeroFlags (s.reg b))).result d (if (s.reg b) = 0 then BitVec.allOnes 64 else (s.reg a).udiv (s.reg b)))

/-- REM (R78, R14): divisor 0 gives the dividend. -/
def execRem (d a b : Fin 32) (s : State) : Host.Outcome State Fault Refusal :=
  .next ((s.stick (zeroFlags (s.reg b))).result d (if (s.reg b) = 0 then (s.reg a) else (s.reg a).srem (s.reg b)))

/-- REMU (R78, R14): divisor 0 gives the dividend. -/
def execRemu (d a b : Fin 32) (s : State) : Host.Outcome State Fault Refusal :=
  .next ((s.stick (zeroFlags (s.reg b))).result d (if (s.reg b) = 0 then (s.reg a) else (s.reg a).umod (s.reg b)))

/-- SLT (R78). -/
def execSlt (d a b : Fin 32) (s : State) : Host.Outcome State Fault Refusal :=
  .next (s.result d (wbit ((s.reg a).slt (s.reg b))))

/-- SLTU (R78). -/
def execSltu (d a b : Fin 32) (s : State) : Host.Outcome State Fault Refusal :=
  .next (s.result d (wbit ((s.reg a).ult (s.reg b))))

/-- MIN (R78). -/
def execMin (d a b : Fin 32) (s : State) : Host.Outcome State Fault Refusal :=
  .next (s.result d (if (s.reg a).slt (s.reg b) then (s.reg a) else (s.reg b)))

/-- MAX (R78). -/
def execMax (d a b : Fin 32) (s : State) : Host.Outcome State Fault Refusal :=
  .next (s.result d (if (s.reg a).slt (s.reg b) then (s.reg b) else (s.reg a)))

/-- MINU (R78). -/
def execMinu (d a b : Fin 32) (s : State) : Host.Outcome State Fault Refusal :=
  .next (s.result d (if (s.reg a).ult (s.reg b) then (s.reg a) else (s.reg b)))

/-- MAXU (R78). -/
def execMaxu (d a b : Fin 32) (s : State) : Host.Outcome State Fault Refusal :=
  .next (s.result d (if (s.reg a).ult (s.reg b) then (s.reg b) else (s.reg a)))

/-- CLZ (R78). -/
def execClz (d a : Fin 32) (s : State) : Host.Outcome State Fault Refusal :=
  .next (s.result d (word (clzNat (s.reg a))))

/-- CTZ (R78). -/
def execCtz (d a : Fin 32) (s : State) : Host.Outcome State Fault Refusal :=
  .next (s.result d (word (ctzFrom (s.reg a) 64 0)))

/-- POPC (R78). -/
def execPopc (d a : Fin 32) (s : State) : Host.Outcome State Fault Refusal :=
  .next (s.result d (word (popBelow (s.reg a) 64)))

/-- ROL (R78). -/
def execRol (d a b : Fin 32) (s : State) : Host.Outcome State Fault Refusal :=
  .next (s.result d ((s.reg a).rotateLeft (amount (s.reg b))))

/-- ROR (R78). -/
def execRor (d a b : Fin 32) (s : State) : Host.Outcome State Fault Refusal :=
  .next (s.result d ((s.reg a).rotateRight (amount (s.reg b))))

/-- SEXT: bits above n = b[5:0] take a[n] (R78). -/
def execSext (d a b : Fin 32) (s : State) : Host.Outcome State Fault Refusal :=
  .next (s.result d (sextLow (s.reg a) (amount (s.reg b) + 1)))

/-- ZEXT: bits above n = b[5:0] are cleared (R78). -/
def execZext (d a b : Fin 32) (s : State) : Host.Outcome State Fault Refusal :=
  .next (s.result d ((s.reg a) &&& lowMask (amount (s.reg b) + 1)))

/-- BEXT (R78, R79). -/
def execBext (d a b : Fin 32) (s : State) : Host.Outcome State Fault Refusal :=
  .next (s.result d (extractField (s.reg a) (amount (s.reg b)) (bitsOf (s.reg b) 6 6)))

/-- BINS (R78, R79). -/
def execBins (d a b : Fin 32) (s : State) : Host.Outcome State Fault Refusal :=
  .next (s.result d (insertField (s.reg d) (s.reg a) (amount (s.reg b)) (bitsOf (s.reg b) 6 6)))

/-- ADDI (R80). -/
def execAddi (d a : Fin 32) (i : BitVec 14) (s : State) : Host.Outcome State Fault Refusal :=
  .next (s.result d ((s.reg a) + simm i))

/-- ANDI (R80). -/
def execAndi (d a : Fin 32) (i : BitVec 14) (s : State) : Host.Outcome State Fault Refusal :=
  .next (s.result d ((s.reg a) &&& simm i))

/-- ORI (R80). -/
def execOri (d a : Fin 32) (i : BitVec 14) (s : State) : Host.Outcome State Fault Refusal :=
  .next (s.result d ((s.reg a) ||| simm i))

/-- XORI (R80). -/
def execXori (d a : Fin 32) (i : BitVec 14) (s : State) : Host.Outcome State Fault Refusal :=
  .next (s.result d ((s.reg a) ^^^ simm i))

/-- SLTI (R80). -/
def execSlti (d a : Fin 32) (i : BitVec 14) (s : State) : Host.Outcome State Fault Refusal :=
  .next (s.result d (wbit ((s.reg a).slt (simm i))))

/-- SLTIU (R80). -/
def execSltiu (d a : Fin 32) (i : BitVec 14) (s : State) : Host.Outcome State Fault Refusal :=
  .next (s.result d (wbit ((s.reg a).ult (simm i))))

/-- MULI (R80). -/
def execMuli (d a : Fin 32) (i : BitVec 14) (s : State) : Host.Outcome State Fault Refusal :=
  .next (s.result d ((s.reg a) * simm i))

/-- SLLI (R81). -/
def execSlli (d a : Fin 32) (n : Fin 64) (s : State) : Host.Outcome State Fault Refusal :=
  .next (s.result d ((s.reg a) <<< n.val))

/-- SRLI (R81). -/
def execSrli (d a : Fin 32) (n : Fin 64) (s : State) : Host.Outcome State Fault Refusal :=
  .next (s.result d ((s.reg a) >>> n.val))

/-- SRAI (R81). -/
def execSrai (d a : Fin 32) (n : Fin 64) (s : State) : Host.Outcome State Fault Refusal :=
  .next (s.result d ((s.reg a).sshiftRight n.val))

/-- ROLI (R81). -/
def execRoli (d a : Fin 32) (n : Fin 64) (s : State) : Host.Outcome State Fault Refusal :=
  .next (s.result d ((s.reg a).rotateLeft n.val))

/-- BEXTI (R82). -/
def execBexti (d a : Fin 32) (l p : Fin 64) (s : State) : Host.Outcome State Fault Refusal :=
  .next (s.result d (extractField (s.reg a) p.val l.val))

/-- BINSI (R82). -/
def execBinsi (d a : Fin 32) (l p : Fin 64) (s : State) : Host.Outcome State Fault Refusal :=
  .next (s.result d (insertField (s.reg d) (s.reg a) p.val l.val))

/-- LUI (R83). -/
def execLui (d : Fin 32) (i : BitVec 19) (s : State) : Host.Outcome State Fault Refusal :=
  .next (s.result d (upperImm i))

/-- AUIPC (R83). -/
def execAuipc (d : Fin 32) (i : BitVec 19) (s : State) : Host.Outcome State Fault Refusal :=
  .next (s.result d (s.pc + upperImm i))

end Sys2Proof.Machine
end

