-- ==== Sys2Proof/Machine/Fetch.lean ====
section
/-! DEFINITION. Fetching the instruction at a slot's PC (01 R8, 04 R95, 02 R41) and what a stop of an instruction comes to. -/

namespace Sys2Proof.Machine

/-- The outcome of an instruction of the current slot that stops. -/
def State.stopped (s : State) : Stop → Host.Outcome State Fault Refusal
  | .trap t => .next (s.trapMe t)
  | .become t => .next t
  | .abort c => .next (s.setMe (s.me.abortTx c 0 |>.issued s.cycle))
  | .fault f => .fault f

/-- The word at an address in a granule. -/
def codeWord (x : Granule) (pa : Nat) : IWord := (takeAt x.data (pa % 32) 4).setWidth 32

/-- What the stores of a queue make of a granule's data, one after the other. -/
def storesOn (l : Loc) : BitVec 256 → List StoreReq → List (BitVec 256)
  | _, [] => []
  | d, q :: r =>
    if q.loc = l then mergeBytes d q.bytes q.mask :: storesOn l (mergeBytes d q.bytes q.mask) r
    else storesOn l d r

/-- The stores that the current slot has queued and not sent. -/
def State.queuedStores (s : State) : List StoreReq := s.me.sq.filter (·.sent.isNone)

/-- What stores have made a granule hold since a cycle, newest first (R95). -/
def State.storedSince (s : State) (l : Loc) (t : Nat) : List Stored := s.stored.filter fun w => decide (w.loc = l) && decide (t ≤ w.cycle)

/-- What stores had made a granule hold before a cycle. -/
def State.storedBefore (s : State) (l : Loc) (t : Nat) : Option Stored := s.stored.find? fun w => decide (w.loc = l) && decide (w.cycle < t)

/-- What an L1 held of a granule at a cycle, where a store had changed it there and no write had reached its home since (R95). -/
def State.heldAt (s : State) (l : Loc) (t : Nat) : List Granule :=
  match s.storedBefore l t with
  | some w =>
    if s.past.any fun e => decide (e.loc = l) && decide (w.cycle ≤ e.cycle) && decide (e.cycle < t) then [] else [mkGran w.data]
  | none => []

/-- What a task's fetch from a page may find (R95): the granule at the home, what stood there when the task started, and what has stood there
since, at the home, in the L1 or as the task's queued stores will leave it. A supervisor's fetch, for which R95 says nothing else, finds the
granule at the home (log 12). -/
def State.codeVersions (s : State) (g : Page) : List Granule :=
  let n := g.pa / 32
  let l := Loc.phys n
  let x := s.homeGran g.use.part g.use.key n
  match s.me.task, s.me.level with
  | some t, .task =>
    let old := (s.past.filter fun e => decide (e.loc = l) && decide (t.start ≤ e.cycle)).map (·.gran)
    let held := match s.l1Line s.cur.core (n / 4) with
      | some k => if (k.gran n).dirty then [s.l1Gran s.cur.core n] else []
      | none => []
    x :: held ++ (storesOn l (held.headD x).data s.queuedStores).map mkGran ++ (s.storedSince l t.start).map (fun w => mkGran w.data) ++
      s.heldAt l t.start ++ old
  | _, _ => [x]

/-- A granule of another device as it was when this device knew some bytes of it: of the others, those in `later`, which this device has stored or read
since, are free values (log 53), and the rest are as in x. -/
def farVersion (dev n start : Nat) (x : BitVec 256) (later : BitVec 32) (w : Stored) : BitVec 256 :=
  mergeBytes (mergeBytes x (Config.farGranule dev n start) later) w.data w.mask

/-- What a task's fetch from a page of another device may find: a granule that the device has answered with, what stood there when the task
started, and what this device has stored in it, or read there, since (R95; log 53). -/
def State.farVersions (s : State) (g : Page) (x : Granule) : List Granule :=
  match s.me.task, s.me.level with
  | some t, .task =>
    let n := g.pa / 32
    let l := Loc.far g.dev n
    let since := s.storedSince l t.start
    let later := (since.head?.map (·.mask)).getD 0
    let first : List Stored := match s.storedBefore l t.start, since.getLast? with
      | some w, _ => [w]
      | none, some w => if w.mask = BitVec.allOnes 32 then [] else [⟨t.start, l, 0, 0⟩]
      | none, none => []
    let old := (since ++ first).map (farVersion g.dev n t.start x.data later)
    x :: ((old ++ storesOn l (old.headD x.data) s.queuedStores).map mkGran)
  | _, _ => [x]

/-- One of the granules that a fetch may find, by a free value where their words differ (R95). -/
def chooseCode (pa : Nat) (l : List Granule) : Op Granule := fun s =>
  match l with
  | [] => .ok (zeroGran, s)
  | x :: r =>
    if r.all fun y => codeWord y pa == codeWord x pa then .ok (x, s)
    else .ok (l.getD (s.draw.1.toNat % l.length) x, s.draw.2)

/-- A fetch from another device finds the granule that the slot has kept; a task's asks again where a free value says so (R95; log 53). -/
def keptCode (k key : Nat) : Op (Option Granule) := fun s =>
  match s.me.code with
  | some (n, x) =>
    if n ≠ k ∨ (s.me.replies.any fun e => e.1 == key) = true then .ok (none, s)
    else if s.me.level = .task ∧ s.draw.1.getLsbD 0 = true then .ok (none, s.draw.2)
    else .ok (some x, if s.me.level = .task then s.draw.2 else s)
  | none => .ok (none, s)

/-- The granule an instruction is fetched from: one of this device (R95), or of the device that holds its page (R389), which the slot keeps while
it runs on it. -/
def codeGran (g : Page) : Op Granule := do
  let s ← get
  if g.rem = false then do
    set (s.corrected s.cur.core g.use.part (g.pa / 32))
    chooseCode g.pa (s.codeVersions g)
  else do
    let key := replyKey g.dev (g.pa / 32 * 32) .read
    let x ← match ← keptCode (remoteKey g.dev g.pa) key with
      | some x => pure x
      | none => do
        let a ← remoteOp g.dev (g.pa / 32 * 32) .read false
        modify fun s => (s.setMe { s.me with code := some (remoteKey g.dev g.pa, a.g), replies := tdrop s.me.replies key }).keepStored
          (.far g.dev (g.pa / 32)) (BitVec.allOnes 32) a.g.data
        pure a.g
    chooseCode g.pa ((← get).farVersions g x)

/-- The page a slot fetches from: its PC translated for execution, or as a physical address while a supervisor slot runs on from sventry (R199,
R379; log 8). -/
def codePage (pc : Word) : Op Page := do
  let s ← get
  if s.me.bare then pure ⟨pc.toNat, ⟨s.partNo s.cur.core, none, false⟩, false, 0, 0, false⟩
  else pageOp pc pc.toNat (tinfo2 4 .fetch) .fetch

/-- The word at PC: the checks of a pointer to global memory, the translation for execution, and the consumer's check (R8, R16, R199,
R195). -/
def fetchOp : Op IWord := do
  let pc := (← get).pc
  let info := tinfo2 4 .fetch
  if bitsOf pc 48 16 ≠ 0 then trapOp 0x04 pc 0 info 0
  if bitsOf pc 0 2 ≠ 0 then trapOp 0x03 pc 0 info 0
  let g ← codePage pc
  let x ← codeGran g
  match checkGran x with
  | some (c, t) => consumedOp x c (pc &&& ~~~(31 : Word)) t info 0
  | none => pure (codeWord x g.pa)

/-- The instruction a word stands for; a word that is none is ILLEGAL with its reason (R41). -/
def instrOf (w : IWord) : Instr :=
  match decode w with
  | .ok i => i
  | .error r => .illegal w r

/-- The word at the PC of a slot, where it can be fetched. -/
def State.peek (s : State) (i : SlotId) : Option IWord :=
  match fetchOp { s with cur := i } with
  | .ok (w, _) => some w
  | .error _ => none

/-- The code of a reason (R42). -/
def Reason.code : Reason → Nat
  | .reservedOpcode => 1
  | .undefinedSelector => 2
  | .mustBeZero => 3
  | .forbiddenOperand => 4

/-- ILLEGAL at decode (R41, R42). -/
def execIllegal (w : BitVec 32) (r : Reason) (s : State) : Host.Outcome State Fault Refusal :=
  .next (s.trapMe ⟨0x01, w.setWidth 64, word (Reason.code r), 0, 0⟩)

end Sys2Proof.Machine
end

