-- ==== Sys2Proof/Machine/MemOperand.lean ====
section
/-! DEFINITION. Memory operands of the task, domain, scope and graph instructions (07 R157), and the images that instructions read
through them. -/

namespace Sys2Proof.Machine

/-- The checks of a memory operand before translation (R157): windows 0x0 to 0x2, and an alignment. -/
def memOperand (p : Word) (align : Nat) (info2 : Word) : Op Unit := do
  if bitsOf p 60 4 > 2 ∨ bitsOf p 48 12 ≠ 0 then trapOp 0x04 p 0 info2 0
  if p.toNat % align ≠ 0 then trapOp 0x03 p 0 info2 0

/-- Where a memory operand lies: an object that runs past the top of the 48-bit range goes on at VA 0 of its window (log 22, DESIGN CHOICE: R157 and R245
do not say). -/
def memTarget (p : Word) (info2 : Word) (acc : Access) : Op Target := do
  let g ← pageOp p (bitsOf p 0 48) info2 acc
  pure (if g.rem then .remote g.dev g.pa g.use.dlog else .mem (bitsOf p 60 4) g.pa g.use)

/-- A granule read as a weak load that follows every earlier store of the task. -/
def granuleAt (p : Word) (info2 : Word) : Op (BitVec 256) := do
  let t ← memTarget p info2 .load
  let x ← granOp t false
  let o := overlay ((← get).me.sq.filter (·.sent.isNone)) t.loc x.data 0
  if o.2 = BitVec.allOnes 32 then pure o.1
  else match checkGran x with
    | some (c, e) => consumedOp x c p e info2 0
    | none => pure o.1

/-- The four double words of a granule. -/
def granWords (d : BitVec 256) : List Word :=
  [takeAt d 0 8, takeAt d 8 8, takeAt d 16 8, takeAt d 24 8]

/-- The double words of n granules from a pointer on. -/
def wordsAt (p : Word) (info2 : Word) : Nat → Op (List Word)
  | 0 => pure []
  | n + 1 => do
    let d ← granuleAt p info2
    let r ← wordsAt (p + 32) info2 n
    pure (granWords d ++ r)

/-- What an instruction has still to ask other devices for on the device's behalf: it asks, and waits until it is answered (R398, R389). -/
def askOp (p : Fin 16) (l : List Want) : Op Unit := fun s =>
  if l.isEmpty then .ok ((), s)
  else
    let t := s.ask p l
    let mine := fun (r : Remote) => decide (r.part = some p) && l.any fun w =>
      decide (r.dev = w.dev ∧ r.req.pa = BitVec.ofNat 52 w.pa ∧ r.req.op = w.op)
    match t.pkg.remotes.find? mine with
    | some r => .error (.become (t.stallMe (.remote r.tag)))
    | none => .ok ((), t)

/-- n double words read as 8-byte loads in ascending order (R298). -/
def loadWords (p : Word) : Nat → Op (List Word)
  | 0 => pure []
  | n + 1 => do
    let v ← loadOp p 8 false
    let r ← loadWords (p + 8) n
    pure (v :: r)

end Sys2Proof.Machine
end

