-- ==== Sys2Proof/Machine/Tansy.lean ====
section
/-! DEFINITION. Tansy, the segment manager (08 R168 to R180): room in pools and quotas, homes, eviction, recall, compaction, the
choice of victims, and the service of tickets. -/

namespace Sys2Proof.Machine

/-! ### Pools and quotas -/

/-- Frames of a pool (R1). -/
def poolCap : PoolId → Nat
  | .core _ => 512
  | .cluster _ => 2048

/-- The segments that hold frames of a pool. -/
def State.inPool (s : State) (p : PoolId) : List Seg :=
  s.segs.filter fun g => decide (g.pool = p) && g.framed

/-- Frames of a list of segments. -/
def sumFrames (l : List Seg) : Nat := (l.map (·.frames)).sum

/-- The frames from base on are free among segments that are placed. -/
def fitsAt (l : List Seg) (cap base n : Nat) : Bool :=
  decide (base + n ≤ cap) && l.all fun g => decide (base + n ≤ g.base ∨ g.base + g.frames ≤ base)

/-- The lowest place for n contiguous frames among segments that are placed. -/
def placeAmong (l : List Seg) (cap n : Nat) : Option Nat :=
  ((0 :: l.map fun g => g.base + g.frames).filter fun b => fitsAt l cap b n).min?

/-- The lowest place in a pool. -/
def State.placeFor (s : State) (p : PoolId) (n : Nat) : Option Nat :=
  placeAmong (s.inPool p) (poolCap p) n

/-- A context that some slot holds, other than for a preload, whose task is still saved (R340). -/
def State.heldKey (s : State) (key : Nat) : Bool :=
  s.slots.any fun e => e.2.ctx.key == key && !decide (e.2.status = .preloaded)

/-- The quota of a context that a slot holds: a saved task's segments count against none, and are evicted only for pool room (R336; log 120). -/
def State.quotaOf (s : State) (key : Nat) : Option Nat :=
  (s.slots.find? fun e => e.2.ctx.key == key).map fun e => e.2.quota

/-- Some slot has a store to the segment in its queue. -/
def State.storesTo (s : State) (i : SegId) : Bool :=
  s.slots.any fun e => e.2.sq.any fun q => match q.loc with
    | .seg g _ => decide (g = i)
    | _ => false

/-- A segment that must not be moved or evicted (R179, R240, R336, R340): started commands, copies in flight, stores on their way, an
SGPIN pin of a task that is not saved, or the pin of a preload. -/
def State.pinned (s : State) (g : Seg) : Bool :=
  decide (0 < g.pins) || decide (0 < g.copyPins) || (g.sgpin && s.heldKey g.creator) || g.prePin || s.storesTo g.id

/-- The quota has room for a segment. -/
def State.quotaRoom (s : State) (g : Seg) : Bool :=
  (s.quotaOf g.creator).all fun q => decide (s.framesOf g.creator + g.frames ≤ q)

/-! ### Compaction (R172) -/

/-- Places unpinned segments anew, lowest first. -/
def compactInto (cap : Nat) (placed : List Seg) : List Seg → List Seg
  | [] => placed
  | g :: r => compactInto cap (placed ++ [{ g with base := (placeAmong placed cap g.frames).getD g.base }]) r

/-- The segments of a pool after compaction. -/
def State.compacted (s : State) (p : PoolId) : List Seg :=
  let l := s.inPool p
  let fixed := l.filter fun g => s.pinned g || g.claimed
  let free := (l.filter fun g => !(s.pinned g || g.claimed)).mergeSort fun a b => decide (a.base ≤ b.base)
  compactInto (poolCap p) fixed free

/-- Moves the unpinned segments of a pool to other frames. -/
def State.compact (s : State) (p : PoolId) : State :=
  let l := s.compacted p
  { s with segs := s.segs.map fun g => match l.find? fun h => h.id = g.id with
    | some h => { g with base := h.base }
    | none => g }

/-- A place in the pool, compacting it where that makes one. -/
def State.makePlace (s : State) (p : PoolId) (n : Nat) : Option (State × Nat) :=
  match s.placeFor p n with
  | some b => some (s, b)
  | none => ((s.compact p).placeFor p n).map fun b => (s.compact p, b)

/-! ### Homes (R170) -/

/-- The page of a frame's home, or why it does not translate, with its address; a home on another device is not present (log 33). -/
def State.homePage (s : State) (g : Seg) (f : Nat) (acc : Access) : Except (XFault × Nat) Page :=
  let va := (g.home + 4096 * f) % 2 ^ 48
  match s.walk g.part g.root va acc with
  | .error x => .error (x, va)
  | .ok pg => if pg.rem then .error (⟨0x0A, if pg.big then 2 else 3, pg.pte, false⟩, va) else .ok pg

/-- The pages of frames, in order. -/
def State.homePages (s : State) (g : Seg) (acc : Access) : List Nat → Except (XFault × Nat) (List (Nat × Page))
  | [] => .ok []
  | f :: r =>
    match s.homePage g f acc with
    | .error e => .error e
    | .ok pg =>
      match s.homePages g acc r with
      | .error e => .error e
      | .ok l => .ok ((f, pg) :: l)

/-- The frames an eviction writes: the dirty ones, and all of a segment that was written and never backed (R170, R171). -/
def Seg.written (g : Seg) : List Nat :=
  if g.everBacked then g.dirty else if g.dirty.isEmpty then [] else List.range g.frames

/-- One granule goes home; an uncorrectable one is poisoned, logged, and raises ERROR_INTERRUPT (R197). -/
def State.evictGran (s : State) (g : Seg) (pg : Page) (f n : Nat) : State :=
  let inj := s.hit (poolDie g.pool) g.part .store ((g.base + f) * 128 + n)
  let bad := inj || g.bad.contains (128 * f + n)
  let s1 := s.homePut g.part pg.use.key pg.use.dlog (pg.pa / 32 + n)
    (poisonIf (g.bad.contains (128 * f + n)) (injectIf inj (g.data.gran (128 * f + n))))
  if bad then
    (s1.logError (poolDie g.pool) g.part
      ⟨logWord 2 none inj (poolCore g.pool) (poolSite g.pool), word (pg.pa + 32 * n), word s.cycle, 0⟩).raiseError g.part
  else s1

/-- The n lowest granules of a frame. -/
def State.evictGrans (s : State) (g : Seg) (pg : Page) (f : Nat) : Nat → State
  | 0 => s
  | n + 1 => (s.evictGrans g pg f n).evictGran g pg f n

/-- Frames with their pages. -/
def State.evictFrames (s : State) (g : Seg) : List (Nat × Page) → State
  | [] => s
  | (f, pg) :: r => (s.evictGrans g pg f 128).evictFrames g r

/-- Evicts a segment: dirty frames go home, clean ones are dropped; one that was never written returns to Fresh (R170, R171). -/
def State.evictSeg (s : State) (g : Seg) : Except (XFault × Nat) State :=
  match s.homePages g .store g.written with
  | .error e => .error e
  | .ok l =>
    .ok ((s.evictFrames g l).mapSeg g.id fun h =>
      { h with
        state := if h.everBacked || !h.dirty.isEmpty then .absent else .fresh
        everBacked := h.everBacked || !h.dirty.isEmpty
        claimed := false
        preload := false
        dirty := []
        bad := []
        data := .empty })

/-- A frame's granules as its home holds them (transport, R190). -/
def State.recallGrans (s : State) (p : Fin 16) (pg : Page) (f : Nat) (m : Memory) : Nat → Memory
  | 0 => m
  | n + 1 => (s.recallGrans p pg f m n).putGran (128 * f + n) (s.homeGran p pg.use.key (pg.pa / 32 + n))

/-- Frames with their pages. -/
def State.recallFrames (s : State) (p : Fin 16) (m : Memory) : List (Nat × Page) → Memory
  | [] => m
  | (f, pg) :: r => s.recallFrames p (s.recallGrans p pg f m 128) r

/-- The corrected errors of the granules of frames that are read (R188). -/
def State.correctedFrames (s : State) (g : Seg) : List (Nat × Page) → State
  | [] => s
  | (_, pg) :: r =>
    ((List.range 128).foldl (fun t n => t.corrected (poolCore g.pool) g.part (pg.pa / 32 + n)) s).correctedFrames g r

/-- Brings a Fresh or Absent segment into frames from base on: zeros with fresh seals, or its home (R170, R171). -/
def State.bringIn (s : State) (g : Seg) (base : Nat) : Except (XFault × Nat) State :=
  let put := fun (m : Memory) => s.mapSeg g.id fun h => { h with state := .resident, base := base, data := m, dirty := [], bad := [], claimed := false }
  if g.state = .fresh then .ok (put .empty)
  else match s.homePages g .load (List.range g.frames) with
    | .error e => .error e
    | .ok l => .ok ((put (s.recallFrames g.part .empty l)).correctedFrames g l)

/-! ### Schedule order (R178) -/

/-- The lesser of two lists in the order of their first difference. -/
def lexLt : List Nat → List Nat → Bool
  | [], _ => false
  | _ :: _, [] => false
  | a :: r, b :: t => a < b || (a == b && lexLt r t)

/-- The rank a creator's schedule gives a segment in its active phase. -/
def State.rankOf (s : State) (g : Seg) : Option Nat :=
  match s.scheds.find? fun x => x.key == g.creator with
  | none => none
  | some x =>
    (x.phases.getD x.active []).findIdx? fun e =>
      e.2 == g.id.name.val && e.1 == (match g.id.space with | .cluster _ => true | .task _ => false)

/-- The slot of a context; a saved one comes after all slots. -/
def State.slotRank (s : State) (key : Nat) : Nat :=
  match s.slots.find? fun e => e.2.ctx.key == key with
  | some e => e.1 % 4
  | none => 4

/-- The place of a segment in schedule order, as a list compared from its first number on. -/
def State.schedKey (s : State) (g : Seg) : List Nat :=
  (match s.rankOf g with
    | some r => [0, r]
    | none => [1, 0]) ++
  [256 - g.frames, match g.id.space with | .cluster _ => 1 | .task _ => 0, s.slotRank g.creator, g.id.name.val]

/-- The first segment of a list by keys. -/
def leastBy (key : Seg → List Nat) (l : List Seg) : Option Seg :=
  l.foldl (fun b g => match b with
    | none => some g
    | some h => if lexLt (key g) (key h) then some g else some h) none

/-! ### Victims (R176, R177) -/

/-- The place of a candidate for a ticket: preloaded, then not wanted, then wanted by the youngest. None for one that is never chosen. -/
def State.victimKey (s : State) (num : Nat) (g : Seg) : Option (List Nat) :=
  if s.pinned g || g.claimed || !decide (g.state = .resident) then none
  else match s.wantedBy g.id with
    | some w => if w ≤ num then none else some ([2, s.nextTicket - w] ++ s.schedKey g)
    | none => some ((if g.preload then [0, 0] else [1, 0]) ++ s.schedKey g)

/-- The home of a victim translates as writable. -/
def State.homeFault (s : State) (g : Seg) : Option (XFault × Nat) :=
  match s.homePages g .store g.written with
  | .error e => some e
  | .ok _ => none

/-- The first candidate of a list for a ticket, those with a home that fails passed over. -/
def State.victim (s : State) (num : Nat) (l : List Seg) : Option Seg :=
  leastBy (fun g => (s.victimKey num g).getD []) (l.filter fun g => (s.victimKey num g).isSome && (s.homeFault g).isNone)

/-- The first candidate that is passed over for its home. -/
def State.skipped (s : State) (num : Nat) (l : List Seg) : Option (XFault × Nat) :=
  match leastBy (fun g => (s.victimKey num g).getD [])
      (l.filter fun g => (s.victimKey num g).isSome && (s.homeFault g).isSome) with
  | some g => s.homeFault g
  | none => none

/-- A shortage of room: where victims may come from, and how many frames lack. -/
structure Lack where
  from_ : List Seg
  frames : Nat

/-- The members of a ticket that lack frames in a cluster. -/
def State.lackers (s : State) (t : Ticket) (c : Fin 64) : List Seg :=
  s.segs.filter fun g => t.members.contains g.id && !g.framed && decide (poolCluster g.pool = c)

/-- The first shortage of a ticket in a cluster: of the quota of a creator that is on a slot (R336), then of a pool. Claimed segments count as
gone. -/
def State.lackOf (s : State) (t : Ticket) (c : Fin 64) : Option Lack :=
  let need := s.lackers t c
  let live := fun (l : List Seg) => l.filter fun g => g.framed && !g.claimed
  let q := ((need.map (·.creator)).dedup.filterMap fun k =>
    let own := live (s.chargedTo k)
    (s.quotaOf k).map fun n => (⟨own, sumFrames own + sumFrames (need.filter fun g => g.creator == k) - n⟩ : Lack))
  let p := ((need.map (·.pool)).dedup.map fun k =>
    let own := live (s.inPool k)
    (⟨own, sumFrames own + sumFrames (need.filter fun g => decide (g.pool = k)) - poolCap k⟩ : Lack))
  (q ++ p).find? fun x => decide (0 < x.frames)

/-- Claims a segment (R177). -/
def State.claim (s : State) (i : SegId) : State :=
  s.mapSeg i fun g => { g with claimed := true }

/-- What serving a ticket comes to. -/
inductive Served where
  | going (s : State)
  | fails (e : XFault × Nat)

/-- Claims victims until the room suffices, or none is left: then the ticket waits for pins, or fails where even they would not
suffice (R176, R177). -/
def State.claimRoom (s : State) (t : Ticket) (c : Fin 64) : Nat → Served
  | 0 => .going s
  | n + 1 =>
    match s.lackOf t c with
    | none => .going s
    | some x =>
      match s.victim t.num x.from_ with
      | some g => (s.claim g.id).claimRoom t c n
      | none =>
        match s.skipped t.num x.from_ with
        | some e => if sumFrames (x.from_.filter s.pinned) < x.frames then .fails e else .going s
        | none => .going s

/-! ### Tickets -/

/-- The oldest ticket that a cluster's manager holds (R176). -/
def State.oldestIn (s : State) (c : Fin 64) : Option Ticket :=
  s.tickets.find? fun t => (s.clustersOf t).contains c

/-- The pointer of a ticket's command that names a member (R173). -/
def Ticket.ptrOf (t : Ticket) (i : SegId) : Word :=
  match (t.members.zip t.ptrs).find? fun e => e.1 = i with
  | some e => e.2
  | none => t.ptrs.headD 0

/-- TINFO1 of an engine's home fault: the home address (R328), or the seals (R201). -/
def homeInfo1 (e : XFault × Nat) : Word := if e.1.sealed then e.1.t1 else word e.2

/-- TINFO3 of a control-core access's home fault: the home address (R173), or the granule of the entry (R201). -/
def homeInfo3 (e : XFault × Nat) : Word := if e.1.sealed then e.1.t3 else word e.2

/-- The core of the multicast receiver whose segment a pointer of a copy names (R173, R328); 0 where it is no receiver's. -/
def CRun.castCore (r : CRun) (ptr : Word) : Nat :=
  match decode r.q.word with
  | .ok (.cmcast _ _ _ _) => if ptr ≠ imgWord r.img 0 ∧ bitsOf ptr 0 52 = bitsOf (imgWord r.img 1) 0 52 ∧ bitsOf ptr 60 4 = 8 then bitsOf ptr 52 8 else 0
  | _ => 0

/-- The core of the receiver whose home has failed. -/
def Slot.failingCore (x : Slot) (h : Fin 8) (ptr : Word) : Nat := ((x.chan h).run.map fun r => r.castCore ptr).getD 0

/-- A home failed while a ticket was served (R173, R177): its command takes the fault; SGPIN is refused instead (R240). A bad granule of a table
is logged at its site (R188). -/
def State.ticketFails (s : State) (t : Ticket) (ptr : Word) (e : XFault × Nat) : State :=
  let s0 := s.dropTicket t.user
  let s1 := if e.1.sealed then s0.corrected t.user.slot.core (s.partNo t.user.slot.core) e.1.table else s0
  match t.user with
  | .control i =>
    if t.quiet then s1.mapSlot i fun x => { x with refused := true }
    else s1.syncTrapBy e.1.inj i (s.slotOf i).pc ⟨e.1.cause, ptr, e.1.t1, t.info2, homeInfo3 e⟩
  | .ag i g => s1.agFault i g ⟨e.1.cause, ptr, homeInfo1 e, e.1.inj⟩
  | .m i => s1.mFault i e.1.inj e.1.cause ptr (homeInfo1 e)
  | .c i h => s1.cFault i h e.1.inj e.1.cause ptr (homeInfo1 e) ((s.slotOf i).failingCore h ptr)

/-- Room for a segment that the oldest ticket of its cluster waits for, or that nothing waits for. -/
def State.recallable (s : State) (g : Seg) : Option Ticket :=
  match s.oldestIn (poolCluster g.pool) with
  | some t => if t.members.contains g.id && !g.framed && s.quotaRoom g then some t else none
  | none => none

/-- A member of the oldest ticket enters frames that are free (R176). -/
def State.recallFor (s : State) (g : Seg) : State :=
  match s.recallable g with
  | none => s
  | some t =>
    match s.placeFor g.pool g.frames with
    | none => s
    | some b =>
      match s.bringIn g b with
      | .ok r => r
      | .error e => s.ticketFails t (t.ptrOf g.id) e

/-- Evicts a claimed segment; one whose home fails now is no victim any more (R177). -/
def State.evictClaimed (s : State) (i : SegId) : State :=
  match s.segOf i with
  | none => s
  | some g =>
    if g.claimed && decide (g.state = .resident) && !s.pinned g then
      match s.evictSeg g with
      | .ok t => t
      | .error _ => s.mapSeg i fun g => { g with claimed := false }
    else s

/-- Evicts claimed segments of a list. -/
def State.evictAll (s : State) : List SegId → State
  | [] => s
  | i :: r => (s.evictClaimed i).evictAll r

/-- Recalls members of a ticket, each into free frames of its pool, after compaction where that is needed; a home that fails ends the
service. -/
def State.recallAll (s : State) (t : Ticket) : List SegId → State
  | [] => s
  | i :: r =>
    match s.segOf i with
    | none => s.recallAll t r
    | some g =>
      match (if s.quotaRoom g then s.makePlace g.pool g.frames else none) with
      | none => s.recallAll t r
      | some (s1, b) =>
        match s1.bringIn g b with
        | .ok s2 => s2.recallAll t r
        | .error e => s.ticketFails t (t.ptrOf i) e

/-- Serves the oldest ticket of a cluster (R176, R177): room is claimed, victims leave, absent members enter. -/
def State.serve (s : State) (c : Fin 64) : State :=
  match s.oldestIn c with
  | none => s
  | some t =>
    match s.claimRoom t c s.segs.length with
    | .fails e => s.ticketFails t (match s.lackers t c with | g :: _ => t.ptrOf g.id | [] => t.ptrs.headD 0) e
    | .going r =>
      let claimed := (r.segs.filter fun g => g.claimed && decide (poolCluster g.pool = c)).map (·.id)
      let r1 := r.evictAll claimed
      r1.recallAll t ((r1.lackers t c).map (·.id))

/-- A recall that no command waits for (R241, R340): only into free frames, after compaction, and while the manager holds no ticket. -/
def State.prefetch (s : State) (g : Seg) (mark : Seg → Seg) : State :=
  if g.framed || !s.quotaRoom g || (s.oldestIn (poolCluster g.pool)).isSome then s
  else match s.makePlace g.pool g.frames with
    | none => s
    | some (s1, b) =>
      match s1.bringIn g b with
      | .ok r => r.mapSeg g.id mark
      | .error _ => s

end Sys2Proof.Machine
end

