-- ==== Sys2Proof/Machine/Admit.lean ====
section
/-! DEFINITION. Records and headers (05 R99 to R105), environments (R102), admission into scopes (R122), the start of a task (R101,
R13), and the physical words that the device writes (R102, 16 R334). -/

namespace Sys2Proof.Machine

/-! ### Physical words (R334; log 36) -/

/-- An 8-byte word written at a physical address for a partition, and logged (R385); at a locked home it waits (R218). -/
def State.savePut (s : State) (p : Fin 16) (pa : Nat) (w : Word) : State :=
  let n := pa / 32
  if s.isLocked (.phys n) then s.hold ⟨n, .write (byteMask (pa % 32) 8) (mkGran (placeAt w (pa % 32))) none, p, none, true, none, false⟩
  else s.homePutNow p none true n (mkGran (mergeBytes (s.homeGran p none n).data (placeAt w (pa % 32)) (byteMask (pa % 32) 8)))

/-- Words at rising addresses. -/
def State.saveWords (s : State) (p : Fin 16) : Nat → List Word → State
  | _, [] => s
  | pa, w :: r => (s.savePut p pa w).saveWords p (pa + 8) r

/-- A word read at a physical address, unchecked. -/
def State.saveGet (s : State) (p : Fin 16) (pa : Nat) : Word :=
  takeAt (s.homeGran p none (pa / 32)).data (pa % 32) 8

/-- n words from a physical address. -/
def State.saveRead (s : State) (p : Fin 16) (pa n : Nat) : List Word :=
  (List.range n).map fun i => s.saveGet p (pa + 8 * i)

/-! ### Records and headers -/

/-- The control word of a record (R99, Table 3). -/
def recCtl (r : List Word) : Word := imgWord r 2

/-- A pointer of window 0x0, 0x1 or 0x2 with bits 59:48 zero. -/
def globalPtr (p : Word) : Bool := decide (bitsOf p 60 4 ≤ 2) && bitsOf p 48 12 == 0

/-- The checks of R100 on the record alone; `inst` for an instance copy made by GRUN. -/
def recordOk (r : List Word) (inst : Bool) : Bool :=
  let c := recCtl r
  bitsOf (imgWord r 0) 48 16 == 0 && bitsOf (imgWord r 0) 0 2 == 0 &&
  bitsOf c 60 4 == 0 && bitsOf c 44 4 == 0 && !c.getLsbD 35 &&
  decide (bitsOf c 41 3 < 6) && decide (bitsOf c 32 3 < 6) && decide (bitsOf c 48 12 ≤ 512) &&
  (inst || !c.getLsbD 39) &&
  imgWord r 3 != 0 && (imgWord r 3).toNat % 64 == 0 && globalPtr (imgWord r 3) &&
  (imgWord r 4 == 0 || (globalPtr (imgWord r 4) && (imgWord r 4).toNat % 8 == 0))

/-- A kernel header as R103 gives it (Table 4). -/
structure Header where
  idem : Bool
  prio : Nat
  caps : Caps
  quota : Nat
  deriving DecidableEq, Repr

/-- Reads and checks a header (R103); none where it is invalid or cannot be read. -/
def State.headerAt (s : State) (p : Fin 16) (root va : Nat) : Option Header :=
  match s.devWords p root va 8 with
  | none => none
  | some l =>
    let w := imgWord l 0
    let q := imgWord l 1
    let data := bitsOf w 30 4
    let c := bitsOf w 26 4
    let m := bitsOf w 22 4
    let v := bitsOf w 16 6
    if bitsOf w 53 11 = 0 ∧ bitsOf q 10 54 = 0 ∧ (l.drop 2).all (· == 0) = true ∧ 1 ≤ data ∧ data ≤ 8 ∧ 1 ≤ c ∧ c ≤ 8 ∧ 1 ≤ m ∧ m ≤ 8 ∧
        1 ≤ v ∧ v ≤ 32 ∧ 1 ≤ bitsOf q 0 10 ∧ bitsOf q 0 10 ≤ 512 then
      some ⟨w.getLsbD 52, bitsOf w 50 2, ⟨v, m, c, data, bitsOf w 0 16, bitsOf w 34 16⟩, bitsOf q 0 10⟩
    else none

/-- What reading the header of a record has still to ask another device for (R103, R398). -/
def State.headerWants (s : State) (p : Fin 16) (root : Nat) (r : List Word) : List Want :=
  if (imgWord r 3).toNat % 64 = 0 then s.wants p root (bitsOf (imgWord r 3) 0 48) 2 else []

/-- What a record asks for, checked but for reservation and scope (R100, R101). -/
def State.readRecord (s : State) (p : Fin 16) (root : Nat) (r : List Word) (inst : Bool) : Option Rec :=
  if recordOk r inst = false then none
  else match s.headerAt p root (bitsOf (imgWord r 3) 0 48) with
    | none => none
    | some h =>
      let c := recCtl r
      some
        { kind := .fresh
          info :=
            { part := p
              serial := 0
              scope := bitsOf c 0 16
              record := r
              root := root
              caps := h.caps
              prio := max (bitsOf c 36 2) h.prio
              quota := if bitsOf c 48 12 = 0 then h.quota else bitsOf c 48 12
              idem := c.getLsbD 38 || h.idem
              rerun := false
              node := none
              start := 0 }
          quota := if bitsOf c 48 12 = 0 then h.quota else bitsOf c 48 12
          owner := none
          spilled := false }

/-- Where a record's scope field puts it (R122): none where it may not be. `within` is the spawner's scope, or none for the launch
engine. -/
def Part.scopeFor (q : Part) (r : Rec) (spawner : Option Nat) : Option Nat :=
  if (recCtl r.info.record).getLsbD 40 = false then some (spawner.getD 0)
  else
    let x := r.info.scope
    if (q.scope x).isNone && x != 0 then none
    else match spawner with
      | none => some x
      | some y => if q.within x y then some x else none

/-- A partition's scope table holds scope 0 (R121). -/
def Part.withRoot (q : Part) : Part :=
  if (q.scope 0).isSome then q else { q with scopes := ⟨0, 0, none, 0, false, none, false, 0, 0, []⟩ :: q.scopes }

/-- Admits a checked record into a scope: its reservation is taken, it gets a serial number and joins the scope (R101, R104, R121). -/
def State.admitRec (s : State) (r : Rec) (scope : Nat) : Option (State × Rec) :=
  let p := r.info.part
  match ((s.partOf p).withRoot).reserve r.info.caps.deque r.info.caps.launch with
  | none => none
  | some q =>
    let n := q.serial
    let t := { r.info with serial := n, scope := scope }
    some (s.mapPart p fun _ => ({ q with serial := (n + 1) % 2 ^ 32, live := q.live ++ [(n, scope)] }).enter scope, { r with info := t })

/-! ### Environments (R102) -/

/-- An environment of a partition is held. -/
def State.envHeld (s : State) (p : Fin 16) (e : Nat) : Bool :=
  s.slots.any (fun x => x.2.ctx.env == some e && decide (s.partNo (coreNo (x.1 / 4)) = p)) ||
    s.resumeRecs.any fun r => decide (r.info.part = p) && match r.kind with
      | .resume _ (some i) _ => i == e
      | _ => false

/-- Some environment of a partition is held. -/
def State.anyEnv (s : State) (p : Fin 16) : Bool :=
  s.slots.any (fun x => x.2.ctx.env.isSome && decide (s.partNo (coreNo (x.1 / 4)) = p)) ||
    s.resumeRecs.any fun r => decide (r.info.part = p) && match r.kind with
      | .resume _ (some _) _ => true
      | _ => false

/-- The free environment of lowest index, from i on. -/
def State.freeEnvFrom (s : State) (p : Fin 16) (i : Nat) : Nat → Option Nat
  | 0 => none
  | n + 1 => if s.envHeld p i then s.freeEnvFrom p (i + 1) n else some i

/-- The free environment of lowest index. -/
def State.freeEnv (s : State) (p : Fin 16) : Option Nat :=
  s.freeEnvFrom p 0 (s.partOf p).envCount

/-- The context key of an environment. -/
def envKey (p : Fin 16) (e : Nat) : Nat := p.val * 2 ^ 17 + e + 1

/-- The context that an environment block gives (Table 3a), with its VLWMODE. -/
def ctxOf (p : Fin 16) (e : Nat) (l : List Word) : Ctx × Bool :=
  let w := imgWord l 6
  ({ ctx := BitVec.ofNat 8 (bitsOf w 0 8)
     privBase := (imgWord l 0).toNat
     privSize := (imgWord l 1).toNat
     segHome := (imgWord l 2).toNat
     root := (imgWord l 3).toNat
     accBase := (imgWord l 4).toNat
     csa := (imgWord l 5).toNat
     l2lim := bitsOf w 16 16
     env := some e
     spilled := 0
     key := envKey p e }, w.getLsbD 8)

/-- Word +0x08 of a CSA header (R335, Table 8). -/
def csaHead (ctx : BitVec 8) (i : SlotId) (drain rerun wdpend valid : Bool) : Word :=
  word (ctx.toNat * 2 ^ 24 + i.slot.val * 2 ^ 16 + i.core.val * 2 ^ 8 + (if drain then 8 else 0) + (if rerun then 4 else 0) +
    (if wdpend then 2 else 0) + (if valid then 1 else 0))

/-- What a start writes at the environment's CSA (R102). -/
def State.writeStart (s : State) (i : SlotId) (p : Fin 16) (c : Ctx) (vlw : Bool) (t : TaskInfo) : State :=
  let s1 := s.savePut p (c.csa + 8) (csaHead c.ctx i false t.rerun false false)
  let s2 := s1.saveWords p (c.csa + 0x20)
    [word c.privBase, word c.privSize, word c.segHome, word c.root, word c.accBase]
  (s2.savePut p (c.csa + 0x58) (wbit vlw)).saveWords p (c.csa + 0x80) t.record

/-- The L2 soft limit of a context (R187), in every die's slices. -/
def State.setL2 (s : State) (ctx : BitVec 8) (lim : Nat) : State :=
  [0, 1, 2, 3].foldl (fun t d => t.mapDie d fun x => { x with l2lim := tput x.l2lim ctx.toNat lim }) s

/-- The bank of a task at its start (R13). -/
def startBank (arg : Word) (privSize : Nat) (g2 : Word) : Bank :=
  ((Bank.zero.set 1 arg).set 2 g2).set 30 (0x4000000000000000 + word privSize)

/-- The slot of a task at its start (R13, R101, R125). -/
def Slot.started (x : Slot) (r : Rec) (c : Ctx) (vlw : Bool) (cycle : Nat) : Slot :=
  let y := x.freed
  { y with
    status := .ready
    level := .task
    pc := imgWord r.info.record 0
    bank := startBank (imgWord r.info.record 1) c.privSize 0
    ctx := c
    task := some { r.info with start := cycle }
    quota := r.quota
    vlw := vlw
    sched := { y.sched with readySince := cycle, since := cycle, wdogSince := cycle, budgetUsed := 0 } }

/-- The initial domain of a record: level and id. -/
def firstDom (t : TaskInfo) : Nat × Nat := (bitsOf (recCtl t.record) 32 3, bitsOf (recCtl t.record) 16 16)

/-- The join of the initial domain, where another device keeps it. -/
def State.joinWant (s : State) (t : TaskInfo) : Option Want :=
  if (firstDom t).2 = 0 then none
  else (s.domHome t.part (firstDom t).1 (firstDom t).2).map fun dev => s.domWant t.part dev (firstDom t).2 (taskNo t.part t.serial) .join

/-- What starting a record has still to ask other devices for: its environment block, and a join (R398, R390). -/
def State.startWants (s : State) (r : Rec) (e : Nat) : List Want :=
  let p := r.info.part
  s.wants p (s.partOf p).root ((s.partOf p).envBase + 64 * e) 2 ++
    (s.joinWant r.info).toList.filter fun w => (s.fetchedGran (ownKey p w.dev w.pa w.op)).isNone

/-- The answer of a domain's home on another device: a status (R123), and the phase for a join (log 75). -/
def domStatus (g : Granule) : Nat := if (checkGran g).isSome then 3 else bitsOf g.data 0 8

/-- The phase that such an answer tells. -/
def domAnswerPhase (g : Granule) : Nat := bitsOf g.data 64 64

/-- Enrols a task in its initial domain (R101). -/
def State.enrol (s : State) (i : SlotId) (t : TaskInfo) : State :=
  let level := (firstDom t).1
  let id := (firstDom t).2
  let n := taskNo t.part t.serial
  let joined := match s.joinWant t with
    | none => s.domJoin t.part i.core n level id
    | some w =>
      let key := ownKey t.part w.dev w.pa w.op
      match s.fetchedGran key with
      | some g =>
        if domStatus g = 0 then
          some ((s.mapPkg fun k => { k with fetched := tdrop k.fetched key }).domMirror t.part i.core n level id (domAnswerPhase g))
        else none
      | none => none
  if id = 0 then s
  else match joined with
    | some s1 => s1.mapSlot i fun x => { x with doms := [(level, id)] }
    | none => s.mapSlot i fun x => { x with bank := x.bank.set 2 3 }

/-- Starts a record on a slot with an environment (R102, R13, R101), an acquire at .sys (R209): nothing where the environment block cannot be read (log 35). -/
def State.startRec (s : State) (i : SlotId) (r : Rec) (e : Nat) : Option State :=
  let p := r.info.part
  let q := s.partOf p
  match s.devWords p q.root (q.envBase + 64 * e) 8 with
  | none => none
  | some l =>
    let (c, vlw) := ctxOf p e l
    let s1 := ((s.writeStart i p c vlw r.info).setL2 c.ctx c.l2lim).mapSlot i fun x => x.started r c vlw s.cycle
    let s2 := s1.enrol i r.info
    some (s2.acquire i 5 s2.now)

/-! ### Placement (R107, R117) -/

/-- A core runs: its partition is valid, not frozen and not being reset, and no HALT holds it. -/
def State.runs (s : State) (c : Fin 256) : Bool :=
  s.coreValid c && !(s.partOf (s.partNo c)).frozen && !(s.partOf (s.partNo c)).resetting && !(s.coreOf c).halted

/-- A partition is being quiesced: by PART_STOP, by a configuration transaction, or by a reset (R381, R384, R386). -/
def State.quiescing (s : State) (p : Fin 16) : Bool :=
  (s.partOf p).stopped || (s.partOf p).resetting || (s.pkg.cfg.status == 3 && s.pkg.cfg.affected.contains p.val)

/-- A slot may issue: its core runs, and a partition that PART_STOP has stopped runs only tasks on their way to a boundary. -/
def State.issues (s : State) (i : SlotId) : Bool :=
  s.runs i.core && (!(s.partOf (s.partNo i.core)).stopped || (s.slotOf i).task.isSome)

/-- A core may start a record: it runs, and its partition is not being quiesced. -/
def State.starts (s : State) (c : Fin 256) : Bool :=
  s.runs c && !s.quiescing (s.partNo c)

/-- Occupied slots plus records of a core. -/
def State.load (s : State) (c : Fin 256) : Nat :=
  ((slotsOf c).filter fun i => !decide ((s.slotOf i).status = .free)).length + (s.coreOf c).deque.length

/-- The initial domain of a record, when it is bound: its level and the core of its span. -/
def State.boundSpan (s : State) (t : TaskInfo) : Option (Nat × Nat) :=
  let c := recCtl t.record
  let id := bitsOf c 16 16
  let level := bitsOf c 32 3
  if id = 0 then none else (s.domOf t.part level id).map fun d => (level, d.core.val)

/-- A core lies in the span of a record's bound domain, if it has one. -/
def State.inBound (s : State) (t : TaskInfo) (c : Fin 256) : Bool :=
  match s.boundSpan t with
  | none => true
  | some (level, core) => spanOf level core == spanOf level c.val

/-- The least-loaded core for a root task, the lowest id on ties (R107). -/
def State.placement (s : State) (t : TaskInfo) : Option (Fin 256) :=
  ((s.coresOf t.part).filter fun c => s.inBound t c).foldl
    (fun b c => match b with
      | none => some c
      | some d => if s.load c < s.load d then some c else some d) none

/-- Places a root task (R107, R114). -/
def State.place (s : State) (r : Rec) : State :=
  match s.placement r.info with
  | none => s
  | some c => s.pushHead c r

/-- A record of a cancelled scope is dropped before it starts (R344). -/
def State.dropRec (s : State) (r : Rec) : State :=
  (s.leaveTask r.info [] true).nodeEnded r.info false

/-- A core that has seen the mark drops a record of a cancelled scope (R342, R371). -/
def State.recSeen (s : State) (c : Fin 256) (r : Rec) : Bool :=
  (s.partOf r.info.part).cancelSeen c s.cycle r.info.scope

/-- The scope of a record is cancelled. -/
def State.recCancelled (s : State) (r : Rec) : Bool :=
  (s.partOf r.info.part).cancelled r.info.scope

end Sys2Proof.Machine
end

