-- ==== Sys2Proof/Machine/Answers.lean ====
section
/-! DEFINITION. Falran, how requests end (20 R388 to R390; 08 R191): answers reach the stores, instructions, copies and actions of the device
that wait for them, and the traffic of a port that goes down moves. -/

namespace Sys2Proof.Machine

/-- The device's own request is answered: a read, or a join of a domain, keeps its answer; a failed write is reported (R398, R98). -/
def State.answerOwn (s : State) (p : Fin 16) (r : Remote) (a : Reply) : State :=
  match r.req.op with
  | .read => s.keepFetched (ownKey p r.dev r.req.pa.toNat .read) a.g
  | .dom f n t .join => s.keepFetched (ownKey p r.dev 0 (.dom f n t .join)) a.g
  | .dom _ _ _ _ => s
  | _ => if a.code ≠ 0 ∨ (checkGran a.g).isSome = true then s.devFail p else s

/-- What the home of a sent store has found (R191): its check of the old granule has failed, or that of the operand, whose two codes the
answer holds. -/
def replyFault (a : Reply) : Option StoreFault :=
  match a.code with
  | 0 => none
  | 1 => (checkGran a.g).map fun f => ⟨f.1, f.2, 1, a.g.inj⟩
  | 2 => some ⟨0x0C, word (bitsOf a.g.data 0 64), 2, false⟩

/-- A store that has been sent is answered, and leaves its queue: it has failed at the home (R191, R222), is lost (R388), or has been performed. -/
def State.storeAnswered (s : State) (i : SlotId) (q : StoreReq) (n : Nat) (a : Reply) : State :=
  let gone := s.mapSlot i fun x => { x with sq := x.sq.eraseIdx n }
  match replyFault a with
  | some f => gone.storeFails i q f
  | none => if a.g.poison then gone.lostWrite i q.loc else gone

/-- A request of a slot is answered: a read brings its granule; a store of its queue ends; another write is acknowledged, with its landing, or
has failed, which is logged (R388, R389, R274). What has been performed may have written the wake word (R107). -/
def State.answerSlot (s : State) (r : Remote) (a : Reply) : State :=
  if isRead r.req.op then s.mapSlot r.slot fun x => x.answered r a
  else match (s.slotOf r.slot).sq.zipIdx.find? fun e => e.1.sent == some r.tag with
    | some (q, n) => (if a.g.poison || a.code != 0 then s else s.noteWake (s.partNo r.slot.core) (.far r.dev (r.req.pa.toNat / 32)) r.wake).storeAnswered
        r.slot q n a
    | none =>
      if a.g.poison || a.code != 0 then match r.req.op with
        | .txUnlock _ => s
        | _ => s.lostWrite r.slot (.far r.dev (r.req.pa.toNat / 32))
      else
        let t := s.noteWake (s.partNo r.slot.core) (.far r.dev (r.req.pa.toNat / 32)) r.wake
        match r.land with
        | some l => t.mapPart (t.partNo r.slot.core) fun q => { q with landings := q.landings ++ [l] }
        | none => t

/-- An outstanding request is answered; a scope that waited for it may be acknowledged and freed (R219, R352). -/
def State.answer (s : State) (r : Remote) (a : Reply) : State :=
  let s1 := s.mapPkg fun k => { k with remotes := k.remotes.filter fun q => q.tag != r.tag }
  let s2 := match r.part with
    | some p => s1.answerOwn p r a
    | none => s1.answerSlot r a
  match r.killed with
  | some (p, _) => s2.reap p
  | none => s2

/-- The requests of a port that has gone down take another port of their route entry; one that has none is answered poisoned; an
atomic is then lost as a write is, and its old word is a free value (R388; log 28). -/
def State.moveRequests (s : State) (n : Nat) : List Remote → State
  | [] => s
  | r :: l =>
    (if r.port ≠ n then s
      else match s.routeTo r.slot.core r.dev with
        | some m =>
          let q := { r with port := m }
          (s.mapPkg fun k => { k with remotes := k.remotes.map fun x => if x.tag = r.tag then q else x }).sendRequest q
        | none => match r.part, r.req.op with
          | none, .atom _ off _ _ _ =>
            let (v, t) := (s.lostWrite r.slot (.far r.dev (r.req.pa.toNat / 32))).draw
            t.answer r ⟨mkGran (placeAt v (8 * off.val)), 0⟩
          | _, _ => s.answer r ⟨poisoned, 0⟩).moveRequests n l

/-- Responses of a port that has gone down take another port that leads to their device. -/
def State.moveResponses (s : State) : List Sent → State
  | [] => s
  | e :: l =>
    (if flitType e.flit ≠ 3 then s
      else match s.routeTo 0 e.dev with
        | some m => s.mapPort m fun k => k.send e.dev 3 1 e.flit.payload
        | none => s).moveResponses l

/-- A port goes down, and its traffic moves (R388). -/
def State.portDown (s : State) (n : Nat) : State :=
  let old := (s.portOf n).replay
  let s1 := s.mapPort n fun k => { k with down := true, replay := [] }
  (s1.moveRequests n s1.pkg.remotes).moveResponses old

end Sys2Proof.Machine
end

