-- ==== Sys2Proof/Machine/Atomic.lean ====
section
/-! DEFINITION. Atomics, MARK and fences, load blocks, pointer inspection, and transactions (10 R223 to R235). -/

namespace Sys2Proof.Machine

/-! ### Atomics -/

/-- The new value of an ATOM operation (R224, Table 3). -/
def atomValue (op : Nat) (old b : Word) : Word :=
  match op with
  | 0 => old + b
  | 1 => old &&& b
  | 2 => old ||| b
  | 3 => old ^^^ b
  | 4 => if old.slt b then old else b
  | 5 => if old.slt b then b else old
  | 6 => if old.ult b then old else b
  | 7 => if old.ult b then b else old
  | _ => b

/-- The release and acquire of an order code around an access (R209): bit 1 releases, bit 0 acquires from where the access has bound. -/
def ordered (o : Fin 4) (scope : Nat) (m : Op Word) : Op Word := do
  if o.val / 2 = 1 then releaseOp scope
  let v ← m
  if o.val % 2 = 1 then modify fun s => s.acquire s.cur scope s.me.binds.last
  pure v

/-- ATOM (R224). -/
def execAtom (d a b : Fin 32) (sc : Fin 8) (o : Fin 4) (p : Fin 16) (s : State) : Host.Outcome State Fault Refusal :=
  runOp (do
    noTx
    let v ← ordered o sc.val (atomicOp (s.reg a) (s.reg b) (fun v old => some (atomValue p.val old v))
      fun v crc => .atom p (Fin.ofNat 4 (bitsOf (s.reg a) 3 2)) v 0 crc)
    resultOp d v) s

/-- CAS (R224): gd holds the expected value. -/
def execCas (d a b : Fin 32) (sc : Fin 8) (o : Fin 4) (s : State) : Host.Outcome State Fault Refusal :=
  runOp (do
    noTx
    let v ← ordered o sc.val (atomicOp (s.reg a) (s.reg b) (fun v old => if old = s.reg d then some v else none)
      fun v crc => .atom 15 (Fin.ofNat 4 (bitsOf (s.reg a) 3 2)) v (s.reg d) crc)
    resultOp d v) s

/-! ### MARK and fences (R225, R210) -/

/-- No later load binds before now, nor before an earlier one (R210). -/
def bindLater : Op Unit := modify fun s => s.setMe (s.me.loadsFrom s.now)

/-- MARK: both queue effects, and the acknowledgement of strong stores and atomics. -/
def execMark (s : State) : Host.Outcome State Fault Refusal :=
  runOp (do noTx; releaseOp 0; bindLater; modify State.retire) s

/-- FENCE.REL. -/
def execFenceRel (sc : Fin 8) (s : State) : Host.Outcome State Fault Refusal :=
  runOp (do noTx; releaseOp sc.val; bindLater; modify State.retire) s

/-- FENCE.ACQ: later loads bind after the latest of the earlier ones. -/
def execFenceAcq (sc : Fin 8) (s : State) : Host.Outcome State Fault Refusal :=
  runOp (do noTx; modify fun s => (s.acquire s.cur sc.val s.me.latestBind).retire) s

/-- FENCE.AR. -/
def execFenceAr (sc : Fin 8) (s : State) : Host.Outcome State Fault Refusal :=
  runOp (do noTx; releaseOp sc.val; modify fun s => (s.acquire s.cur sc.val s.now).retire) s

/-! ### Load blocks (R226 to R228) -/

/-- The global VA of a pointer that DecodePtr accepts, for an access that reports size 0 (R227). -/
def blockVa (p : Word) : Op Nat := do
  let s ← get
  match s.decodePtr s.cur p 1 with
  | .error (c, t) => trapOp c p t 0 0
  | .ok (.seg _ _) => trapOp 0x04 p 0 0 0
  | .ok (.glob _ va) => pure va

/-- The physical lines of a run with their key slots; a page that does not translate for read faults (R227). A remote page has no
line to hold: none (log 30). -/
def blockLines (p : Word) (va : Nat) : Nat → Op (Option (List (Nat × Fin 16)))
  | 0 => pure (some [])
  | n + 1 => do
    let g ← pageOp p va 0 .load
    let r ← blockLines p ((va + 128) % 2 ^ 48) n
    match r with
    | some l => pure (if g.rem then none else some ((lineOf g.pa, g.use.key.getD 0) :: l))
    | none => pure none

/-- Lines of the core's blocks but for one handle of a slot. -/
def State.otherLines (s : State) (i : SlotId) (h : Nat) : List Nat :=
  (slotsOf i.core).flatMap fun j =>
    ((s.slotOf j).blocks.filter fun b => !(decide (j = i) && b.1 == h)).flatMap fun b => b.2.lines.map (·.1)

/-- Declares a block on a handle: lines already in the L1 are taken as they stand (R227). -/
def State.declareBlock (s : State) (i : SlotId) (h : Nat) (p : Word) (ls : List (Nat × Fin 16)) : State :=
  let lines := ls.map fun l => (l.1, (s.l1Line i.core l.1).isSome)
  let s1 := s.mapCore i.core fun k => { k with l1 := k.l1.map fun l =>
    if (ls.any fun x => x.1 == l.line) then { l with block := some (slotKey i, h) } else l }
  s1.mapSlot i fun x => { x with blocks := tput x.blocks h ⟨p, lines, ls.map (·.2), lines.all (·.2)⟩ }

/-- The limits of R227: 2,560 block lines a core, 5 a set. A line that two blocks share counts for both, and is owned by the newer (log 110,
DESIGN CHOICE: R227 does not say). -/
def blockFits (others lines : List Nat) : Bool :=
  decide ((others ++ lines).length ≤ 2560) &&
    (lines.all fun n => decide (((others ++ lines).filter fun m => m % 512 == n % 512).length ≤ 5))

/-- LBLK (R227). -/
def execLblk (d a : Fin 32) (h : Fin 16) (n : Fin 64) (s : State) : Host.Outcome State Fault Refusal :=
  runOp (do
    noTx
    let p := s.reg a
    let lines := n.val + 1
    if bitsOf p 60 4 ≠ 0 ∧ bitsOf p 60 4 ≠ 4 then trapOp 0x04 p 0 0 0
    let va ← blockVa p
    let _ ← blockVa (p + word (128 * lines - 1))
    if p.toNat % 128 ≠ 0 then trapOp 0x03 p 0 0 0
    match ← blockLines p va lines with
    | none => resultOp d 3
    | some ls =>
      if !blockFits (s.otherLines s.cur h.val) (ls.map (·.1)) then resultOp d 3
      else
        modify fun t => (((t.evictBlock t.cur h.val).declareBlock t.cur h.val p ls).result d 0)) s

/-- LBLK.REL (R227). -/
def execLblkRel (d : Fin 32) (h : Fin 16) (s : State) : Host.Outcome State Fault Refusal :=
  runOp (do
    noTx
    if thas s.me.blocks h.val then modify fun s => (s.evictBlock s.cur h.val).result d 0 else resultOp d 5) s

/-- BLKWAIT (R228). -/
def execBlkwait (d : Fin 32) (h : Fin 16) (s : State) : Host.Outcome State Fault Refusal :=
  runOp (do
    noTx
    match s.me.blocks.find? fun b => b.1 == h.val with
    | none => resultOp d 5
    | some b => if b.2.flag then resultOp d 0 else stallOp (.blkwait h.val)) s

/-! ### Inspecting pointers (R229, R230) -/

/-- The window is one of six and its zero fields are zero (R229). -/
def ptrValid (p : Word) : Bool :=
  let w := bitsOf p 60 4
  if w ≤ 2 ∨ w = 4 then bitsOf p 48 12 == 0
  else if w = 8 then bitsOf p 20 20 == 0
  else w == 9 && bitsOf p 20 20 == 0 && bitsOf p 58 2 == 0

/-- A dereference on this core cannot be foreign (R229). -/
def ptrLocal (c : Fin 256) (p : Word) : Bool :=
  let w := bitsOf p 60 4
  ptrValid p && (w != 8 || bitsOf p 52 8 == c.val) && (w != 9 || bitsOf p 52 6 == c.val / 4)

/-- The segment of a valid, local and named pointer: a segment operand (R229, R237). -/
def State.segOperand (s : State) (i : SlotId) (p : Word) : Option Seg :=
  if ptrLocal i.core p && (bitsOf p 60 4 == 8 || bitsOf p 60 4 == 9) then s.segOf (s.segNamed i p) else none

/-- PSPACE's result (R229, Table 6). -/
def State.pspace (s : State) (i : SlotId) (p : Word) : Word :=
  let w := bitsOf p 60 4
  let g := s.segOperand i p
  let priv := (s.slotOf i).ctx.privSize
  let room := match g with
    | some g => g.size - bitsOf p 0 20
    | none =>
      if !ptrValid p then 0
      else if w ≤ 2 then 0xFFFFFFFF
      else if w = 4 then min 0xFFFFFFFF (priv - bitsOf p 0 48)
      else 0
  word (room * 2 ^ 32 + (match g with | some g => g.k * 256 | none => 0) + (if g.isSome then 64 else 0) +
    (if ptrLocal i.core p then 32 else 0) + (if ptrValid p then 16 else 0) + w)

/-- PSPACE (R229). -/
def execPspace (d a : Fin 32) (s : State) : Host.Outcome State Fault Refusal :=
  .next (s.result d (s.pspace s.cur (s.reg a)))

/-- FirstCause (R230): the code of the first failing check of R16 for size 1, or 0. -/
def State.firstCause (s : State) (i : SlotId) (p : Word) : Word :=
  match s.decodePtr i p 1 with
  | .error (c, _) => c.setWidth 64
  | .ok _ => 0

/-- PCAST (R230). -/
def execPcast (d a b : Fin 32) (s : State) : Host.Outcome State Fault Refusal :=
  .next (
    let c := s.firstCause s.cur (s.reg a)
    s.result d (if c = 0 ∧ s.reg b ≠ 0 then s.firstCause s.cur (s.reg a + s.reg b - 1) else c))

/-! ### Transactions (R231 to R235) -/

/-- TXB (R232). -/
def execTxb (d : Fin 32) (s : State) : Host.Outcome State Fault Refusal :=
  runOp (do
    noTx
    modify fun s =>
      (s.setMe { s.me with tx := some ⟨nextPc s.pc, d, s.me.active, [], [], false, .idle⟩ }).result d 0) s

/-- The bytes of a write-set granule as they reach its home under their check code: a natural error may have struck them (R191; log 94). -/
def TxWrite.struck (w : TxWrite) (e : Word) : BitVec 256 :=
  w.data ^^^ mergeBytes 0 (placeAt e (((List.range 32).find? fun k => w.mask.getLsbD k).getD 0)) w.mask

/-- The trap record of a write-set granule that fails its check (R235). -/
def TxWrite.trap (w : TxWrite) (f : StoreFault) : TrapInfo := ⟨f.cause, w.ptr, f.t1, 16, word f.code⟩

/-- How a write-set granule of memory reaches its page. -/
def State.txUse (s : State) (w : TxWrite) : PageUse := ⟨s.partNo s.cur.core, some w.key, w.dlog⟩

/-- What stands at the home of a write-set granule of this device; its line leaves the L1, and errors are logged (R188). -/
def State.txOld (s : State) (w : TxWrite) : State × Granule :=
  match w.loc with
  | .phys n =>
    let t := (s.evictLine s.cur.core (n / 4)).corrected s.cur.core (s.txUse w).part n
    (t, t.homeGran (s.txUse w).part (s.txUse w).key n)
  | .seg g n => (s.storeErrors g n, s.segGran g n)
  | .far _ _ => (s, zeroGran)

/-- A location of this device. -/
def Loc.isHere : Loc → Bool
  | .far _ _ => false
  | _ => true

/-- Checks every write-set granule of this device before any is written; another device's home has checked its own when it was locked. -/
def State.txPrepare (s : State) : List TxWrite → Except (TxWrite × StoreFault) (State × List (TxWrite × Granule))
  | [] => .ok (s, [])
  | w :: r =>
    if !w.loc.isHere then match s.txPrepare r with
      | .error e => .error e
      | .ok (u, l) => .ok (u, (w, zeroGran) :: l)
    else
      let (t, old) := s.txOld w
      match writeSetGran old w.mask (w.struck s.strike) w.crc with
      | .error f => .error (w, f)
      | .ok g =>
        match ({ t with strike := 0 }).txPrepare r with
        | .error e => .error e
        | .ok (u, l) => .ok (u, (w, g) :: l)

/-- Performs the write set, at homes that this commit alone holds (R218, R235); what came through a global uncached pointer may wake the launch
engine (R107). -/
def State.txWriteAll (s : State) : List (TxWrite × Granule) → State
  | [] => s
  | (w, g) :: r =>
    (match w.loc with
      | .seg i n => (s.segPut i n g).writtenBy w.loc (some s.cur) none
      | .phys n =>
        let p := (s.txUse w).part
        ((s.homePutNow p (some w.key) w.dlog n g).writtenBy w.loc (some s.cur) none).noteWake p w.loc (some (w.wake, w.data))
      | .far d n =>
        if (s.routeTo s.cur.core d).isNone then s.lostWrite s.cur w.loc
        else s.sendStore s.cur d (32 * n) (.txWrite (slotKey s.cur)) w.dlog (some (w.wake, w.data))).txWriteAll r

/-- The segments of a write set. -/
def segsOf (l : List TxWrite) : List (SegId × Word) :=
  l.filterMap fun w => match w.loc with
    | .seg g _ => some (g, w.ptr)
    | _ => none

/-- The segments of a write set are Resident and unclaimed; as for any access, they are admitted first (R173, R175; log 102). -/
def txAdmit (l : List TxWrite) : Op Unit := fun s =>
  let g := segsOf l
  match g.find? fun e => (s.segOf e.1).isNone with
  | some e => .error (.trap ⟨0x09, e.2, 0, 16, 0⟩)
  | none =>
    match s.admitSet s.cur (.control s.cur) (g.map (·.1)).dedup (g.map (·.2)) 16 false with
    | .tooLarge f => .error (.trap ⟨0x08, word f, word s.me.quota, 16, (g.map (·.2)).headD 0⟩)
    | .go t => .ok ((), t)
    | .wait t => .error (.become (t.stallMe .segment))

/-- A commit that has begun to lock ends some other way: its locks are released (R218). -/
def State.txEnd (s : State) (f : State → State) : State := f (s.unlockOf s.cur)

/-- The commit fails validation: nothing is written, and the registers are not restored (R235). -/
def State.txConflict (s : State) (d : Fin 32) : State := (s.setMe { s.me with tx := none }).result d (txStatus 1 1 0)

/-- The commit has performed every write: it unlocks and closes (R235), a release and acquire point at .sys (R209). -/
def State.txDone (s : State) (d : Fin 32) : State :=
  (s.txEnd fun u => (u.setMe { u.me with tx := none }).acquire u.cur 5 u.now).result d 0

/-- A commit whose write set fails its check traps: the struck operand is gone with it (R191, R235). -/
def State.txFails (s : State) (w : TxWrite) (f : StoreFault) : State := ({ (s.txOld w).1 with strike := 0 }).consumedMe f.inj (w.trap f)

/-- The lines of a list of locations leave the L1. -/
def State.evictLocs (s : State) : List Loc → State
  | [] => s
  | .phys n :: r => (s.evictLine s.cur.core (n / 4)).evictLocs r
  | _ :: r => s.evictLocs r

/-- A commit of granules of this device alone happens at once, as soon as no other commit holds one of them. What the core's L1 holds of them is
written back first, which may be a conflict of its own (R218). -/
def txHere (d : Fin 32) (t : Tx) : Op Unit := do
  let s ← get
  match (s.txLocs t).find? s.isLocked with
  | some l => stallOp (.locked l)
  | none => pure ()
  modify fun s => s.evictLocs (s.txLocs t)
  if (← get).me.tx.any (·.conflict) then modify fun s => s.txConflict d
  else do
    txAdmit t.writes
    match (← get).txPrepare t.writes with
    | .error (w, f) => fun s => .error (.become (s.txFails w f))
    | .ok (s2, l) => do
      set (s2.txWriteAll l)
      modify fun s => s.txDone d

/-- The lock of this device on a location, whose line first leaves the core's L1. -/
def State.lockHere (s : State) (l : Loc) : State :=
  let own : BitVec 12 := (s.pfReg 0x38).setWidth 12
  (s.evictLocs [l]).mapPkg fun k => { k with locks := k.locks ++ [⟨l, own, 0, slotKey s.cur, none⟩] }

/-- This slot's commit holds a location. -/
def State.holdsLock (s : State) (l : Loc) : Bool :=
  s.pkg.locks.any fun k => decide (k.loc = l) && k.owner == slotKey s.cur && decide (k.dev = (s.pfReg 0x38).setWidth 12)

/-- A granule of a write set by its place; one that a transaction has only read names no bytes. -/
def Tx.writeAt (t : Tx) (l : Loc) : TxWrite := (t.writes.find? fun w => w.loc = l).getD ⟨l, 0, 0, false, 0, 0, 0, 0⟩

/-- Asks another device's home to lock a granule: the bytes to be written travel with the request under their check code (R191), and a natural
error may strike them (log 94). -/
def lockFar (t : Tx) (dev n : Nat) : Op Reply := do
  let s ← get
  let w := t.writeAt (.far dev n)
  let hit := decide (w.mask ≠ 0) && !s.me.replies.any fun e => e.1 == replyKey dev (32 * n) (.txLock 0 false 0 0 0)
  if hit then set { s with strike := 0 }
  remoteOp dev (32 * n) (.txLock (slotKey s.cur) (t.reads.contains w.loc) w.mask (if hit then w.struck s.strike else w.data) w.crc) w.dlog

/-- Locks the homes of both sets in order (R218): this device's at once, another's by asking it, which validates what it has watched and
checks the old bytes of what will be written, and the new ones. The answer is a granule that fails its check, or tells a conflict in its lowest
bit: a conflict anywhere comes before the trap of the first bad granule (R235). -/
def lockAll (d : Fin 32) (t : Tx) : List Loc → Op (Option TrapInfo)
  | [] => pure none
  | .far dev n :: r => do
    let a ← lockFar t dev n
    match replyFault a with
    | some f => do
      let _ ← lockAll d t r
      pure (some ((t.writeAt (.far dev n)).trap f))
    | none =>
      if a.g.data.getLsbD 0 then fun s => .error (.become (s.txEnd fun u => u.txConflict d)) else lockAll d t r
  | l :: r => do
    if !(← get).holdsLock l then
      unlockedOp l
      modify fun s => s.lockHere l
    lockAll d t r

/-- How far the current slot's commit has come. -/
def State.setCommit (s : State) (c : Commit) : State := s.setMe { s.me with tx := s.me.tx.map fun t => { t with commit := c } }

/-- The commit of a transaction with granules of other devices (R218, R389): lock, validate, write, and unlock when every write is
acknowledged. -/
def txFar (d : Fin 32) (t : Tx) : Op Unit := do
  if t.commit ≠ .writing then
    if t.commit = .idle then txAdmit t.writes
    modify fun s => s.setCommit .locking
    let bad ← lockAll d t ((← get).txLocs t)
    if (← get).me.tx.any (·.conflict) then fun s => .error (.become (s.txEnd fun v => v.txConflict d))
    else match bad with
      | some e => fun s => .error (.become (s.txEnd fun u => u.trapMe e))
      | none => match (← get).txPrepare t.writes with
        | .error (w, f) => fun s => .error (.become (s.txEnd fun u => u.txFails w f))
        | .ok (s2, l) => set ((s2.setCommit .writing).txWriteAll l)
  match (← get).unanswered (← get).cur with
  | some r => stallOp (.remote r.tag)
  | none => modify fun s => s.txDone d

/-- TXE (R235). -/
def execTxe (d : Fin 32) (s : State) : Host.Outcome State Fault Refusal :=
  runOp (do
    match s.me.tx with
    | none => resultOp d 3
    | some t => do
      if t.commit = .idle then releaseOp 5
      match (← get).me.tx with
      | none => resultOp d 3
      | some t => if (← get).txLocs t |>.all Loc.isHere then txHere d t else txFar d t) s

/-- TXA (R234): no effect outside a transaction. -/
def execTxa (a : Fin 32) (s : State) : Host.Outcome State Fault Refusal :=
  .next (if s.me.tx.isSome then s.setMe ((s.me.abortTx 5 (bitsOf (s.reg a) 0 8)).issued s.cycle) else s.retire)

end Sys2Proof.Machine
end

