-- ==== Sys2Proof/Machine/Float.lean ====
section
/-! DEFINITION. Number formats and arithmetic (03 R51 to R68, R73, R75): exact values, RoundTo, conversions, FP4-block and the
correctly rounded functions. A finite value is a sign and a magnitude in units of 2^-149, exact for every format of R53. -/

namespace Sys2Proof.Machine

/-- How a format treats what lies beyond its largest finite value (R61). -/
inductive Special where
  | ieee
  | e4m3
  | none
  deriving DecidableEq, Repr

/-- A floating-point format (R53, Table 2). -/
structure Fmt where
  ebits : Nat
  mbits : Nat
  bias : Nat
  signed : Bool
  special : Special
  deriving DecidableEq, Repr

/-- FP32. -/
def fp32 : Fmt := ⟨8, 23, 127, true, .ieee⟩

/-- FP16. -/
def fp16 : Fmt := ⟨5, 10, 15, true, .ieee⟩

/-- BF16. -/
def bf16 : Fmt := ⟨8, 7, 127, true, .ieee⟩

/-- FP8 E4M3. -/
def e4m3 : Fmt := ⟨4, 3, 7, true, .e4m3⟩

/-- FP8 E5M2. -/
def e5m2 : Fmt := ⟨5, 2, 15, true, .ieee⟩

/-- E2M1, an FP4-block element. -/
def e2m1 : Fmt := ⟨2, 1, 1, true, .none⟩

/-- E3M5, an FP4-block scale. -/
def e3m5 : Fmt := ⟨3, 5, 3, false, .none⟩

/-- Exponent of the weight of a subnormal's last bit: 1 - bias - mbits. -/
def Fmt.low (f : Fmt) : Int := 1 - (f.bias : Int) - f.mbits

/-- Bits of a magnitude. -/
def Fmt.magBits (f : Fmt) : Nat := f.ebits + f.mbits

/-- The magnitude code of the largest finite value. -/
def Fmt.maxCode (f : Fmt) : Nat :=
  match f.special with
  | .ieee => 2 ^ f.magBits - 2 ^ f.mbits - 1
  | .e4m3 => 2 ^ f.magBits - 2
  | .none => 2 ^ f.magBits - 1

/-- The sign bit of a code. -/
def Fmt.sign (f : Fmt) (neg : Bool) : Nat := if neg && f.signed then 2 ^ f.magBits else 0

/-- The canonical NaN (R54). -/
def Fmt.nan (f : Fmt) : Nat :=
  match f.special with
  | .ieee => 2 ^ f.magBits - 2 ^ f.mbits + 2 ^ (f.mbits - 1)
  | .e4m3 => 2 ^ f.magBits - 1
  | .none => 0

/-- A decoded operand. -/
inductive Fval where
  | nan
  | inf (neg : Bool)
  | fin (neg : Bool) (u : Nat)
  deriving DecidableEq, Repr

/-- The value of a code (R53). -/
def Fmt.value (f : Fmt) (code : Nat) : Fval :=
  let neg := f.signed && code.testBit f.magBits
  let mag := code % 2 ^ f.magBits
  let e := mag / 2 ^ f.mbits
  let m := mag % 2 ^ f.mbits
  if f.special = .ieee ∧ e = 2 ^ f.ebits - 1 then (if m = 0 then .inf neg else .nan)
  else if f.special = .e4m3 ∧ mag = 2 ^ f.magBits - 1 then .nan
  else
    let sig := if e = 0 then m else 2 ^ f.mbits + m
    .fin neg (sig * 2 ^ (149 + f.low + (e - 1 : Nat)).toNat)

/-- An exact result: NaN with the INVALID it sets, an infinity, or a signed rational. -/
inductive Exact where
  | nan (invalid : Bool)
  | inf (neg : Bool)
  | rat (neg : Bool) (num den : Nat)
  deriving DecidableEq, Repr

/-- 2^149. -/
def unitDen : Nat := 2 ^ 149

/-- A decoded operand as an exact value. -/
def Fval.exact : Fval → Exact
  | .nan => .nan false
  | .inf n => .inf n
  | .fin n u => .rat n u unitDen

/-- Sticky bits: SAT, INEXACT, INVALID, OVERFLOW, UNDERFLOW, DIVZERO from bit 0 (R9). -/
abbrev Sticky := BitVec 6

/-- Bit 0. -/
def stSat : Sticky := 1
/-- Bit 1. -/
def stInexact : Sticky := 2
/-- Bit 2. -/
def stInvalid : Sticky := 4
/-- Bit 3. -/
def stOverflow : Sticky := 8
/-- Bit 4. -/
def stUnderflow : Sticky := 16
/-- Bit 5. -/
def stDivzero : Sticky := 32

/-- A flag when a condition holds. -/
def stIf (b : Bool) (f : Sticky) : Sticky := if b then f else 0

/-- Floor(log2(num / den)) of a positive rational. -/
def ratLog (num den : Nat) : Int :=
  let k : Int := (Nat.log2 num : Int) - Nat.log2 den
  if (if k ≥ 0 then num < den * 2 ^ k.toNat else num * 2 ^ (-k).toNat < den) then k - 1 else k

/-- num / (den x 2^e) as numerator and denominator. -/
def scaleDown (num den : Nat) (e : Int) : Nat × Nat :=
  if e ≥ 0 then (num, den * 2 ^ e.toNat) else (num * 2 ^ (-e).toNat, den)

/-- Rounds a nonnegative rational to an integer under a mode (R60; R63 with 16 random bits u). -/
def roundNat (mode u : Nat) (neg : Bool) (num den : Nat) : Nat :=
  let q := num / den
  let r := num % den
  match mode with
  | 1 => q
  | 2 => if neg && r != 0 then q + 1 else q
  | 3 => if !neg && r != 0 then q + 1 else q
  | 4 => if 2 * r ≥ den then q + 1 else q
  | 5 => (num * 65536 / den + u) / 65536
  | _ => if 2 * r > den ∨ (2 * r = den ∧ q % 2 = 1) then q + 1 else q

/-- An overflowing result by mode in a format with infinities (R61): whether it becomes infinite. -/
def overflowsToInf (mode : Nat) (neg : Bool) : Bool :=
  match mode with
  | 1 => false
  | 2 => neg
  | 3 => !neg
  | _ => true

/-- The result of an overflow (R61): code and flags. -/
def Fmt.overflow (f : Fmt) (mode : Nat) (sat neg : Bool) : Nat × Sticky :=
  match f.special with
  | .ieee => (f.sign neg + (if overflowsToInf mode neg then f.maxCode + 1 else f.maxCode), stOverflow ||| stInexact)
  | .e4m3 => if sat then (f.sign neg + f.maxCode, stSat ||| stOverflow ||| stInexact) else (f.nan, stOverflow ||| stInexact)
  | .none => (f.sign neg + f.maxCode, stSat ||| stOverflow ||| stInexact)

/-- RoundTo of an exact value (R61): code and flags. `u` holds the 16 random bits of mode SR. -/
def Fmt.round (f : Fmt) (mode u : Nat) (sat : Bool) (x : Exact) : Nat × Sticky :=
  match x with
  | .nan inv => (f.nan, stIf (inv || f.special = .none) stInvalid)
  | .inf neg =>
    if neg && !f.signed then (0, stInvalid)
    else match f.special with
      | .ieee => (f.sign neg + f.maxCode + 1, 0)
      | _ => f.overflow mode sat neg
  | .rat neg num den =>
    if num = 0 then (f.sign neg, 0)
    else if neg && !f.signed then (0, stInvalid)
    else
      let e := ratLog num den
      let lsb := max (e - f.mbits) f.low
      let s := scaleDown num den lsb
      let q := roundNat mode u neg s.1 s.2
      let inexact := decide (q * s.2 ≠ s.1)
      let code := (lsb - f.low).toNat * 2 ^ f.mbits + q
      if code > f.maxCode then f.overflow mode sat neg
      else (f.sign neg + code, stIf inexact stInexact ||| stIf (inexact && decide (e < 1 - (f.bias : Int))) stUnderflow)

/-! ### Exact arithmetic (R55, R90) -/

/-- A signed magnitude as an integer. -/
def signedNat (neg : Bool) (n : Nat) : Int := if neg then -(n : Int) else n

/-- An integer over a denominator; an exact zero takes the sign given. -/
def ratOf (zero : Bool) (n : Int) (den : Nat) : Exact :=
  if n = 0 then .rat zero 0 den else .rat (n < 0) n.natAbs den

/-- Sum of exact values of one denominator or any; zero sums of opposite signs are +0 except under RDN (R90). -/
def Exact.add (mode : Nat) : Exact → Exact → Exact
  | .nan i, .nan j => .nan (i || j)
  | .nan i, _ => .nan i
  | _, .nan i => .nan i
  | .inf a, .inf b => if a = b then .inf a else .nan true
  | .inf a, _ => .inf a
  | _, .inf b => .inf b
  | .rat a m d, .rat b n e =>
    ratOf (if a = b then a else mode = 2) (signedNat a m * e + signedNat b n * d) (d * e)

/-- Negation. -/
def Exact.neg : Exact → Exact
  | .nan i => .nan i
  | .inf a => .inf (!a)
  | .rat a m d => .rat (!a) m d

/-- Product; 0 x infinity is invalid (R55). -/
def Exact.mul : Exact → Exact → Exact
  | .nan i, .nan j => .nan (i || j)
  | .nan i, _ => .nan i
  | _, .nan i => .nan i
  | .inf a, .inf b => .inf (a != b)
  | .inf a, .rat b n _ => if n = 0 then .nan true else .inf (a != b)
  | .rat a m _, .inf b => if m = 0 then .nan true else .inf (a != b)
  | .rat a m d, .rat b n e => .rat (a != b) (m * n) (d * e)

/-- A multiply-add: an invalid product sets INVALID even where the addend is NaN (R90). -/
def Exact.fma (mode : Nat) (d a b : Exact) : Exact := d.add mode (a.mul b)

/-- The order of minima and maxima: -0 below +0 (R55). None for NaN. -/
def Fval.key : Fval → Option (Int × Bool)
  | .nan => none
  | .inf n => some (signedNat n (2 ^ 300), !n)
  | .fin n u => some (signedNat n u, !n)

/-- Whether the first lies below the second in that order. -/
def keyLt (a b : Int × Bool) : Bool :=
  decide (a.1 < b.1) || (decide (a.1 = b.1) && !a.2 && b.2)

/-- The lesser or greater of two codes of FP32, NaN if either is (R55, R90). -/
def minMax32 (least : Bool) (a b : Nat) : Nat :=
  match (fp32.value a).key, (fp32.value b).key with
  | some x, some y => if keyLt x y == least then a else b
  | _, _ => fp32.nan

/-! ### Conversions to integers (R52, R62) -/

/-- Saturation of an integer into a range: the result and whether it was outside. -/
def saturate (lo hi n : Int) : Int × Bool :=
  if n > hi then (hi, true) else if n < lo then (lo, true) else (n, false)

/-- An exact value to an integer of a range (R62): result and flags. -/
def toInt (lo hi : Int) (mode u : Nat) (x : Exact) : Int × Sticky :=
  match x with
  | .nan _ => (0, stInvalid)
  | .inf n => (if n then lo else hi, stInvalid ||| stSat)
  | .rat neg num den =>
    let q := roundNat mode u neg num den
    let r := saturate lo hi (signedNat neg q)
    (r.1, if r.2 then stInvalid ||| stSat else stIf (decide (q * den ≠ num)) stInexact)

/-- An integer as an exact value. -/
def ofInt (n : Int) : Exact := ratOf false n 1

/-! ### Stochastic rounding (R64) -/

/-- One step of a lane generator (R64): new state, which is also the number drawn. -/
def laneRand (x : BitVec 32) : BitVec 32 :=
  let a := x ^^^ (x <<< 13)
  let b := a ^^^ (a >>> 17)
  b ^^^ (b <<< 5)

/-- The 16 bits that a draw adds (R63). -/
def drawBits (x : BitVec 32) : Nat := bitsOf x 16 16

/-- Seed(s) for lane i (R64). -/
def laneSeed (s : Word) (i : Nat) : BitVec 32 :=
  let x := (s.setWidth 32 + BitVec.ofNat 32 (i + 1) * 0x9E3779B9) ^^^ s.extractLsb' 32 32
  if x = 0 then 0x6D2B79F5 else x

/-! ### Flush-to-zero (R66) -/

/-- Whether a code is a nonzero subnormal. -/
def Fmt.subnormal (f : Fmt) (code : Nat) : Bool :=
  code % 2 ^ f.magBits != 0 && decide (code % 2 ^ f.magBits < 2 ^ f.mbits)

/-- An input under flush-to-zero. -/
def Fmt.flushIn (f : Fmt) (ftz : Bool) (code : Nat) : Nat :=
  if ftz && f.subnormal code then code - code % 2 ^ f.magBits else code

/-- A result under flush-to-zero (R66). -/
def Fmt.flushOut (f : Fmt) (ftz : Bool) (r : Nat × Sticky) : Nat × Sticky :=
  if ftz && f.subnormal r.1 then (r.1 - r.1 % 2 ^ f.magBits, r.2 ||| stUnderflow ||| stInexact) else r

/-! ### FP4-block (R56, R57, R67) -/

/-- Fp4Value (R57): a zero scale makes +0 whatever the rest; an infinite band scale of a zero element is invalid. -/
def fp4Value (elem scale : Nat) (band : Option Nat) : Exact :=
  if scale % 256 = 0 then .rat false 0 1
  else
    let p := (e2m1.value elem).exact.mul (e3m5.value scale).exact
    match band with
    | none => p
    | some b => p.mul (bf16.value b).exact

/-- BlockMax of a list of FP32 codes (R67): NaN if any is. -/
def blockMax (xs : List Nat) : Nat :=
  if xs.any fun x => fp32.value x = .nan then fp32.nan
  else xs.foldl (fun m x => max m (x % 2 ^ 31)) 0

/-- An exact quotient by a positive finite value. -/
def Exact.divFin (x : Exact) (num den : Nat) : Exact :=
  match x with
  | .rat n a d => .rat n (a * den) (d * num)
  | y => y

/-! ### Correctly rounded functions (R75) -/

/-- Floor of a square root, from a number of bits down. -/
def isqrt (n : Nat) : Nat → Nat → Nat
  | 0, r => r
  | k + 1, r => if (r + 2 ^ k) * (r + 2 ^ k) ≤ n then isqrt n k (r + 2 ^ k) else isqrt n k r

/-- Floor(2^256 x ln 2). -/
def ln2Fixed : Nat := 80260960185991308862233904206310070533990667611589946606122867505419956976171

/-- Terms of the series of e^y in units of 2^-256: the sum of those left, from the n-th term t on. -/
def expTerms (y : Nat) : Nat → Nat → Nat → Nat
  | 0, _, _ => 0
  | k + 1, n, t => t + expTerms y k (n + 1) (t * y / (2 ^ 256 * n))

/-- 2^f in units of 2^-256 for f = num / 2^149 below 1, from below, within 2^-240 (log 29). -/
def exp2Fixed (num : Nat) : Nat :=
  expTerms (num * ln2Fixed / 2 ^ 149) 80 1 (2 ^ 256)

/-- 2^x of a finite value in units of 2^-149, correctly rounded by FP32 (R75). -/
def exp2Fin (neg : Bool) (u : Nat) : Nat × Sticky :=
  let x := signedNat neg u
  let n := x / (unitDen : Int)
  let f := (x % (unitDen : Int)).toNat
  if n ≥ 128 then fp32.overflow 0 true false
  else if n < -150 then (0, stUnderflow ||| stInexact)
  else
    let num := if f = 0 then 2 ^ 256 else exp2Fixed f
    let s := scaleDown num (2 ^ 256) (-n)
    fp32.round 0 0 true (.rat false s.1 s.2)

/-- 1 / sqrt(x) of a positive value in units of 2^-149, correctly rounded by FP32 (R75). -/
def rsqrtFin (u : Nat) : Nat × Sticky :=
  let n := 2 ^ 549 / u
  let r := isqrt n 300 0
  let exact := decide (r * r * u = 2 ^ 549)
  fp32.round 0 0 true (.rat false (if exact then 2 * r else 2 * r + 1) (2 ^ 201))

/-- VEXP2 of an FP32 code (R75, Table 7). -/
def exp2Code (c : Nat) : Nat × Sticky :=
  match fp32.value c with
  | .nan => (fp32.nan, 0)
  | .inf n => (if n then 0 else fp32.maxCode + 1, 0)
  | .fin n u => exp2Fin n u

/-- VRCP of an FP32 code (R75, Table 7). -/
def rcpCode (c : Nat) : Nat × Sticky :=
  match fp32.value c with
  | .nan => (fp32.nan, 0)
  | .inf n => (fp32.sign n, 0)
  | .fin n u => if u = 0 then (fp32.sign n + fp32.maxCode + 1, stDivzero) else fp32.round 0 0 true (.rat n unitDen u)

/-- VRSQRT of an FP32 code (R75, Table 7). -/
def rsqrtCode (c : Nat) : Nat × Sticky :=
  match fp32.value c with
  | .nan => (fp32.nan, 0)
  | .inf n => if n then (fp32.nan, stInvalid) else (0, 0)
  | .fin n u =>
    if u = 0 then (fp32.sign n + fp32.maxCode + 1, stDivzero)
    else if n then (fp32.nan, stInvalid)
    else rsqrtFin u

end Sys2Proof.Machine
end

