-- ==== Sys2Proof/Machine/Csa.lean ====
section
/-! DEFINITION. The context save area (16 R334 to R337, Tables 7 and 8): saving a task and loading it again, with the replay of its
journal (12 R265). -/

namespace Sys2Proof.Machine

/-! ### Special registers of a context (17 R356) -/

/-- The ew field of VTYPE (R129, Table 3). -/
def ewOf (fmt : Nat) : Nat :=
  if fmt ≤ 3 then 1 else if fmt ≤ 5 then 2 else if fmt ≤ 7 then 0 else 3

/-- VTYPE as SRD reads it (R129). -/
def vtypeWord (v : BitVec 10) : Word :=
  word (v.toNat + ewOf (bitsOf v 0 4) * 2 ^ 10)

/-- A special register 0x000 to 0x03F of a slot's context; FLAGS is the task bank's. -/
def State.ctxReg (s : State) (i : SlotId) (n : Nat) : Word :=
  let x := s.slotOf i
  if 0x08 ≤ n ∧ n ≤ 0x0D then word (x.dom (n - 8))
  else if 0x20 ≤ n ∧ n ≤ 0x27 then word (tget (⟨0, 0, none⟩ : Chan) x.eng.chans (n - 0x20)).doneId
  else match n with
    | 0x00 => word i.core.val
    | 0x01 => word i.slot.val
    | 0x02 => word (x.task.map (·.serial) |>.getD 0)
    | 0x03 => word (x.task.map (·.scope) |>.getD 0)
    | 0x04 => word (s.partNo i.core).val
    | 0x05 => match x.ctx.env with
      | some e => word e
      | none => BitVec.allOnes 64
    | 0x10 => x.bank.flags.setWidth 64
    | 0x11 => vtypeWord x.vtype
    | 0x12 => word x.rrb
    | 0x13 => x.ec
    | 0x15 => x.srseed
    | 0x16 => x.tol.setWidth 64
    | 0x18 => x.eng.mupc
    | 0x30 => word x.quota
    | _ => 0

/-! ### Stopping for a save (R331, R334) -/

/-- The first stores of a slot's queue that meet a test, at most a number of them, are performed or sent; one that fails joins the deferred
faults. -/
def State.flushFor (s : State) (i : SlotId) (f : StoreReq → Bool) : Nat → State
  | 0 => s
  | n + 1 =>
    match (s.slotOf i).nextStore f with
    | none => s
    | some (q, k) =>
      (match s.performStore i k q with
        | .ok t => t
        | .error e => s.failStore i k { q with later := true } e).flushFor i f n

/-- Every store of the slot's queue is performed or sent. -/
def State.flushStores (s : State) (i : SlotId) : State := s.flushFor i (fun _ => true) (s.slotOf i).sq.length

/-- The slot's stores that a later instruction follows are performed or sent: an engine's word or walk sees every store issued before it was
forwarded or bound (R213). -/
def State.flushLater (s : State) (i : SlotId) : State := s.flushFor i (·.later) (s.slotOf i).sq.length

/-- The writes that a copy command has sent to other devices and that are not acknowledged. -/
def State.unackedOf (s : State) (i : SlotId) (h seq : Nat) : List Nat :=
  (s.pkg.remotes.filter fun q => decide (q.slot = i) && decide (q.chan = some (Fin.ofNat 8 h, seq)) && !isRead q.req.op).map (·.tag)

/-- A command whose last step is finished completes at a stop. -/
def State.finishRun (s : State) (i : SlotId) : State :=
  match (s.slotOf i).eng.mrun with
  | some r => if r.finished then s.mFinish i r else s
  | none => s

/-- What is visible of pending writes stands in its registers; the others are kept in the order in which they will be (R131, R133). -/
def VecState.settled (v : VecState) : VecState :=
  let w := v.landDue
  { w with pending := w.pending.mergeSort fun a b => decide (a.due ≤ b.due) }

/-- The engines of a slot that has stopped: no command is admitted or holds pins, and a copy remembers what is not acknowledged (R214). -/
def State.stoppedEng (s : State) (i : SlotId) (e : Engines) : Engines :=
  { e with
    vec := e.vec.settled
    mrun := e.mrun.map fun r => { r with admitted := false, pins := [] }
    chans := e.chans.map fun k => (k.1, { k.2 with run := k.2.run.map fun r =>
      { r with admitted := false, stopped := false, got := [], pins := [], unacked := r.unacked ++ s.unackedOf i k.1 r.q.seq } }) }

/-- The units stop: V words in issue complete, Campion stops at its quiescent point, copies stop between units, and no segment of the
slot stays pinned by its commands. -/
def State.stopUnits (s : State) (i : SlotId) : State :=
  let s1 := s.flushStores i
  let s2 := s1.mapSlot i fun x => x.finishAll s.cycle x.eng.vec.flight
  let s3 := (s2.finishRun i).stopCampion i
  let x := s3.slotOf i
  let s4 := match x.eng.mrun with
    | some r => s3.unpinAll r.pins
    | none => s3
  let s5 := s4.endRuns x.eng.chans
  let s6 := s5.mapSlot i fun x => { x with eng := s5.stoppedEng i x.eng }
  (s6.orphanCopies i).dropTickets i

/-! ### Writing the area -/

/-- A byte packing of small numbers. -/
def packBytes (l : List Nat) : Word := word (bytesNat (l.map (BitVec.ofNat 8)))

/-- Two 32-bit numbers in a word. -/
def packHalves (lo hi : Nat) : Word := word (lo % 2 ^ 32 + hi * 2 ^ 32)

/-- 32-bit numbers as double words. -/
def packWords : List Nat → List Word
  | [] => []
  | [a] => [word (a % 2 ^ 32)]
  | a :: b :: r => packHalves a b :: packWords r

/-- A number as n double words, lowest first. -/
def natWords : Nat → Nat → List Word
  | 0, _ => []
  | n + 1, v => word v :: natWords n (v / 2 ^ 64)

/-- The number of double words. -/
def wordsNat (l : List Word) : Nat := l.foldr (fun w a => w.toNat + 2 ^ 64 * a) 0

/-- A list brought to a length with a filler. -/
def padTo {α : Type} (l : List α) (n : Nat) (d : α) : List α :=
  (l ++ List.replicate (n - l.length) d).take n

/-- Lanes as double words. -/
def laneWords (l : List Lane) : List Word := packWords ((padTo l 256 0).map (·.toNat))

/-- The lanes of double words. -/
def wordLanes (l : List Word) : List Lane :=
  l.flatMap fun w => [w.extractLsb' 0 32, w.extractLsb' 32 32]

/-- Granules with their seals and poison bits, at a physical address. -/
def State.saveGrans (s : State) (p : Fin 16) : Nat → List Granule → State
  | _, [] => s
  | pa, g :: r => (s.homePut p none true (pa / 32) g).saveGrans p (pa + 32) r

/-- Zeros over n granules of a physical area (Table 7). -/
def State.zeroFill (s : State) (p : Fin 16) (pa n : Nat) : State := s.saveGrans p pa (List.replicate n zeroGran)

/-- Granules of a physical area. -/
def State.loadGrans (s : State) (p : Fin 16) (pa n : Nat) : List Granule :=
  (List.range n).map fun i => s.homeGran p none (pa / 32 + i)

/-- A journal entry as two words (R262, Table 3). -/
def JEntry.words (e : JEntry) : List Word :=
  [packHalves e.word.toNat e.seq,
   BitVec.ofNat 64 ((if e.done then 2 ^ 63 else 0) + (if e.popped then 2 ^ 62 else 0) + e.eng.code * 2 ^ 60 + e.ver % 4096 * 2 ^ 48 +
     e.tid % 2 ^ 48)]

/-- A binding as a byte: 0 to 7 a generator, 8 to 15 a channel, 31 none (R302's numbers). -/
def Binding.code : Binding → Nat
  | .none => 31
  | .gen g => g.val
  | .chan h => 8 + h.val

/-- The binding of a byte. -/
def bindingOf (n : Nat) : Binding :=
  if n < 8 then .gen (Fin.ofNat 8 n) else if n < 16 then .chan (Fin.ofNat 8 n) else .none

/-- The twelve ordered pairs of engines, S first (R254). -/
def tokenPairs : List Nat := [1, 2, 3, 4, 6, 7, 8, 9, 11, 12, 13, 14]

/-- The state of a lane generator: keys 0 to 255 the vector set, 256 to 511 the drain set (R64). -/
def VecState.gen (v : VecState) (k : Nat) : BitVec 32 :=
  tget (laneSeed v.seed (k % 256)) v.gens k

/-- The registers and queues at +0x400 (Table 7). -/
def State.saveQueues (s : State) (i : SlotId) (p : Fin 16) (b : Nat) : State :=
  let x := s.slotOf i
  let e := x.eng
  let pt := e.ports
  let s1 := s.saveWords p b (packWords (padTo (e.qs.fq.map (·.toNat)) 16 0) ++ [word e.qs.fq.length])
  let s2 := s1.saveWords p (b + 0x80) (padTo pt.v2 32 0 ++ padTo (pt.vs.map fun v => v.2.getD 0) 32 0 ++
    [packHalves pt.v2.length pt.vs.length])
  let tk := tokenPairs.map fun k => (tget (⟨0, 0⟩ : TokenCtr) e.tokens k).n
  let s3 := s2.saveWords p (b + 0x290) [packBytes (tk.take 8), packBytes (tk.drop 8)]
  let ch := (List.finRange 8).map fun h => x.chan h
  let s4 := s3.saveWords p (b + 0x2A0) (ch.map (fun k => word k.given) ++
    ch.map fun k => word (k.run.map (·.units) |>.getD 0))
  let s5 := s4.saveWords p (b + 0x320) [packBytes [pt.bind0.code, pt.bind1.code, pt.bind3.code, pt.v0.length, pt.v1.length, pt.v3.length]]
  let s6 := s5.saveWords p (b + 0x340) ((List.range 8).map fun g =>
    word (tget (⟨[], 0, none⟩ : Walk) pt.walks g).next)
  s6.savePut p (b + 0x380) (word (e.vec.vtype.toNat + e.vec.rrb * 2 ^ 16))

/-- The shadow record of pending writes in the order in which they land (R133): each entry has the register as it will stand, since an entry
has no place for the lanes that a guard leaves alone; the kinds are coded 0 for v, 1 for k and 2 for xa, and an entry with 0 steps left ends
the record (log 14, DESIGN CHOICE). -/
def VecState.shadow (v : VecState) : List PWrite → List Word
  | [] => []
  | w :: r =>
    let u := v.landOne w
    let left := word (w.due - v.steps)
    (match w.dest with
      | .v n _ _ => padTo ([word n, 0, left, 0] ++ laneWords (u.vreg n)) 132 0
      | .k n _ _ => padTo ([word n, 1, left, 0] ++ natWords 4 (u.kreg n).toNat) 132 0
      | .xa n y => padTo ([word n, 2, left, 0] ++ natWords 6 (BitVec.ofInt 384 y.value).toNat ++ [wbit y.poison]) 132 0) ++ u.shadow r

/-- Vector state and ports (Table 7). -/
def State.saveVector (s : State) (i : SlotId) (p : Fin 16) (a : Nat) : State :=
  let x := s.slotOf i
  let v := x.eng.vec
  let s1 := (List.range 16).foldl (fun t n =>
    t.saveWords p (a + 0x800 + 32 * n) (natWords 4 (if n = 0 then 2 ^ 256 - 1 else (tget 0 v.k n).toNat))) s
  let s2 := (List.range 4).foldl (fun t n =>
    let y := tget ⟨0, false⟩ v.xa n
    t.saveWords p (a + 0xA00 + 128 * n) (natWords 6 (BitVec.ofInt 384 y.value).toNat ++ [wbit y.poison])) s1
  let s3 := s2.saveWords p (a + 0x1000) (packWords ((List.range 512).map fun k => (v.gen k).toNat))
  let s4 := (List.range 28).foldl (fun t n => t.saveWords p (a + 0x8000 + 1024 * n) (laneWords (tget [] v.v (n + 4)))) s3
  let s5 := s4.saveWords p (a + 0x5000) (padTo (v.shadow v.pending) 1452 0)
  let ports := fun (b : Nat) (l : List (List Granule)) (t : State) =>
    (l.zipIdx).foldl (fun t e => t.saveGrans p (a + 0xF000 + 8192 * b + 1024 * e.2) e.1) t
  ports 2 (x.eng.ports.v3.map fun e => e.2.getD []) (ports 1 (x.eng.ports.v1.map (·.grans)) (ports 0 (x.eng.ports.v0.map (·.grans)) s5))

/-- The tag of an image of the snapshot store: its register and the last version at which an unfinished word names it. -/
def imageTag (key ver : Nat) : Word := word (2 ^ 63 + key * 2 ^ 12 + ver % 4096)

/-- A lease request, and the words that MRELEASE has left to a lease, as a word. -/
def leaseWord (leased : Bool) (ending : Option Nat) : Word :=
  word (leased.toNat + match ending with
    | some n => 2 + n % 2 ^ 32 * 2 ^ 32
    | none => 0)

/-- Where an area holds the tags of its snapshot store and the lease word: behind the last entry that the shadow record can have (log 14, DESIGN
CHOICE). -/
def tagPlace : Nat := 0x7D60

/-- Descriptors, snapshots and journal (Table 7), and the tags of the snapshots. -/
def State.saveDescs (s : State) (i : SlotId) (p : Fin 16) (a : Nat) : State :=
  let x := s.slotOf i
  let d := x.eng.descs
  let img := fun (k n : Nat) => padTo (tget Desc.initial d.cur k).img n 0
  let s1 := s.saveWords p (a + 0x1800) ((List.range 16).flatMap fun n => img n 8)
  let s2 := s1.saveWords p (a + 0x1C00) ((List.range 16).flatMap fun n => img (16 + n) 12)
  let s3 := s2.saveWords p (a + 0x2200) ((List.range 8).flatMap fun n => img (32 + n) 4)
  let s4 := (s3.zeroFill p (a + 0x2300) 40).saveWords p (a + 0x2800) (padTo (d.store.flatMap fun e => padTo e.2.img 12 0) 768 0)
  let s5 := s4.saveWords p (a + tagPlace) (padTo (d.store.map fun e => imageTag e.1 (d.lastNamed x.eng.qs.journal e)) 64 0)
  x.eng.qs.journal.foldl (fun t e => t.saveWords p (a + 0x4000 + 16 * (e.seq % 256)) e.words) (s5.zeroFill p (a + 0x4000) 128)

/-- Load blocks: pointer and lines of each handle (R337). -/
def State.saveBlocks (s : State) (i : SlotId) (p : Fin 16) (a : Nat) : State :=
  let bs := (s.slotOf i).blocks
  (List.range 16).foldl (fun t n => match bs.find? fun b => b.1 == n with
    | some b => t.saveWords p (a + 0xC00 + 16 * n) [b.2.ptr, word b.2.lines.length]
    | none => t.saveWords p (a + 0xC00 + 16 * n) [0, 0]) (s.zeroFill p (a + 0xD00) 24)

/-- Banks tagged to a context, as a mask. -/
def State.taggedMask (s : State) (c : Fin 256) (key : Nat) : Nat :=
  (((s.coreOf c).banks.filter fun b => b.2.key == key && decide (b.1 < 48)).map fun b => 2 ^ b.1).sum

/-- The header (Table 8). -/
def State.saveHeader (s : State) (i : SlotId) (p : Fin 16) (a : Nat) : State :=
  let x := s.slotOf i
  let c := x.ctx
  let rerun := x.task.map (·.rerun) |>.getD false
  let s1 := s.saveWords p a
    [x.frame.tepc, csaHead c.ctx i x.loop.drain rerun x.pend.wdog true, x.loop.dra, x.loop.drs, word c.privBase, word c.privSize,
     word c.segHome, word c.root, word c.accBase, c.spilled.setWidth 64, word (s.taggedMask i.core c.key), wbit x.vlw, 0, 0, 0, 0]
  (s1.saveWords p (a + 0x80) (padTo (x.task.map (·.record) |>.getD []) 8 0)).saveWords p (a + 0xC0) (List.replicate 8 0)

/-- The save of R334 and R335 of the task a slot holds, into the area at a, with its resume record at the deque's oldest end (R336), and
the slot freed. An engine fault that is recorded and not delivered is dropped with the slot: R335 gives it no place, and the word meets it again
when it is replayed (log 118, DESIGN CHOICE). -/
def State.saveTask (s : State) (i : SlotId) (a : Nat) : State :=
  let p := s.partNo i.core
  let s0 := (s.stopUnits i).mapSlot i (·.orderStore)
  let x := s0.slotOf i
  match x.task with
  | none => s
  | some t =>
    let s1 := (s0.saveHeader i p a).saveWords p (a + 0x100) ((List.finRange 32).map fun r => x.bank.get r)
    let s2 := s1.saveWords p (a + 0x200) ((List.range 64).map fun n => s0.ctxReg i n)
    let s3 := ((s2.saveQueues i p (a + 0x400)).saveVector i p a).saveDescs i p a
    let s4 := ((s3.saveBlocks i p a).zeroFill p (a + 0x15000) 1408).evictBlocks i x.blocks
    let c := clusterOfCore i.core
    let k := ((if (s4.clusterOf c).holder = some i then s4.endLease c else s4).clusterOf c)
    let leased := k.reqs.any fun r => r.1 = i
    let ending := (k.owed.find? fun r => r.1 = i).map (·.2.2)
    let rec_ : Rec := ⟨.resume a x.ctx.env ⟨x.eng, x.pend.stores, leased, ending, x.loop.inLoop, 0⟩, t, x.quota, none, false⟩
    let s5 : State := { ((s4.savePut p (a + tagPlace + 512) (leaseWord leased ending)).dropLease i) with
      segs := s4.segs.map fun g => if g.creator = x.ctx.key then
        { g with atSave := g.framed, prePin := false } else g }
    (s5.freeSlot i).pushTail i.core rec_

/-! ### Loading -/

/-- Reads queues and counters back. -/
def State.loadQueues (s : State) (p : Fin 16) (b : Nat) (e : Engines) : Engines :=
  let nfq := bitsOf (s.saveGet p (b + 0x40)) 0 5
  let fq := ((wordLanes (s.saveRead p b 8)).take nfq)
  let cnt := s.saveGet p (b + 0x280)
  let v2 := (s.saveRead p (b + 0x80) 32).take (bitsOf cnt 0 6)
  let vs := (s.saveRead p (b + 0x180) 32).take (bitsOf cnt 32 6)
  let tk := natBytes 12 (wordsNat (s.saveRead p (b + 0x290) 2))
  let tokens := (tokenPairs.zip tk).map fun x => (x.1, (⟨x.2.toNat, 0⟩ : TokenCtr))
  let bind := s.saveGet p (b + 0x320)
  let ev := s.saveGet p (b + 0x380)
  { e with
    qs := { e.qs with fq := fq }
    tokens := tokens
    ports := { e.ports with
      v2 := v2
      vs := vs.map fun w => (0, some w)
      bind0 := bindingOf (bitsOf bind 0 8)
      bind1 := bindingOf (bitsOf bind 8 8)
      bind3 := bindingOf (bitsOf bind 16 8)
      walks := e.ports.walks.map fun w => (w.1, { w.2 with next := (s.saveGet p (b + 0x340 + 8 * w.1)).toNat, fault := none }) }
    vec := { e.vec with vtype := ev.setWidth 10 &&& 0x1FF, rrb := bitsOf ev 16 4 } }

/-- Reads vector state and ports back. -/
def State.loadVector (s : State) (p : Fin 16) (a : Nat) (e : Engines) : Engines :=
  let bind := s.saveGet p (a + 0x720)
  let gens := (wordLanes (s.saveRead p (a + 0x1000) 256)).zipIdx
  let port := fun (b n : Nat) => (List.range n).map fun k => s.loadGrans p (a + 0xF000 + 8192 * b + 1024 * k) 32
  let xaAt := fun (pa : Nat) => (⟨(BitVec.ofNat 384 (wordsNat (s.saveRead p pa 6))).toInt, (s.saveGet p (pa + 48)).getLsbD 0⟩ : Xa)
  let mask := fun (w : PWrite) => match w.dest with
    | .v _ _ m => m
    | .k _ _ m => m
    | .xa _ _ => 0
  let pend := e.vec.pending.zipIdx.map fun (w, k) =>
    let b := a + 0x5000 + 1056 * k
    let n := (s.saveGet p b).toNat
    let steps := (s.saveGet p (b + 16)).toNat
    let dest : VDest := match (s.saveGet p (b + 8)).toNat with
      | 0 => .v n (wordLanes (s.saveRead p (b + 32) 128)) (mask w)
      | 1 => .k n (BitVec.ofNat 256 (wordsNat (s.saveRead p (b + 32) 4))) (mask w)
      | _ => .xa n (xaAt (b + 32))
    (⟨dest, steps⟩ : PWrite)
  { e with
    ports := { e.ports with
      v0 := (port 0 (bitsOf bind 24 8)).zipIdx.map fun (g, k) => ⟨(e.ports.v0[k]?).bind (·.ptr), g⟩
      v1 := (port 1 (bitsOf bind 32 8)).zipIdx.map fun (g, k) => ⟨(e.ports.v1[k]?).bind (·.ptr), g⟩
      v3 := (port 2 (bitsOf bind 40 8)).map fun g => (0, some g) }
    vec := { e.vec with
      v := ((List.range 28).map fun n => (n + 4, wordLanes (s.saveRead p (a + 0x8000 + 1024 * n) 128))).filter fun x => x.2.any (· != 0)
      k := ((List.range 15).map fun n => (n + 1, BitVec.ofNat 256 (wordsNat (s.saveRead p (a + 0x820 + 32 * n) 4)))).filter fun x => x.2 != 0
      xa := (List.range 4).map fun n => (n, xaAt (a + 0xA00 + 128 * n))
      pending := pend
      steps := 0
      flight := []
      gens := (gens.map fun x => (x.2, x.1)).filter fun x => x.2 != laneSeed e.vec.seed (x.1 % 256) } }

/-- Reads descriptor images back. -/
def State.loadDescs (s : State) (p : Fin 16) (a : Nat) (d : Descs) : Descs :=
  let img := fun (k : Nat) =>
    if k < 16 then s.saveRead p (a + 0x1800 + 64 * k) 8
    else if k < 32 then s.saveRead p (a + 0x1C00 + 96 * (k - 16)) 12
    else s.saveRead p (a + 0x2200 + 32 * (k - 32)) 4
  { d with
    cur := d.cur.map fun e => (e.1, { e.2 with img := img e.1 })
    store := d.store.zipIdx.map fun e =>
      (e.1.1, { e.1.2 with img := if e.2 < 64 then s.saveRead p (a + 0x2800 + 96 * e.2) 12 else e.1.2.img }) }

/-- The journal as the area holds it. -/
def State.loadJournal (s : State) (p : Fin 16) (a : Nat) (l : List JEntry) : List JEntry :=
  l.map fun e =>
    let b := a + 0x4000 + 16 * (e.seq % 256)
    let f := s.saveGet p (b + 8)
    { e with
      word := (s.saveGet p b).setWidth 32
      done := f.getLsbD 63
      popped := f.getLsbD 62
      tid := bitsOf f 0 48 }

/-- Replay (R265): every entry not done enters its engine's queue again in order, in the form it was forwarded, whether or not it had
started (R251); a stopped command goes on at its progress record when its engine starts it again. -/
def replay (old : Engines) (l : List JEntry) : Engines :=
  let word_ := fun (e : JEntry) (q : List QEntry) =>
    match q.find? fun x => x.seq == e.seq with
    | some x => { x with word := e.word, popped := e.popped, held := false }
    | none => (⟨e.word, e.seq, e.ver, e.tid, 0, [], e.popped, false⟩ : QEntry)
  let runs := (old.chans.filterMap fun c => c.2.run.map (·.q)) ++ (old.mrun.map (·.q)).toList
  let all := old.qs.vq ++ old.qs.mq ++ old.qs.cq ++ runs
  let take := fun (g : Eng) => ((l.filter fun e => !e.done && decide (e.eng = g)).map fun e => word_ e all)
  { old with qs := { old.qs with vq := take .v, mq := take .m, cq := take .c, journal := l, vStop := false, mStop := false, cStop := false } }

/-- A handle declared again, as far as its lines translate and fit (R337); `lines` are its physical lines with key slots. -/
def State.redeclare (s : State) (i : SlotId) (h : Nat) (ptr : Word) (lines : List (Nat × Fin 16)) : State :=
  s.mapSlot i fun x => { x with blocks := tput x.blocks h ⟨ptr, lines.map fun l => (l.1, false), lines.map (·.2), false⟩ }

/-- The physical lines of a run of a task (R337). -/
def State.runLines (s : State) (i : SlotId) (ptr : Word) : Nat → Nat → Option (List (Nat × Fin 16))
  | _, 0 => some []
  | k, n + 1 =>
    match s.decodePtr i (ptr + word (128 * k)) 1 with
    | .ok (.glob _ va) =>
      match s.walk (s.partNo i.core) (s.slotOf i).ctx.root va .load with
      | .ok g => if g.rem then none else (s.runLines i ptr (k + 1) n).map fun r => (lineOf g.pa, g.use.key.getD 0) :: r
      | .error _ => none
    | _ => none

/-- Declares the recorded blocks again, handle by handle (R337). -/
def State.loadBlocks (s : State) (i : SlotId) (p : Fin 16) (a : Nat) : List Nat → State
  | [] => s
  | h :: r =>
    let ptr := s.saveGet p (a + 0xC00 + 16 * h)
    let n := bitsOf (s.saveGet p (a + 0xC08 + 16 * h)) 0 7
    let s1 :=
      if n = 0 then s
      else match s.runLines i ptr 0 n with
        | none => s
        | some l => if blockFits (s.otherLines i h) (l.map (·.1)) then s.redeclare i h ptr l else s
    s1.loadBlocks i p a r

/-- The places that commands in progress keep for their post tokens (R255). -/
def Slot.reserveRuns (x : Slot) : Slot :=
  let give := fun (e : Eng) (w : BitVec 32) (y : Slot) => match postEng e w with
    | some b => y.reserveToken e b
    | none => y
  let y := match x.eng.mrun with
    | some r => give .m r.q.word x
    | none => x
  y.eng.chans.foldl (fun z e => match e.2.run with
    | some r => give .c r.q.word z
    | none => z) y

/-- The owed tokens of splits reach a slot (R279). -/
def Slot.paidTokens (x : Slot) : Nat → Slot
  | 0 => x
  | n + 1 => (x.paidTokens n).pushToken .m .s

/-- A command of a resumed task has its own band on the slot that the task has now. -/
def MRun.movedTo (r : MRun) (i : SlotId) : MRun :=
  { r with bands := r.bands.map fun b => if b.1.core = i.core then (i, b.2) else b }

/-- The slot of a resumed task, from its area (R336, R265). Bits that are zero in FLAGS, VTYPE and MUPC stay so, whatever a supervisor has
written in the area (R9, R129, R287); an RM code of 6 or 7 stands as it is, since R10 has a rule for SWR alone, and such bits of the PC fault
at its fetch, as after TRET (R354; log 44, DESIGN CHOICE). -/
def State.loadSlot (s : State) (i : SlotId) (p : Fin 16) (a : Nat) (t : TaskInfo) (x : Extra) : Slot :=
  let rg := fun (n : Nat) => s.saveGet p (a + 0x200 + 8 * n)
  let hd := s.saveGet p (a + 8)
  let env := (rg 5).toNat
  let c : Ctx :=
    { ctx := BitVec.ofNat 8 (bitsOf hd 24 8)
      privBase := (s.saveGet p (a + 0x20)).toNat
      privSize := (s.saveGet p (a + 0x28)).toNat
      segHome := (s.saveGet p (a + 0x30)).toNat
      root := (s.saveGet p (a + 0x38)).toNat
      accBase := (s.saveGet p (a + 0x40)).toNat
      csa := a
      l2lim := tget 0 (s.dieOf (dieOfCore i.core)).l2lim (bitsOf hd 24 8)
      env := some env
      spilled := (s.saveGet p (a + 0x48)).setWidth 48
      key := envKey p env }
  let bank : Bank :=
    { g := Vector.ofFn fun r => if r = 0 then 0 else s.saveGet p (a + 0x100 + 8 * r.val)
      flags := (rg 0x10).setWidth 12 &&& 0xF3F }
  let e0 := { x.eng with vec := { x.eng.vec with seed := rg 0x15 }, descs := s.loadDescs p a x.eng.descs }
  let e1 := s.loadVector p a (s.loadQueues p (a + 0x400) e0)
  let e2 := replay e1 (s.loadJournal p a x.eng.qs.journal)
  let chans := e2.chans.map fun k => (k.1, { k.2 with
    given := bitsOf (s.saveGet p (a + 0x6A0 + 8 * k.1)) 0 48
    doneId := bitsOf (rg (0x20 + k.1)) 0 48 })
  let y := (s.slotOf i).freed
  Slot.paidTokens (Slot.reserveRuns { y with
    status := .ready
    level := .task
    pc := s.saveGet p a
    bank := bank
    ctx := c
    task := some { t with rerun := hd.getLsbD 2 }
    quota := bitsOf (rg 0x30) 0 10
    doms := ((List.range 6).map fun n => (n, bitsOf (rg (8 + n)) 0 16)).filter fun d => d.2 != 0
    vtype := (rg 0x11).setWidth 10 &&& 0x1FF
    rrb := bitsOf (rg 0x12) 0 4
    ec := rg 0x13
    srseed := rg 0x15
    tol := (rg 0x16).setWidth 32
    vlw := (s.saveGet p (a + 0x58)).getLsbD 0
    sched := { y.sched with readySince := s.cycle, since := s.cycle, wdogSince := s.cycle, budgetUsed := 0 }
    pend := { y.pend with stores := x.faults, wdog := hd.getLsbD 1 }
    loop := { y.loop with drain := hd.getLsbD 3, dra := s.saveGet p (a + 0x10), drs := s.saveGet p (a + 0x18), inLoop := x.inLoop }
    eng := { e2 with chans := chans, mrun := e2.mrun.map (·.movedTo i), mupc := rg 0x18 &&& ~~~((0x7FFF : Word) <<< 48) } }) x.owed

/-- Loads a saved task into a slot: valid := 0 first, then the context, the replay, the lease request and the load blocks (R336, R358,
R265, R337). The resumed task reads what was written before, on a core whose L1 may hold lines from before its save: an acquire at .sys (R209, R212;
log 90). -/
def State.loadTask (s : State) (i : SlotId) (a : Nat) (t : TaskInfo) (x : Extra) : State :=
  let p := s.partNo i.core
  let s1 := s.savePut p (a + 8) (s.saveGet p (a + 8) &&& ~~~(1 : Word))
  let y := s1.loadSlot i p a t x
  let s2 := s1.setSlot i y
  let s3 : State := { s2 with
    segs := s2.segs.map fun g => if g.creator = y.ctx.key then { g with atSave := false, prePin := false, preload := false } else g }
  let s4 := s3.mapCore i.core fun k => { k with banks := k.banks.map fun b =>
    if b.2.key = y.ctx.key then (b.1, { b.2 with slot := i.slot }) else b }
  let s5 := s4.mapCluster (clusterOfCore i.core) fun k =>
    { k with
      reqs := if x.leased then k.reqs ++ [(i, s.cycle)] else k.reqs
      owed := match x.ending with
        | some n => k.owed ++ [(i, s.cycle, n)]
        | none => k.owed }
  (s5.acquire i 5 s.now).loadBlocks i p a (List.range 16)

end Sys2Proof.Machine
end

