-- ==== Sys2Proof/Machine/EngineCtl.lean ====
section
/-! DEFINITION. Control-core engine instructions and descriptors (13 R292 to R302). -/

namespace Sys2Proof.Machine

/-- The engine of a mod field (R292). -/
def engOf (e : Fin 4) : Eng :=
  match e with
  | 0 => .s
  | 1 => .v
  | 2 => .m
  | 3 => .c

/-- The slot after the last one, going round, that can (R127, R251). -/
def nextSlot (last : Fin 4) (can : Fin 4 → Bool) : Option (Fin 4) :=
  ([1, 2, 3, 0].map fun (k : Fin 4) => last + k).find? can

/-- Changes the slot's engines. -/
def State.mapEng (s : State) (f : Engines → Engines) : State :=
  s.setMe { s.me with eng := f s.me.eng }

/-- TKPOST (R293). -/
def execTkpost (e : Fin 4) (s : State) : Host.Outcome State Fault Refusal :=
  runOp (do
    noTx
    if s.me.tokenRoom .s (engOf e) then modify fun s => (s.setMe (s.me.pushToken .s (engOf e))).retire
    else stallOp (.tkpost (engOf e))) s

/-- TKWAIT (R293). -/
def execTkwait (e : Fin 4) (s : State) : Host.Outcome State Fault Refusal :=
  runOp (do
    noTx
    if 0 < (s.me.token (engOf e) .s).n then
      modify fun s => ((s.setMe (s.me.popToken (engOf e) .s)).acquire s.cur 0 s.now).retire
    else waitOp (.tkwait (engOf e))) s

/-- QPUSH (R294). -/
def execQpush (a : Fin 32) (s : State) : Host.Outcome State Fault Refusal :=
  runOp (do
    noTx
    if s.me.eng.ports.v2.length < 32 then
      modify fun s => (s.mapEng fun e => { e with ports := { e.ports with v2 := e.ports.v2 ++ [s.reg a] } }).retire
    else stallOp .qpush) s

/-- QPOP (R294). -/
def execQpop (d : Fin 32) (s : State) : Host.Outcome State Fault Refusal :=
  runOp (do
    noTx
    match s.me.eng.ports.vs with
    | (_, some v) :: r => modify fun s => (s.mapEng fun e => { e with ports := { e.ports with vs := r } }).result d v
    | _ => stallOp .qpop) s

/-- FMTQ (R295). -/
def execFmtq (a : Fin 32) (s : State) : Host.Outcome State Fault Refusal :=
  runOp (do
    noTx
    if s.me.eng.qs.fq.length < 16 then
      modify fun s => (s.mapEng fun e => { e with qs := { e.qs with fq := e.qs.fq ++ [(s.reg a).setWidth 32] } }).retire
    else stallOp .fmtq) s

/-! ### The lease (R278, R279, R296) -/

/-- MLEASE (R296): a request already standing is left. -/
def execMlease (s : State) : Host.Outcome State Fault Refusal :=
  runOp (do
    noTx
    modify fun s => (s.mapCluster (clusterOfCore s.cur.core) fun k =>
      if k.reqs.any fun r => r.1 = s.cur then k else { k with reqs := k.reqs ++ [(s.cur, s.cycle)] }).retire) s

/-- The slot a grant names (R279). -/
def grantSlot (a : Word) : SlotId := ⟨coreNo (bitsOf a 0 8), slotNo (bitsOf a 8 2)⟩

/-- MLEASE.G (R296). -/
def execMleaseG (d a : Fin 32) (s : State) : Host.Outcome State Fault Refusal :=
  runOp (do
    noTx
    let g := grantSlot (s.reg a)
    if bitsOf (s.reg a) 10 54 ≠ 0 ∨ clusterOfCore g.core ≠ clusterOfCore s.cur.core ∨ g = s.cur ∨
        (s.me.eng.grant.isSome = true ∧ s.me.eng.grant ≠ some g) then resultOp d 3
    else modify fun s => (s.mapEng fun e => { e with grant := some g }).result d 0) s

/-- MRELEASE (R296): a split that has started keeps the bands it has taken. -/
def execMrelease (s : State) : Host.Outcome State Fault Refusal :=
  runOp (do
    noTx
    modify fun s =>
      let c := clusterOfCore s.cur.core
      let i := s.cur
      let n := s.me.eng.qs.nextSeq
      let s1 := (s.mapEng fun e => { e with grant := none }).mapCluster c fun k =>
        { k with
          reqs := k.reqs.filter fun r => r.1 ≠ i
          ending := if k.holder = some i ∧ k.ending.isNone then some n else k.ending }
      (s1.releaseIfDone c).retire) s

/-! ### Channels (R297) -/

/-- The done value of a channel has reached an id, in the window of R268. -/
def chanReached (done id : Nat) : Bool :=
  decide ((done + 2 ^ 48 - id % 2 ^ 48) % 2 ^ 48 < 2 ^ 47)

/-- CHWAIT (R297). -/
def execChwait (d a : Fin 32) (h : Fin 8) (s : State) : Host.Outcome State Fault Refusal :=
  runOp (do
    noTx
    let id := bitsOf (s.reg a) 0 48
    let k := s.me.chan h
    if bitsOf (s.reg a) 48 16 ≠ 0 then resultOp d 3
    else if id = 0 then modify fun s => (s.acquire s.cur 0 s.now).result d 0
    else if chanReached k.given id = false then resultOp d 3
    else if chanReached k.doneId id then modify fun s => (s.acquire s.cur 0 s.now).result d 0
    else waitOp (.chwait h id)) s

/-- CHID (R297). -/
def execChid (d : Fin 32) (h : Fin 8) (s : State) : Host.Outcome State Fault Refusal :=
  runOp (do noTx; resultOp d (word (s.me.chan h).given)) s

/-! ### Descriptor images (R298 to R301) -/

/-- The checks of a tile descriptor image (R299). -/
def tileOk (l : List Word) : Bool :=
  let base := imgWord l 0
  let w1 := imgWord l 1
  let kind := bitsOf (imgWord l 2) 0 2
  let rows := bitsOf w1 0 16
  let cols := bitsOf w1 16 16
  let rs := bitsOf w1 32 32
  bitsOf (imgWord l 2) 2 62 == 0 && imgWord l 6 == 0 && imgWord l 7 == 0 && kind != 3 &&
  decide (1 ≤ rows ∧ rows ≤ 16384 ∧ 1 ≤ cols ∧ cols ≤ 16384) &&
  (kind == 2 || rs % 32 == 0) &&
  (kind != 2 || (rs % 256 == 0 && decide (base.toNat < 786432) && base.toNat % 256 == 0 && (imgWord l 4).toNat % 32 == 0)) &&
  (kind == 1 || imgWord l 5 == 0)

/-- Bytes of an element code (R270). -/
def esizeBytes (e : Nat) : Nat := if e = 4 then 32 else 2 ^ e

/-- log2 of the bytes of a format's element, for the formats a copy converts (03 Table 6). -/
def fmtEsize (f : Nat) : Nat := if f ≤ 3 then 0 else if f ≤ 5 then 1 else 2

/-- Field (word 8) of a copy descriptor. -/
def copyField (l : List Word) (lo len : Nat) : Nat := bitsOf (imgWord l 8) lo len

/-- sfmt and dfmt mean no conversion (R300). -/
def noConv (l : List Word) : Bool := copyField l 21 4 == copyField l 25 4

/-- The checks of a copy descriptor image (R300). -/
def copyOk (l : List Word) : Bool :=
  let es := copyField l 0 3
  let idim := copyField l 12 3
  let iside := copyField l 15 1
  let iscale := copyField l 16 5
  let sf := copyField l 21 4
  let df := copyField l 25 4
  let rf := copyField l 29 4
  let port := copyField l 33 2
  let bl := copyField l 35 3
  let tptr := imgWord l 7
  let cnt := fun (k : Nat) => bitsOf (imgWord l 2) (16 * k) 16
  copyField l 3 9 == 0 && imgWord l 9 == 0 && imgWord l 10 == 0 && imgWord l 11 == 0 &&
  (List.range 4).all (fun k => cnt k != 0) && decide (es ≤ 4) &&
  (decide (sf < 10) || sf == 15) && (decide (df < 10) || df == 15) && ((sf == 15) == (df == 15)) &&
  (sf == df || (sf != 6 && sf != 7 && df != 6 && df != 7 && fmtEsize df == es)) &&
  decide (rf < 10) && decide (iscale ≤ 20) && decide (idim ≤ 4) &&
  (idim != 0 || (tptr == 0 && iside == 0)) &&
  (idim == 0 || (bitsOf tptr 60 4 == 8 && tptr.toNat % 4 == 0)) &&
  decide (bl < 6) && port != 3

/-- The checks of a generator image (R301). -/
def genOk (l : List Word) : Bool :=
  let p := imgWord l 0
  let w := imgWord l 1
  imgWord l 2 == 0 && imgWord l 3 == 0 && bitsOf w 0 16 != 0 && bitsOf w 16 16 != 0 && bitsOf w 32 32 % 32 == 0 &&
  (bitsOf p 60 4 == 8 || bitsOf p 60 4 == 9) && bitsOf p 0 20 % 32 == 0

/-- TDSET, CDSET and AGSET (R298): the image is read, checked, and written under the snapshot rule. -/
def descOp (d : Fin 32) (p : Word) (align n key : Nat) (ok : List Word → Bool) : Op Unit := do
  noTx
  let s ← get
  match s.decodePtr s.cur p align with
  | .error (c, t) => trapOp c p t 8 0
  | .ok _ =>
    let l ← loadWords p n
    if ok l = false then resultOp d 3
    else match (← get).me.setDesc key l with
      | none => stallOp .snapshot
      | some x => modify fun s => (s.setMe x).result d 0

/-- TDSET (R299). -/
def execTdset (d a : Fin 32) (n : Fin 16) (s : State) : Host.Outcome State Fault Refusal :=
  runOp (descOp d (s.reg a) 64 8 n.val tileOk) s

/-- CDSET (R300). -/
def execCdset (d a : Fin 32) (n : Fin 16) (s : State) : Host.Outcome State Fault Refusal :=
  runOp (descOp d (s.reg a) 32 12 (16 + n.val) copyOk) s

/-- AGSET (R301). -/
def execAgset (d a : Fin 32) (n : Fin 8) (s : State) : Host.Outcome State Fault Refusal :=
  runOp (descOp d (s.reg a) 32 4 (32 + n.val) genOk) s

/-! ### PORTBIND (R302) -/

/-- The bindings of the ports other than one. -/
def Ports.others (p : Ports) (n : Fin 4) : List Binding :=
  (if n = 0 then [] else [p.bind0]) ++ (if n = 1 then [] else [p.bind1]) ++ (if n = 3 then [] else [p.bind3])

/-- Binds a port. -/
def Ports.bind (p : Ports) (n : Fin 4) (b : Binding) : Ports :=
  match n with
  | 0 => { p with bind0 := b }
  | 1 => { p with bind1 := b }
  | _ => { p with bind3 := b }

/-- The channel that is in the middle of an entry for a read port that it feeds (R258, R260). -/
def Slot.moving (x : Slot) (b : Binding) : Option Nat :=
  match b with
  | .chan h => match (x.chan h).run with
    | some r => if copyField r.img 33 2 = 1 ∧ r.buf.isEmpty = false then some h.val else none
    | none => none
  | _ => none

/-- What feeds a read port now: the channel that finishes its entry after the port was bound anew, else what the port is bound to (R258). -/
def Slot.feeder (x : Slot) (n : Nat) : Binding :=
  let b := if n = 0 then x.eng.ports.bind0 else x.eng.ports.bind1
  match x.eng.ports.late.find? fun e => e.1 == n with
  | some e => if (x.moving (.chan (Fin.ofNat 8 e.2))).isSome then .chan (Fin.ofNat 8 e.2) else b
  | none => b

/-- Binds a port anew; the entry that its feeder is moving comes first. -/
def Slot.rebind (x : Slot) (n : Fin 4) (b : Binding) : Ports :=
  let p := x.eng.ports
  match (if n = 3 then none else x.moving (x.feeder n.val)) with
  | some h => { p.bind n b with late := tput p.late n.val h }
  | none => { p.bind n b with late := tdrop p.late n.val }

/-- PORTBIND (R302, R258): none where it is refused. -/
def Slot.portBind (x : Slot) (n : Fin 4) (v : Nat) : Option Slot :=
  let p := x.eng.ports
  if v < 8 then
    let g := Fin.ofNat 8 v
    let img := tget Desc.initial x.eng.descs.cur (32 + v)
    if img.loaded = false ∨ (p.others n).contains (.gen g) = true then none
    else some { x with eng := { x.eng with ports := { x.rebind n (.gen g) with walks := tput p.walks v ⟨img.img, 0, none⟩ } } }
  else if v < 16 then
    let h := Fin.ofNat 8 v
    let other := if n = 0 then p.bind1 else p.bind0
    if n ≠ 3 ∧ other = .chan h then none
    else some { x with eng := { x.eng with ports := x.rebind n (.chan h) } }
  else if v = 31 then some { x with eng := { x.eng with ports := x.rebind n .none } }
  else none

/-- PORTBIND (R302). -/
def execPortbind (d a : Fin 32) (n : Fin 4) (s : State) : Host.Outcome State Fault Refusal :=
  runOp (do
    noTx
    match s.me.portBind n (s.reg a).toNat with
    | none => resultOp d 3
    | some x => modify fun s => (s.setMe x).result d 0) s

end Sys2Proof.Machine
end

