-- ==== Sys2Proof/Machine/Matrix.lean ====
section
/-! DEFINITION. What M commands compute: format words (03 R72), tiles and operands (12 R281 to R283), slices (03 R71), the checksum row
(12 R290) and drains (13 R306). -/

namespace Sys2Proof.Machine

/-! ### Format words (R72) -/

/-- Bits of an element of a format (03 Table 6). -/
def fmtBits (f : Nat) : Nat :=
  if f ≤ 3 then 8 else if f ≤ 5 then 16 else if f ≤ 7 then 4 else 32

/-- The slice length of a format (R71). -/
def sliceOf (f : Nat) : Nat :=
  if f ≤ 3 then 32 else if f ≤ 5 then 16 else 64

/-- An integer format. -/
def fmtIsInt (f : Nat) : Bool := f == 0 || f == 1 || f == 7 || f == 9

/-- afmt or bfmt is allowed with accf (Table 6). -/
def fmtAsOperand (f accf : Nat) : Bool := decide (f ≤ 7) && (fmtIsInt f == (accf == 1))

/-- dout is allowed with accf (Table 6). -/
def fmtAsOutput (f accf : Nat) : Bool := decide (f ≤ 9) && f != 6 && (fmtIsInt f == (accf == 1))

/-- A field of a format word. -/
def fwA (w : BitVec 32) : Nat := bitsOf w 0 4
/-- bfmt. -/
def fwB (w : BitVec 32) : Nat := bitsOf w 4 4
/-- accf. -/
def fwAcc (w : BitVec 32) : Nat := bitsOf w 8 2
/-- drnd. -/
def fwRnd (w : BitVec 32) : Nat := bitsOf w 10 3
/-- dout. -/
def fwOut (w : BitVec 32) : Nat := bitsOf w 13 4
/-- band. -/
def fwBand (w : BitVec 32) : Bool := w.getLsbD 17

/-- A format word is valid (R72). -/
def fwOk (w : BitVec 32) : Bool :=
  bitsOf w 18 14 == 0 && decide (fwAcc w < 2) && decide (fwRnd w < 6) && (!fwBand w || fwA w == 6 || fwB w == 6) &&
    fmtAsOperand (fwA w) (fwAcc w) && fmtAsOperand (fwB w) (fwAcc w) && fmtAsOutput (fwOut w) (fwAcc w)

/-! ### Operands -/

/-- A tile descriptor's fields (R281, Table 6). -/
structure Tile where
  base : Word
  rs : Nat
  rows : Nat
  cols : Nat
  kind : Nat
  aux0 : Word
  aux1 : Word
  aux2 : Word
  deriving DecidableEq, Repr

/-- The fields of an image. -/
def tileOf (l : List Word) : Tile :=
  let w := imgWord l 1
  ⟨imgWord l 0, bitsOf w 32 32, bitsOf w 0 16, bitsOf w 16 16, bitsOf (imgWord l 2) 0 2, imgWord l 3, imgWord l 4, imgWord l 5⟩

/-- Elements in a segment: rows of a layout at a pointer (R305), in a format; `tile` holds scales and directory. -/
structure Operand where
  ptr : Word
  rs : Nat
  fmt : Nat
  tile : Tile
  band : Bool
  deriving DecidableEq, Repr

/-- A compressed operand (R281). -/
def Operand.packed (o : Operand) : Bool := o.tile.kind == 1

/-- The bit at which element (r, c) of the layout begins: in its segment, or from the first logical byte of a compressed operand
(R305, R282). -/
def Operand.bit (o : Operand) (r c : Nat) : Nat :=
  8 * ((if o.packed then 0 else bitsOf o.ptr 0 20) + r * o.rs) + c * fmtBits o.fmt

/-- Granules that columns c0 to c0 + n - 1 of a row touch. -/
def Operand.rowGrans (o : Operand) (c0 n r : Nat) : List Nat :=
  if n = 0 then []
  else
    let a := o.bit r c0 / 256
    let b := (o.bit r (c0 + n) - 1) / 256
    (List.range (b - a + 1)).map (a + ·)

/-- A fault of an M command: cause, TINFO0, TINFO1, whether an injector has made the granule bad that it has consumed (R361), and the granules of
segments that have shown it bad (R188). -/
structure MErr where
  cause : BitVec 8
  t0 : Word
  t1 : Word
  inj : Bool
  sites : List (SegId × Nat)
  deriving DecidableEq, Repr

/-- A fault that no bad granule has caused. -/
def mFail (cause : BitVec 8) (t0 t1 : Word) : MErr := ⟨cause, t0, t1, false, []⟩

/-- The check of a consumer: the fault of a granule that a pointer names and that some places of segments have given (R190). -/
def mCheck (p : Word) (sites : List (SegId × Nat)) (g : Granule) : Option MErr :=
  (checkGran g).map fun e => ⟨e.1, p, e.2, g.inj, sites⟩

/-- The pointer of a granule of the segment that a pointer names. -/
def granPtr (p : Word) (g : Nat) : Word := (p &&& ~~~(0xFFFFF : Word)) ||| word (32 * g)

/-- The granules that n bytes at an offset lie in: none for no bytes. -/
def granSpan (off n : Nat) : List Nat :=
  if n = 0 then [] else (List.range ((off + n - 1) / 32 - off / 32 + 1)).map (off / 32 + ·)

/-- Bytes of a compressed segment, with the storage granules among them that are poisoned (R283); none beyond its end. -/
def State.packBytesAt (s : State) (g : SegId) (off n : Nat) : Option (List Byte × List (SegId × Nat)) :=
  match s.segOf g with
  | none => none
  | some x =>
    if off + n > x.size then none
    else
      let bytes := (granSpan off n).flatMap fun k => natBytes 32 (s.segGran g k).data.toNat
      some ((bytes.drop (off % 32)).take n, ((granSpan off n).filter fun k => (s.segGran g k).poison).map fun k => (g, k))

/-- A number read from a compressed segment. -/
def State.packNat (s : State) (g : SegId) (off n : Nat) : Option (Nat × List (SegId × Nat)) :=
  (s.packBytesAt g off n).map fun e => (bytesNat e.1, e.2)

/-- Bytes of a record after its header (R282, Table 7); tags 4 to 255, which the table does not list, count as 3 (log 112, DESIGN CHOICE). -/
def recordBytes (tag : Nat) : Nat := if tag = 0 then 32 else if tag = 2 then 24 else 0

/-- The offset of the n-th record after one, skipping by their tags, with the poisoned granules met. -/
def State.skipRecords (s : State) (g : SegId) : Nat → Nat → Option (Nat × List (SegId × Nat))
  | 0, off => some (off, [])
  | n + 1, off =>
    match s.packNat g (off + 4) 1 with
    | none => none
    | some (tag, b) => (s.skipRecords g n (off + 8 + recordBytes tag)).map fun e => (e.1, b ++ e.2)

/-- The expansion of a half payload (R282): elements in groups of four, width e bits. -/
def expandHalf (e payload : Nat) : Nat :=
  let groups := 64 / e
  let val := fun (n : Nat) => payload / 2 ^ (e * n) % 2 ^ e
  let idx := fun (n : Nat) => payload / 2 ^ (128 + 2 * n) % 4
  ((List.range groups).map fun g =>
    ((List.range 4).map fun k =>
      (if idx (2 * g + 1) = k then val (2 * g + 1) else if idx (2 * g) = k then val (2 * g) else 0) * 2 ^ (e * (4 * g + k))).sum).sum

/-- The expanded granule n of a compressed operand (R282, R283), with the poisoned storage granules it has been read from. -/
def State.expandGran (s : State) (i : SlotId) (o : Operand) (n : Nat) : Except MErr (Granule × List (SegId × Nat)) :=
  let g := s.segNamed i o.ptr
  let d := s.segNamed i o.tile.aux2
  let base := bitsOf o.ptr 0 20
  let size := fun (x : SegId) => word ((s.segOf x).map (·.size) |>.getD 0)
  match s.packNat d (bitsOf o.tile.aux2 0 20 + n / 32 * 4) 4 with
  | none => .error (mFail 0x07 (o.tile.aux2 + word (n / 32 * 4)) (size d))
  | some (first, b0) =>
    match s.skipRecords g (n % 32) (base + first) with
    | none => .error (mFail 0x07 (o.ptr + word first) (size g))
    | some (off, b1) =>
      match s.packNat g off 8 with
      | none => .error (mFail 0x07 ((o.ptr &&& ~~~(0xFFFFF : Word)) + word off) (size g))
      | some (head, b2) =>
        let tag := head / 2 ^ 32 % 256
        match s.packNat g (off + 8) (recordBytes tag) with
        | none => .error (mFail 0x07 ((o.ptr &&& ~~~(0xFFFFF : Word)) + word (off + 8)) (size g))
        | some (body, b3) =>
          let data := if tag = 0 then body else if tag = 2 then expandHalf (fmtBits o.fmt) body else 0
          let bad := b0 ++ b1 ++ b2 ++ b3
          .ok (⟨BitVec.ofNat 256 data, BitVec.ofNat 32 head, !bad.isEmpty, bad.any fun e => (s.segGran e.1 e.2).inj⟩, bad)

/-- A granule of an operand, checked as a consumer (R283, R190); one that has been expanded is named by its place in the matrix, base + 32 n,
and not by its record's (R195; log 113, DESIGN CHOICE). -/
def State.opGran (s : State) (i : SlotId) (o : Operand) (n : Nat) : Except MErr (BitVec 256) :=
  let check := fun (p : Word) (sites : List (SegId × Nat)) (g : Granule) => match mCheck p sites g with
    | some e => (.error e : Except MErr (BitVec 256))
    | none => .ok g.data
  if o.packed then
    match s.expandGran i o n with
    | .error e => .error e
    | .ok (g, bad) => check (o.ptr + word (32 * n)) bad g
  else check (granPtr o.ptr n) [(s.segNamed i o.ptr, n)] (s.segGran (s.segNamed i o.ptr) n)

/-- Granules of a list, checked in order. -/
def State.opGrans (s : State) (i : SlotId) (o : Operand) : List Nat → Except MErr (List (Nat × BitVec 256))
  | [] => .ok []
  | n :: r =>
    match s.opGran i o n with
    | .error e => .error e
    | .ok d => (s.opGrans i o r).map ((n, d) :: ·)

/-- Fetches the granules of columns c0 to c0 + n - 1 of rows, in ascending address order. -/
def State.fetch (s : State) (i : SlotId) (o : Operand) (rows : List Nat) (c0 n : Nat) : Except MErr (List (Nat × BitVec 256)) :=
  s.opGrans i o ((rows.flatMap (o.rowGrans c0 n)).dedup.mergeSort)

/-- The code of element (r, c) from fetched granules. -/
def Operand.code (o : Operand) (d : List (Nat × BitVec 256)) (r c : Nat) : Nat :=
  let b := o.bit r c
  let at_ := fun (n : Nat) => (tget 0 d n).toNat
  (at_ (b / 256) + 2 ^ 256 * at_ (b / 256 + 1)) / 2 ^ (b % 256) % 2 ^ fmtBits o.fmt

/-- The granules of scales and band scales of an operand, each by the pointer of its array and its number (R58, R196). -/
def Operand.scaleGrans (o : Operand) : List (Word × Nat) :=
  let grans := fun (p : Word) (n : Nat) => (granSpan (bitsOf p 0 20) n).map fun k => (p, k)
  if o.fmt ≠ 6 then []
  else grans o.tile.aux0 ((o.tile.rows * o.tile.cols + 7) / 8) ++
    if o.band then grans o.tile.aux1 ((o.tile.rows + 63) / 64 * 2) else []

/-- A byte of an array of scales, from what the command in progress fetched and checked before its first step (R196). -/
def State.scaleByte (s : State) (i : SlotId) (p : Word) (a : Nat) : Nat :=
  let kept := ((s.slotOf i).eng.mrun.map (·.scales)).getD []
  let g := ((kept.find? fun e => e.1 == (p, a / 32)).map (·.2)).getD (s.segGran (s.segNamed i p) (a / 32))
  bitsOf g.data (8 * (a % 32)) 8

/-- The scale byte of element (r, c) of an FP4-block operand (R58). -/
def State.scaleOf (s : State) (i : SlotId) (o : Operand) (r c : Nat) : Nat :=
  s.scaleByte i o.tile.aux0 (bitsOf o.tile.aux0 0 20 + (r * o.tile.cols + c) / 8)

/-- The band scale of row r. -/
def State.bandOf (s : State) (i : SlotId) (o : Operand) (r : Nat) : Nat :=
  let a := bitsOf o.tile.aux1 0 20 + r / 64 * 2
  s.scaleByte i o.tile.aux1 a + 256 * s.scaleByte i o.tile.aux1 (a + 1)

/-- The value of element (r, c) (R51, R53, R57). -/
def State.valueOf (s : State) (i : SlotId) (o : Operand) (d : List (Nat × BitVec 256)) (r c : Nat) : Exact :=
  let n := o.code d r c
  match o.fmt with
  | 0 => ofInt (BitVec.ofNat 8 n).toInt
  | 1 => ofInt n
  | 2 => (e4m3.value n).exact
  | 3 => (e5m2.value n).exact
  | 4 => (bf16.value n).exact
  | 5 => (fp16.value n).exact
  | 6 => fp4Value n (s.scaleOf i o r c) (if o.band then some (s.bandOf i o r) else none)
  | _ => ofInt (BitVec.ofNat 4 n).toInt

/-! ### Slices (R71, R290) -/

/-- An exact sum (R71) over a denominator that those of its terms divide: NaN if a term is, with INVALID of its own; NaN with INVALID for
infinities of both signs. -/
def exactSum (den : Nat) (l : List Exact) : Exact :=
  let nan := l.any fun x => match x with
    | .nan _ => true
    | _ => false
  let inv := l.any fun x => match x with
    | .nan i => i
    | _ => false
  let inf := fun (b : Bool) => l.any fun x => match x with
    | .inf n => n == b
    | _ => false
  if nan then .nan inv
  else if inf true && inf false then .nan true
  else if inf true then .inf true
  else if inf false then .inf false
  else ratOf false ((l.map fun x => match x with
    | .rat neg n d => signedNat neg (n * (den / d))
    | _ => 0).sum) den

/-- The exact sum of products of a slice. -/
def dot (a b : List Exact) : Exact := exactSum (2 ^ 2048) ((a.zip b).map fun e => e.1.mul e.2)

/-- The integer that an exact integer sum is. -/
def exactInt : Exact → Int
  | .rat neg n d => signedNat neg (n / d)
  | _ => 0

/-- SliceSum (R71) of an accumulator element and the sum of a slice. -/
def sliceSum (accf old : Nat) (x : Exact) : Nat × Sticky :=
  if accf = 0 then fp32.round 0 0 true ((fp32.value old).exact.add 0 x)
  else
    let r := saturate (-(2 ^ 31)) (2 ^ 31 - 1) ((BitVec.ofNat 32 old).toInt + exactInt x)
    ((BitVec.ofInt 32 r.1).toNat, stIf r.2 stSat)

/-- The sum of a column of A (R290): a NaN among its terms sets no flag of its own. -/
def columnSum (l : List Exact) : Exact := exactSum (2 ^ 1024) l

/-! ### Accumulators (R285) -/

/-- The tag of a bank: none while it is free. -/
def State.bankTag (s : State) (c : Fin 256) (b : Nat) : Option BankTag :=
  ((s.coreOf c).banks.find? fun e => e.1 == b).map (·.2)

/-- An element of the accumulator store; those of a free bank read as zero (R285). -/
def State.accGet (s : State) (c : Fin 256) (n : Nat) : Nat :=
  if (s.bankTag c (n / 16384)).isSome then (tget 0 (s.coreOf c).acc n).toNat else 0

/-- Writes an element. -/
def State.accPut (s : State) (c : Fin 256) (n v : Nat) : State :=
  s.mapCore c fun k => { k with acc := if v % 2 ^ 32 = 0 then tdrop k.acc n else tput k.acc n (BitVec.ofNat 32 v) }

/-- Tags a bank to a slot: a free one begins with zeros (R285), one of the slot's context is retagged (R339). -/
def State.tagBank (s : State) (i : SlotId) (b : Nat) : State :=
  let x := s.slotOf i
  let tag : BankTag := ⟨x.ctx.ctx, i.slot, s.partNo i.core, x.ctx.key⟩
  s.mapCore i.core fun k =>
    { k with
      acc := if k.banks.any fun e => e.1 == b then k.acc else k.acc.filter fun e => e.1 / 16384 != b
      banks := tput k.banks b tag }

/-- Banks that rows x cols elements of an accumulator tile touch, ascending. -/
def Tile.banks (t : Tile) (rows cols : Nat) : List Nat :=
  ((List.range rows).flatMap fun i =>
    let lo := t.base.toNat + i * t.rs
    (List.range ((lo + cols - 1) / 16384 - lo / 16384 + 1)).map (lo / 16384 + ·)).dedup.mergeSort

/-! ### Drains (R306) -/

/-- A drained element (R72): code and flags. Integers narrow under R52; floating outputs round with drnd, saturating. -/
def drainElem (accf dout drnd u v : Nat) : Nat × Sticky :=
  if accf = 1 then
    let n := (BitVec.ofNat 32 v).toInt
    let narrow := fun (bits : Nat) (lo hi : Int) =>
      let r := saturate lo hi n
      ((r.1 % (2 ^ bits : Int)).toNat, stIf r.2 stSat)
    match dout with
    | 0 => narrow 8 (-128) 127
    | 1 => narrow 8 0 255
    | 7 => narrow 4 (-8) 7
    | _ => (v, 0)
  else
    let x := (fp32.value v).exact
    match dout with
    | 2 => e4m3.round drnd u true x
    | 3 => e5m2.round drnd u true x
    | 4 => bf16.round drnd u true x
    | 5 => fp16.round drnd u true x
    | _ => fp32.round drnd u true x

/-- Bits of a granule replaced under a mask. -/
def maskBits (old : BitVec 256) (v mask : Nat) : BitVec 256 :=
  (old &&& ~~~(BitVec.ofNat 256 mask)) ||| (BitVec.ofNat 256 v &&& BitVec.ofNat 256 mask)

/-- Writes n bits from a bit offset of a segment, granule by granule from the one numbered g: a granule not wholly covered is checked
first (R306, R191). -/
def State.drainBits (s : State) (seg : SegId) (p : Word) (bit n v : Nat) : Nat → Nat → Except MErr State
  | 0, _ => .ok s
  | k + 1, g =>
    let lo := max bit (256 * g)
    let hi := min (bit + n) (256 * g + 256)
    let mask := (2 ^ (hi - lo) - 1) * 2 ^ (lo - 256 * g)
    let part := v / 2 ^ (lo - bit) % 2 ^ (hi - lo) * 2 ^ (lo - 256 * g)
    let old := s.segGran seg g
    match (if hi - lo = 256 then none else mCheck (granPtr p g) [(seg, g)] old) with
    | some e => .error e
    | none => (s.segPut seg g (mkGran (maskBits old.data part mask))).drainBits seg p bit n v k (g + 1)

/-- A drain under way: state, drain generators as changed, flags. -/
structure DrainState where
  s : State
  gens : List (Nat × BitVec 32)
  flags : Sticky

/-- Where a command drains to: pointer, row stride in bytes. -/
structure DrainTo where
  ptr : Word
  rs : Nat
  deriving DecidableEq, Repr

/-- One row of a drain: columns j0 to j0 + n - 1 of row i, of the tile's accumulators in a core; `vec` seeds the drain generators (R64). -/
def DrainState.row (t : DrainState) (fw : BitVec 32) (i : SlotId) (c : Fin 256) (tile : Tile) (d : DrainTo) (vec : VecState) (row j0 n : Nat) :
    Except MErr DrainState :=
  let sr := fwRnd fw == 5 && fwAcc fw == 0
  let bits := fmtBits (fwOut fw)
  let step := fun (a : List (Nat × BitVec 32) × Sticky × Nat) (k : Nat) =>
    let j := j0 + k
    let key := 256 + j % 256
    let g := laneRand (tget (vec.gen key) a.1 key)
    let e := drainElem (fwAcc fw) (fwOut fw) (fwRnd fw) (if sr then drawBits g else 0)
      (t.s.accGet c (tile.base.toNat + row * tile.rs + j))
    ((if sr then tput a.1 key g else a.1), a.2.1 ||| e.2, a.2.2 + e.1 % 2 ^ bits * 2 ^ (bits * k))
  let r := (List.range n).foldl step (t.gens, t.flags, 0)
  let bit := 8 * (bitsOf d.ptr 0 20 + row * d.rs) + j0 * bits
  let len := n * bits
  if n = 0 then .ok t
  else match t.s.drainBits (t.s.segNamed i d.ptr) d.ptr bit len r.2.2 ((bit + len - 1) / 256 - bit / 256 + 1) (bit / 256) with
    | .error e => .error e
    | .ok s => .ok ⟨s, r.1, r.2.1⟩

/-- The rows of a block, in increasing order. -/
def DrainState.rows (t : DrainState) (fw : BitVec 32) (i : SlotId) (c : Fin 256) (tile : Tile) (d : DrainTo) (vec : VecState) (j0 n : Nat) :
    List Nat → Except MErr DrainState
  | [] => .ok t
  | r :: l =>
    match t.row fw i c tile d vec r j0 n with
    | .error e => .error e
    | .ok u => u.rows fw i c tile d vec j0 n l

end Sys2Proof.Machine
end

