-- ==== Sys2Proof/Machine/Campion.lean ====
section
/-! DEFINITION. Campion: forwarding M words, the lease, the start checks, micro-steps, completion and stops (12 R278 to R290; 13 R303 to
R309). -/

namespace Sys2Proof.Machine

/-! ### Plans: the checks of step 2 of R303 -/

/-- What an M command does. -/
inductive MKind where
  | mma
  | zero
  | drain
  | load
  deriving DecidableEq, Repr

/-- A command with its descriptor checks passed (R305 to R309). For MMA, rows and cols are m and n, `parts` is P. -/
structure MPlan where
  kind : MKind
  fw : BitVec 32
  tile : Tile
  rows : Nat
  cols : Nat
  k : Nat
  slice : Nat
  parts : Nat
  accum : Bool
  transA : Bool
  transB : Bool
  check : Bool
  a : Option Operand
  b : Option Operand
  d : Option DrainTo
  deriving DecidableEq, Repr

/-- A quotient rounded up. -/
def ceilDiv (a b : Nat) : Nat := (a + b - 1) / b

/-- Two pointers name the same segment: same window, owner and name. -/
def sameSegment (p q : Word) : Bool := bitsOf p 40 24 == bitsOf q 40 24

/-- The conditions of R305 on the scales of an operand. -/
def scalesOk (o : Operand) : Bool :=
  if o.fmt = 6 then sameSegment o.ptr o.tile.aux0 && (!o.band || sameSegment o.ptr o.tile.aux1)
  else o.tile.aux0 == 0 && o.tile.aux1 == 0

/-- The plan of an MMA: none where a condition of R305 fails. A fused drain's destination is in window 0x8 (R281). -/
def mmaPlan (fw : BitVec 32) (tc ta tb : Tile) (sub : Fin 8) (accum transA transB check drain : Bool) : Option MPlan :=
  let (m, k) := if transA then (ta.cols, ta.rows) else (ta.rows, ta.cols)
  let (kb, n) := if transB then (tb.cols, tb.rows) else (tb.rows, tb.cols)
  let p := 2 ^ sub.val
  let l := min (sliceOf (fwA fw)) (sliceOf (fwB fw))
  let a : Operand := ⟨ta.base, ta.rs, fwA fw, ta, fwBand fw⟩
  let b : Operand := ⟨tb.base, tb.rs, fwB fw, tb, fwBand fw⟩
  let four := fun (f : Nat) => f == 6 || f == 7
  let has := fun (f : Nat) => fwA fw == f || fwB fw == f
  if tc.kind = 2 ∧ ta.kind = 0 ∧ bitsOf ta.base 60 4 = 8 ∧
      ((tb.kind = 0 ∧ (bitsOf tb.base 60 4 = 8 ∨ bitsOf tb.base 60 4 = 9)) ∨ (tb.kind = 1 ∧ bitsOf tb.base 60 4 = 9)) ∧
      k = kb ∧ m ≤ 1024 ∧ n ≤ 1536 ∧ k ≤ 16384 ∧ tc.rows = m + (if check then 1 else 0) ∧ tc.cols = n ∧ n % p = 0 ∧
      p * ceilDiv m 256 * ceilDiv n (256 * p) * ceilDiv k l ≤ 24576 ∧
      tc.base.toNat + (tc.rows - 1) * tc.rs + n / p ≤ 786432 ∧
      (four (fwA fw) && transA) = false ∧ (four (fwB fw) && !transB) = false ∧
      (has 6 && k % 8 != 0) = false ∧ (has 7 && k % 2 != 0) = false ∧ scalesOk a = true ∧ scalesOk b = true ∧
      (drain && bitsOf tc.aux0 60 4 != 8) = false then
    some
      { kind := .mma, fw := fw, tile := tc, rows := m, cols := n, k := k, slice := l, parts := p, accum := accum, transA := transA
        transB := transB, check := check, a := some a, b := some b
        d := if drain then some ⟨tc.aux0, tc.aux1.toNat⟩ else none }
  else none

/-- The limits of R307 on an accumulator tile. -/
def accTileOk (tc : Tile) : Bool :=
  tc.kind == 2 && decide (tc.rows ≤ 1025) && decide (tc.cols ≤ 1536) &&
    decide (tc.base.toNat + (tc.rows - 1) * tc.rs + tc.cols ≤ 786432)

/-- The plan of MZERO, MDRAIN or MLOADC over a tile. -/
def tilePlan (kind : MKind) (fw : BitVec 32) (tc : Tile) (b : Option Operand) (d : Option DrainTo) : MPlan :=
  { kind := kind, fw := fw, tile := tc, rows := tc.rows, cols := tc.cols, k := 1, slice := 1, parts := 1, accum := false, transA := false
    transB := false, check := false, a := none, b := b, d := d }

/-- A descriptor's tile at the version of a word, if its image passes R299 (R263). -/
def Slot.tileAt (x : Slot) (q : QEntry) (n : Fin 16) : Option Tile :=
  let d := x.eng.descs.imageAt n.val q.ver
  if tileOk d.img then some (tileOf d.img) else none

/-- The plan of a command with its format word: none for ILLEGAL (R303 step 2). -/
def Slot.planOf (x : Slot) (q : QEntry) (fw : BitVec 32) : Option MPlan :=
  if fwOk fw = false then none
  else match decode q.word with
    | .ok (.mma u t a b m y z k f _) =>
      match x.tileAt q t, x.tileAt q a, x.tileAt q b with
      | some tc, some ta, some tb => mmaPlan fw tc ta tb u m y z k f
      | _, _, _ => none
    | .ok (.mzero t _) =>
      match x.tileAt q t with
      | some tc => if accTileOk tc then some (tilePlan .zero fw tc none none) else none
      | none => none
    | .ok (.mdrain t a _) =>
      match x.tileAt q t, x.tileAt q a with
      | some tc, some ta =>
        let own := decide (t = a)
        let p := if own then tc.aux0 else ta.base
        let rs := if own then tc.aux1.toNat else ta.rs
        if accTileOk tc ∧ bitsOf p 60 4 = 8 ∧ (own = true ∨ (ta.kind = 0 ∧ ta.rows = tc.rows ∧ ta.cols = tc.cols)) then
          some (tilePlan .drain fw tc none (some ⟨p, rs⟩))
        else none
      | _, _ => none
    | .ok (.mloadc t a _) =>
      match x.tileAt q t, x.tileAt q a with
      | some tc, some ta =>
        if accTileOk tc ∧ ta.kind = 0 ∧ bitsOf ta.base 60 4 = 8 ∧ ta.rows = tc.rows ∧ ta.cols = tc.cols then
          some (tilePlan .load fw tc (some ⟨ta.base, ta.rs, 8, ta, false⟩) none)
        else none
      | _, _ => none
    | _ => none

/-! ### Steps of a plan (R286) -/

/-- Row blocks. -/
def MPlan.mbs (p : MPlan) : Nat := ceilDiv (min p.rows 1024) 256

/-- Columns of a band. -/
def MPlan.bandCols (p : MPlan) : Nat := p.cols / p.parts

/-- Column blocks of a band. -/
def MPlan.nbs (p : MPlan) : Nat := ceilDiv p.bandCols 256

/-- k-slices. -/
def MPlan.kss (p : MPlan) : Nat := ceilDiv p.k p.slice

/-- Rows of block mb: block 3 also covers row 1,024 (R286). -/
def MPlan.rowsOf (p : MPlan) (mb : Nat) : List Nat :=
  (List.range (min p.rows (256 * mb + 256 + (if mb = 3 then 1 else 0)) - 256 * mb)).map (256 * mb + ·)

/-- Local columns of block nb in a band. -/
def MPlan.colsOf (p : MPlan) (nb : Nat) : List Nat :=
  (List.range (min p.bandCols (256 * nb + 256) - 256 * nb)).map (256 * nb + ·)

/-! ### Pointers and pin set (R303 steps 3 and 5, R174) -/

/-- The last logical byte of an operand. -/
def Operand.lastByte (o : Operand) : Nat := ((o.tile.rows - 1) * o.rs * 8 + o.tile.cols * fmtBits o.fmt + 7) / 8 - 1

/-- A pointer with the offset of the last byte that the command touches; where the records of a compressed operand end, their bytes tell
(see `State.packedFault`). -/
def Operand.spans (o : Operand) : List (Word × Nat) :=
  let t := o.tile
  let own := if o.packed then [(o.ptr, 0), (t.aux2, o.lastByte / 1024 * 4 + 3)] else [(o.ptr, o.lastByte)]
  let scales := if o.fmt = 6 then
      [(t.aux0, (t.rows * t.cols + 7) / 8 - 1)] ++ if o.band then [(t.aux1, ceilDiv t.rows 64 * 2 - 1)] else []
    else []
  own ++ scales

/-- Every span of a plan, in the order in which they are checked: A and its scales, B and its scales, the destination (log 68, DESIGN CHOICE: R303
gives no order among operands). -/
def MPlan.spans (p : MPlan) : List (Word × Nat) :=
  ((p.a.map Operand.spans).getD []) ++ ((p.b.map Operand.spans).getD []) ++
    match p.d with
    | some d => [(d.ptr, (p.rows - 1) * d.rs + (p.cols * fmtBits (fwOut p.fw) + 7) / 8 - 1)]
    | none => []

/-- The checks of a span: DecodePtr of its first and last byte, which lie in one segment. -/
def State.spanFault (s : State) (i : SlotId) (e : Word × Nat) : Option MErr :=
  let q := e.1 + word e.2
  match s.decodePtr i e.1 1, s.decodePtr i q 1 with
  | .error (c, t), _ => some (mFail c e.1 t)
  | _, .error (c, t) => some (mFail c q t)
  | .ok (.seg g _), .ok (.seg h _) =>
    if g = h then none else some (mFail 0x07 q (word ((s.segOf g).map (·.size) |>.getD 0)))
  | _, _ => some (mFail 0x04 e.1 0)

/-- The machine as segments would read once they are Resident, for a check that reads them before their admission; none where a home does not
translate. -/
def State.asResident (s : State) : List SegId → Option State
  | [] => some s
  | i :: r =>
    match s.segOf i with
    | none => s.asResident r
    | some g =>
      if g.state = .resident then s.asResident r
      else match s.bringIn g g.base with
        | .ok t => t.asResident r
        | .error _ => none

/-- The last byte of a compressed operand, which its directory and records tell (R282, R303 step 3): in a segment that is not Resident they are
read from its home, and one whose home does not translate is left to its admission (log 105, DESIGN CHOICE). -/
def State.packedFault (s : State) (i : SlotId) (p : MPlan) : Option MErr :=
  match p.b with
  | some o =>
    if o.packed then match s.asResident [s.segNamed i o.ptr, s.segNamed i o.tile.aux2] with
      | none => none
      | some t => match t.expandGran i o (o.lastByte / 32) with
        | .error e => some e
        | .ok _ => none
    else none
  | none => none

/-- The pin set of a plan with the pointers that name its members. -/
def State.planPins (s : State) (i : SlotId) (p : MPlan) : List (SegId × Word) :=
  p.spans.foldl (fun l e =>
    let g := s.segNamed i e.1
    if l.any fun x => x.1 = g then l else l ++ [(g, e.1)]) []

/-! ### Bands (R279, R280) -/

/-- The cores of a split's bands in order. -/
def bandCores (c : Fin 256) (parts : Nat) : List (Fin 256) :=
  if parts = 1 then [c]
  else if parts = 2 then [coreNo (c.val / 2 * 2), coreNo (c.val / 2 * 2 + 1)]
  else (List.range 4).map fun j => coreNo (c.val / 4 * 4 + j)

/-- The slot that takes a band on a core: the leader, or one that has granted it. A grant of a task that is saved out of its slot stays with its
record, and the leader waits for its return (log 111, DESIGN CHOICE: R279 does not say). -/
def State.bandSlot (s : State) (i : SlotId) (c : Fin 256) : Option SlotId :=
  if c = i.core then some i else (slotsOf c).find? fun j => (s.slotOf j).eng.grant = some i && (s.slotOf j).task.isSome

/-- The slots of every band, if all partners have granted. -/
def State.bandSlots (s : State) (i : SlotId) (parts : Nat) : Option (List SlotId) :=
  (bandCores i.core parts).mapM (s.bandSlot i)

/-- P of a word (R305). -/
def wordParts (w : BitVec 32) : Nat :=
  match decode w with
  | .ok (.mma u _ _ _ _ _ _ _ _ _) => 2 ^ u.val
  | _ => 1

/-- ACC_OWNED (R339): bank and owning context of the first bank of a slot that it may not touch. -/
def State.ownedBank (s : State) (j : SlotId) : List Nat → Option (Nat × BitVec 8)
  | [] => none
  | b :: r =>
    let x := s.slotOf j
    match s.bankTag j.core b with
    | some t => if t.key = x.ctx.key then s.ownedBank j r else some (b, t.ctx)
    | none => if x.ctx.spilled.getLsbD b then some (b, x.ctx.ctx) else s.ownedBank j r

/-- The slots of bands that still hold the tasks that granted them: a split that has started keeps its bands when a partner is gone (R296). -/
def State.liveBands (s : State) (l : List (SlotId × Nat)) : List SlotId :=
  (l.filter fun b => decide ((s.slotOf b.1).task.map (·.serial) = some b.2)).map (·.1)

/-- The first such bank of all bands, in band order. -/
def State.ownedBands (s : State) (p : MPlan) (bands : List SlotId) : Option (Nat × BitVec 8) :=
  bands.findSome? fun j => s.ownedBank j (p.tile.banks p.tile.rows p.bandCols)

/-- Tags the banks of a band. -/
def State.tagBands (s : State) (p : MPlan) : List SlotId → State
  | [] => s
  | j :: r => ((p.tile.banks p.tile.rows p.bandCols).foldl (fun t b => t.tagBank j b) s).tagBands p r

/-- The bands of a command that starts, each with the serial of its slot's task: none while a partner has not granted (R279). -/
def State.takenBands (s : State) (i : SlotId) (parts : Nat) : Option (List (SlotId × Nat)) :=
  (s.bandSlots i parts).map fun l => l.map fun j => (j, ((s.slotOf j).task.map (·.serial)).getD 0)

/-- The scale and band-scale granules of a command, as its segments hold them now (R196). -/
def State.scalesNow (s : State) (i : SlotId) (p : MPlan) : List ((Word × Nat) × Granule) :=
  ((p.a.toList ++ p.b.toList).flatMap Operand.scaleGrans).map fun e => (e, s.segGran (s.segNamed i e.1) e.2)

/-- Scale and band-scale granules (R303 step 6, R196): the first that fails. -/
def State.scaleFault (s : State) (i : SlotId) (p : MPlan) : Option MErr :=
  (s.scalesNow i p).findSome? fun e => mCheck (granPtr e.1.1 e.1.2) [(s.segNamed i e.1.1, e.1.2)] e.2

/-! ### Starting -/

/-- Changes the M command in progress. -/
def State.mapRun (s : State) (i : SlotId) (f : MRun → MRun) : State :=
  s.mapSlot i fun x => { x with eng := { x.eng with mrun := x.eng.mrun.map f } }

/-- A fault of the M command in progress; the uncorrectable errors of a segment's store that show so are logged (R188). -/
def State.mErr (s : State) (i : SlotId) (e : MErr) : State :=
  (e.sites.foldl (fun t x => t.storeErrors x.1 x.2) s).mFault i e.inj e.cause e.t0 e.t1

/-- A commit holds a granule of one of some segments locked (R218). -/
def State.segLocked (s : State) (l : List SegId) : Bool :=
  s.pkg.locks.any fun k => match k.loc with
    | .seg g _ => l.contains g
    | _ => false

/-- What a command of a plan does once its set is pinned (R303 step 6): the check of its scales, which it keeps (R196), then the tags. -/
def State.mAdmitted (s : State) (i : SlotId) (p : MPlan) (bands : List SlotId) : State :=
  match s.scaleFault i p with
  | some e => s.mErr i e
  | none =>
    let s1 := s.mapRun i fun r => { r with scales := s.scalesNow i p }
    (if p.kind = .drain then s1 else s1.tagBands p bands).mapSlot i fun x => { x with eng := { x.eng with mupc := 0 } }

/-- The checks and the admission of the command in progress, in the order of R303; what it had pinned before a stop or a fault is pinned
anew (R175). It waits while a commit holds a granule of its segments locked (R218; log 104). -/
def State.mBegin (s : State) (i : SlotId) : State :=
  let x := s.slotOf i
  match x.eng.mrun with
  | none => s
  | some r =>
    let w := r.q.word.setWidth 64
    match x.eng.qs.fq with
    | [] => s.mErr i (mFail 0x0F w 0)
    | fw :: _ =>
      match x.planOf r.q fw with
      | none => s.mErr i (mFail 0x01 w 2)
      | some p =>
        if s.segLocked ((s.planPins i p).map (·.1)) then s
        else match (p.spans.findSome? (s.spanFault i)).or (s.packedFault i p) with
        | some e => s.mErr i e
        | none =>
          let bands := s.liveBands r.bands
          match s.ownedBands p bands with
          | some (b, c) => s.mErr i (mFail 0x10 (word b) (c.setWidth 64))
          | none =>
            let pins := s.planPins i p
            let s1 := (s.unpinAll r.pins).mapRun i fun r => { r with pins := [] }
            match s1.admitSet i (.m i) (pins.map (·.1)) (pins.map (·.2)) 0 false with
            | .tooLarge f => s1.mErr i (mFail 0x08 (word f) (word x.quota))
            | .wait t => t
            | .go t =>
              let set := fun (r : MRun) =>
                { r with pins := pins.map (·.1), banks := p.tile.banks p.tile.rows p.bandCols, admitted := true }
              ((t.pinAll (pins.map (·.1))).mapRun i set).mAdmitted i p bands

/-- Starts the head word of a slot's M queue, its tokens taken: MNOP completes at once (R304). -/
def State.mTake (s : State) (i : SlotId) (q : QEntry) (y : Slot) : State :=
  let c := clusterOfCore i.core
  let y1 := y.setQueue .m (y.queue .m).tail
  let pop := (waitEng .m q.word).isSome
  let y2 := if pop then y1.journalPopped q.seq else y1
  match decode q.word with
  | .ok (.mnop _) =>
    let y3 := match postEng .m q.word with
      | some b => y2.postToken .m b
      | none => y2
    (s.setSlot i (y3.journalDone q.seq s.cycle)).countCommand c
  | _ =>
    let run : MRun :=
      { q := { q with held := true, popped := q.popped || pop }
        mb := 0
        nb := 0
        ks := 0
        flags := 0
        pins := []
        bands := (s.takenBands i (wordParts q.word)).getD []
        banks := []
        admitted := false
        finished := false
        scales := [] }
    let s1 := (s.setSlot i { y2 with eng := { y2.eng with mrun := some run } }).mapCluster c fun k => { k with idleSince := none }
    (s1.flushLater i).mBegin i

/-- The slots that wait for the lease of a cluster, each since when: by a standing request, or for the words that MRELEASE has left to it (R278,
R296; log 117). -/
def Cluster.waiting (k : Cluster) : List (SlotId × Nat) := k.reqs ++ k.owed.map fun e => (e.1, e.2.1)

/-- The next holder of a lease (R278): the oldest request, then the lowest base priority number, core and slot. -/
def State.nextHolder (s : State) (c : Fin 64) : Option SlotId :=
  let key := fun (e : SlotId × Nat) => (e.2, (((s.slotOf e.1).task.map (·.prio)).getD 0), slotKey e.1)
  let less := fun (a b : Nat × Nat × Nat) =>
    decide (a.1 < b.1) || (decide (a.1 = b.1) && (decide (a.2.1 < b.2.1) || (decide (a.2.1 = b.2.1) && decide (a.2.2 < b.2.2))))
  ((s.clusterOf c).waiting.foldl (fun b e => match b with
    | none => some e
    | some d => if less (key e) (key d) then some e else some d) none).map (·.1)

/-- The lease is the slot's, or becomes it (R278). -/
def State.takeLease (s : State) (i : SlotId) : Option State :=
  let c := clusterOfCore i.core
  match (s.clusterOf c).holder with
  | some h => if h = i then some s else none
  | none =>
    if s.nextHolder c = some i then
      some (s.mapCluster c fun k =>
        { k with
          holder := some i
          cmds := 0
          steps := 0
          idleSince := some s.cycle
          ending := if k.reqs.any fun r => r.1 = i then none else (k.owed.find? fun r => r.1 = i).map (·.2.2)
          owed := k.owed.filter fun r => r.1 ≠ i })
    else none

/-- The word may start under the lease: an ending lease starts only the words forwarded before MRELEASE (R296). -/
def State.withinLease (s : State) (c : Fin 64) (q : QEntry) : Bool :=
  match (s.clusterOf c).ending with
  | none => true
  | some n => seqBefore q.seq n

/-- A command in progress whose word has entered its queue again after a save leaves it (R265, R251). -/
def Slot.reentered (x : Slot) (r : MRun) : Slot :=
  match x.eng.qs.mq with
  | q :: l => if q.seq = r.q.seq then x.setQueue .m l else x
  | [] => x

/-- M_START (R251, R303): the lease is taken, and the stopped command goes on, or the head word starts; a split waits for its grants
(R279). -/
def execMStart (i : SlotId) (s : State) : Host.Outcome State Fault Refusal :=
  .next (
    if s.runs i.core = false then s
    else match s.takeLease i with
      | none => s
      | some s1 =>
        let x := s1.slotOf i
        if x.eng.qs.mStop then s1
        else match x.eng.mrun with
          | some r =>
            match (if r.bands.isEmpty then s1.takenBands i (wordParts r.q.word) else some r.bands) with
            | none => s1
            | some bands =>
              if r.admitted then s1
              else
                let s2 := (s1.setSlot i (x.reentered r)).mapRun i fun r => { r with bands := bands }
                (s2.mapCluster (clusterOfCore i.core) fun k => { k with idleSince := none }).mBegin i
          | none =>
            match x.eng.qs.mq with
            | [] => s1
            | q :: _ =>
              if s1.withinLease (clusterOfCore i.core) q = false ∨ s1.lockedStores i = true ∨ (s1.bandSlots i (wordParts q.word)).isNone = true then s1
              else match x.startTokens .m q.word q.popped with
                | none => s1
                | some y => s1.mTake i q y)

/-! ### Micro-steps (R286, R306 to R309) -/

/-- Writes an element of a tile in a core. -/
def State.tilePut (s : State) (c : Fin 256) (t : Tile) (row col v : Nat) : State :=
  s.accPut c (t.base.toNat + row * t.rs + col) v

/-- An element of a tile. -/
def State.tileGet (s : State) (c : Fin 256) (t : Tile) (row col : Nat) : Nat :=
  s.accGet c (t.base.toNat + row * t.rs + col)

/-- SliceSum into an element, whose old value is zero at the first slice without accum. -/
def State.sumInto (s : State) (c : Fin 256) (p : MPlan) (ks row col : Nat) (x : Exact) : State × Sticky :=
  let old := if ks = 0 && !p.accum then 0 else s.tileGet c p.tile row col
  let r := sliceSum (fwAcc p.fw) old x
  (s.tilePut c p.tile row col r.1, r.2)

/-- Values of A at row i of a slice. -/
def State.aRow (s : State) (i : SlotId) (p : MPlan) (o : Operand) (d : List (Nat × BitVec 256)) (ts : List Nat) (row : Nat) : List Exact :=
  ts.map fun t => if p.transA then s.valueOf i o d t row else s.valueOf i o d row t

/-- Values of B at column j of a slice. -/
def State.bCol (s : State) (i : SlotId) (p : MPlan) (o : Operand) (d : List (Nat × BitVec 256)) (ts : List Nat) (col : Nat) : List Exact :=
  ts.map fun t => if p.transB then s.valueOf i o d col t else s.valueOf i o d t col

/-- Fetches rows r0 to r0 + rn - 1 by columns c0 to c0 + cn - 1 of an operand, with its axes swapped when it is read transposed. -/
def State.fetchBlock (s : State) (i : SlotId) (o : Operand) (trans : Bool) (rows cols : List Nat) : Except MErr (List (Nat × BitVec 256)) :=
  let r := if trans then cols else rows
  let c := if trans then rows else cols
  s.fetch i o r (c.headD 0) c.length

/-- The band of a step whose operands are fetched: result elements, then the checksum row in the last row block (R306, R290). -/
def State.bandStep (s : State) (p : MPlan) (c : Fin 256) (off nb ks : Nat) (rows : List Nat) (av : Nat → List Exact)
    (sums : Option (List Exact)) (bv : Nat → List Exact) : State × Sticky :=
  let upd := fun (t : State × Sticky) (row col : Nat) (l : List Exact) =>
    let r := t.1.sumInto c p ks row col (dot l (bv (off + col)))
    (r.1, t.2 ||| r.2)
  let s1 := rows.foldl (fun t row => (p.colsOf nb).foldl (fun t col => upd t row col (av row)) t) (s, 0)
  match sums with
  | none => s1
  | some l => (p.colsOf nb).foldl (fun t col => upd t p.rows col l) s1

/-- The bands of a step, in order. -/
def State.bandSteps (s : State) (i : SlotId) (p : MPlan) (ob : Operand) (nb ks : Nat) (ts rows : List Nat) (av : Nat → List Exact)
    (sums : Option (List Exact)) : Nat → List (SlotId × Nat) → Except MErr (State × Sticky)
  | _, [] => .ok (s, 0)
  | n, (j, _) :: r =>
    let off := n * p.bandCols
    match s.fetchBlock i ob p.transB ts ((p.colsOf nb).map (off + ·)) with
    | .error e => .error e
    | .ok bd =>
      let t := s.bandStep p j.core off nb ks rows av sums (s.bCol i p ob bd ts)
      match t.1.bandSteps i p ob nb ks ts rows av sums (n + 1) r with
      | .error e => .error e
      | .ok u => .ok (u.1, t.2 ||| u.2)

/-- The slices of step (mb, nb, ks) of an MMA. -/
def State.mmaSlices (s : State) (i : SlotId) (p : MPlan) (r : MRun) (oa ob : Operand) : Except MErr (State × Sticky) :=
  let ts := (List.range (min p.k (r.ks * p.slice + p.slice) - r.ks * p.slice)).map (r.ks * p.slice + ·)
  let rows := p.rowsOf r.mb
  let last := p.check && r.mb + 1 == p.mbs
  let need := if last then List.range p.rows else rows
  match s.fetchBlock i oa p.transA need ts with
  | .error e => .error e
  | .ok ad =>
    let av := s.aRow i p oa ad ts
    let sums := if last then
        some (ts.map fun t => columnSum ((List.range p.rows).map fun row =>
          if p.transA then s.valueOf i oa ad t row else s.valueOf i oa ad row t))
      else none
    s.bandSteps i p ob r.nb r.ks ts rows av sums 0 r.bands

/-- A block drain (R306) with the slot's drain generators. -/
def State.drainBlock (s : State) (i : SlotId) (p : MPlan) (d : DrainTo) (mb nb : Nat) : Except MErr (State × Sticky) :=
  let vec := (s.slotOf i).eng.vec
  let cols := p.colsOf nb
  match (⟨s, vec.gens, 0⟩ : DrainState).rows p.fw i i.core p.tile d vec (cols.headD 0) cols.length (p.rowsOf mb) with
  | .error e => .error e
  | .ok t => .ok (t.s.mapSlot i fun x => { x with eng := { x.eng with vec := { x.eng.vec with gens := t.gens } } }, t.flags)

/-- Loads or zeroes a block. -/
def State.fillBlock (s : State) (i : SlotId) (p : MPlan) (mb nb : Nat) (v : Nat → Nat → Nat) : State :=
  (p.rowsOf mb).foldl (fun t row => (p.colsOf nb).foldl (fun t col => t.tilePut i.core p.tile row col (v row col)) t) s

/-- An accumulator element of the step as the injector leaves it: one bit of an element of the step's block turns (R349, Table 12). -/
def State.struckAcc (s : State) (i : SlotId) (p : MPlan) (r : MRun) : State :=
  let die := dieOfCore i.core
  if s.hit die (s.partNo i.core) .acc (slotKey i) then
    let b := s.struckBits die .acc (slotKey i)
    let rows := p.rowsOf r.mb
    let cols := p.colsOf r.nb
    let bands : List (Fin 256) := match p.kind with
      | .mma => r.bands.map fun e => e.1.core
      | _ => []
    let c := bands.getD (b / 2 ^ 29 % bands.length) i.core
    let row := rows.getD (b / 2 ^ 5 % rows.length) 0
    let col := cols.getD (b / 2 ^ 13 % cols.length) 0
    s.tilePut c p.tile row col (s.tileGet c p.tile row col ^^^ 2 ^ (b % 32))
  else s

/-- Step (mb, nb, ks) without an error: the state with all of it done, or the first fault with none of it. -/
def State.mStepOnce (s : State) (i : SlotId) (p : MPlan) (r : MRun) : Except MErr (State × Sticky) :=
  match p.kind, p.a, p.b, p.d with
  | .mma, some oa, some ob, d =>
    match s.mmaSlices i p r oa ob with
    | .error e => .error e
    | .ok t =>
      match d with
      | some d =>
        if r.ks + 1 = p.kss then match t.1.drainBlock i p d r.mb r.nb with
          | .error e => .error e
          | .ok u => .ok (u.1, t.2 ||| u.2)
        else .ok t
      | none => .ok t
  | .drain, _, _, some d => s.drainBlock i p d r.mb r.nb
  | .load, _, some o, _ =>
    match s.fetchBlock i o false (p.rowsOf r.mb) (p.colsOf r.nb) with
    | .error e => .error e
    | .ok d => .ok (s.fillBlock i p r.mb r.nb (o.code d), 0)
  | _, _, _, _ => .ok (s.fillBlock i p r.mb r.nb fun _ _ => 0, 0)

/-- Step (mb, nb, ks); after one that writes the accumulators the injector may hit an element. -/
def State.mStep (s : State) (i : SlotId) (p : MPlan) (r : MRun) : Except MErr (State × Sticky) :=
  match s.mStepOnce i p r, p.kind with
  | .error e, _ => .error e
  | .ok t, .drain => .ok t
  | .ok t, _ => .ok (t.1.struckAcc i p r, t.2)

/-- The step after this one in the order of R286. -/
def MPlan.advance (p : MPlan) (r : MRun) : MRun :=
  if r.ks + 1 < p.kss then { r with ks := r.ks + 1 }
  else if r.nb + 1 < p.nbs then { r with ks := 0, nb := r.nb + 1 }
  else if r.mb + 1 < p.mbs then { r with ks := 0, nb := 0, mb := r.mb + 1 }
  else { r with finished := true }

/-- MICRO_STEP (R286): the lease holder's command does its next step; one that faults leaves nothing of the step (R303 step 7).
It waits while a commit holds a granule of its segments locked (R218; log 104). -/
def execMicroStep (i : SlotId) (s : State) : Host.Outcome State Fault Refusal :=
  .next (
    let x := s.slotOf i
    let c := clusterOfCore i.core
    if s.runs i.core = false ∨ (s.clusterOf c).holder ≠ some i then s
    else match x.eng.mrun, x.eng.qs.fq with
      | some r, fw :: _ =>
        if r.admitted = false ∨ r.finished = true ∨ s.segLocked r.pins = true then s
        else match x.planOf r.q fw with
          | none => s
          | some p =>
            match s.mStep i p r with
            | .error e => s.mErr i e
            | .ok (t, f) =>
              (t.mapRun i fun r => { p.advance r with flags := r.flags ||| f }).mapCluster c fun k => { k with steps := k.steps + p.parts }
      | _, _ => s)

/-! ### Completion and stops -/

/-- M_COMPLETE (R289, R252): token, flags, pins, format word, grant tokens; the command counts in its lease. -/
def execMComplete (i : SlotId) (s : State) : Host.Outcome State Fault Refusal :=
  .next (
    match (s.slotOf i).eng.mrun with
    | none => s
    | some r =>
      if r.finished = false then s else s.mFinish i r)

/-- QUIESCENT_POINT (R288, R330, R363): Campion stops between steps for a slot whose core is stopped: MUPC is written and the lease ends; the
command stays pinned what it was until it completes (R175). -/
def execQuiescentPoint (i : SlotId) (s : State) : Host.Outcome State Fault Refusal :=
  .next (
    match (s.slotOf i).eng.mrun with
    | none => s
    | some r =>
      if s.runs i.core ∨ r.admitted = false ∨ r.finished = true then s
      else (s.stopCampion i).mapRun i fun r => { r with admitted := false })

/-- LEASE_IDLE_TIMEOUT (R278): 256 cycles with the holder's queue empty or its head waiting on a token, while another request waits. -/
def execLeaseIdleTimeout (c : Fin 64) (s : State) : Host.Outcome State Fault Refusal :=
  .next (
    let k := s.clusterOf c
    match k.holder, k.idleSince with
    | some h, some t =>
      let x := s.slotOf h
      let idle : Bool := match x.eng.qs.mq with
        | [] => true
        | q :: _ => !q.popped && match waitEng .m q.word with
          | some a => decide ((x.token a .m).n = 0)
          | none => false
      if idle ∧ s.cycle ≥ t + 256 ∧ (k.waiting.any fun r => r.1 ≠ h) = true then s.endLease c else s
    | _, _ => s)

/-! ### Banks in use (R359) -/

/-- A slot's M command in progress reads or writes a bank of a core. -/
def State.mUses (s : State) (i : SlotId) (c : Fin 256) (bank : Nat) : Bool :=
  let x := s.slotOf i
  match x.eng.mrun, x.eng.qs.fq with
  | some r, fw :: _ => r.admitted && (r.bands.any fun b => b.1.core = c) && match x.planOf r.q fw with
    | some p => (p.tile.banks p.tile.rows p.bandCols).contains bank
    | none => false
  | _, _ => false

/-- The slots of a core's cluster. -/
def clusterSlots (c : Fin 256) : List SlotId :=
  (List.range 4).flatMap fun j => slotsOf (coreNo (c.val / 4 * 4 + j))

/-- Some M command in progress uses a bank of a core. -/
def State.bankBusy (s : State) (c : Fin 256) (bank : Nat) : Bool :=
  (clusterSlots c).any fun i => s.mUses i c bank

/-- A split in progress writes a bank of a core. -/
def State.bankSplit (s : State) (c : Fin 256) (bank : Nat) : Bool :=
  (clusterSlots c).any fun i => s.mUses i c bank && match (s.slotOf i).eng.mrun with
    | some r => decide (1 < wordParts r.q.word)
    | none => false

/-! ### Forwarding -/

/-- An M word at the control core: forwarded (R22). -/
def mForward (i : Instr) (s : State) : Host.Outcome State Fault Refusal :=
  runOp (forwardOp .m (encode i) none) s

/-- MNOP (R304). -/
def execMnop (k : Tok) (s : State) : Host.Outcome State Fault Refusal :=
  mForward (.mnop k) s

/-- MMA (R305, R306). -/
def execMma (u : Fin 8) (t a b : Fin 16) (m x y k f : Bool) (q : Tok) (s : State) : Host.Outcome State Fault Refusal :=
  mForward (.mma u t a b m x y k f q) s

/-- MZERO (R307). -/
def execMzero (t : Fin 16) (k : Tok) (s : State) : Host.Outcome State Fault Refusal :=
  mForward (.mzero t k) s

/-- MDRAIN (R308). -/
def execMdrain (t a : Fin 16) (k : Tok) (s : State) : Host.Outcome State Fault Refusal :=
  mForward (.mdrain t a k) s

/-- MLOADC (R309). -/
def execMloadc (t a : Fin 16) (k : Tok) (s : State) : Host.Outcome State Fault Refusal :=
  mForward (.mloadc t a k) s

end Sys2Proof.Machine
end

