-- ==== Sys2Proof/Machine/Tasks.lean ====
section
/-! DEFINITION. Task, domain, scope and graph instructions (07 R157 to R164; 17 R351, R352; 16 R342). -/

namespace Sys2Proof.Machine

/-- The executing task: the slot's task, also from its handler (R327); an instruction that needs one is refused without. -/
def withTask (d : Fin 32) (f : TaskInfo → Op Unit) : Op Unit := do
  noTx
  match (← get).me.task with
  | none => resultOp d 3
  | some t => f t

/-! ### SPAWN (R158) -/

/-- Records of a task in the deque and spill of its core (R105). -/
def State.owned (s : State) (c : Fin 256) (p : Fin 16) (serial : Nat) : Nat :=
  ((s.coreOf c).deque.filter fun r => r.owner == some serial && decide (r.info.part = p)).length

/-- Admission by a task of a checked record: the status, and the record with its place (R122, R158). -/
def State.spawnRec (s : State) (t : TaskInfo) (r : Rec) : Except Nat (State × Rec) :=
  let q := (s.partOf t.part).withRoot
  match q.scopeFor r (some t.scope) with
  | none => .error 3
  | some x =>
    if q.cancelled x then .error 2
    else match s.admitRec r x with
      | none => .error 3
      | some a => .ok a

/-- The reservation of a record can be made now (R104). -/
def State.canReserve (s : State) (p : Fin 16) (c : Caps) : Bool :=
  ((s.partOf p).reserve c.deque c.launch).isSome

/-- SPAWN (R158). -/
def execSpawn (d a : Fin 32) (s : State) : Host.Outcome State Fault Refusal :=
  runOp (withTask d fun t => do
    let p := s.reg a
    memOperand p 64 0
    let w ← wordsAt p 0 2
    releaseOp 5
    askOp t.part ((← get).headerWants t.part s.me.ctx.root w)
    let s1 := (← get).forget t.part
    let c := s1.cur.core
    match s1.readRecord t.part s1.me.ctx.root w false with
    | none => set (s1.result d 3)
    | some r =>
      if s1.canReserve t.part r.info.caps = false ∨ s1.owned c t.part t.serial ≥ t.caps.deque then set (s1.result d 3)
      else match s1.spawnRec t r with
        | .error e => set (s1.result d (word e))
        | .ok (s2, r) => set ((s2.pushHead c { r with owner := some t.serial }).result d 0)) s

/-! ### TEND and YIELD -/

/-- TEND (R159): the task issues nothing more, and TASK_END follows. A supervisor slot that has released its frame becomes Free; with a
frame in hand TEND does nothing (R327; log 37). -/
def execTend (s : State) : Host.Outcome State Fault Refusal :=
  runOp (do
    noTx
    match s.me.task with
    | some _ => modify fun s => s.setMe { s.me.issued s.cycle with sched := { (s.me.issued s.cycle).sched with ended := true } }
    | none =>
      if s.me.frame.inTrap then modify State.retire
      else do drainOp; modify fun s => s.freeSlot s.cur) s

/-- YIELD (R160, R109). -/
def execYield (s : State) : Host.Outcome State Fault Refusal :=
  runOp (do noTx; waitOp .yield) s

/-! ### AWAIT (R161) -/

/-- The read of AWAIT with the effect of LD.S.acq, and its decision. -/
def awaitOp (d : Fin 32) (p goal : Word) : Op Unit := do
  let t ← memTarget p 8 .load
  drainOp
  let g ← homeOp t .read
  let v ← consume g [] t.loc t.off 8 p 8
  modify fun s => s.acquire s.cur 5 s.me.binds.last
  if goal.toNat ≤ v.toNat then resultOp d 0 else waitOp (.await d p goal t.loc)

/-- AWAIT (R161). -/
def execAwait (d a b : Fin 32) (s : State) : Host.Outcome State Fault Refusal :=
  runOp (do
    noTx
    memOperand (s.reg a) 8 8
    awaitOp d (s.reg a) (s.reg b)) s

/-! ### Domains (R162) -/

/-- The member that a task is at a level, with the domain's id. -/
def State.memberAt (s : State) (t : TaskInfo) (x : Slot) (l : Nat) : Option (Nat × Member) :=
  let id := x.dom l
  if id = 0 then none
  else match s.domOf t.part l id with
    | none => none
    | some d => (d.member (taskNo t.part t.serial)).map fun m => (id, m)

/-- Sets the membership register of a level. -/
def Slot.setDom (x : Slot) (l id : Nat) : Slot :=
  { x with doms := if id = 0 then tdrop x.doms l else tput x.doms l id }

/-- A message about the executing task to a domain's home on another device, and its answer: the instruction returns when the home has
answered (R162, R390; log 75). -/
def domAskOp (t : TaskInfo) (dev id : Nat) (m : DomMsg) : Op Granule := do
  pure (← remoteOp dev 0 (.dom ((← get).fgid t.part) id (taskNo t.part t.serial) m) false).g

/-- The member that another device's home has told of its arrival; the phase may have ended before the answer came. -/
def State.farArrived (s : State) (t : TaskInfo) (l id : Nat) (g : Granule) : State :=
  s.mapDom t.part l id fun x => if x.phase ≤ domAnswerPhase g then x.mapMember (taskNo t.part t.serial) Member.arrive else x

/-- DOMJOIN (R118, R162). -/
def execDomjoin (d a : Fin 32) (l : Fin 8) (s : State) : Host.Outcome State Fault Refusal :=
  runOp (withTask d fun t => do
    let n := (s.reg a).toNat
    let far := s.domHome t.part l.val n
    if n = 0 ∨ n ≥ 2 ^ 16 ∨ s.me.dom l.val ≠ 0 ∨ (far.isSome = true ∧ s.fgid t.part = 0) then resultOp d 3
    else if let some dev := far then do
      let g ← domAskOp t dev n .join
      if domStatus g ≠ 0 then resultOp d 3
      else modify fun s =>
        let s1 := s.domMirror t.part s.cur.core (taskNo t.part t.serial) l.val n (domAnswerPhase g)
        (s1.setMe (s1.me.setDom l.val n)).result d 0
    else match s.domJoin t.part s.cur.core (taskNo t.part t.serial) l.val n with
      | none => resultOp d 3
      | some s1 => set ((s1.setMe (s1.me.setDom l.val n)).result d 0)) s

/-- DOMLEAVE (R118, R162). -/
def execDomleave (d : Fin 32) (l : Fin 8) (s : State) : Host.Outcome State Fault Refusal :=
  runOp (withTask d fun t =>
    match s.memberAt t s.me l.val with
    | none => resultOp d 3
    | some (id, _) => do
      let gone := fun (s : State) (f : Dom → Dom) =>
        let s1 := s.mapDom t.part l.val id f
        (s1.setMe (s1.me.setDom l.val 0)).result d 0
      match s.domHome t.part l.val id with
      | some dev => do
        let _ ← domAskOp t dev id .leave
        modify fun s => gone s fun x => x.without (taskNo t.part t.serial)
      | none => modify fun s => gone s fun x => x.leave (taskNo t.part t.serial)) s

/-- Changes the executing task's member, and completes the phase where that is due (R119). -/
def State.mapMe (s : State) (t : TaskInfo) (l id : Nat) (f : Member → Member) : State :=
  s.mapDom t.part l id fun x => (x.mapMember (taskNo t.part t.serial) f).settle

/-- BARDECL (R119, R162). -/
def execBardecl (d a : Fin 32) (l : Fin 8) (s : State) : Host.Outcome State Fault Refusal :=
  runOp (withTask d fun t =>
    let n := (s.reg a).toNat
    match s.memberAt t s.me l.val with
    | none => resultOp d 3
    | some (id, m) =>
      if let some dev := s.domHome t.part l.val id then do
        if n ≥ 2 ^ 40 then resultOp d 3
        else
          let g ← domAskOp t dev id (.declare n)
          resultOp d (word (domStatus g))
      else if n ≥ 2 ^ 40 ∨ (if m.decl then m.count else 0) + n ≥ 2 ^ 40 ∨ m.arr = true then resultOp d 3
      else if m.broken then resultOp d 4
      else modify fun s => (s.mapMe t l.val id fun m => m.declare n).result d 0) s

/-- BARARR (R119, R120, R162): an arrival is a release at the domain's scope (R217). -/
def execBararr (d : Fin 32) (l : Fin 8) (s : State) : Host.Outcome State Fault Refusal :=
  runOp (withTask d fun t =>
    match s.memberAt t s.me l.val with
    | none => resultOp d 3
    | some (id, m) =>
      if m.arr then resultOp d 3
      else if let some dev := s.domHome t.part l.val id then do
        releaseOp l.val
        let g ← domAskOp t dev id .arrive
        modify fun s => (if domStatus g = 0 then s.farArrived t l.val id g else s).result d (word (domStatus g))
      else if m.broken then modify fun s => (s.mapMe t l.val id fun m => { m with broken := false }).result d 4
      else do
        releaseOp l.val
        modify fun s => (s.mapMe t l.val id Member.arrive).result d 0) s

/-- A BARWAIT reports the result of the phase its member arrived in (R120): OK, after which an overrun traps, or BROKEN. The return is
an acquire (R217). -/
def State.barReturn (s : State) (i : SlotId) (t : TaskInfo) (d : Fin 32) (l id : Nat) (m : Member) (r : PhaseEnd) : State :=
  let s1 := (s.acquire i (max l 1) s.now).mapDom t.part l id fun x =>
    x.mapMember (taskNo t.part t.serial) fun m => { m with result := none, overrun := none }
  let x := s1.slotOf i
  let y := (x.setActive (x.active.set d (match r with | .ok _ => 0 | .broken => 4))).issued s1.cycle
  let s2 := s1.setSlot i { y with pc := nextPc x.pc, status := .ready }
  match r, m.overrun with
  | .ok _, some (e, ph) => s2.syncTrap i (nextPc x.pc) ⟨0x11, word e, word (l * 2 ^ 16 + id), word ph, 0⟩
  | _, _ => s2

/-- BARWAIT (R120, R162). -/
def execBarwait (d : Fin 32) (l : Fin 8) (s : State) : Host.Outcome State Fault Refusal :=
  runOp (withTask d fun t =>
    match s.memberAt t s.me l.val with
    | none => resultOp d 3
    | some (id, m) =>
      match m.result with
      | some r => modify fun s => s.barReturn s.cur t d l.val id m r
      | none =>
        if m.arr then waitOp (.barwait d l)
        else if let some dev := s.domHome t.part l.val id then do
          releaseOp l.val
          let g ← domAskOp t dev id .arrive
          if domStatus g = 0 then do
            modify fun s => s.farArrived t l.val id g
            match (← get).memberAt t s.me l.val with
            | some (_, m) => match m.result with
              | some r => modify fun s => s.barReturn s.cur t d l.val id m r
              | none => waitOp (.barwait d l)
            | none => waitOp (.barwait d l)
          else modify fun s => (s.acquire s.cur (max l.val 1) s.now).result d (word (domStatus g))
        else if m.broken then
          modify fun s => ((s.mapMe t l.val id fun m => { m with broken := false }).acquire s.cur (max l.val 1) s.now).result d 4
        else do
          releaseOp l.val
          modify fun s => s.mapMe t l.val id Member.arrive
          match (← get).memberAt t s.me l.val with
          | some (_, m) => match m.result with
            | some r => modify fun s => s.barReturn s.cur t d l.val id m r
            | none => waitOp (.barwait d l)
          | none => waitOp (.barwait d l)) s

/-! ### Scopes -/

/-- Stores 8 bytes at once, as a store of the executing task that is performed, or on its way to another device, before the instruction returns
(R163). -/
def storeNow (t : Target) (p pc v : Word) : Op Unit := fun s =>
  let q := storeReq t 8 false p pc v
  match (s.setMe { s.me with sq := s.me.sq ++ [q] }).performStore s.cur s.me.sq.length q with
  | .ok s1 => .ok ((), s1)
  | .error f => .error (.become ((s.storeSite s.cur q).consumedMe f.inj (storeTrap q f)))

/-- The lowest free scope id from i on (R121). -/
def freeScope (q : Part) : Nat → Nat → Option Nat
  | _, 0 => none
  | i, n + 1 => if (q.scope i).isNone then some i else freeScope q (i + 1) n

/-- SCNEW (R163). -/
def execScnew (d a : Fin 32) (s : State) : Host.Outcome State Fault Refusal :=
  runOp (withTask d fun t => do
    let p := s.reg a
    memOperand p 16 24
    let w ← memTarget p 24 .store
    let s1 ← get
    let q := (s1.partOf t.part).withRoot
    if q.scopes.length ≥ 4096 then resultOp d 3
    else if q.cancelled t.scope then resultOp d 2
    else match freeScope q 1 65535 with
      | none => resultOp d 3
      | some id => do
        drainOp
        unlockedOp w.loc
        storeNow w p s.pc 0
        let w2 := match w with
          | .mem n pa u => Target.mem n (pa + 8) u
          | .remote n pa d => .remote n (pa + 8) d
          | .seg g o => .seg g (o + 8)
        storeNow w2 (p + 8) s.pc (word id)
        modify fun s => (s.mapPart t.part fun q =>
          let q := q.withRoot
          { q with scopes := q.scopes ++
            [⟨id, t.scope, some t.serial, 0, false, some (s.me.ctx.root, bitsOf p 0 48), false, 0, 0, []⟩] }).result d 0) s

/-- The kill of a slot's own task becomes pending at once when it has cancelled a scope that it is in (R351, R373). -/
def Slot.cancelsSelf (x : Slot) (q : Part) (scope : Nat) : Slot :=
  match x.task with
  | some t => if q.within t.scope scope then { x with pend := { x.pend with kill := some (x.pend.kill.getD scope) } } else x
  | none => x

/-- CANCEL (R351, R342): a release at .sys, then the mark; a task that is in the scope executes nothing after it. -/
def execCancel (d a : Fin 32) (s : State) : Host.Outcome State Fault Refusal :=
  runOp (do
    noTx
    let x := (s.reg a).toNat
    let p := s.partNo s.cur.core
    let q := (s.partOf p).withRoot
    let own := (s.me.task.map (·.scope)).getD 0
    if x ≥ 2 ^ 16 ∨ (q.scope x).isNone = true ∨ (s.me.level = .task ∧ q.within x own = false) then resultOp d 3
    else do
      releaseOp 5
      modify fun s => (((s.mapPart p fun q => q.withRoot.markScope x s.cycle).result d 0).mapSlot s.cur fun y => y.cancelsSelf q x)) s

/-- CANCELWAIT (R352, R346). -/
def execCancelwait (d a : Fin 32) (s : State) : Host.Outcome State Fault Refusal :=
  runOp (withTask d fun t => do
    let x := (s.reg a).toNat
    let q := (s.partOf t.part).withRoot
    if x ≥ 2 ^ 16 ∨ (q.scope x).isNone = true ∨ q.within x t.scope = false ∨ q.cancelled x = false then resultOp d 3
    else if s.ackReady t.part x = false then stallOp (.cancel x)
    else modify fun s => (((s.acknowledge t.part x).acquire s.cur 5 s.now).result d 0).reap t.part) s

/-! ### Graphs (R113 to R115, R164) -/

/-- A graph object as R113 lays it out (Table 6). -/
structure Graph where
  n : Nat
  nodes : Nat
  indeg : Nat
  inst : Nat
  ninst : Nat
  pbytes : Nat
  params : Nat
  gword : Nat
  deriving DecidableEq, Repr

/-- The checks of a graph object: none where a field is out of range (log 38). -/
def graphOf (l : List Word) : Option Graph :=
  let w := fun (i : Nat) => imgWord l i
  if bitsOf (w 0) 16 48 = 0 ∧ 1 ≤ bitsOf (w 0) 0 16 ∧ bitsOf (w 4) 4 60 = 0 ∧ 1 ≤ bitsOf (w 4) 0 4 ∧ (w 5).toNat ≤ 4096 ∧
      (w 5).toNat % 64 = 0 ∧ (w 1).toNat % 64 = 0 ∧ (w 3).toNat % 64 = 0 ∧ (w 2).toNat % 2 = 0 ∧
      (w 7 = 0 ∨ (globalPtr (w 7) = true ∧ (w 7).toNat % 8 = 0)) then
    some ⟨bitsOf (w 0) 0 16, bitsOf (w 1) 0 48, bitsOf (w 2) 0 48, bitsOf (w 3) 0 48, bitsOf (w 4) 0 4, (w 5).toNat, bitsOf (w 6) 0 48,
      (w 7).toNat⟩
  else none

/-- Bytes of an instance (R113). -/
def Graph.size (g : Graph) : Nat := (g.n * (64 + g.pbytes) + 2 * g.n + 63) / 64 * 64

/-- Where a node's record copy lies in instance k; its parameter copy follows it (log 38). -/
def Graph.nodeVa (g : Graph) (k i : Nat) : Nat := g.inst + k * g.size + i * (64 + g.pbytes)

/-- Where the counters of instance k begin. -/
def Graph.ctrVa (g : Graph) (k : Nat) : Nat := g.inst + k * g.size + g.n * (64 + g.pbytes)

/-- Whole granules of double words. -/
def gransOf : List Word → List (BitVec 256)
  | a :: b :: c :: d :: r => (d ++ c ++ b ++ a) :: gransOf r
  | _ => []

/-- Whole granules of 16-bit counters, n of them. -/
def counterGrans (l : List Nat) (n : Nat) : List (BitVec 256) :=
  (List.range n).map fun k => BitVec.ofNat 256 (((List.range 16).map fun j => l.getD (16 * k + j) 0 * 2 ^ (16 * j)).sum)

/-- Writes whole granules at a VA as the device, with fresh seals (R398, R190). -/
def State.devPutGrans (s : State) (p : Fin 16) (root : Nat) : Nat → List (BitVec 256) → State
  | _, [] => s
  | va, d :: r => (s.devUpdate p root va (.whole d)).devPutGrans p root (va + 32) r

/-- Every granule from a VA on translates as writable by the device. -/
def State.devWritable (s : State) (p : Fin 16) (root va : Nat) : Nat → Bool
  | 0 => true
  | n + 1 => (s.devSite p root (va + 32 * n) .store).isSome && s.devWritable p root va n

/-- A node's record as its copy holds it (R114). -/
def nodeCopy (w : List Word) (g : Graph) (k i : Nat) : List Word :=
  let c := setAt w 2 (imgWord w 2 ||| ((1 : Word) <<< 39))
  if g.pbytes = 0 then c else setAt c 1 (word (g.nodeVa k i + 64))

/-- Whole double words of bytes. -/
def wordsOf : List Byte → List Word
  | a :: b :: c :: d :: e :: f :: g :: h :: r => word (bytesNat [a, b, c, d, e, f, g, h]) :: wordsOf r
  | _ => []

/-- What the snapshot has still to ask other devices for (R398): records, parameters and counters, then the headers that records name. -/
def State.graphWants (s : State) (p : Fin 16) (root : Nat) (g : Graph) : List Want :=
  let span := fun (va n : Nat) => if n = 0 then [] else s.wants p root (va / 32 * 32) ((va % 32 + n + 31) / 32)
  span g.nodes (64 * g.n) ++ span g.params (g.pbytes * g.n) ++ span g.indeg (2 * g.n) ++
    (List.range g.n).flatMap fun i => match s.devWords p root (g.nodes + 64 * i) 8 with
      | some w => s.headerWants p root w
      | none => []

/-- The snapshot of node i and those after it: record copies, parameters and counters; none where one cannot be read. -/
def State.snapshot (s : State) (p : Fin 16) (root : Nat) (g : Graph) (k : Nat) : Nat → Nat → Option (List (List Word × List Word × Nat))
  | _, 0 => some []
  | i, n + 1 =>
    match s.devWords p root (g.nodes + 64 * i) 8, s.devBytes p root (g.params + g.pbytes * i) g.pbytes,
        s.devRead16 p root (g.indeg + 2 * i), s.snapshot p root g k (i + 1) n with
    | some w, some q, some c, some r => some ((nodeCopy w g k i, wordsOf q, c) :: r)
    | _, _, _, _ => none

/-- The checked records of an instance (R100): none where one is refused. -/
def State.nodeRecs (s : State) (t : TaskInfo) (root graph k : Nat) : Nat → List (List Word) → Option (List Rec)
  | _, [] => some []
  | i, w :: r =>
    match s.readRecord t.part root w true, s.nodeRecs t root graph k (i + 1) r with
    | some x, some l => some ({ x with info := { x.info with node := some (graph, k * 65536 + i) } } :: l)
    | _, _ => none

/-- The reservation for all nodes together can be made (R104). -/
def Part.fits (q : Part) (l : List Rec) : Bool :=
  decide ((l.map fun r => r.info.caps.deque).sum ≤ q.spool) && decide ((l.map fun r => r.info.caps.launch).sum ≤ q.lpool)

/-- The scopes of an instance's nodes, node by node (R122, R164): DROPPED if any of them is cancelled, or else REFUSED if a node has none. -/
def Part.nodeScopes (q : Part) (scope : Nat) (l : List Rec) : Except Nat (List Nat) :=
  let xs := l.map fun r => q.scopeFor r (some scope)
  if xs.any fun x => x.any q.cancelled then .error 2
  else if xs.all Option.isSome then .ok (xs.filterMap id)
  else .error 3

/-- Admits checked records into their scopes. -/
def State.admitAll (s : State) : List (Rec × Nat) → Option (State × List Rec)
  | [] => some (s, [])
  | (r, x) :: l =>
    match s.admitRec r x with
    | none => none
    | some (s1, y) => (s1.admitAll l).map fun a => (a.1, y :: a.2)

/-- Admits the nodes of an instance (R114, R164): every record is checked, then all are reserved, then come the scopes (R100); none of them
stays where one fails. -/
def State.admitNodes (s : State) (t : TaskInfo) (root graph k : Nat) (l : List (List Word)) : Except Nat (State × List Rec) :=
  let q := (s.partOf t.part).withRoot
  match s.nodeRecs t root graph k 0 l with
  | none => .error 3
  | some recs =>
    if q.fits recs = false then .error 3
    else if q.cancelled t.scope then .error 2
    else match q.nodeScopes t.scope recs with
      | .error e => .error e
      | .ok xs => match s.admitAll (recs.zip xs) with
        | none => .error 3
        | some a => .ok a

/-- Writes the copies of an instance into its area. -/
def State.putNodes (s : State) (p : Fin 16) (root : Nat) (g : Graph) (k : Nat) : Nat → List (List Word × List Word × Nat) → State
  | _, [] => s
  | i, (w, q, _) :: r => (s.devPutGrans p root (g.nodeVa k i) (gransOf (w ++ q))).putNodes p root g k (i + 1) r

/-- The lowest instance of a graph that is free. -/
def Part.freeInst (q : Part) (graph n : Nat) : Option Nat :=
  (List.range n).find? fun k => !q.insts.any fun g => g.graph == graph && g.index == k

/-- GRUN after its graph object has been read (R114, R164). -/
def State.graphRun (s : State) (t : TaskInfo) (root va : Nat) (g : Graph) : Except Nat State :=
  let graph := root * 2 ^ 48 + va
  let p := t.part
  match (s.partOf p).freeInst graph g.ninst with
  | none => .error 3
  | some k =>
    match s.snapshot p root g k 0 g.n with
    | none => .error 3
    | some l =>
      if s.devWritable p root (g.inst + k * g.size) (g.size / 32) = false then .error 3
      else match s.admitNodes t root graph k (l.map (·.1)) with
        | .error e => .error e
        | .ok (s1, recs) =>
          let ctrs := l.map (·.2.2)
          let i : GInst :=
            { graph := graph
              index := k
              root := root
              n := g.n
              recs := recs
              ctrs := ctrs
              area := g.ctrVa k
              left := g.n
              unplaced := (List.range g.n).filter fun j => ctrs.getD j 0 == 0
              broken := false
              gword := g.gword }
          let s2 := (s1.putNodes p root g k 0 l).devPutGrans p root (g.ctrVa k) (counterGrans ctrs ((2 * g.n + 63) / 64 * 2))
          .ok (s2.mapPart p fun q => { q with insts := q.insts ++ [i] })

/-- GRUN (R164). -/
def execGrun (d a : Fin 32) (s : State) : Host.Outcome State Fault Refusal :=
  runOp (withTask d fun t => do
    let p := s.reg a
    memOperand p 64 0
    let w ← wordsAt p 0 2
    releaseOp 5
    match graphOf w with
    | none => resultOp d 3
    | some g =>
      askOp t.part ((← get).graphWants t.part s.me.ctx.root g)
      let s1 := (← get).forget t.part
      match s1.graphRun t s1.me.ctx.root (bitsOf p 0 48) g with
      | .error e => set (s1.result d (word e))
      | .ok s2 => set (s2.result d 0)) s

end Sys2Proof.Machine
end

