-- ==== Sys2Proof/Machine/Launch.lean ====
section
/-! DEFINITION. Tasks from record to end: start, resume, preload, end (05 R97 to R102; 16 R336, R340), the launch engine (R106 to R108),
graph nodes (R114), stealing and spills (R111, R112), and kills (16 R342 to R346). -/

namespace Sys2Proof.Machine

/-! ### Starting -/

/-- Replaces the deque of a core. -/
def State.setDeque (s : State) (c : Fin 256) (l : List Rec) : State :=
  s.mapCore c fun k => { k with deque := l }

/-- The newest record that is not spilled, and the others. -/
def takeHead : List Rec → Option (Rec × List Rec)
  | [] => none
  | r :: l => if r.spilled then (takeHead l).map fun a => (a.1, r :: a.2) else some (r, l)

/-- The record a core would start next: the head of its deque (R111). -/
def State.headRec (s : State) (c : Fin 256) : Option (Rec × List Rec) := takeHead (s.coreOf c).deque

/-- A record's task starts on a slot in an environment, once what other devices must be asked for is there (R102, R398); then its place is
given up. -/
def State.startIn (s : State) (i : SlotId) (r : Rec) (e : Nat) (leave : State → State) : State :=
  s.reading r.info.part (s.startWants r e) fun s =>
    match (leave s).startRec i r e with
    | some t => t
    | none => s.devFail r.info.part

/-- A core starts the head record, if it is no resume record, on a Free slot with the free environment of lowest index (R102, R111); a record
of a scope whose mark the core has seen is dropped (R344). -/
def State.taskStart (s : State) (i : SlotId) : State :=
  if s.starts i.core = false ∨ (s.slotOf i).status ≠ .free then s
  else match s.headRec i.core with
    | none => s
    | some (r, l) =>
      match r.kind with
      | .resume _ _ _ => s
      | _ =>
        if s.recSeen i.core r then (s.setDeque i.core l).dropRec r
        else match s.freeEnv r.info.part with
          | none => s
          | some e => s.startIn i r e fun s => s.setDeque i.core l

/-- TASK_START (R102, R111). -/
def execTaskStart (i : SlotId) (s : State) : Host.Outcome State Fault Refusal :=
  .next (s.taskStart i)

/-- A saved task is killed in its area: the area is discarded, its segments and banks are freed (R344); what its copies have sent, and the
dirty FIFO of its core, come before its scope's acknowledgement (R219). -/
def State.dropSaved (s : State) (c : Fin 256) (r : Rec) : State :=
  match r.kind with
  | .resume a e x =>
    let p := r.info.part
    let key := envKey p (e.getD 0)
    let doms := ((List.range 6).map fun n => (n, bitsOf (s.saveGet p (a + 0x240 + 8 * n)) 0 16)).filter fun d => d.2 != 0
    let s1 := s.savePut p (a + 8) (s.saveGet p (a + 8) &&& ~~~(1 : Word))
    let bands := (x.eng.mrun.map (·.bands)).getD []
    let s2 := ((((s1.grantTokens ⟨c, 0⟩ bands).freeSegs key).freeBanks c key).sweepBands bands).sweepBanks c
    let s3 := (s2.drainFifo c).markRemotes p r.info.scope fun q => x.eng.unacked.contains q.tag && q.killed.isNone
    (s3.leaveTask r.info doms true).nodeEnded r.info false
  | _ => s.dropRec r

/-- Loads the task of a resume record whose area is valid; one that is not any more is dropped from the deque (R358). -/
def State.resumeRec (s : State) (i : SlotId) (r : Rec) : State :=
  match r.kind with
  | .resume a _ x =>
    if s.recSeen i.core r then s.dropSaved i.core r
    else if (s.saveGet r.info.part (a + 8)).getLsbD 0 then s.loadTask i a r.info x
    else s
  | _ => s

/-- A core resumes the head record, if it is a resume record, on a Free slot (R336, R265, R337). One that stands below a record which waits for an
environment does not pass it (log 92, DESIGN CHOICE: R102 says that a resume record may still start, and not from where). -/
def State.taskResume (s : State) (i : SlotId) : State :=
  if s.starts i.core = false ∨ (s.slotOf i).status ≠ .free then s
  else match s.headRec i.core with
    | none => s
    | some (r, l) =>
      match r.kind with
      | .resume _ _ _ => (s.setDeque i.core l).resumeRec i r
      | _ => s

/-- RESUME (R336, R265, R337). -/
def execResume (i : SlotId) (s : State) : Host.Outcome State Fault Refusal :=
  .next (s.taskResume i)

/-! ### Preloads (R340) -/

/-- Recalls the segments of a saved task into free frames, pinned for the preload. -/
def State.preloadSegs (s : State) : List Seg → State
  | [] => s
  | g :: r => (s.prefetch g fun h => { h with preload := true, prePin := true }).preloadSegs r

/-- PRELOAD (R340): a Free slot takes the head record. -/
def execPreload (i : SlotId) (s : State) : Host.Outcome State Fault Refusal :=
  .next (
    if s.starts i.core = false ∨ (s.slotOf i).status ≠ .free then s
    else match s.headRec i.core with
      | none => s
      | some (r, l) =>
        let s1 := s.setDeque i.core l
        match r.kind with
        | .resume _ (some e) _ =>
          let key := envKey r.info.part e
          let s2 := s1.mapSlot i fun x =>
            { x with status := .preloaded, next := some r, quota := r.quota, ctx := { Ctx.none with key := key } }
          s2.preloadSegs ((s2.chargedTo key).filter fun g => g.atSave && decide (g.state = .absent))
        | _ => s1.mapSlot i fun x => { x with status := .preloaded, next := some r })

/-- The slot of a preload becomes Free; its frames are unpinned and stay first victims. -/
def State.endPreload (s : State) (i : SlotId) : State :=
  let key := (s.slotOf i).ctx.key
  let s1 := s.freeSlot i
  { s1 with segs := s1.segs.map fun g => if g.creator = key then { g with prePin := false } else g }

/-- PRELOAD_COMPLETE (R340; log 39): the task starts if no record of the deque is more urgent; otherwise its record returns to the head. -/
def execPreloadComplete (i : SlotId) (s : State) : Host.Outcome State Fault Refusal :=
  .next (
    match (s.slotOf i).status, (s.slotOf i).next with
    | .preloaded, some r =>
      if s.starts i.core = false then s
      else if (s.coreOf i.core).deque.all (fun x => x.spilled || decide (r.info.prio ≤ x.info.prio)) = false then
        (s.endPreload i).pushHead i.core r
      else match r.kind with
        | .resume _ _ _ => (s.endPreload i).resumeRec i r
        | _ =>
          if s.recSeen i.core r then (s.endPreload i).dropRec r
          else match s.freeEnv r.info.part with
            | none => s
            | some e => s.startIn i r e fun s => s.endPreload i
    | _, _ => s)

/-! ### Task end (R98, R159) -/

/-- Everything a task forwarded has completed, its stores are performed and acknowledged, and no commit holds a dirty line of its core that
the end writes back (log 104). -/
def State.canEnd (s : State) (i : SlotId) : Bool :=
  let x := s.slotOf i
  x.sched.ended && !x.anyUnfinished && x.eng.vec.flight.isEmpty && x.sq.isEmpty && x.pend.stores.isEmpty &&
    x.pend.engines.isEmpty && (s.lockedDirty i.core).isNone && (s.heldLine i.core).isNone &&
    !s.pkg.remotes.any fun r => decide (r.slot = i) && r.part.isNone && r.killed.isNone

/-- The completion word's ATOM.ADD.rel.sys (R98). -/
def State.completeWord (s : State) (t : TaskInfo) : State :=
  let w := imgWord t.record 4
  if w = 0 then s else s.devReport t.part t.root (bitsOf w 0 48) (.add 1)

/-- What the end of a graph node has still to ask other devices for: its dependents (R114, R398). -/
def State.endWants (s : State) (t : TaskInfo) : List Want :=
  match t.node with
  | none => []
  | some (graph, n) =>
    match (s.partOf t.part).insts.find? fun g => g.graph == graph && g.index == n / 65536 with
    | none => []
    | some g => if g.broken then [] else s.depWants t.part g.root 65536 (bitsOf (t.record.getD 5 0) 16 48)

/-- TASK_END (R98). -/
def execTaskEnd (i : SlotId) (s : State) : Host.Outcome State Fault Refusal :=
  .next (
    match (s.slotOf i).task with
    | none => s
    | some t =>
      if s.canEnd i then
        s.reading t.part (s.endWants t) fun s =>
          let doms := (s.slotOf i).doms
          let s1 := (s.drainFifo i.core).stopWork i
          (((s1.freeSlot i).leaveTask t doms false).completeWord t).nodeEnded t true
      else s)

/-! ### Graph nodes (R114) -/

/-- GRAPH_NODE_PLACE: the next node of the partition's first instance that has one to place. -/
def execGraphNodePlace (p : Fin 16) (s : State) : Host.Outcome State Fault Refusal :=
  .next (
    match (s.partOf p).insts.find? fun g => !g.unplaced.isEmpty && !g.broken with
    | none => s
    | some g =>
      match g.unplaced with
      | [] => s
      | n :: l =>
        let s1 := s.mapPart p fun q => q.mapInst g.graph g.index fun g => { g with unplaced := l }
        match g.recs.find? fun r => r.info.node = some (g.graph, g.index * 65536 + n) with
        | none => s1
        | some r => if s1.recCancelled r then s1.dropRec r else s1.place r)

/-! ### Launch engine (R106 to R108) -/

/-- The partition's launch engine may scan: it is valid, not frozen or stopped, and no configuration transaction holds it (R381). -/
def State.launches (s : State) (p : Fin 16) : Bool :=
  let q := s.partOf p
  q.valid && !q.frozen && !s.quiescing p

/-- What becomes of a launch entry: refused, dropped or admitted and placed (R107, R122). -/
inductive Launched where
  | refused
  | done (s : State)

/-- Admission of a launch entry. -/
def State.launchRec (s : State) (p : Fin 16) (w : List Word) : Launched :=
  match s.readRecord p (s.partOf p).root w false with
  | none => .refused
  | some r =>
    if s.canReserve p r.info.caps = false then .refused
    else match ((s.partOf p).withRoot).scopeFor r none with
      | none => .refused
      | some x =>
        if ((s.partOf p).withRoot).cancelled x then .done s
        else match s.admitRec r x with
          | none => .refused
          | some (t, r) => .done (t.place r)

/-- What a scan comes to: a state, or what other devices must be asked for first (R398). -/
abbrev Scan := Except (List Want) State

/-- A scan goes on when nothing is wanted. -/
def scanIf (l : List Want) (k : Scan) : Scan :=
  if l.isEmpty then k else .error l

/-- Takes entries of a queue in index order until the one at head is not valid (R107); `cb` is its control block. One that cannot be read
ends the scan of its queue with a report (log 100, DESIGN CHOICE). -/
def State.scanQueue (s : State) (p : Fin 16) (cb base size : Nat) (head refused : Word) : Nat → Scan
  | 0 => .ok s
  | n + 1 =>
    let root := (s.partOf p).root
    let va := base + 64 * (head.toNat % size)
    scanIf (s.wants p root va 2) <|
      match s.devWords p root va 8 with
      | none => .ok (s.devFail p)
      | some w =>
        if (imgWord w 0).getLsbD 0 = false then .ok s
        else
          let r := setAt w 0 (imgWord w 0 &&& ~~~(1 : Word))
          scanIf (s.headerWants p root r) <|
            let s1 := (s.devUpdate p root va (.put 8 0)).devUpdate p root (cb + 24) (.put 8 (head + 1))
            match s1.launchRec p r with
            | .done t => t.scanQueue p cb base size (head + 1) refused n
            | .refused =>
              let t := (s1.devUpdate p root (cb + 32) (.put 8 (refused + 1))).devUpdate p root (cb + 40) (.put 8 head)
              t.scanQueue p cb base size (head + 1) (refused + 1) n

/-- Scans the queues of a mask, from 0 up; a control block that cannot be read ends the scan of its queue with a report (log 100, DESIGN
CHOICE). -/
def State.scanQueues (s : State) (p : Fin 16) (mask : BitVec 4) : List Nat → Scan
  | [] => .ok s
  | k :: r =>
    let one : Scan :=
      if mask.getLsbD k = false then .ok s
      else
        let root := (s.partOf p).root
        let cb := ((s.partOf p).word 4).toNat + 64 * k
        scanIf (s.wants p root cb 2) <|
          match s.devWords p root cb 8 with
          | none => .ok (s.devFail p)
          | some w =>
            let size := (imgWord w 1).toNat
            if size = 0 then .ok s else s.scanQueue p cb (imgWord w 0).toNat size (imgWord w 3) (imgWord w 4) size
    match one with
    | .error l => .error l
    | .ok t => t.scanQueues p mask r

/-- LAUNCH_SCAN (R107, R108): the queues the engine was woken for; merged wakes are scanned next. -/
def execLaunchScan (p : Fin 16) (s : State) : Host.Outcome State Fault Refusal :=
  .next (
    let q := s.partOf p
    if s.launches p = false ∨ q.scanMask = 0 then s
    else match (s.mapPart p fun q => { q with scanMask := 0, lastScan := s.cycle }).scanQueues p q.scanMask [0, 1, 2, 3] with
      | .error l => s.ask p l
      | .ok t => (t.mapPart p fun q => { q with scanMask := q.scanMask ||| q.wakeAgain, wakeAgain := 0 }).forget p)

/-- PERIODIC_WAKE (R107). -/
def execPeriodicWake (p : Fin 16) (s : State) : Host.Outcome State Fault Refusal :=
  .next (
    if (s.partOf p).valid ∧ s.cycle ≥ (s.partOf p).lastScan + 65536 then s.wakeQueues p 15 else s)

/-- Cycles of 1 us (R2). -/
def wakeWindow : Nat := 1600

/-- A host wake of a partition's VF (R108): accepted, or merged within the window or while a configuration is changed (R383). -/
def State.hostWake (s : State) (p : Fin 16) (mask : BitVec 4) : State :=
  let q := s.partOf p
  let merge := (s.pkg.cfg.status == 3 && s.pkg.cfg.affected.contains p.val) || match q.lastWake with
    | some t => decide (s.cycle < t + wakeWindow)
    | none => false
  if merge then s.mapPart p fun q => { q with wakeAgain := q.wakeAgain ||| mask }
  else (s.mapPart p fun q => { q with lastWake := some s.cycle }).wakeQueues p mask

/-- WAKE (R108, R391). -/
def execWake (p : Fin 16) (mask : BitVec 4) (s : State) : Host.Outcome State Fault Refusal :=
  .next (s.hostWake p mask)

/-- WAKE_WINDOW_END (R108): no scan is running. -/
def execWakeWindowEnd (p : Fin 16) (s : State) : Host.Outcome State Fault Refusal :=
  .next (
    let q := s.partOf p
    match q.lastWake with
    | some t =>
      if s.cycle ≥ t + wakeWindow ∧ q.wakeAgain ≠ 0 ∧ q.scanMask = 0 ∧ s.launches p = true then
        (s.mapPart p fun q => { q with wakeAgain := 0, lastWake := some s.cycle }).wakeQueues p q.wakeAgain
      else s
    | none => s)

/-! ### Stealing and spills (R111, R112) -/

/-- A step of the LFSR (R112). -/
def lfsrStep (x : BitVec 16) : BitVec 16 :=
  if x.getLsbD 0 then (x >>> 1) ^^^ 0xB400 else x >>> 1

/-- The span of a record contains a thief, as seen from the victim (R99, R112). -/
def inSpan (t : TaskInfo) (victim thief : Fin 256) : Bool :=
  let c := bitsOf (recCtl t.record) 41 3
  c == 0 || (c != 1 && spanOf (c - 1) victim.val == spanOf (c - 1) thief.val)

/-- The record a victim gives: its oldest, if the thief may have it (R112). -/
def State.stealable (s : State) (victim thief : Fin 256) : Option Rec :=
  match (s.coreOf victim).deque.getLast? with
  | none => none
  | some r =>
    match r.kind with
    | .resume _ _ _ => none
    | _ => if inSpan r.info victim thief && s.inBound r.info thief then some r else none

/-- STEAL (R112): one victim is tried; after two failures the thief backs off for 1,024 cycles. -/
def execSteal (c : Fin 256) (s : State) : Host.Outcome State Fault Refusal :=
  .next (
    let k := s.coreOf c
    let dom := (s.coresOf (s.partNo c)).filter (· != c)
    if s.starts c = false ∨ dom.isEmpty = true ∨ k.deque.isEmpty = false ∨ s.cycle < k.backoff ∨
        (slotsOf c).all (fun i => !decide ((s.slotOf i).status = .free)) = true then s
    else
      let x := lfsrStep k.lfsr
      let v := dom.getD (x.toNat % dom.length) c
      let s1 := s.mapCore c fun k => { k with lfsr := x }
      match s.stealable v c with
      | some r =>
        let s2 := (s1.setDeque v ((s1.coreOf v).deque.dropLast)).mapCore c fun k => { k with tries := 0 }
        if s2.recSeen c r then s2.dropRec r else s2.pushHead c { r with spilled := false }
      | none =>
        if k.tries ≥ 1 then s1.mapCore c fun k => { k with tries := 0, backoff := s.cycle + 1024 }
        else s1.mapCore c fun k => { k with tries := k.tries + 1 })

/-- DEQUE_REFILL (R111): the oldest spilled record, while the deque holds fewer than 32. -/
def execDequeRefill (c : Fin 256) (s : State) : Host.Outcome State Fault Refusal :=
  .next (
    let l := (s.coreOf c).deque
    if (l.filter fun r => !r.spilled).length < 32 then
      s.setDeque c (updFirst (fun r => r.spilled) (fun r => { r with spilled := false }) l.reverse).reverse
    else s)

/-- Drops records of a list. -/
def State.dropRecs (s : State) (c : Fin 256) : List Rec → State
  | [] => s
  | r :: l => (s.dropSaved c r).dropRecs c l

/-- SPILL_SWEEP (R344): spilled records of cancelled scopes are dropped. -/
def execSpillSweep (c : Fin 256) (s : State) : Host.Outcome State Fault Refusal :=
  .next (
    let bad := fun (r : Rec) => r.spilled && s.recSeen c r
    let l := (s.coreOf c).deque
    (s.setDeque c (l.filter fun r => !bad r)).dropRecs c (l.filter bad))

/-! ### Kills (R342 to R344) -/

/-- The nearest cancelled scope of a task (R344). -/
def Part.cancelledAt (q : Part) (id : Nat) : Nat :=
  ((q.line id).find? fun x => match q.scope x with
    | some z => z.mark
    | none => false).getD 0

/-- A slot is at an instruction boundary: its instruction has no request on its way to another device and no answer in hand, and no commit
holds locks (R343). -/
def Slot.atBoundary (x : Slot) : Bool :=
  (match x.status with
    | .ready => true
    | .waiting _ => true
    | _ => false) &&
  (match x.sched.stall with
    | some (.remote _) => false
    | _ => true) &&
  x.replies.isEmpty && match x.tx with
    | some t => decide (t.commit = .idle)
    | none => true

/-- A core has seen the marks of its partition's cancelled scopes (R342). -/
def State.seeMarks (s : State) (c : Fin 256) : State :=
  let see := fun (z : Scope) => if z.mark && !z.seen.contains c.val then { z with seen := z.seen ++ [c.val] } else z
  s.mapPart (s.partNo c) fun q => { q with scopes := q.scopes.map see }

/-- A core kills the task of a slot (R344, Table 10): at its next boundary at task level; in a handler the kill waits for TRET; a preload is
abandoned. -/
def State.killAt (s : State) (i : SlotId) : State :=
  let x := s.slotOf i
  match x.task, x.next with
  | some t, _ =>
    let q := s.partOf t.part
    if x.pend.kill.isNone && !q.cancelSeen i.core s.cycle t.scope then s
    else if x.level = .task then (if x.atBoundary then s.killSlot i else s)
    else s.mapSlot i fun x => { x with pend := { x.pend with kill := some (x.pend.kill.getD (q.cancelledAt t.scope)) } }
  | none, some r => if s.recSeen i.core r then (s.endPreload i).dropSaved i.core r else s
  | none, none => s

/-- Unplaced nodes of cancelled scopes (R344). -/
def State.cancelledNodes (s : State) (p : Fin 16) : List Rec :=
  (s.partOf p).insts.flatMap fun g => if g.broken then [] else g.waiting.filter fun r => s.recCancelled r

/-- Drops unplaced nodes one by one; each breaks its instance. -/
def State.dropNodes (s : State) (p : Fin 16) : Nat → State
  | 0 => s
  | n + 1 =>
    match s.cancelledNodes p with
    | [] => s
    | r :: _ =>
      let s1 := match r.info.node with
        | some (graph, k) => s.mapPart p fun q => q.mapInst graph (k / 65536) fun g => { g with recs := g.recs.filter fun y => y.info.serial != r.info.serial }
        | none => s
      (s1.dropRec r).dropNodes p n

/-- KILL (R344): a core that has seen the marks kills or drops each task of a cancelled scope that it holds. -/
def State.killCore (s : State) (c : Fin 256) : State :=
  let s1 := (slotsOf c).foldl (fun t i => t.killAt i) (s.seeMarks c)
  let bad := fun (r : Rec) => !r.spilled && s1.recSeen c r
  let l := (s1.coreOf c).deque
  let s2 := (s1.setDeque c (l.filter fun r => !bad r)).dropRecs c (l.filter bad)
  let p := s2.partNo c
  s2.dropNodes p (s2.partOf p).insts.length

/-- KILL (R344). -/
def execKill (c : Fin 256) (s : State) : Host.Outcome State Fault Refusal :=
  .next (s.killCore c)

end Sys2Proof.Machine
end

