-- ==== Sys2Proof/Machine/Pool.lean ====
section
/-! DEFINITION. The key-value page pool (08 R203, R204; 10 R236) and its scrub engine. -/

namespace Sys2Proof.Machine

/-- The pool that a control block describes: every page on the scrub queue (R203); a block that breaks the limits of Table 8 makes none (log 31, DESIGN
CHOICE: R203 does not say). -/
def poolOfBlock (b : List Word) : Option Pool :=
  let base := imgWord b 0
  let lg := (imgWord b 1).toNat
  let count := (imgWord b 2).toNat
  if (List.range 4).all (fun i => imgWord b (4 + i) == 0) && decide (11 ≤ lg ∧ lg ≤ 16) && decide (1 ≤ count ∧ count ≤ 2 ^ 20) &&
      decide (base.toNat % 2 ^ lg = 0) then
    some ⟨base.toNat, lg, count, (imgWord b 3).toNat, List.range count, [], [], []⟩
  else none

/-- The partition's pool, created from its control block at its first use (R203; log 31). -/
def State.withPool (s : State) (p : Fin 16) : State :=
  let q := s.partOf p
  if q.pool.isSome ∨ q.word 5 = 0 then s
  else match s.devWords p q.root (q.word 5).toNat 8 with
    | none => s.forget p
    | some b => (s.mapPart p fun q => { q with pool := poolOfBlock b }).forget p

/-- What creating the pool has still to ask another device for: its control block (R398). -/
def State.poolWants (s : State) (p : Fin 16) : List Want :=
  let q := s.partOf p
  if q.pool.isSome ∨ q.word 5 = 0 then [] else s.wants p q.root (q.word 5).toNat 2

/-- Changes the pool. -/
def State.mapPool (s : State) (p : Fin 16) (f : Pool → Pool) : State :=
  s.mapPart p fun q => { q with pool := q.pool.map f }

/-- The place of a page of a pool, through the supervisor root (R398). -/
def State.pageSite (s : State) (p : Fin 16) (k : Pool) (n : Nat) : Option DevSite :=
  s.devSite p (s.partOf p).root (k.base + n * 2 ^ k.lg) .store

/-- Zeros for a page are still on their way to another device, or wait for an unlock (R218). -/
def State.scrubbing (s : State) (p : Fin 16) (k : Pool) (n : Nat) : Bool :=
  match s.pageSite p k n with
  | some (.far dev pa _) => s.pkg.remotes.any fun r =>
      decide (r.part = some p ∧ r.dev = dev ∧ pa ≤ r.req.pa.toNat ∧ r.req.pa.toNat < pa + 2 ^ k.lg)
  | some (.here g) => s.pkg.held.any fun h => decide (g.pa / 32 ≤ h.granule ∧ h.granule < g.pa / 32 + 2 ^ k.lg / 32)
  | none => false

/-- Drops a page's lines from the current core's L1; what was last written there, the zeros of the scrub, comes before every load of the slot
(R236). -/
def State.dropPage (s : State) (pa : Nat) : Nat → State
  | 0 => s
  | n + 1 =>
    ((lineLocs (lineOf pa + n)).foldl (fun t l => t.writtenBy l (some s.cur) none) (s.dropLine s.cur.core (lineOf pa + n))).dropPage pa n

/-! ### The order of requests (R236) -/

/-- A request still waits: its slot's task has not gone on, ended, or been taken from its word. -/
def State.poolWaits (s : State) (w : PoolWait) : Bool :=
  let x := s.slotOf w.slot
  decide (x.task.map (·.serial) = w.task) && x.pc == w.pc && decide (x.status = .ready)

/-- The requests of a pool that wait, in the order in which they reached it. -/
def State.poolQueue (s : State) (k : Pool) : List PoolWait := k.waits.filter s.poolWaits

/-- A request of a slot's current instruction. -/
def State.poolRequest (s : State) (i : SlotId) : PoolWait :=
  ⟨i, (s.slotOf i).task.map (·.serial), (s.slotOf i).pc⟩

/-- The place of a slot's request: that of the one that waits, or after all of them. -/
def State.poolPlace (s : State) (k : Pool) (i : SlotId) : Nat :=
  let q := s.poolQueue k
  (q.findIdx? fun w => w == s.poolRequest i).getD q.length

/-- Takes the page of the scrubbed list that the place of the current slot's request gives it (R204, R236): none while there is none, or its
zeros are not all in place. -/
def State.poolTake (s : State) (p : Fin 16) : Option (Word × State) :=
  match (s.partOf p).pool with
  | none => none
  | some k =>
    match k.scrubbed[s.poolPlace k s.cur]? with
    | none => none
    | some n =>
      if s.scrubbing p k n then none
      else
        let s1 := s.mapPool p fun k =>
          { k with
            scrubbed := k.scrubbed.filter (· != n)
            allocated := nput k.allocated n
            waits := (s.poolQueue k).filter (· != s.poolRequest s.cur) }
        let s2 := s1.devBit p (s.partOf p).root k.map n true
        let s3 := match s.pageSite p k n with
          | some (.here g) => s2.dropPage g.pa (2 ^ k.lg / 128)
          | _ => s2
        some (word (k.base + n * 2 ^ k.lg), s3)

/-- The current slot's request joins those that wait, unless it is one of them (R236). -/
def State.poolJoin (s : State) (p : Fin 16) : State :=
  s.mapPool p fun k =>
    let q := s.poolQueue k
    { k with waits := if q.contains (s.poolRequest s.cur) then q else q ++ [s.poolRequest s.cur] }

/-- PGALLOC with and without waiting (R236). -/
def pgallocOp (d : Fin 32) (wait : Bool) : Op Unit := do
  noTx
  askOp ((← get).partNo (← get).cur.core) ((← get).poolWants ((← get).partNo (← get).cur.core))
  modify fun s => s.withPool (s.partNo s.cur.core)
  let s ← get
  let p := s.partNo s.cur.core
  if (s.partOf p).pool.isNone then resultOp d 3
  else match s.poolTake p with
    | some (v, t) => do set t; resultOp d v
    | none => if wait then fun s => .error (.become ((s.poolJoin p).stallMe .pool)) else resultOp d 5

/-- PGALLOC (R236). -/
def execPgalloc (d : Fin 32) (s : State) : Host.Outcome State Fault Refusal :=
  runOp (pgallocOp d true) s

/-- PGALLOC.NB (R236). -/
def execPgallocNb (d : Fin 32) (s : State) : Host.Outcome State Fault Refusal :=
  runOp (pgallocOp d false) s

/-- The page whose base a pointer names through a global window (R204; log 32). -/
def Pool.pageOf (k : Pool) (a : Word) : Option Nat :=
  let va := bitsOf a 0 48
  if bitsOf a 60 4 ≤ 2 ∧ bitsOf a 48 12 = 0 ∧ k.base ≤ va ∧ (va - k.base) % 2 ^ k.lg = 0 ∧ (va - k.base) / 2 ^ k.lg < k.count then
    some ((va - k.base) / 2 ^ k.lg)
  else none

/-- PGFREE (R204, R236): a release at .sys, then the page goes to the tail of the scrub queue. -/
def execPgfree (d a : Fin 32) (s : State) : Host.Outcome State Fault Refusal :=
  runOp (do
    noTx
    releaseOp 5
    askOp (s.partNo s.cur.core) ((← get).poolWants (s.partNo s.cur.core))
    modify fun s => s.withPool (s.partNo s.cur.core)
    let s1 ← get
    let p := s1.partNo s1.cur.core
    match (s1.partOf p).pool with
    | none => resultOp d 3
    | some k =>
      match k.pageOf (s1.reg a) with
      | none => resultOp d 3
      | some n =>
        if k.allocated.contains n then do
          modify fun t => (t.devBit p (t.partOf p).root k.map n false).mapPool p fun k =>
            { k with allocated := k.allocated.filter (· != n), scrubQ := k.scrubQ ++ [n] }
          resultOp d 0
        else resultOp d 3) s

/-- Zero granules with fresh seals at the home, from a granule on. -/
def State.scrubGrans (s : State) (u : PageUse) (g : Nat) : Nat → State
  | 0 => s
  | n + 1 => (s.scrubGrans u g n).homePut u.part u.key true (g + n) zeroGran

/-- Sends zero granules to another device's home, from an address on. -/
def State.scrubFar (s : State) (p : Fin 16) (dev pa : Nat) : Nat → State
  | 0 => s
  | n + 1 => (s.scrubFar p dev pa n).sendOwn p dev (pa + 32 * n) (.write (BitVec.allOnes 32) zeroGran none) true

/-- Scrubs the page at the head of the scrub queue, which joins the scrubbed list (R204). -/
def State.scrubHead (s : State) (p : Fin 16) : State :=
  match (s.partOf p).pool with
  | none => s
  | some k =>
    match k.scrubQ with
    | [] => s
    | n :: r =>
      let s1 := match s.pageSite p k n with
        | some (.here g) => s.scrubGrans g.use (g.pa / 32) (2 ^ k.lg / 32)
        | some (.far dev pa _) =>
          if (s.routeTo (s.partOf p).icore dev).isNone then s.devFail p else s.scrubFar p dev pa (2 ^ k.lg / 32)
        | none => s.devFail p
      s1.mapPool p fun k => { k with scrubQ := r, scrubbed := k.scrubbed ++ [n] }

/-- POOL_SCRUB (R204): not while the partition is quiesced, whose memory then stays as it is (R381, R386). -/
def execPoolScrub (p : Fin 16) (s : State) : Host.Outcome State Fault Refusal :=
  .next (
    if s.quiescing p then s
    else if (s.partOf p).pool.isSome then s.scrubHead p
    else s.reading p (s.poolWants p) fun s => (s.withPool p).scrubHead p)

end Sys2Proof.Machine
end

