-- ==== Sys2Proof/Machine/Segment.lean ====
section
/-! DEFINITION. Segment instructions (10 R237 to R245) and the steps of Tansy and of the memory below the core (95, SEGMENT_EVICT to
LOAD_BLOCK_FILL). -/

namespace Sys2Proof.Machine

/-! ### Allocation -/

/-- The k of a size in bytes (R238). -/
def sizeK (a : Word) : Option Nat :=
  (List.range 9).find? fun k => a == word (4096 * 2 ^ k)

/-- The lowest name of a space that no segment has. -/
def State.freeName (s : State) (sp : Space) : Option (Fin 4096) :=
  let used := (s.segs.filter fun g => decide (g.id.space = sp)).map fun g => g.id.name
  (List.finRange 4096).find? fun n => !used.contains n

/-- ClusterHome of a cluster (R379). -/
def State.clusterHome (s : State) (p : Fin 16) (c : Fin 64) : Nat :=
  let low := ((s.coresOf p).map fun k => (clusterOfCore k).val).min?.getD 0
  ((s.partOf p).word 6).toNat + 2 ^ 32 * (c.val - low)

/-- A new segment of a slot (R168, R170, R238). -/
def State.newSeg (s : State) (i : SlotId) (shared : Bool) (name : Fin 4096) (k : Nat) : Seg :=
  let x := s.slotOf i
  let p := s.partNo i.core
  let c := clusterOfCore i.core
  { id := ⟨if shared then .cluster c else .task x.ctx.key, name⟩
    k := k
    creator := x.ctx.key
    part := p
    root := x.ctx.root
    home := (if shared then s.clusterHome p c else x.ctx.segHome) + name.val * 2 ^ 20
    pool := if shared then .cluster c else .core i.core
    state := .fresh
    base := 0
    sgpin := false
    pins := 0
    copyPins := 0
    claimed := false
    preload := false
    prePin := false
    atSave := false
    dying := false
    dirty := []
    bad := []
    everBacked := false
    data := .empty }

/-- The pointer to a segment's first byte (R15). -/
def segPtr (i : SlotId) (shared : Bool) (name : Fin 4096) : Word :=
  if shared then word (9 * 2 ^ 60 + i.core.val / 4 * 2 ^ 52 + name.val * 2 ^ 40)
  else word (8 * 2 ^ 60 + i.core.val * 2 ^ 52 + name.val * 2 ^ 40)

/-- A segment comes into being; no load sees what its name held before. -/
def State.addSeg (s : State) (g : Seg) : State :=
  { s with
    segs := s.segs ++ [g]
    past := s.past.filter fun e => match e.loc with
      | .seg h _ => decide (h ≠ g.id)
      | _ => true }

/-- SGNEW and SGNEW.CL (R238). -/
def sgnewOp (d a : Fin 32) (shared : Bool) : Op Unit := do
  noTx
  let s ← get
  let i := s.cur
  let sp : Space := if shared then .cluster (clusterOfCore i.core) else .task s.me.ctx.key
  match sizeK (s.reg a), s.freeName sp with
  | some k, some n =>
    if 2 ^ k > s.me.quota then resultOp d 3
    else modify fun s => (s.addSeg (s.newSeg i shared n k)).result d (segPtr i shared n)
  | _, _ => resultOp d 3

/-- SGNEW (R238). -/
def execSgnew (d a : Fin 32) (s : State) : Host.Outcome State Fault Refusal :=
  runOp (sgnewOp d a false) s

/-- SGNEW.CL (R238). -/
def execSgnewCl (d a : Fin 32) (s : State) : Host.Outcome State Fault Refusal :=
  runOp (sgnewOp d a true) s

/-- The segment of a segment operand, or REFUSED (R237). -/
def onSegment (d a : Fin 32) (f : Seg → Op Unit) : Op Unit := do
  noTx
  let s ← get
  match s.segOperand s.cur (s.reg a) with
  | none => resultOp d 3
  | some g => f g

/-- SGFREE (R239): waits for pins, copies and stores on their way. -/
def execSgfree (d a : Fin 32) (s : State) : Host.Outcome State Fault Refusal :=
  runOp (onSegment d a fun g => do
    drainOp
    let s ← get
    match s.segOf g.id with
    | none => resultOp d 0
    | some g =>
      if 0 < g.pins ∨ 0 < g.copyPins ∨ s.storesTo g.id = true then stallOp (.segmentPins (some g.id))
      else modify fun s => ({ s with segs := s.segs.filter fun h => h.id ≠ g.id }).result d 0) s

/-- SGPIN ends: its ticket is withdrawn, and what serving it came to is forgotten (R240). -/
def State.pinResult (s : State) (d : Fin 32) (v : Word) : State :=
  let t := s.dropTicket (.control s.cur)
  (t.setMe { t.me with refused := false }).result d v

/-- SGPIN (R240): its ticket waits quietly; where serving it failed, it is refused. -/
def execSgpin (d a : Fin 32) (s : State) : Host.Outcome State Fault Refusal :=
  runOp (do
    noTx
    match s.segOperand s.cur (s.reg a) with
    | none => modify fun s => s.pinResult d 3
    | some g =>
      if g.sgpin then modify fun s => s.pinResult d 0
      else if s.me.refused then modify fun s => s.pinResult d 3
      else match s.admitSet s.cur (.control s.cur) [g.id] [s.reg a] 0 true with
        | .tooLarge _ => modify fun s => s.pinResult d 3
        | .go t => set ((t.mapSeg g.id fun g => { g with sgpin := true }).pinResult d 0)
        | .wait t => throw (.become (t.stallMe .segment))) s

/-- SGUNPIN (R240). -/
def execSgunpin (d a : Fin 32) (s : State) : Host.Outcome State Fault Refusal :=
  runOp (onSegment d a fun g =>
    if g.sgpin then modify fun s => (s.mapSeg g.id fun g => { g with sgpin := false }).result d 0 else resultOp d 3) s

/-- SGPREF (R241): the recall is made at once where it may be made. -/
def execSgpref (d a : Fin 32) (s : State) : Host.Outcome State Fault Refusal :=
  runOp (onSegment d a fun g => modify fun s => (s.prefetch g id).result d 0) s

/-- A code for a segment state (R242). -/
def SegState.code : SegState → Nat
  | .fresh => 0
  | .resident => 1
  | .absent => 2
  | .moving => 3

/-- SGINFO's value (R242, Table 11). -/
def State.segInfo (s : State) (i : SlotId) (g : Seg) : Word :=
  word (s.framesOf (s.keyOfSlot i) * 2 ^ 16 + (match g.id.space with | .cluster _ => 1024 | .task _ => 0) +
    (if (s.wantedBy g.id).isSome && decide (g.state = .resident) then 512 else 0) + (if g.sgpin then 256 else 0) +
    g.state.code * 16 + g.k)

/-- SGINFO (R242). -/
def execSginfo (d a : Fin 32) (s : State) : Host.Outcome State Fault Refusal :=
  runOp (do
    noTx
    match s.segOperand s.cur (s.reg a) with
    | none => resultOp d (BitVec.allOnes 64)
    | some g => resultOp d (s.segInfo s.cur g)) s

/-- Evicts unpinned segments of a context in schedule order until its charged frames are at most q, those with a home that fails
passed over (R243). -/
def State.shrinkTo (s : State) (key q : Nat) : Nat → State
  | 0 => s
  | n + 1 =>
    if s.framesOf key ≤ q then s
    else
      let l := (s.chargedTo key).filter fun g => decide (g.state = .resident) && !s.pinned g && (s.homeFault g).isNone
      match leastBy s.schedKey l with
      | none => s
      | some g => match s.evictSeg g with
        | .ok t => t.shrinkTo key q n
        | .error _ => s

/-- SGQUOTA (R243): the new quota holds at once, and the instruction waits for its frames. -/
def execSgquota (d a : Fin 32) (s : State) : Host.Outcome State Fault Refusal :=
  runOp (do
    noTx
    let q := (s.reg a).toNat
    let key := s.keyOfSlot s.cur
    let held := sumFrames ((s.chargedTo key).filter (·.sgpin))
    if q = 0 ∨ q > s.me.quota ∨ q < held then resultOp d 3
    else
      modify fun s => ((s.setMe { s.me with quota := q }).shrinkTo key q s.segs.length)
      if (← get).framesOf key ≤ q then resultOp d 0 else stallOp (.segmentPins none)) s

/-! ### Eviction schedules (R244, R245) -/

/-- The entries of a phase before its end. -/
def phaseEntries (l : List Word) : List Nat :=
  (l.flatMap fun w => [bitsOf w 0 16, bitsOf w 16 16, bitsOf w 32 16, bitsOf w 48 16]).takeWhile (· != 0xFFFF)

/-- The phases of a schedule: none where it is malformed. -/
def schedPhases (l : List Word) : Nat → Option (List (List (Bool × Nat)))
  | 0 => some []
  | n + 1 =>
    let e := phaseEntries (l.take 8)
    if e.any fun x => x.testBit 15 || x.testBit 13 || x.testBit 12 then none
    else (schedPhases (l.drop 8) n).map fun r => (e.map fun x => (x.testBit 14, x % 4096)) :: r

/-- Replaces a context's schedule. -/
def State.setSched (s : State) (key : Nat) (x : Option SegSched) : State :=
  { s with scheds := (s.scheds.filter fun y => y.key != key) ++ x.toList }

/-- SGSCHED with a zero value in ga (R245). -/
def schedSelect (d : Fin 32) (b : Word) : Op Unit := do
  let s ← get
  let key := s.keyOfSlot s.cur
  match s.scheds.find? fun x => x.key == key with
  | none => resultOp d 3
  | some x =>
    if b = BitVec.allOnes 64 then modify fun s => (s.setSched key none).result d 0
    else if b.toNat < x.phases.length then
      modify fun s => (s.setSched key (some { x with active := b.toNat })).result d 0
    else resultOp d 3

/-- SGSCHED (R245). -/
def execSgsched (d a b : Fin 32) (s : State) : Host.Outcome State Fault Refusal :=
  runOp (do
    noTx
    let p := s.reg a
    if p = 0 then schedSelect d (s.reg b)
    else
      memOperand p 64 8
      let h ← wordsAt p 8 2
      let nph := bitsOf (imgWord h 0) 0 4
      let l ← wordsAt (p + 64) 8 (2 * (nph + 1))
      if bitsOf (imgWord h 0) 4 60 ≠ 0 ∨ (h.drop 1).any (· != 0) = true then resultOp d 3
      else
        let sel := bitsOf (s.reg b) 0 4
        match schedPhases l (nph + 1) with
        | none => resultOp d 3
        | some ph =>
          if sel > nph then resultOp d 3
          else modify fun s =>
            let key := s.keyOfSlot s.cur
            (s.setSched key (some ⟨key, ph, sel⟩)).result d 0) s

/-! ### Tansy's steps -/

/-- TICKET_SERVE (R176, R177). -/
def execTicketServe (c : Fin 64) (s : State) : Host.Outcome State Fault Refusal :=
  .next (s.serve c)

/-- SEGMENT_EVICT (R170, R171, R177): a claimed segment. -/
def execSegmentEvict (i : SegId) (s : State) : Host.Outcome State Fault Refusal :=
  .next (s.evictClaimed i)

/-- SEGMENT_RECALL (R170, R176): an Absent member of the oldest ticket. -/
def execSegmentRecall (i : SegId) (s : State) : Host.Outcome State Fault Refusal :=
  .next (
    match s.segOf i with
    | none => s
    | some g => if g.state = .absent then s.recallFor g else s)

/-- FRESH_FILL (R171): a Fresh member of the oldest ticket. -/
def execFreshFill (i : SegId) (s : State) : Host.Outcome State Fault Refusal :=
  .next (
    match s.segOf i with
    | none => s
    | some g => if g.state = .fresh then s.recallFor g else s)

/-- COMPACTION (R172). -/
def execCompaction (p : PoolId) (s : State) : Host.Outcome State Fault Refusal :=
  .next (s.compact p)

/-! ### Stores, write-backs, fills -/

/-- The places in a slot's store queue whose store can be performed next: requests to one home arrive in order (R206, R207), and those to a
locked home wait (R218). -/
def State.readyStores (s : State) (i : SlotId) : List Nat :=
  let q := (s.slotOf i).sq
  (List.range q.length).filter fun n =>
    match q[n]? with
    | none => false
    | some r => r.sent.isNone && (s.storeLock i r).isNone && !(q.take n).any fun e => e.sent.isNone && s.homeOf e.loc == s.homeOf r.loc

/-- STORE_PERFORM (09 R206, R207; log 34): the only store that can go, or one that a free value chooses among several. A supervisor slot of a
partition that is stopped stores nothing (R386). -/
def execStorePerform (i : SlotId) (s : State) : Host.Outcome State Fault Refusal :=
  .next (
    if (s.partOf (s.partNo i.core)).stopped && (s.slotOf i).task.isNone then s
    else match s.readyStores i with
      | [] => s
      | [n] => s.performQueued i n
      | n :: r =>
        let (v, t) := s.draw
        t.performQueued i ((n :: r).getD (v.toNat % (r.length + 1)) n))

/-- The home of some granule of a line is locked (R218). -/
def State.lineLocked (s : State) (n : Nat) : Bool := (List.range 4).any fun k => s.isLocked (.phys (4 * n + k))

/-- WRITE_BACK (R183): a line of a core's L1; it waits for a locked home. -/
def execWriteBack (c : Fin 256) (line : Nat) (s : State) : Host.Outcome State Fault Refusal :=
  .next (if s.lineLocked line then s else s.writeBackLine c line)

/-- Takes a line of a block into the L1 of its core (R184, R227). -/
def State.fillBlockLine (s : State) (i : SlotId) (h : Nat) (b : Block) (k : Nat) (n : Nat) : State :=
  let u : PageUse := ⟨s.partNo i.core, some (b.keys.getD k 0), false⟩
  let s1 := s.l1Fill i.core u (s.slotOf i).ctx.ctx n
  let s2 := s1.mapCore i.core fun c => { c with l1 := updFirst (·.line == n) (fun l => { l with block := some (slotKey i, h) }) c.l1 }
  s2.mapSlot i fun x =>
    let lines := setAt b.lines k (n, true)
    { x with blocks := tput x.blocks h { b with lines := lines, flag := lines.all (·.2) } }

/-- LOAD_BLOCK_FILL (R184, R227). -/
def execLoadBlockFill (i : SlotId) (h : Fin 16) (k : Fin 64) (s : State) : Host.Outcome State Fault Refusal :=
  .next (
    match (s.slotOf i).blocks.find? fun b => b.1 == h.val with
    | none => s
    | some b =>
      match b.2.lines[k.val]? with
      | some (n, false) => if s.lineLocked n then s else s.fillBlockLine i h.val b.2 k.val n
      | _ => s)

end Sys2Proof.Machine
end

