-- ==== Sys2Proof/Machine/Sched.lean ====
section
/-! DEFINITION. Which slot of a core issues (05 R109), and the ends of waits and stalls (05 R97, 07 R161, 05 R119, R120, 12 R261). -/

namespace Sys2Proof.Machine

/-! ### Slot selection (R109) -/

/-- A slot can be chosen: Ready, and its task has not executed TEND. -/
def Slot.canIssue (x : Slot) : Bool :=
  decide (x.status = .ready) && !x.sched.ended

/-- Wait(s) of R109. -/
def State.waitOf (s : State) (x : Slot) : Nat := s.cycle - x.sched.readySince

/-- Base(s): a slot without a task counts as priority 0 (log 40). -/
def Slot.base (x : Slot) : Nat := (x.task.map (·.prio)).getD 0

/-- Eff(s) of R109. -/
def State.eff (s : State) (x : Slot) : Int := (x.base : Int) - (s.waitOf x / 4096 : Nat)

/-- The slot R109 chooses among the Ready ones of a core. -/
def State.chooseSlot (s : State) (c : Fin 256) : Option SlotId :=
  ((slotsOf c).filter fun i => (s.slotOf i).canIssue && s.issues i).foldl
    (fun b i => match b with
      | none => some i
      | some j =>
        let x := s.slotOf i
        let y := s.slotOf j
        if s.eff x < s.eff y ∨ (s.eff x = s.eff y ∧ s.waitOf y < s.waitOf x) then some i else some j) none

/-- The current slot of a core. -/
def State.curOf (s : State) (c : Fin 256) : SlotId := ⟨c, (s.coreOf c).curSlot⟩

/-- A stall of the slot has ended, and its instruction has not been executed again yet. -/
def Slot.resuming (x : Slot) : Bool := x.sched.stall.isNone && decide (x.sched.readySince < x.sched.since)

/-- The current slot keeps issue during a stall of 64 cycles or less, until its instruction has been executed again (R109). -/
def State.keeps (s : State) (c : Fin 256) : Bool :=
  let x := s.slotOf (s.curOf c)
  x.canIssue && ((x.sched.stall.isSome && decide (s.cycle ≤ x.sched.since + 64)) ||
    (x.resuming && decide (s.cycle ≤ x.sched.readySince + 64)))

/-- A core takes a slot as its current one; a stall found there counts anew. -/
def State.turnTo (s : State) (i : SlotId) : State :=
  let s1 := s.mapCore i.core fun k => { k with curSlot := i.slot }
  if (s.slotOf i).sched.stall.isSome then
    s1.mapSlot i fun x => { x with sched := { x.sched with since := s.cycle, readySince := s.cycle } }
  else s1

/-- The slot that issues next on a core, and the state with it as the current one. -/
def State.select (s : State) (c : Fin 256) : Option (SlotId × State) :=
  if s.keeps c then some (s.curOf c, s)
  else (s.chooseSlot c).map fun i => (i, s.turnTo i)

/-- SLOT_RESELECT (R109): after a stall of more than 64 cycles the core chooses again. -/
def execSlotReselect (c : Fin 256) (s : State) : Host.Outcome State Fault Refusal :=
  .next (
    let x := s.slotOf (s.curOf c)
    if x.canIssue && x.sched.stall.isSome && decide (s.cycle > x.sched.since + 64) then
      match s.chooseSlot c with
      | some i => s.turnTo i
      | none => s
    else s)

/-! ### Waits -/

/-- A slot becomes Ready at its PC. -/
def Slot.readyAt (x : Slot) (pc : Word) (c : Nat) : Slot :=
  { x with status := .ready, pc := pc, sched := { x.sched with readySince := c, since := c, awaitHit := false } }

/-- Another slot of the core has issued since this one did. -/
def State.otherIssued (s : State) (i : SlotId) : Bool :=
  (slotsOf i.core).any fun j => decide (j ≠ i) && decide ((s.slotOf i).sched.lastIssue < (s.slotOf j).sched.lastIssue)

/-- Another slot of the core is Ready. -/
def State.otherReady (s : State) (i : SlotId) : Bool :=
  (slotsOf i.core).any fun j => decide (j ≠ i) && (s.slotOf j).canIssue

/-- The done value of a channel has reached an id, in the window of R268. -/
def doneReached (done id : Nat) : Bool :=
  decide ((done + 2 ^ 48 - id % 2 ^ 48) % 2 ^ 48 < 2 ^ 47)

/-- YIELD_TIMEOUT (R109): 64 cycles, and no other slot is Ready. -/
def execYieldTimeout (i : SlotId) (s : State) : Host.Outcome State Fault Refusal :=
  .next (
    match (s.slotOf i).status with
    | .waiting .yield =>
      if s.cycle ≥ (s.slotOf i).sched.since + 64 ∧ s.otherReady i = false then
        s.mapSlot i fun x => x.readyAt (nextPc x.pc) s.cycle
      else s
    | _ => s)

/-- WAIT_SATISFIED (R97): YIELD goes on; CHWAIT and TKWAIT execute again, and find what they waited for. -/
def execWaitSatisfied (i : SlotId) (s : State) : Host.Outcome State Fault Refusal :=
  .next (
    let x := s.slotOf i
    match x.status with
    | .waiting .yield => if s.otherIssued i then s.setSlot i (x.readyAt (nextPc x.pc) s.cycle) else s
    | .waiting (.chwait h id) => if doneReached (x.chan h).doneId id then s.setSlot i (x.readyAt x.pc s.cycle) else s
    | .waiting (.tkwait e) => if 0 < (x.token e .s).n then s.setSlot i (x.readyAt x.pc s.cycle) else s
    | _ => s)

/-- A program over the state run for another slot than the current one. -/
def State.asSlot (s : State) (i : SlotId) (f : State → State) : State :=
  { f { s with cur := i } with cur := s.cur }

/-- The state that a program of the current slot leaves. -/
def State.runMe (s : State) (m : Op Unit) : State :=
  match m s with
  | .ok (_, t) => t
  | .error (.trap t) => s.trapMe t
  | .error (.become t) => t
  | .error (.abort c) => s.setMe (s.me.abortTx c 0 |>.issued s.cycle)
  | .error (.fault _) => s

/-- AWAIT_REREAD (R161): a store to the granule was performed at its home, or 4,096 cycles have passed. -/
def execAwaitReread (i : SlotId) (s : State) : Host.Outcome State Fault Refusal :=
  .next (
    let x := s.slotOf i
    match x.status with
    | .waiting (.await d p goal _) =>
      if x.sched.awaitHit ∨ s.cycle ≥ x.sched.since + 4096 then
        let r := (s.setSlot i { x with status := .ready, sched := { x.sched with readySince := s.cycle, awaitHit := false } }).asSlot i
          fun s => s.runMe (awaitOp d p goal)
        if (r.slotOf i).status = .ready then r
        else r.mapSlot i fun y => { y with sched := { x.sched with since := s.cycle, awaitHit := false } }
      else s
    | _ => s)

/-- BARWAIT_RETURN (R120): the phase of a waiting member has ended. -/
def execBarwaitReturn (i : SlotId) (s : State) : Host.Outcome State Fault Refusal :=
  .next (
    let x := s.slotOf i
    match x.status, x.task with
    | .waiting (.barwait d l), some t =>
      match s.memberAt t x l.val with
      | some (id, m) => match m.result with
        | some r => s.barReturn i t d l.val id m r
        | none => s
      | none => s
    | _, _ => s)

/-- BARRIER_LANDING (R119): the oldest landing on its way in a partition reaches the home of its domain, or leaves for the device that keeps
it, on vc 2 (R390). -/
def execBarrierLanding (p : Fin 16) (s : State) : Host.Outcome State Fault Refusal :=
  .next (
    match (s.partOf p).landings with
    | [] => s
    | l :: r =>
      let s1 := s.mapPart p fun q => { q with landings := r }
      match s1.domHome p l.level l.id with
      | some dev => s1.sendDom p dev l.id l.task (.land l.bytes l.phase)
      | none => s1.mapDom p l.level l.id fun d => d.landing l.task l.bytes l.phase)

/-! ### Stalls (R261, R109) -/

/-- A control-core access's ticket is due: its set can be pinned, has lost a member, or has become too large (R175, R181). -/
def State.ticketDue (s : State) (i : SlotId) : Bool :=
  match s.ticketOf (.control i) with
  | none => true
  | some t => s.setReady t.members || decide ((s.slotOf i).quota < s.setFrames i t.members) ||
      t.members.any fun m => (s.segOf m).isNone

/-- Words of an engine that are not done. -/
def Slot.unfinished (x : Slot) (e : Eng) : Bool :=
  x.eng.qs.journal.any fun j => !j.done && decide (j.eng = e)

/-- Whether what a stall waits for is there. -/
def State.stallFree (s : State) (i : SlotId) (r : Stall) : Bool :=
  let x := s.slotOf i
  match r with
  | .queueFull e => decide (x.depth e < x.depthLimit e)
  | .journalFull => !x.journalFull
  | .qpop => match x.eng.ports.vs with
    | (_, some _) :: _ => true
    | _ => false
  | .qpush => decide (x.eng.ports.v2.length < 32)
  | .fmtq => decide (x.eng.qs.fq.length < 16)
  | .tkpost e => x.tokenRoom .s e
  | .snapshot => decide (x.pruneStore.eng.descs.store.length < 64)
  | .srseed => !x.unfinished .v && !x.unfinished .m
  | .segment => x.refused || s.ticketDue i
  | .segmentPins (some g) => match s.segOf g with
    | some g => !(decide (0 < g.pins) || decide (0 < g.copyPins) || s.storesTo g.id)
    | none => true
  | .segmentPins none => decide (s.framesOf x.ctx.key ≤ x.quota) ||
      (s.chargedTo x.ctx.key).any fun g => decide (g.state = .resident) && !s.pinned g && (s.homeFault g).isNone
  | .block n => !s.blockPending i.core n
  | .blkwait h => match x.blocks.find? fun b => b.1 == h with
    | some b => b.2.flag
    | none => true
  | .pool => match (s.partOf (s.partNo i.core)).pool with
    | some k => decide (s.poolPlace k i < k.scrubbed.length)
    | none => true
  | .cancel n => s.ackReady (s.partNo i.core) n
  | .acc n => !s.bankBusy i.core n
  | .remote tag => !s.pkg.remotes.any fun q => q.tag == tag
  | .locked l => !s.isLocked l
  | .stores => true

/-- STALL_END (R261): the stall ends and the instruction executes again. -/
def execStallEnd (i : SlotId) (s : State) : Host.Outcome State Fault Refusal :=
  .next (
    match (s.slotOf i).sched.stall with
    | none => s
    | some r =>
      if s.stallFree i r then
        s.mapSlot i fun x => { x with sched := { x.sched with stall := none, since := s.cycle } }
      else s)

end Sys2Proof.Machine
end

