-- ==== Sys2Proof/Machine/Copy.lean ====
section
/-! DEFINITION. The copy engine: forwarding C words, their start and admission, units, completion (12 R267 to R277; 13 R310 to R314; 20 R390). -/

namespace Sys2Proof.Machine

/-! ### Commands -/

/-- What a C command does with its elements. -/
inductive CKind where
  | copy
  | gather
  | scatter
  | reduce (op : Nat)
  | cast
  | fill (pattern : Bool)
  deriving DecidableEq, Repr

/-- A C word's channel, descriptor, tag and kind; no kind for CNOP. -/
structure CWord where
  chan : Fin 8
  cd : Nat
  bar : Bool
  kind : Option CKind
  deriving DecidableEq, Repr

/-- A C word's fields (R310). -/
def cWordOf (w : BitVec 32) : Option CWord :=
  match decode w with
  | .ok (.cnop h _) => some ⟨h, 0, false, none⟩
  | .ok (.cpy h c r _) => some ⟨h, c.val, r, some .copy⟩
  | .ok (.cred h c r o _) => some ⟨h, c.val, r, some (.reduce o.val)⟩
  | .ok (.cgath h c r _) => some ⟨h, c.val, r, some .gather⟩
  | .ok (.cscat h c r _) => some ⟨h, c.val, r, some .scatter⟩
  | .ok (.cmcast h c r _) => some ⟨h, c.val, r, some .cast⟩
  | .ok (.cfill h c r o _) => some ⟨h, c.val, r, some (.fill (o.val == 1))⟩
  | _ => none

/-! ### Descriptor fields (R270, Table 5) -/

/-- Bytes of an element. -/
def cEsize (l : List Word) : Nat := esizeBytes (copyField l 0 3)

/-- The port field. -/
def cPort (l : List Word) : Nat := copyField l 33 2

/-- The barrier level. -/
def cLevel (l : List Word) : Nat := copyField l 35 3

/-- The receiving slot number. -/
def cSlot (l : List Word) : Fin 4 := slotNo (copyField l 38 2)

/-- The source pointer. -/
def cSrc (l : List Word) : Word := imgWord l 0

/-- The destination pointer. -/
def cDst (l : List Word) : Word := imgWord l 1

/-- Whether elements are converted: never for a fill, which reads none (R314). -/
def cConverts (l : List Word) (k : CKind) : Bool :=
  match k with
  | .fill _ => false
  | _ => !noConv l

/-- Bytes of a source element. -/
def cSsize (l : List Word) (k : CKind) : Nat := if cConverts l k then 2 ^ fmtEsize (copyField l 21 4) else cEsize l

/-- Count of dimension d. -/
def cCount (l : List Word) (d : Nat) : Nat := bitsOf (imgWord l 2) (16 * d) 16

/-- N of R271. -/
def cTotal (l : List Word) : Nat := cCount l 0 * cCount l 1 * cCount l 2 * cCount l 3

/-- Index of element e in dimension d. -/
def cIndex (l : List Word) (e : Nat) : Nat → Nat
  | 0 => e % cCount l 0
  | 1 => e / cCount l 0 % cCount l 1
  | 2 => e / (cCount l 0 * cCount l 1) % cCount l 2
  | _ => e / (cCount l 0 * cCount l 1 * cCount l 2)

/-- Signed stride of a side (source or destination) in dimension d. -/
def cStride (l : List Word) (dst : Bool) (d : Nat) : Word :=
  sextLow (imgWord l ((if dst then 5 else 3) + d / 2) >>> (32 * (d % 2))) 32

/-- The receivers of a multicast: the cores of the issuing core's quarter that the mask names (R275). -/
def cReceivers (l : List Word) (c : Fin 256) : List (Fin 256) :=
  ((List.range 16).filter fun n => (imgWord l 8).getLsbD (48 + n)).map fun n => coreNo (c.val / 16 * 16 + n)

/-! ### Start checks (R310 Table 4, R312 to R314, R274) -/

/-- The element size of a reduce format; none for one that CRED does not have. -/
def rfmtSize (f : Nat) : Option Nat :=
  match f with
  | 4 => some 2
  | 5 => some 2
  | 8 => some 4
  | 9 => some 4
  | _ => none

/-- The command column of Table 4. -/
def cKindOk (l : List Word) (k : CKind) : Bool :=
  let port := cPort l
  let idim := copyField l 12 3
  let iside := copyField l 15 1
  match k with
  | .copy => true
  | .gather => idim != 0 && iside == 0 && (port == 0 || port == 1)
  | .scatter => idim != 0 && iside == 1 && (port == 0 || port == 2)
  | .reduce _ => noConv l && rfmtSize (copyField l 29 4) == some (cEsize l) && port == 0
  | .cast => bitsOf (imgWord l 8) 48 16 != 0 && noConv l && bitsOf (cDst l) 60 4 == 8 && port == 0
  | .fill _ => port == 0 && (idim == 0 || iside == 1)

/-- The read port that a channel is bound to. -/
def Ports.readPortOf (p : Ports) (h : Fin 8) : Option Nat :=
  if p.bind0 = .chan h then some 0 else if p.bind1 = .chan h then some 1 else none

/-- The read port that a channel feeds now: until its entry is done, the one that it was bound to (R258). -/
def Slot.fedPort (x : Slot) (h : Fin 8) : Option Nat :=
  if x.feeder 0 = .chan h then some 0 else if x.feeder 1 = .chan h then some 1 else none

/-- The binding that a port field asks for (R310, R302). -/
def Slot.cBound (x : Slot) (l : List Word) (h : Fin 8) : Bool :=
  match cPort l with
  | 1 => (x.eng.ports.readPortOf h).isSome
  | 2 => decide (x.eng.ports.bind3 = .chan h)
  | _ => true

/-- Every start check of a command. -/
def Slot.cStartOk (x : Slot) (l : List Word) (w : CWord) (k : CKind) : Bool :=
  copyOk l && cKindOk l k && x.cBound l w.chan && (!w.bar || x.dom (cLevel l) != 0)

/-! ### Pin set (R174, R275) -/

/-- A pointer with its owner field replaced (R275). -/
def withOwner (p : Word) (c : Fin 256) : Word :=
  (p &&& ~~~((0xFF : Word) <<< 52)) ||| (word c.val <<< 52)

/-- The segment that a destination pointer of window 0x8 names in the space of a slot (R273). -/
def State.segIn (s : State) (j : SlotId) (p : Word) : SegId :=
  ⟨.task (s.slotOf j).ctx.key, Fin.ofNat 4096 (bitsOf p 40 12)⟩

/-- The slot that a window-0x8 destination names: the issuing slot's own, or slot dslot of its owner (R273). -/
def destSlot (i : SlotId) (l : List Word) (p : Word) (recv : Option (Fin 256)) : SlotId :=
  match recv with
  | some c => ⟨c, cSlot l⟩
  | none => if bitsOf p 52 8 = i.core.val then i else ⟨coreNo (bitsOf p 52 8), cSlot l⟩

/-- The segment a destination pointer names. -/
def State.destSeg (s : State) (i : SlotId) (l : List Word) (p : Word) (recv : Option (Fin 256)) : SegId :=
  if bitsOf p 60 4 = 8 then s.segIn (destSlot i l p recv) p else s.segNamed i p

/-- A pointer names a segment. -/
def isSegPtr (p : Word) : Bool := bitsOf p 60 4 == 8 || bitsOf p 60 4 == 9

/-- The pin set: the segments that source, destinations and table name, with the pointers that name them. -/
def State.cPins (s : State) (i : SlotId) (l : List Word) (k : CKind) : List (SegId × Word) :=
  let fills : Bool := match k with
    | .fill _ => true
    | _ => false
  let src := if fills || cPort l == 2 || !isSegPtr (cSrc l) then [] else [(s.segNamed i (cSrc l), cSrc l)]
  let dst : List (SegId × Word) := match k with
    | .cast => (cReceivers l i.core).map fun c => (s.destSeg i l (cDst l) (some c), withOwner (cDst l) c)
    | _ => if cPort l == 1 || !isSegPtr (cDst l) then [] else [(s.destSeg i l (cDst l) none, cDst l)]
  let tab := if copyField l 12 3 = 0 then [] else [(s.segNamed i (imgWord l 7), imgWord l 7)]
  (src ++ dst ++ tab).foldl (fun a e => if (s.segOf e.1).isNone || a.any fun x => x.1 = e.1 then a else a ++ [e]) []

/-! ### Unit programs -/

/-- The ways a unit does not happen: a fault of the command with the core of its failing receiver, what its reads have logged, and whether an injector
has made bad what it has consumed (R188, R361); or a wait, with what it has asked for. -/
inductive CStop where
  | err (dies : List (Nat × Die)) (inj : Bool) (cause : BitVec 8) (t0 t1 : Word) (core : Nat)
  | wait (s : Option State)

/-- A unit as a program over the state: what it has done is dropped where it faults, but for the logs. -/
abbrev CM := StateT State (Except CStop)

/-- Stops with a fault that consumes a granule, or a table's. -/
def cErrBy {α : Type} (inj : Bool) (cause : BitVec 8) (t0 t1 : Word) (core : Nat) : CM α :=
  fun s => .error (.err s.dies inj cause t0 t1 core)

/-- Stops with a fault. -/
def cErr {α : Type} (cause : BitVec 8) (t0 t1 : Word) (core : Nat) : CM α := cErrBy false cause t0 t1 core

/-- Waits, with nothing done. -/
def cWait {α : Type} : CM α := fun _ => .error (.wait none)

/-- The size of an allocated segment, 0 for none. -/
def State.segSize (s : State) (g : SegId) : Nat := (s.segOf g).map (·.size) |>.getD 0

/-- The end of the check of a segment pointer: it names its base pointer's segment `b`, which the command has pinned (R272). -/
def cSegment (r : CRun) (g b : SegId) (p base : Word) (core : Nat) : CM Target := do
  let s ← get
  if bitsOf p 40 24 ≠ bitsOf base 40 24 then
    cErr 0x07 p (word (if isSegPtr base then s.segSize b else 0)) core
  else match s.segOf g with
    | none => cErr 0x09 p 0 core
    | some x =>
      if bitsOf p 0 20 ≥ x.size then cErr 0x07 p (word x.size) core
      else if r.pins.contains g = false then cErr 0x09 p 0 core
      else pure (.seg g (bitsOf p 0 20))

/-- Checks of a pointer of a command as DecodePtr's (R272, R273), and its translation for windows 0x0 to 0x4; `b` is its base pointer's segment. -/
def cResolve (i : SlotId) (r : CRun) (p base : Word) (b : SegId) (size : Nat) (acc : Access) : CM Target := do
  let s ← get
  let w := bitsOf p 60 4
  if isSegPtr p then
    if bitsOf p 20 20 ≠ 0 ∨ (w = 9 ∧ bitsOf p 58 2 ≠ 0) then cErr 0x04 p 0 0
    else if p.toNat % size ≠ 0 then cErr 0x03 p 0 0
    else if w = 8 ∧ bitsOf p 52 8 ≠ i.core.val then cErr 0x05 p (word i.core.val) 0
    else if w = 9 ∧ bitsOf p 52 6 ≠ i.core.val / 4 then cErr 0x06 p (word i.core.val) 0
    else cSegment r (s.segNamed i p) b p base 0
  else match s.decodePtr i p size with
    | .error (c, t) => cErr c p t 0
    | .ok (.seg _ _) => cErr 0x04 p 0 0
    | .ok (.glob win va) =>
      let part := s.partNo i.core
      let root := (s.slotOf i).ctx.root
      match s.translate i.core part root va acc with
      | .error x => do
        if x.sealed then set (s.corrected i.core part x.table)
        cErrBy x.inj x.cause p x.t1 0
      | .ok g => do
        set (s.tlbNote i.core part root va g)
        pure (if g.rem then .remote g.dev g.pa g.use.dlog else .mem win g.pa g.use)

/-- A slot runs a task of the sender's partition that is a member of its domain at blevel (R273). -/
def State.sharesDomain (s : State) (i j : SlotId) (level : Nat) : Bool :=
  let x := s.slotOf i
  let y := s.slotOf j
  match x.task, y.task with
  | some a, some b => a.part == b.part && x.dom level != 0 && x.dom level == y.dom level
  | _, _ => false

/-- The destination of an element for a receiver, or for the command (R273, R275). -/
def cDest (i : SlotId) (r : CRun) (p0 : Word) (recv : Option (Fin 256)) (acc : Access) : CM Target := do
  let s ← get
  let size := cEsize r.img
  let own := fun (q : Word) => match recv with
    | some c => if bitsOf q 60 4 = 8 then withOwner q c else q
    | none => q
  let p := own p0
  let base := own (cDst r.img)
  let core := (recv.map (·.val)).getD 0
  if recv.isSome && bitsOf p 60 4 != 8 then cErr 0x04 p 0 core
  else if bitsOf p 60 4 = 8 ∧ (recv.isSome ∨ bitsOf p 52 8 ≠ i.core.val) then
    let j := destSlot i r.img p recv
    if bitsOf p 20 20 ≠ 0 then cErr 0x04 p 0 core
    else if p.toNat % size ≠ 0 then cErr 0x03 p 0 core
    else if s.sharesDomain i j (cLevel r.img) = false then cErr 0x05 p (word i.core.val) core
    else cSegment r (s.segIn j p) (s.destSeg i r.img base recv) p base core
  else cResolve i r p base (s.destSeg i r.img base recv) size acc

/-- A unit waits at a locked place (R218). -/
def cUnlocked (l : Loc) : CM Unit := do
  if (← get).isLocked l then cWait

/-- A granule that a command reads, unchecked: a remote one is asked for, and the unit waits for it (R389); without a port it is POISON
(R388). -/
def cGran (i : SlotId) (h : Fin 8) (r : CRun) (t : Target) (p : Word) : CM Granule := do
  cUnlocked t.loc
  let s ← get
  match t with
  | .seg g off => do
    set (s.storeErrors g (off / 32))
    pure (s.segGran g (off / 32))
  | .mem _ pa u => do
    set (s.corrected i.core u.part (pa / 32))
    pure (s.homeGran u.part u.key (pa / 32))
  | .remote dev pa _ =>
    match r.got.find? fun e => e.1 == remoteKey dev pa with
    | some e => pure e.2
    | none =>
      if (s.routeTo i.core dev).isNone then cErr 0x0D (p &&& ~~~(31 : Word)) 0 0
      else if s.pkg.remotes.any fun q => q.slot = i ∧ q.chan = some (h, r.q.seq) ∧ q.req.op = .read ∧
          q.dev = dev ∧ q.req.pa.toNat / 32 = pa / 32 then cWait
      else fun s => .error (.wait (some (s.sendFor i (some (h, r.q.seq)) none dev (pa / 32 * 32) .read false)))

/-- The check of a consumer (R195). -/
def cCheck (g : Granule) (p : Word) (core : Nat) : CM Unit :=
  match checkGran g with
  | some (c, t) => cErrBy g.inj c (p &&& ~~~(31 : Word)) t core
  | none => pure ()

/-- Table(n) of R271. -/
def cTable (i : SlotId) (h : Fin 8) (r : CRun) (n : Nat) : CM Nat := do
  let p := imgWord r.img 7 + word (4 * n)
  let t ← cResolve i r p (imgWord r.img 7) ((← get).segNamed i (imgWord r.img 7)) 4 .load
  let g ← cGran i h r t p
  cCheck g p 0
  pure (takeAt g.data t.off 4).toNat

/-- The terms of Addr from dimension d on (R271). -/
def cTerms (i : SlotId) (h : Fin 8) (r : CRun) (dst : Bool) (e : Nat) : List Nat → CM Word
  | [] => pure 0
  | d :: l => do
    let n := cIndex r.img e d
    let x ← if copyField r.img 12 3 = d + 1 ∧ copyField r.img 15 1 = dst.toNat then do
        let v ← cTable i h r n
        pure (word (v * 2 ^ copyField r.img 16 5))
      else pure (word n * cStride r.img dst d)
    let y ← cTerms i h r dst e l
    pure (x + y)

/-- Addr(side, e) of R271. -/
def cAddr (i : SlotId) (h : Fin 8) (r : CRun) (dst : Bool) (e : Nat) : CM Word := do
  let x ← cTerms i h r dst e [0, 1, 2, 3]
  pure ((if dst then cDst r.img else cSrc r.img) + x)

/-- The elements from e on, at most n, whose destination lies in the granule of a pointer (R272); one whose pointer cannot be computed
begins the next unit. -/
def cElems (i : SlotId) (h : Fin 8) (r : CRun) (first : Word) : Nat → Nat → State → List (Nat × Word)
  | 0, _, _ => []
  | n + 1, e, s =>
    match cAddr i h r true e s with
    | .error _ => []
    | .ok (p, _) => if p.toNat / 32 = first.toNat / 32 then (e, p) :: cElems i h r first n (e + 1) s else []

/-- The elements of the next unit with their destination pointers, or their places in the port's stream (R260). -/
def cUnit (i : SlotId) (h : Fin 8) (r : CRun) : CM (List (Nat × Word)) := do
  let es := cEsize r.img
  let left := cTotal r.img - r.elem
  if cPort r.img = 1 then
    pure ((List.range (min (32 / es) left)).map fun n => (r.elem + n, word ((r.elem + n) * es)))
  else do
    let p ← cAddr i h r true r.elem
    pure ((r.elem, p) :: cElems i h r p (left - 1) (r.elem + 1) (← get))

/-- An element's source: where its first byte lies, its granule, and the pointer to check it by (R190: an entry of v3 has the seals that
the port write made). -/
structure CSource where
  pos : Nat
  gran : Granule
  ptr : Option Word
  deriving DecidableEq, Repr

/-- The value that a fill writes (R314). -/
def fillValue (l : List Word) (pattern : Bool) : Nat :=
  if pattern then (cSrc l).toNat * (1 + 2 ^ 64 + 2 ^ 128 + 2 ^ 192) % 2 ^ (8 * cEsize l) else 0

/-- The source of element e (R311). -/
def cSource (i : SlotId) (h : Fin 8) (r : CRun) (k : CKind) (e : Nat) : CM CSource := do
  let size := cSsize r.img k
  match k with
  | .fill b => pure ⟨0, ⟨BitVec.ofNat 256 (fillValue r.img b), 0, false, false⟩, none⟩
  | _ =>
    if cPort r.img = 2 then
      let base := r.elem * size / 1024 * 32
      pure ⟨e * size, r.buf.getD (e * size / 32 - base) zeroGran, none⟩
    else do
      let p ← cAddr i h r false e
      let t ← cResolve i r p (cSrc r.img) ((← get).segNamed i (cSrc r.img)) size .load
      let g ← cGran i h r t p
      pure ⟨p.toNat, g, some p⟩

/-- The sources of a unit. -/
def cSources (i : SlotId) (h : Fin 8) (r : CRun) (k : CKind) : List (Nat × Word) → CM (List CSource)
  | [] => pure []
  | e :: l => do
    let x ← cSource i h r k e.1
    let y ← cSources i h r k l
    pure (x :: y)

/-! ### Element values -/

/-- A floating-point format of a code (03 Table 6). -/
def floatFmt (f : Nat) : Option Fmt :=
  match f with
  | 2 => some e4m3
  | 3 => some e5m2
  | 4 => some bf16
  | 5 => some fp16
  | 8 => some fp32
  | _ => none

/-- The range of an integer format. -/
def intRange (f : Nat) : Int × Int :=
  match f with
  | 0 => (-128, 127)
  | 1 => (0, 255)
  | _ => (-2147483648, 2147483647)

/-- An integer of a format. -/
def intValue (f v : Nat) : Int :=
  match f with
  | 0 => (BitVec.ofNat 8 v).toInt
  | 1 => (v % 256 : Nat)
  | _ => (BitVec.ofNat 32 v).toInt

/-- An integer in the bits of a format. -/
def intCode (f : Nat) (n : Int) : Nat := (n % (2 ^ (8 * 2 ^ fmtEsize f) : Int)).toNat

/-- A conversion by RoundTo under RNE with saturation (R270, R52, R62). -/
def cConvert (sf df v : Nat) : Nat × Sticky :=
  match floatFmt sf, floatFmt df with
  | some f, some g => g.round 0 0 true (f.value v).exact
  | some f, none =>
    let x := toInt (intRange df).1 (intRange df).2 0 0 (f.value v).exact
    (intCode df x.1, x.2)
  | none, some g => g.round 0 0 true (ofInt (intValue sf v))
  | none, none =>
    let x := saturate (intRange df).1 (intRange df).2 (intValue sf v)
    (intCode df x.1, stIf x.2 stSat)

/-- A floating-point reduction (R312, R55). -/
def reduceFloat (f : Fmt) (op d v : Nat) : Nat × Sticky :=
  if op = 0 then f.round 0 0 true ((f.value d).exact.add 0 (f.value v).exact)
  else match (f.value d).key, (f.value v).key with
    | some x, some y => (if keyLt x y == (op == 2) then d else v, 0)
    | _, _ => (f.nan, 0)

/-- One element of CRED (R312). -/
def cReduce (op rfmt d v : Nat) : Nat × Sticky :=
  match floatFmt rfmt with
  | some f => reduceFloat f op d v
  | none =>
    let a := intValue 9 d
    let b := intValue 9 v
    if op = 0 then
      let x := saturate (-2147483648) 2147483647 (a + b)
      (intCode 9 x.1, stIf x.2 stSat)
    else (if decide (a < b) == (op == 2) then d else v, 0)

/-- An element of a source as the destination takes it: converted where the command converts. -/
def cValue (l : List Word) (k : CKind) (x : CSource) : Nat × Sticky :=
  let v := bitsOf x.gran.data (8 * (x.pos % 32)) (8 * cSsize l k)
  if cConverts l k then cConvert (copyField l 21 4) (copyField l 25 4) v else (v, 0)

/-- Writes an element into a granule's data. -/
def putElem (d : BitVec 256) (off size v : Nat) : BitVec 256 :=
  mergeBytes d (BitVec.ofNat 256 (v % 2 ^ (8 * size) * 2 ^ (8 * off))) (byteMask off size)

/-- The data of a granule after a unit's elements, in order: each an offset and a value (R311, R312). -/
def cMerge (l : List Word) (k : CKind) (d : BitVec 256) : List (Nat × Nat) → BitVec 256 × Sticky
  | [] => (d, 0)
  | (off, v) :: r =>
    let size := cEsize l
    let x : Nat × Sticky := match k with
      | .reduce op => cReduce op (copyField l 29 4) (bitsOf d (8 * off) (8 * size)) v
      | _ => (v, 0)
    let y := cMerge l k (putElem d off size x.1) r
    (y.1, x.2 ||| y.2)

/-- The bytes that a unit's elements cover. -/
def cMask (l : List Word) (es : List (Nat × Nat)) : BitVec 32 :=
  es.foldl (fun m e => m ||| byteMask e.1 (cEsize l)) 0

/-- Whether a unit is transport (R272): unconverted, whole, and in order from one aligned granule. -/
def cTransport (l : List Word) (k : CKind) (offs : List Nat) (src : List CSource) : Bool :=
  let size := cEsize l
  let moves : Bool := match k with
    | .reduce _ => false
    | .fill _ => false
    | _ => !cConverts l k
  let p := (src.map (·.pos)).headD 0
  moves && offs.length * size == 32 && p % 32 == 0 && offs == (List.range offs.length).map (· * size) &&
    src.map (·.pos) == (List.range src.length).map fun n => p + n * size

/-! ### Writing a unit -/

/-- The destinations of a unit's elements for a receiver; all lie in one granule. -/
def cDests (i : SlotId) (r : CRun) (recv : Option (Fin 256)) (acc : Access) : List (Nat × Word) → CM (Option Target)
  | [] => pure none
  | e :: l => do
    let t ← cDest i r e.2 recv acc
    let _ ← cDests i r recv acc l
    pure (some t)

/-- A write that a unit has prepared: where, its granule, the bytes it covers, the elements where a remote home combines them, and the
receiving slot of its landing (R274). -/
structure CWrite where
  target : Target
  gran : Granule
  mask : BitVec 32
  elems : List (Nat × Nat)
  lands : SlotId
  deriving DecidableEq, Repr

/-- The granule that a unit leaves at a destination: as it came, made whole, or the old one checked and changed (R192, R191). -/
def cForm (r : CRun) (k : CKind) (old : Granule) (es : List (Nat × Nat)) (p : Word) (core : Nat) : CM (Granule × Sticky) := do
  let reduces : Bool := match k with
    | .reduce _ => true
    | _ => false
  if reduces || cMask r.img es != BitVec.allOnes 32 then
    cCheck old p core
    let x := cMerge r.img k old.data es
    pure (mkGran x.1, x.2)
  else
    let x := cMerge r.img k 0 es
    pure (mkGran x.1, x.2)

/-- The granule a unit changes at its destination; a line of the issuing core's L1 that it writes leaves first (R214). A remote home has
its own. -/
def cOld (i : SlotId) (t : Target) : CM Granule := do
  cUnlocked t.loc
  match t with
  | .seg g off => do
    modify fun s => s.storeErrors g (off / 32)
    pure ((← get).segGran g (off / 32))
  | .mem _ pa u => do
    modify fun s => (s.evictLine i.core (pa / 128)).corrected i.core u.part (pa / 32)
    pure ((← get).homeGran u.part u.key (pa / 32))
  | .remote _ _ _ => pure zeroGran

/-- A destination in memory that the partition cannot reach is answered poisoned (R377). -/
def cReach (t : Target) (p : Word) (core : Nat) : CM Unit := do
  match t with
  | .mem _ pa u => if (← get).closed u.part pa then cErr 0x0D (p &&& ~~~(31 : Word)) 0 core
  | _ => pure ()

/-- Prepares a unit's write for a receiver: checks first, nothing written (R275). -/
def cPrepare (i : SlotId) (r : CRun) (k : CKind) (unit : List (Nat × Word)) (es : List (Nat × Nat)) (whole : Option Granule)
    (recv : Option (Fin 256)) : CM (CWrite × Sticky) := do
  let acc : Access := match k with
    | .reduce _ => .atomic
    | _ => .store
  let t ← cDests i r recv acc unit
  let p := (unit.map (·.2)).headD 0
  let q := match recv with
    | some c => withOwner p c
    | none => p
  let far : SlotId := ⟨coreNo (copyField r.img 40 8), cSlot r.img⟩
  let lands := if bitsOf q 60 4 = 8 then destSlot i r.img q recv else far
  let t := t.getD (.seg ⟨.task 0, 0⟩ 0)
  cReach t q ((recv.map (·.val)).getD 0)
  let old ← cOld i t
  let mask := cMask r.img es
  match whole with
  | some g => pure (⟨t, g, mask, es, lands⟩, 0)
  | none => do
    let x ← cForm r k old es q ((recv.map (·.val)).getD 0)
    pure (⟨t, x.1, mask, es, lands⟩, x.2)

/-- The writes of a unit for a list of receivers, in their order: of several that fail, the first is reported (log 56, DESIGN CHOICE: R275 does
not say which). -/
def cPrepares (i : SlotId) (r : CRun) (k : CKind) (unit : List (Nat × Word)) (es : List (Nat × Nat)) (whole : Option Granule) :
    List (Option (Fin 256)) → CM (List CWrite × Sticky)
  | [] => pure ([], 0)
  | c :: l => do
    let x ← cPrepare i r k unit es whole c
    let y ← cPrepares i r k unit es whole l
    pure (x.1 :: y.1, x.2 ||| y.2)

/-- The landing of a unit's write, for a barrier-tagged word (R274). -/
def State.cLanding (s : State) (i : SlotId) (r : CRun) (bar : Bool) (j : SlotId) (mask : BitVec 32) : Option Landing :=
  let level := cLevel r.img
  match bar, (s.slotOf j).task with
  | true, some t =>
    some ⟨level, (s.slotOf i).dom level, taskNo t.part t.serial, ((List.range 32).filter (mask.getLsbD ·)).length,
      tget 0 r.q.phases level⟩
  | _, _ => none

/-- A landing goes on its way. -/
def State.sendLanding (s : State) (p : Fin 16) (l : Option Landing) : State :=
  match l with
  | none => s
  | some l => s.mapPart p fun q => { q with landings := q.landings ++ [l] }

/-- The requests of a reduction at a remote home: elements of one request do not overlap, so that the order of combination stays
(R390, R312). -/
def reduceParts (size : Nat) : List (Nat × Nat) → List (Nat × Nat) → List (List (Nat × Nat))
  | [], a => if a.isEmpty then [] else [a]
  | e :: l, a => if a.any fun x => x.1 == e.1 then a :: reduceParts size l [e] else reduceParts size l (a ++ [e])

/-- Sends the reductions of a unit, the landing with the last. -/
def State.sendReduces (s : State) (i : SlotId) (chan : Fin 8 × Nat) (l : List Word) (op dev pa : Nat) (dlog : Bool) (land : Option Landing) :
    List (List (Nat × Nat)) → State
  | [] => s
  | a :: r =>
    let g := mkGran (cMerge l .copy 0 a).1
    let s1 := s.sendFor i (some chan) (if r.isEmpty then land else none) dev pa
      (.reduce (Fin.ofNat 3 op) (Fin.ofNat 16 (copyField l 29 4)) (cMask l a) g) dlog
    s1.sendReduces i chan l op dev pa dlog land r

/-- Performs a prepared write as one granule (R220), and its landing (R274). -/
def State.cPut (s : State) (i : SlotId) (h : Fin 8) (r : CRun) (k : CKind) (bar : Bool) (w : CWrite) : State :=
  let land := s.cLanding i r bar w.lands w.mask
  let p := s.partNo i.core
  match w.target with
  | .seg g off => (s.segPut g (off / 32) w.gran).sendLanding p land
  | .mem _ pa u => (s.homePut u.part u.key u.dlog (pa / 32) w.gran).sendLanding p land
  | .remote dev pa dlog =>
    if (s.routeTo i.core dev).isNone then s.lostWrite i (.far dev (pa / 32))
    else match k with
      | .reduce op => s.sendReduces i (h, r.q.seq) r.img op dev (pa / 32 * 32) dlog land (reduceParts (cEsize r.img) w.elems [])
      | _ => s.sendFor i (some (h, r.q.seq)) land dev (pa / 32 * 32) (.write w.mask w.gran none) dlog

/-- Every write of a unit. -/
def State.cPuts (s : State) (i : SlotId) (h : Fin 8) (r : CRun) (k : CKind) (bar : Bool) : List CWrite → State
  | [] => s
  | w :: l => (s.cPut i h r k bar w).cPuts i h r k bar l

/-! ### Allowance (R277) -/

/-- A bucket's depth: 10 microseconds of its refill rate in MB/s. -/
def bucketDepth (rate : Nat) : Nat := 10 * rate

/-- Takes bytes from a bucket, borrowing from the pool what it lacks while the debt stays within the depth. -/
def Bucket.spend (b : Bucket) (pool depth n : Nat) : Option (Bucket × Nat) :=
  if n ≤ b.fill then some ({ b with fill := b.fill - n }, pool)
  else
    let lack := n - b.fill
    if lack ≤ pool ∧ b.debt + lack ≤ depth then some (⟨0, b.debt + lack⟩, pool - lack) else none

/-- Takes a unit's bytes of Falran egress and host DMA: none where the channel must wait. -/
def State.spendAllowance (s : State) (p : Fin 16) (fal host : Nat) : Option State :=
  let q := s.partOf p
  let rate := fun (lo : Nat) => bucketDepth (bitsOf (q.word 7) lo 32)
  match q.falBucket.spend s.pkg.falPool (rate 32) fal, q.hostBucket.spend s.pkg.hostPool (rate 0) host with
  | some (a, x), some (b, y) =>
    some ((s.mapPart p fun q => { q with falBucket := a, hostBucket := b }).mapPkg fun k => { k with falPool := x, hostPool := y })
  | _, _ => none

/-- Bytes that go to host memory with a target. -/
def Target.hostBytes (t : Target) : Nat :=
  match t with
  | .mem _ pa _ => if physOf pa = .host then 32 else 0
  | _ => 0

/-- Bytes that leave over Falran with a target. -/
def Target.falBytes (t : Target) : Nat :=
  match t with
  | .remote _ _ _ => 32
  | _ => 0

/-! ### Port streams (R260) -/

/-- Entries of v3 popped until the buffer holds n granules; none while they have not been written. -/
def fillBuf (v3 : List (Nat × Option (List Granule))) (buf : List Granule) : Nat → Option (List (Nat × Option (List Granule)) × List Granule)
  | 0 => some (v3, buf)
  | n + 1 =>
    match v3 with
    | (_, some l) :: r => fillBuf r (buf ++ l) n
    | _ => none

/-- The command with the source granules of a unit of m elements at hand. -/
def cPop (i : SlotId) (h : Fin 8) (r : CRun) (k : CKind) (m : Nat) : CM CRun := do
  if cPort r.img ≠ 2 then pure r
  else
    let s ← get
    let x := s.slotOf i
    let p := x.eng.ports
    let size := cSsize r.img k
    let need := ((r.elem + m) * size + 1023) / 1024 - r.elem * size / 1024 - r.buf.length / 32
    if need ≠ 0 ∧ p.bind3 ≠ .chan h then cWait
    else match fillBuf p.v3 r.buf need with
      | none => cWait
      | some (v3, buf) => do
        set (s.setSlot i { x with eng := { x.eng with ports := { p with v3 := v3 } } })
        pure { r with buf := buf }

/-- The command after a unit of m elements. -/
def cAdvance (r : CRun) (k : CKind) (m : Nat) (f : Sticky) : CRun :=
  let size := cSsize r.img k
  let done := if cPort r.img = 2 then 32 * ((r.elem + m) * size / 1024 - r.elem * size / 1024) else 0
  { r with elem := r.elem + m, units := r.units + 1, got := [], flags := r.flags ||| f, buf := r.buf.drop done }

/-- Adds a granule to the entry in making, and pushes the entry when it is full or the command's last (R260). -/
def cPush (i : SlotId) (h : Fin 8) (r : CRun) (g : Granule) (last : Bool) : CM CRun := do
  let s ← get
  let x := s.slotOf i
  let p := x.eng.ports
  let buf := r.buf ++ [g]
  if buf.length < 32 ∧ last = false then pure { r with buf := buf }
  else
    let e : PortEntry := ⟨none, padTo buf 32 zeroGran⟩
    let late := p.late.filter fun e => e.2 != h.val
    match x.fedPort h with
    | some 0 => set (s.setSlot i { x with eng := { x.eng with ports := { p with v0 := p.v0 ++ [e], late := late } } })
    | _ => set (s.setSlot i { x with eng := { x.eng with ports := { p with v1 := p.v1 ++ [e], late := late } } })
    pure { r with buf := [] }

/-- The entries that a port holds at most (R105). -/
def Slot.entryCap (x : Slot) : Nat :=
  match x.task with
  | some t => min 8 t.caps.data
  | none => 8

/-- Whether the port that a command feeds can take an entry. -/
def Slot.cPortOpen (x : Slot) (h : Fin 8) (l : List Word) : Bool :=
  if cPort l ≠ 1 then true
  else match x.fedPort h with
    | some 0 => decide (x.eng.ports.v0.length < x.entryCap)
    | some _ => decide (x.eng.ports.v1.length < x.entryCap)
    | none => false

/-! ### A unit -/

/-- Checks each source granule of a re-forming unit (R192). -/
def cCheckAll : List CSource → CM Unit
  | [] => pure ()
  | x :: l => do
    match x.ptr with
    | some p => cCheck x.gran p 0
    | none => pure ()
    cCheckAll l

/-- Whether an element's source lies in host memory, for the allowance. -/
def cSourceHost (i : SlotId) (r : CRun) (k : CKind) (p : Option Word) : CM Nat := do
  match p with
  | none => pure 0
  | some p => do
    let t ← cResolve i r p (cSrc r.img) ((← get).segNamed i (cSrc r.img)) (cSsize r.img k) .load
    pure t.hostBytes

/-- Takes the allowance of a unit, or waits at its boundary. -/
def cAllow (i : SlotId) (fal host : Nat) : CM Unit := fun s =>
  match s.spendAllowance (s.partNo i.core) fal host with
  | some t => .ok ((), t)
  | none => .error (.wait none)

/-- The lines of memory that writes change (R214). -/
def writtenLines (l : List CWrite) : List Nat :=
  l.filterMap fun w => match w.target with
    | .mem _ pa _ => some (pa / 128)
    | _ => none

/-- The flags that a reduction at a remote home may set there, of which nothing tells the issuer: they are free values (R312; log 59). -/
def farFlags (op rfmt : Nat) : BitVec 6 :=
  if op ≠ 0 then 0 else if rfmt = 9 then 0x01 else 0x0E

/-- A unit whose destination is memory. -/
def cMemUnit (i : SlotId) (h : Fin 8) (r : CRun) (w : CWord) (k : CKind) (unit : List (Nat × Word)) (src : List CSource)
    (es : List (Nat × Nat)) (whole : Option Granule) : CM (CRun × Sticky) := do
  let recv : List (Option (Fin 256)) := match k with
    | .cast => (cReceivers r.img i.core).map some
    | _ => [none]
  let x ← cPrepares i r k unit es whole recv
  let sh ← cSourceHost i r k ((src.map (·.ptr)).headD none)
  cAllow i ((x.1.map fun y => y.target.falBytes).sum) (sh + (x.1.map fun y => y.target.hostBytes).sum)
  modify fun s => s.cPuts i h r k w.bar x.1
  let r := { r with lines := (r.lines ++ writtenLines x.1).dedup }
  let far : BitVec 6 := match k with
    | .reduce op => if x.1.any fun y => decide (0 < y.target.falBytes) then farFlags op (copyField r.img 29 4) else 0
    | _ => 0
  let there := x.1.any fun y => decide (0 < y.target.falBytes)
  if far = 0 then pure (r, if there then 0 else x.2)
  else do
    let (v, s) := (← get).draw
    set s
    pure (r, v.setWidth 6 &&& far)

/-- A unit of a port's stream: a granule of the entry in making (R260). -/
def cPortUnit (i : SlotId) (h : Fin 8) (r : CRun) (w : CWord) (k : CKind) (src : List CSource) (es : List (Nat × Nat))
    (whole : Option Granule) : CM (CRun × Sticky) := do
  let sh ← cSourceHost i r k ((src.map (·.ptr)).headD none)
  cAllow i 0 sh
  let g := whole.getD (mkGran (cMerge r.img k 0 es).1)
  let r1 ← cPush i h r g (decide (r.elem + es.length ≥ cTotal r.img))
  modify fun s => s.sendLanding (s.partNo i.core)
    (s.cLanding i r w.bar ⟨coreNo (copyField r.img 40 8), cSlot r.img⟩ (cMask r.img es))
  pure (r1, 0)

/-- The next unit of a command (R272): its elements, their sources, and one granule written. -/
def cRunUnit (i : SlotId) (h : Fin 8) (r0 : CRun) (w : CWord) (k : CKind) : CM CRun := do
  let unit ← cUnit i h r0
  let r ← cPop i h r0 k unit.length
  let src ← cSources i h r k unit
  let offs := unit.map fun e => e.2.toNat % 32
  let whole : Option Granule := if cTransport r.img k offs src then (src.map (·.gran)).head? else none
  if whole.isNone then cCheckAll src
  let vals := if whole.isNone then src.map (cValue r.img k) else src.map fun x => (bitsOf x.gran.data (8 * (x.pos % 32)) (8 * cEsize r.img), 0)
  let es := offs.zip (vals.map (·.1))
  let f := vals.foldl (fun a v => a ||| v.2) 0
  let x ← if cPort r.img = 1 then cPortUnit i h r w k src es whole else cMemUnit i h r w k unit src es whole
  pure (cAdvance x.1 k unit.length (f ||| x.2))

/-! ### Start, units, completion -/

/-- Changes the command on a channel. -/
def State.setRun (s : State) (i : SlotId) (h : Fin 8) (r : Option CRun) : State :=
  s.mapSlot i fun x => x.setChan h { x.chan h with run := r }

/-- Pins the segments of a copy, which stay its own until it ends (R174, R179). -/
def State.pinCopies (s : State) (m : List SegId) : State :=
  { s with segs := s.segs.map fun g => if m.contains g.id then { g with pins := g.pins + 1, copyPins := g.copyPins + 1 } else g }

/-- The command after n units more, as their elements lie. -/
def cSkip (i : SlotId) (h : Fin 8) (s : State) (r : CRun) : Nat → CRun
  | 0 => r
  | n + 1 =>
    match cUnit i h r s with
    | .ok (u, _) => cSkip i h s { r with elem := r.elem + u.length } n
    | .error _ => r

/-- n granules of free values. -/
def State.drawGrans (s : State) : Nat → List Granule × State
  | 0 => ([], s)
  | n + 1 =>
    let a := s.drawTwo
    let b := a.2.drawTwo
    let r := b.2.drawGrans n
    (mkGran (a.1.1 ++ a.1.2 ++ b.1.1 ++ b.1.2) :: r.1, r.2)

/-- A command whose save area tells its finished units alone goes on at its next unit (R265, R335); the flags it has gathered, and the
part of an entry that it held, have no place in the area, and are free values (log 44). -/
def State.cRestore (s : State) (i : SlotId) (h : Fin 8) (r : CRun) (k : CKind) : CRun × State :=
  if r.elem ≠ 0 ∨ r.units = 0 then (r, s)
  else
    let r1 := cSkip i h s r r.units
    let n := if cPort r.img = 1 then r.units % 32 else if cPort r.img = 2 ∧ r1.elem * cSsize r.img k % 1024 ≠ 0 then 32 else 0
    let g := s.drawGrans n
    let (v, t) := g.2.draw
    ({ r1 with buf := g.1, flags := v.setWidth 6 }, t)

/-- The checks and the admission of the command on a channel (R310, R174). -/
def State.cBegin (s : State) (i : SlotId) (h : Fin 8) : State :=
  let x := s.slotOf i
  match (x.chan h).run with
  | none => s
  | some r =>
    match cWordOf r.q.word with
    | some ⟨c, d, b, some k⟩ =>
      if x.cStartOk r.img ⟨c, d, b, some k⟩ k = false then s.cFault i h false 0x01 (r.q.word.setWidth 64) 2 0
      else
        let pins := s.cPins i r.img k
        match s.admitSet i (.c i h) (pins.map (·.1)) (pins.map (·.2)) 0 false with
        | .tooLarge f => s.cFault i h false 0x08 (word f) (word x.quota) 0
        | .wait t => t
        | .go t =>
          let r1 := { r with pins := pins.map (·.1), admitted := true }
          let e := (t.pinCopies (pins.map (·.1))).cRestore i h r1 k
          e.2.setRun i h (some e.1)
    | _ => s

/-- Commands that wait for admission, or that a fault stopped and the supervisor has let go on (R175, R328); one whose word has entered its
queue again after a save waits for its turn there (R251). -/
def State.cRetry (s : State) (i : SlotId) (h : Fin 8) : State :=
  match ((s.slotOf i).chan h).run with
  | some r =>
    if r.admitted || r.stopped || (s.slotOf i).eng.qs.cq.any fun q => q.seq == r.q.seq then s else s.cBegin i h
  | none => s

/-- Starts the head word of a slot's C queue, its tokens taken: CNOP completes at once (R311, R251). -/
def State.cTake (s : State) (i : SlotId) (q : QEntry) (w : CWord) (y : Slot) : State :=
  let late := y.eng.ports.late.filter fun e => e.2 != w.chan.val
  let y1 := ({ y with eng := { y.eng with ports := { y.eng.ports with late := late } } }).setQueue .c (y.queue .c).tail
  let pop := (waitEng .c q.word).isSome
  let y2 := if pop then y1.journalPopped q.seq else y1
  match w.kind with
  | none =>
    let y3 := match postEng .c q.word with
      | some b => y2.postToken .c b
      | none => y2
    s.setSlot i ((y3.setChan w.chan { y3.chan w.chan with doneId := q.tid }).journalDone q.seq s.cycle)
  | some _ =>
    let run : CRun :=
      { q := { q with held := true, popped := q.popped || pop }
        img := (y2.eng.descs.imageAt (16 + w.cd) q.ver).img
        elem := 0
        units := 0
        buf := []
        got := []
        flags := 0
        pins := []
        admitted := false
        stopped := false
        lines := []
        unacked := [] }
    let s1 := ((s.setSlot i y2).setRun i w.chan (some run)).flushLater i
    (s1.drainFifo i.core).cBegin i w.chan

/-- The word at the head of a slot's C queue, when it can start: its channel is idle, or holds this very command since before a save (R251,
R267); its tokens can be taken, and the stores before it can be performed (R213). -/
def State.cHead (s : State) (i : SlotId) : Option (QEntry × CWord) :=
  let x := s.slotOf i
  match x.eng.qs.cq with
  | [] => none
  | q :: _ =>
    match cWordOf q.word with
    | none => none
    | some w =>
      let mine := match (x.chan w.chan).run with
        | some r => r.q.seq == q.seq
        | none => (x.startTokens .c q.word q.popped).isSome && !s.lockedStores i
      if !x.eng.qs.cStop && mine then some (q, w) else none

/-- It is a slot's turn: the copy engine goes round the slots whose head can start (R251). -/
def State.cTurn (s : State) (i : SlotId) : Bool :=
  nextSlot (s.coreOf i.core).copySlot (fun j => (s.cHead ⟨i.core, j⟩).isSome) == some i.slot

/-- A command that has entered its queue again after a save goes on (R265). -/
def State.cResume (s : State) (i : SlotId) (h : Fin 8) : State :=
  (s.mapSlot i fun x => x.setQueue .c (x.queue .c).tail).cBegin i h

/-- C_START (R251, R267, R213): commands that wait for admission are admitted, then the head word starts when it can and it is its slot's
turn. -/
def execCStart (i : SlotId) (s : State) : Host.Outcome State Fault Refusal :=
  .next (
    if s.runs i.core = false then s
    else
      let s1 := (List.finRange 8).foldl (fun t h => t.cRetry i h) s
      match s1.cHead i, s1.cTurn i with
      | some (q, w), true =>
        let x := s1.slotOf i
        let s2 := s1.mapCore i.core fun k => { k with copySlot := i.slot }
        if (x.chan w.chan).run.isSome then s2.cResume i w.chan
        else match x.startTokens .c q.word q.popped with
          | none => s1
          | some y => s2.cTake i q w y
      | _, _ => s1)

/-- COPY_UNIT (R272): the next unit of the command on a channel. -/
def execCopyUnit (i : SlotId) (h : Fin 8) (s : State) : Host.Outcome State Fault Refusal :=
  .next (
    let x := s.slotOf i
    match s.runs i.core, (x.chan h).run with
    | true, some r =>
      match cWordOf r.q.word with
      | some ⟨c, d, b, some k⟩ =>
        if r.admitted = false ∨ r.stopped = true ∨ r.elem ≥ cTotal r.img ∨ x.cPortOpen h r.img = false then s
        else match cRunUnit i h r ⟨c, d, b, some k⟩ k s with
          | .ok (r1, t) => t.setRun i h (some r1)
          | .error (.wait t) => t.getD s
          | .error (.err dies inj cause t0 t1 core) => ({ s with dies := dies }).cFault i h inj cause t0 t1 core
      | _ => s
    | _, _ => s)

/-- Some write of a command is not acknowledged, those sent before a save among them (R214, R252). -/
def State.cUnacked (s : State) (i : SlotId) (h : Fin 8) (r : CRun) : Bool :=
  s.pkg.remotes.any fun q => decide (q.slot = i ∧ q.chan = some (h, r.q.seq)) || r.unacked.contains q.tag

/-- A line holds dirty data for a locked place (R218). -/
def State.lineHeld (s : State) (c : Fin 256) (n : Nat) : Bool :=
  match s.l1Line c n with
  | some l => l.grans.zipIdx.any fun e => e.1.dirty && s.isLocked (.phys (4 * n + e.2))
  | none => false

/-- A line that a command wrote leaves the L1 of its core, which does not fill it again from before now (R214). -/
def State.leaveLine (s : State) (c : Fin 256) (n : Nat) : State :=
  (s.evictLine c n).mapCore c fun k => { k with floors := tput k.floors n s.now }

/-- C_COMPLETE (R252, R268, R214): every write is acknowledged; the lines that the command wrote leave the issuing core's L1; token, flags,
pins, id. -/
def execCComplete (i : SlotId) (h : Fin 8) (s : State) : Host.Outcome State Fault Refusal :=
  .next (
    let x := s.slotOf i
    match (x.chan h).run with
    | none => s
    | some r =>
      if r.admitted = false ∨ r.elem < cTotal r.img ∨ s.cUnacked i h r = true ∨ r.lines.any (s.lineHeld i.core) = true then s
      else
        ((r.lines.foldl (fun t n => t.leaveLine i.core n) s).endCopyPins r.pins).mapSlot i fun x =>
          let y := match postEng .c r.q.word with
            | some b => x.postToken .c b
            | none => x
          let z := { y with bank := { y.bank with flags := y.bank.flags ||| r.flags.setWidth 12 } }
          (z.setChan h { z.chan h with doneId := r.q.tid, run := none }).journalDone r.q.seq s.cycle)

/-! ### Forwarding -/

/-- A C word at the control core: forwarded with its channel's next transfer id (R268). -/
def cForward (i : Instr) (h : Fin 8) (s : State) : Host.Outcome State Fault Refusal :=
  runOp (forwardOp .c (encode i) (some h)) s

/-- CNOP (R311). -/
def execCnop (h : Fin 8) (k : Tok) (s : State) : Host.Outcome State Fault Refusal :=
  cForward (.cnop h k) h s

/-- CPY (R311). -/
def execCpy (h : Fin 8) (c : Fin 16) (r : Bool) (k : Tok) (s : State) : Host.Outcome State Fault Refusal :=
  cForward (.cpy h c r k) h s

/-- CRED (R312). -/
def execCred (h : Fin 8) (c : Fin 16) (r : Bool) (o : Fin 16) (k : Tok) (s : State) : Host.Outcome State Fault Refusal :=
  cForward (.cred h c r o k) h s

/-- CGATH (R311). -/
def execCgath (h : Fin 8) (c : Fin 16) (r : Bool) (k : Tok) (s : State) : Host.Outcome State Fault Refusal :=
  cForward (.cgath h c r k) h s

/-- CSCAT (R311). -/
def execCscat (h : Fin 8) (c : Fin 16) (r : Bool) (k : Tok) (s : State) : Host.Outcome State Fault Refusal :=
  cForward (.cscat h c r k) h s

/-- CMCAST (R313). -/
def execCmcast (h : Fin 8) (c : Fin 16) (r : Bool) (k : Tok) (s : State) : Host.Outcome State Fault Refusal :=
  cForward (.cmcast h c r k) h s

/-- CFILL (R314). -/
def execCfill (h : Fin 8) (c : Fin 16) (r : Bool) (o : Fin 16) (k : Tok) (s : State) : Host.Outcome State Fault Refusal :=
  cForward (.cfill h c r o k) h s

end Sys2Proof.Machine
end

