-- ==== Sys2Proof/Machine/System.lean ====
section
/-! DEFINITION. System instructions (17 R350 to R363): traps and their return, special registers, saved contexts, accumulator moves,
translation, the error log, the monitor and HALT. -/

namespace Sys2Proof.Machine

/-! ### Traps (R353, R354) -/

/-- TRAP (R353). -/
def execTrap (c : BitVec 10) (s : State) : Host.Outcome State Fault Refusal :=
  runOp (do
    noTx
    throw (.become (s.syncTrap s.cur (nextPc s.pc) ⟨0x13, c.setWidth 64, 0, 0, 0⟩))) s

/-- TRET (R354). -/
def execTret (k r : Bool) (s : State) : Host.Outcome State Fault Refusal :=
  runOp (do
    needLevel .supervisor (encode (.tret k r))
    noTx
    modify fun s => s.trapReturn s.cur k r) s

/-! ### Special registers: reading (R355, R356) -/

/-- The level a number's range requires (R11). -/
def sregLevel (n : Nat) : Level :=
  if n < 0x100 then .task else if n < 0x200 then .supervisor else .monitor

/-- PREEMPT (R332, Table 5). -/
def Slot.preemptWord (x : Slot) : Word :=
  word ((if x.loop.ld then 2 ^ 33 else 0) + (if x.pend.preempt then 2 ^ 32 else 0) + x.loop.budget.toNat)

/-- PCFG (R356). -/
def State.pcfg (s : State) (i : SlotId) : Word :=
  let p := s.partNo i.core
  let q := s.partOf p
  word (q.icore.val * 256 + (if q.testFlag then 16 else 0) + p.val)

/-- A register of 0x100 to 0x10C. -/
def State.supReg (s : State) (i : SlotId) (n : Nat) : Word :=
  let x := s.slotOf i
  let f := x.frame
  match n with
  | 0x100 => f.tvb
  | 0x101 => f.tepc
  | 0x102 => f.tcause.setWidth 64
  | 0x103 => f.tinfo0
  | 0x104 => f.tinfo1
  | 0x105 => f.tinfo2
  | 0x106 => f.tinfo3
  | 0x107 => s.tstatus i
  | 0x108 => wbit x.vlw
  | 0x109 => x.loop.wdog.setWidth 64
  | 0x10A => x.preemptWord
  | 0x10B => word (s.taggedMask i.core x.ctx.key)
  | 0x10C => (s.partOf (s.partNo i.core)).envcb
  | _ => 0

/-- A register of 0x200 to 0x204. -/
def State.monReg (s : State) (i : SlotId) (n : Nat) : Word :=
  let d := s.dieOf (dieOfCore i.core)
  match n with
  | 0x200 => d.mframe
  | 0x201 => d.injcfg
  | 0x202 => d.injrate
  | 0x203 => d.injseed
  | 0x204 => s.pcfg i
  | _ => 0

/-- A special register as SRD reads it: FLAGS is that of the bank in use, CYCLE counts since reset (R355). -/
def State.sreg (s : State) (i : SlotId) (n : Nat) : Word :=
  if n = 0x10 then (s.slotOf i).active.flags.setWidth 64
  else if n = 0x14 then word s.cycle
  else if n < 0x100 then s.ctxReg i n
  else if n < 0x200 then s.supReg i n
  else s.monReg i n

/-- The checks of SRD and SWR on the number, in the order of R41: it names a register, and the level may access its range. -/
def sregOp (w : IWord) (n m : Nat) : Op Unit := do
  if m ≠ 0 ∨ sregNumbers.contains n = false then trapOp 0x01 (w.setWidth 64) 2 0 0
  needLevel (sregLevel n) w

/-- CHDONE0 to CHDONE7: a read of one follows what the transfers that it counts have done (R268, R209). -/
def isDone (n : Nat) : Bool := decide (0x20 ≤ n ∧ n ≤ 0x27)

/-- SRD (R355): numbers below 0x100 are open inside a transaction (R233). -/
def execSrd (d : Fin 32) (n : Fin 1024) (m : Fin 4) (s : State) : Host.Outcome State Fault Refusal :=
  runOp (do
    sregOp (encode (.srd d n m)) n.val m.val
    if 0x100 ≤ n.val then noTx
    modify fun s =>
      let t := if isDone n.val then s.acquire s.cur 0 s.now else s
      t.result d (t.sreg s.cur n.val)) s

/-! ### Special registers: writing -/

/-- Changes the frame of the current slot. -/
def State.mapFrame (s : State) (f : Frame → Frame) : State :=
  s.setMe { s.me with frame := f s.me.frame }

/-- TSTATUS as SWR writes it: bits 4:0 (R325; a plev of 10, which no level has, leaves plev). -/
def Frame.writeStatus (f : Frame) (v : Word) : Frame :=
  { f with
    plev := match bitsOf v 0 2 with
      | 0 => .task
      | 1 => .supervisor
      | 3 => .monitor
      | _ => f.plev
    inTrap := v.getLsbD 2
    tx := v.getLsbD 3
    drop := v.getLsbD 4 }

/-- INJCFG as a write leaves it: zero fields, and en only for a partition with the test flag (R349). -/
def State.injWord (s : State) (v : Word) : Word :=
  let w := v &&& 0xF0FF01
  if v.getLsbD 0 && !(s.partOf (Fin.ofNat 16 (bitsOf v 20 4))).testFlag then w &&& ~~~(1 : Word) else w

/-- Writes the die's injector registers. -/
def State.setInj (s : State) (c : Fin 256) (cfg rate seed : Word) : State :=
  s.mapDie (dieOfCore c) fun d => { d with injcfg := s.injWord cfg, injrate := rate &&& 0xFFFFFFFF, injseed := seed }

/-- A register whose write is plain; none for a read-only one. -/
def State.plainWrite (s : State) (n : Nat) (v : Word) : Option State :=
  let die := dieOfCore s.cur.core
  match n with
  | 0x016 => some (s.setMe { s.me with tol := v.setWidth 32 })
  | 0x100 => some (s.mapFrame fun f => { f with tvb := v &&& ~~~(0xFFF : Word) })
  | 0x101 => some (s.mapFrame fun f => { f with tepc := v })
  | 0x102 => some (s.mapFrame fun f => { f with tcause := v.setWidth 11 })
  | 0x103 => some (s.mapFrame fun f => { f with tinfo0 := v })
  | 0x104 => some (s.mapFrame fun f => { f with tinfo1 := v })
  | 0x105 => some (s.mapFrame fun f => { f with tinfo2 := v })
  | 0x106 => some (s.mapFrame fun f => { f with tinfo3 := v })
  | 0x107 => some (s.mapFrame fun f => f.writeStatus v)
  | 0x108 => some (s.setMe { s.me with vlw := v.getLsbD 0 })
  | 0x109 => some (s.setMe { s.me with loop := { s.me.loop with wdog := v.setWidth 32 } })
  | 0x200 => some (s.mapDie die fun d => { d with mframe := v &&& 0xFFFFFFFFFC000 })
  | 0x202 => some (s.mapDie die fun d => { d with injrate := v &&& 0xFFFFFFFF })
  | 0x203 => some (s.mapDie die fun d => { d with injseed := v })
  | _ => none

/-- SWR to a register without a row of its own (R355): a read-only one is ILLEGAL with reason 2. -/
def execSwr (t : Fin 32) (n : Fin 1024) (m : Fin 4) (s : State) : Host.Outcome State Fault Refusal :=
  let w := encode (.swr t n m)
  runOp (do
    sregOp w n.val m.val
    noTx
    match s.plainWrite n.val (s.reg t) with
    | none => trapOp 0x01 (w.setWidth 64) 2 0 0
    | some s1 => do
      set s1
      modify State.retire) s

/-- SWR to FLAGS (R10). -/
def execSwrFlags (t : Fin 32) (s : State) : Host.Outcome State Fault Refusal :=
  runOp (do
    noTx
    modify fun s => (s.setMe (s.me.setActive { s.me.active with flags := writeFlags s.me.active.flags (s.reg t) })).retire) s

/-- A value VTYPE can hold (R129). -/
def vtypeOk (v : Word) : Bool := decide (bitsOf v 0 4 < 10) && decide (bitsOf v 4 3 < 6) && !v.getLsbD 9

/-- SWR to VTYPE (R129): a marker carries a value that it can hold; for another none is sent, and no journal entry is taken (log 116, DESIGN CHOICE:
R129 and R266 do not say). -/
def execSwrVtype (t : Fin 32) (s : State) : Host.Outcome State Fault Refusal :=
  runOp (do
    noTx
    let v := s.reg t
    if vtypeOk v then do
      markerOp (markerWord 1 (bitsOf v 0 10))
      modify fun s => s.setMe { s.me with vtype := v.setWidth 10 }
    modify State.retire) s

/-- SWR to RRB (R128). -/
def execSwrRrb (t : Fin 32) (s : State) : Host.Outcome State Fault Refusal :=
  runOp (do
    noTx
    let v := bitsOf (s.reg t) 0 4
    markerOp (markerWord 2 v)
    modify fun s => (s.setMe { s.me with rrb := v }).retire) s

/-- SWR to EC (R128, R130). -/
def execSwrEc (t : Fin 32) (s : State) : Host.Outcome State Fault Refusal :=
  runOp (do
    noTx
    markerOp (markerWord 3 0)
    modify fun s => (s.setMe { s.me with ec := s.reg t }).retire) s

/-- Words of an engine of a slot that are not done. -/
def Slot.busyWith (x : Slot) (e : Eng) : Bool :=
  x.eng.qs.journal.any fun j => !j.done && !isMarker j.word && decide (j.eng = e)

/-- SWR to SRSEED (R64, R65): it waits for the slot's V and M commands, and seeds both sets of generators. -/
def execSwrSrseed (t : Fin 32) (s : State) : Host.Outcome State Fault Refusal :=
  runOp (do
    noTx
    if s.me.busyWith .v || s.me.busyWith .m then stallOp .srseed
    else
      let v := s.reg t
      modify fun s => (s.setMe { s.me with
        srseed := v
        eng := { s.me.eng with vec := { s.me.eng.vec with seed := v, gens := [] } } }).retire) s

/-- A request of pre-emption (R332, R333): inside a loop with ld it waits for a loop drain; one that is pending stays as it is. -/
def Slot.request (x : Slot) (c : Nat) : Slot :=
  if x.pend.preempt then x
  else { x with
    pend := { x.pend with preempt := true }
    loop := { x.loop with reqCycle := c, ready := !(x.loop.inLoop && x.loop.ld) } }

/-- SWR to PREEMPT (R332): the budget's counter begins anew, and now = 1 requests. -/
def execSwrPreempt (t : Fin 32) (s : State) : Host.Outcome State Fault Refusal :=
  runOp (do
    needLevel .supervisor (encode (.swrPreempt t))
    noTx
    let v := s.reg t
    modify fun s =>
      let x := { s.me with
        loop := { s.me.loop with ld := v.getLsbD 33, budget := v.setWidth 32, spent := false }
        sched := { s.me.sched with budgetUsed := 0 } }
      (s.setMe (if v.getLsbD 32 then x.request s.cycle else x)).retire) s

/-- The environment pool that a control block names (R102): none where it cannot be read or a field is out of range, or where its address is
not a multiple of 8; bits 63:48 of it are cut off. For these two the spec says nothing (log 101, DESIGN CHOICE). -/
def State.envPool (s : State) (p : Fin 16) (va : Word) : Option (Nat × Nat) :=
  if va.toNat % 8 ≠ 0 then none
  else match s.devWords p (s.partOf p).root va.toNat 8 with
    | none => none
    | some l =>
      let w := imgWord l 1
      let n := bitsOf w 0 17
      if bitsOf w 17 47 = 0 ∧ (l.drop 2).all (· == 0) = true ∧ 1 ≤ n ∧ n ≤ 65536 then some ((imgWord l 0).toNat, n) else none

/-- SWR to ENVCB (R102): unchanged while a task holds an environment, or where the block is no pool. -/
def execSwrEnvcb (t : Fin 32) (s : State) : Host.Outcome State Fault Refusal :=
  runOp (do
    needLevel .supervisor (encode (.swrEnvcb t))
    noTx
    let p := s.partNo s.cur.core
    let v := s.reg t
    if s.anyEnv p then modify State.retire
    else do
      askOp p (if v.toNat % 8 = 0 then s.wants p (s.partOf p).root v.toNat 3 else [])
      modify fun s =>
        let u := s.forget p
        match s.envPool p v with
        | some (base, n) => (u.mapPart p fun q => { q with envcb := v, envBase := base, envCount := n }).retire
        | none => u.retire) s

/-- SWR to INJCFG (R349). -/
def execSwrInjcfg (t : Fin 32) (s : State) : Host.Outcome State Fault Refusal :=
  runOp (do
    needLevel .monitor (encode (.swrInjcfg t))
    noTx
    modify fun s => (s.mapDie (dieOfCore s.cur.core) fun d => { d with injcfg := s.injWord (s.reg t) }).retire) s

/-! ### Physical operands (R350) -/

/-- A physical operand that names no memory stops the machine (log 20). -/
def physical (pa : Nat) : Op Unit := do
  if physOf pa = .hole then throw (.fault .physicalHole)

/-- A multiple of 128 KiB. -/
def csaAligned (a : Word) : Bool := decide (a.toNat % 2 ^ 17 = 0)

/-! ### Accumulators (R359) -/

/-- The slot of a core whose running task's area is at an address. -/
def State.ownerOf (s : State) (c : Fin 256) (a : Nat) : Option SlotId :=
  (slotsOf c).find? fun i => (s.slotOf i).task.isSome && decide ((s.slotOf i).ctx.csa = a)

/-- Sets or clears the spilled bit of a bank in a header and in a slot. -/
def State.setSpilled (s : State) (p : Fin 16) (a n : Nat) (i : Option SlotId) (b : Bool) : State :=
  let w := s.saveGet p (a + 0x48)
  let m : Word := (1 : Word) <<< n
  let s1 := s.savePut p (a + 0x48) (if b then w ||| m else w &&& ~~~m)
  match i with
  | none => s1
  | some i => s1.mapSlot i fun x =>
    let k : BitVec 48 := (1 : BitVec 48) <<< n
    { x with ctx := { x.ctx with spilled := if b then x.ctx.spilled ||| k else x.ctx.spilled &&& ~~~k } }

/-- The 64 KiB of a bank as double words. -/
def State.bankWords (s : State) (c : Fin 256) (n : Nat) : List Word :=
  (List.range 8192).map fun k => packHalves (s.accGet c (16384 * n + 2 * k)) (s.accGet c (16384 * n + 2 * k + 1))

/-- Writes a bank from double words. -/
def State.putBank (s : State) (c : Fin 256) (n : Nat) (l : List Word) : State :=
  l.zipIdx.foldl (fun t e =>
    (t.accPut c (16384 * n + 2 * e.2) (bitsOf e.1 0 32)).accPut c (16384 * n + 2 * e.2 + 1) (bitsOf e.1 32 32)) s

/-- A bank becomes free. -/
def State.freeBank (s : State) (c : Fin 256) (n : Nat) : State :=
  s.mapCore c fun k => { k with banks := tdrop k.banks n }

/-- Writes a bank to its spill area, marks it and frees it. -/
def State.spillBank (s : State) (c : Fin 256) (p : Fin 16) (a n : Nat) (owner : Option SlotId) : State :=
  let base := (s.saveGet p (a + 0x40)).toNat + 65536 * n
  ((s.saveWords p base (s.bankWords c n)).setSpilled p a n owner true).freeBank c n

/-- ACCSPILL (R359, Table 5). -/
def execAccspill (d a b : Fin 32) (s : State) : Host.Outcome State Fault Refusal :=
  runOp (do
    needLevel .supervisor (encode (.accspill d a b))
    noTx
    let n := (s.reg a).toNat
    let at_ := (s.reg b).toNat
    let c := s.cur.core
    let p := s.partNo c
    if n > 47 ∨ csaAligned (s.reg b) = false then resultOp d 3
    else do
      physical at_
      let hd := s.saveGet p (at_ + 8)
      let owner := if hd.getLsbD 0 then none else s.ownerOf c at_
      let tagged := match s.bankTag c n with
        | some t => t.ctx.toNat == bitsOf hd 24 8
        | none => false
      if (hd.getLsbD 0 = false ∧ owner.isNone = true) ∨ tagged = false ∨ s.bankSplit c n = true then resultOp d 3
      else if owner.isSome && s.bankBusy c n then stallOp (.acc n)
      else do
        physical ((s.saveGet p (at_ + 0x40)).toNat + 65536 * n)
        modify fun s => (s.spillBank c p at_ n owner).result d 0) s

/-- ACCFILL (R359, Table 5). -/
def execAccfill (d a b : Fin 32) (s : State) : Host.Outcome State Fault Refusal :=
  runOp (do
    needLevel .supervisor (encode (.accfill d a b))
    noTx
    let n := (s.reg a).toNat
    let at_ := (s.reg b).toNat
    let c := s.cur.core
    let p := s.partNo c
    if n > 47 ∨ csaAligned (s.reg b) = false then resultOp d 3
    else do
      physical at_
      let x := s.me
      if bitsOf (s.saveGet p (at_ + 8)) 24 8 ≠ x.ctx.ctx.toNat ∨ (s.bankTag c n).isSome = true ∨ x.ctx.spilled.getLsbD n = false then
        resultOp d 3
      else do
        let base := (s.saveGet p (at_ + 0x40)).toNat + 65536 * n
        physical base
        modify fun s => (((s.tagBank s.cur n).putBank c n (s.saveRead p base 8192)).setSpilled p at_ n (some s.cur) false).result d 0) s

/-! ### Saved contexts (R357, R358) -/

/-- CTXSAVE (R357): the instruction does not return. -/
def execCtxsave (d a : Fin 32) (s : State) : Host.Outcome State Fault Refusal :=
  runOp (do
    needLevel .supervisor (encode (.ctxsave d a))
    noTx
    let x := s.me
    if x.frame.inTrap = false ∨ x.frame.plev ≠ .task ∨ csaAligned (s.reg a) = false ∨ x.task.isNone = true then resultOp d 3
    else do
      physical (s.reg a).toNat
      if s.lockedStores s.cur || s.me.farStores then stallOp .stores
      modify fun s => s.saveTask s.cur (s.reg a).toNat) s

/-- A record is the resume record of an area. -/
def Rec.names (r : Rec) (a : Nat) : Bool :=
  match r.kind with
  | .resume b _ _ => b == a
  | _ => false

/-- The resume record of an area on a core, in its deque or preloaded (R336, R340). -/
def State.savedRec (s : State) (c : Fin 256) (a : Nat) : Option Rec :=
  ((s.coreOf c).deque ++ (slotsOf c).filterMap fun i => (s.slotOf i).next).find? fun r => r.names a

/-- Drops the resume record of an area from a core. -/
def State.dropSavedRec (s : State) (c : Fin 256) (a : Nat) : State :=
  let s1 := s.mapCore c fun k => { k with deque := k.deque.filter fun r => !r.names a }
  (slotsOf c).foldl (fun t i => match (t.slotOf i).next with
    | some r => if r.names a then t.endPreload i else t
    | none => t) s1

/-! ### A task as its area alone gives it (R358, R386; log 44) -/

/-- How far a number is behind the newest of a ring's numbers, modulo 2^32 (R262). -/
def behind (newest n : Nat) : Nat := (newest + 2 ^ 32 - n) % 2 ^ 32

/-- Journal entries oldest first: all of a ring lie within 2^31 of the newest. -/
def oldestFirst (l : List JEntry) : List JEntry :=
  match l.find? fun e => l.all fun f => decide (behind e.seq f.seq < 2 ^ 31) with
  | some e => l.mergeSort fun x y => decide (behind e.seq y.seq ≤ behind e.seq x.seq)
  | none => l

/-- The journal of an area, oldest first: the entries that name an engine (R262). -/
def State.areaJournal (s : State) (p : Fin 16) (a : Nat) : List JEntry :=
  let eng := fun (n : Nat) => if n = 2 then Eng.m else if n = 3 then Eng.c else Eng.v
  oldestFirst ((List.range 256).filterMap fun k =>
    let w := s.saveGet p (a + 0x4000 + 16 * k)
    let f := s.saveGet p (a + 0x4008 + 16 * k)
    if bitsOf f 60 2 = 0 then none
    else some ⟨w.setWidth 32, bitsOf w 32 32, f.getLsbD 63, f.getLsbD 62, eng (bitsOf f 60 2), bitsOf f 48 12, bitsOf f 0 48⟩)

/-- The versions of a journal whose words an area holds modulo 2^12, from that of its oldest unfinished word on (R263). -/
def unrolled (j : List JEntry) (v : Nat) : Nat :=
  let v0 := ((j.find? fun e => !e.done).map (·.ver)).getD 0
  v0 + (v + 4096 - v0 % 4096) % 4096

/-- The images of an area's snapshot store, each with its register and the last version at which a word names it, as their tags tell (log 14). -/
def State.areaImages (s : State) (p : Fin 16) (a : Nat) (j : List JEntry) : List (Nat × Nat × List Word) :=
  (List.range 64).filterMap fun k =>
    let t := s.saveGet p (a + tagPlace + 8 * k)
    if t.getLsbD 63 then some (bitsOf t 12 8, unrolled j (bitsOf t 0 12), s.saveRead p (a + 0x2800 + 96 * k) 12) else none

/-- The first version after those at which words name the images of a register, among those named before a version (R263). -/
def verAfter (l : List (Nat × Nat × List Word)) (key bound : Nat) : Nat :=
  ((l.filter fun e => e.1 == key && decide (e.2.1 < bound)).map fun e => e.2.1 + 1).foldl max 0

/-- The descriptor registers as an area holds them: one of zeros has never been loaded. -/
def State.areaCur (s : State) (p : Fin 16) (a : Nat) (ver : Nat → Nat) : List (Nat × Desc) :=
  (List.range 40).filterMap fun k =>
    let img :=
      if k < 16 then s.saveRead p (a + 0x1800 + 64 * k) 8
      else if k < 32 then s.saveRead p (a + 0x1C00 + 96 * (k - 16)) 12
      else s.saveRead p (a + 0x2200 + 32 * (k - 32)) 4
    if img.all (· == 0) && ver k == 0 then none else some (k, ⟨img, ver k, img.any (· != 0)⟩)

/-- The descriptors and snapshots of an area with a journal. -/
def State.areaDescs (s : State) (p : Fin 16) (a : Nat) (j : List JEntry) : Descs :=
  let l := s.areaImages p a j
  let vers := (((j.filter fun e => !e.done).map (·.ver)) ++ l.map (·.2.1)).foldl max 0 + 1
  ⟨s.areaCur p a fun k => verAfter l k (vers + 1), vers,
    l.map fun e => (e.1, ⟨e.2.2, verAfter l e.1 e.2.1, e.2.2.any (· != 0)⟩)⟩

/-- A word of an area's journal as its queue takes it again, with the TOL and the domain phases of now (log 44). -/
def areaEntry (tol : BitVec 32) (phases : List (Nat × Nat)) (e : JEntry) : QEntry :=
  ⟨e.word, e.seq, e.ver, e.tid, tol, if e.eng = .c then phases else [], e.popped, false⟩

/-- The copy command of a channel of an area that has finished units (R265, Table 7); its flags are in no place of the area, and free. -/
def State.areaRun (s : State) (d : Descs) (j : List QEntry) (h units : Nat) : Option CRun × State :=
  match (if units = 0 then none else j.find? fun q => (cWordOf q.word).map (·.chan.val) == some h) with
  | none => (none, s)
  | some q =>
    (some ⟨q, (d.imageAt (16 + ((cWordOf q.word).map (·.cd)).getD 0) q.ver).img, 0, units, [], [], s.draw.1.setWidth 6, [], false, false, [], []⟩, s.draw.2)

/-- The channels of an area. -/
def State.areaChans (s : State) (p : Fin 16) (a : Nat) (d : Descs) (j : List QEntry) : List Nat → List (Nat × Chan) × State
  | [] => ([], s)
  | h :: r =>
    let (x, t) := s.areaRun d j h (s.saveGet p (a + 0x6E0 + 8 * h)).toNat
    let (l, u) := t.areaChans p a d j r
    ((h, ⟨0, 0, x⟩) :: l, u)

/-- The M command of an area that MUPC names (R287); its flags are free. -/
def State.areaMrun (s : State) (w : Word) (j : List QEntry) : Option MRun × State :=
  match (if w.getLsbD 63 then j.find? fun q => q.seq == bitsOf w 16 32 else none) with
  | none => (none, s)
  | some q => (some ⟨q, bitsOf w 14 2, bitsOf w 11 3, bitsOf w 0 11, s.draw.1.setWidth 6, [], [], [], false, false, []⟩, s.draw.2)

/-- The generators that an area's bindings name. -/
def State.areaWalks (s : State) (p : Fin 16) (a : Nat) : List (Nat × Walk) :=
  let w := s.saveGet p (a + 0x720)
  [bitsOf w 0 8, bitsOf w 8 8, bitsOf w 16 8].filterMap fun b => match bindingOf b with
    | .gen g => some (g.val, (⟨s.saveRead p (a + 0x2200 + 32 * g.val) 4, 0, none⟩ : Walk))
    | _ => none

/-- The entries of an area's shadow record, up to the first with 0 steps left (log 14, DESIGN CHOICE): loading reads what they hold. All lanes
are written, since each holds its register as it will stand (R133; log 14). -/
def State.areaPending (s : State) (p : Fin 16) (a : Nat) : List PWrite :=
  let left := fun (k : Nat) => (s.saveGet p (a + 0x5010 + 1056 * k)).toNat
  ((List.range 11).takeWhile fun k => left k != 0).map fun k => ⟨.v 0 [] allLanes, left k⟩

/-- What the engines of an area's task hold, but for what loading reads from it in any case. -/
def State.areaEng (s : State) (p : Fin 16) (a : Nat) : Engines × State :=
  let rg := fun (n : Nat) => s.saveGet p (a + 0x200 + 8 * n)
  let j0 := s.areaJournal p a
  let j := j0.map fun e => { e with ver := unrolled j0 e.ver }
  let doms := ((List.range 6).map fun n => (n, bitsOf (rg (8 + n)) 0 16)).filter fun d => d.2 != 0
  let phases := doms.map fun d => (d.1, s.domPhase p d.1 d.2)
  let entries := fun (e : Eng) =>
    ((j.filter fun x => !x.done && decide (x.eng = e)).map (areaEntry ((rg 0x16).setWidth 32) phases))
  let d := s.areaDescs p a j
  let (chans, s2) := s.areaChans p a d (entries .c) (List.range 8)
  let (mrun, s3) := s2.areaMrun (rg 0x18) (entries .m)
  let e := Slot.initial.eng
  ({ e with
    qs := { e.qs with
      vq := entries .v
      mq := entries .m
      cq := entries .c
      journal := j
      nextSeq := ((j.getLast?.map (·.seq + 1)).getD 0) % 2 ^ 32 }
    descs := d
    vec := { e.vec with pending := s.areaPending p a }
    ports := { e.ports with walks := s.areaWalks p a }
    chans := chans
    mrun := mrun }, s3)

/-- A task as its area alone gives it, where no record of it is on the core (R358, R386; log 44), with its request for the lease (R278, R288). -/
def State.areaRec (s : State) (c : Fin 256) (a : Nat) : Rec × State :=
  let p := s.partNo c
  let rg := fun (n : Nat) => s.saveGet p (a + 0x200 + 8 * n)
  let record := s.saveRead p (a + 0x80) 8
  let hd := s.headerAt p (s.partOf p).root (bitsOf (imgWord record 3) 0 48)
  let (e, t) := s.areaEng p a
  let w := s.saveGet p (a + tagPlace + 512)
  ({ kind := .resume a (some (rg 5).toNat) ⟨e, [], w.getLsbD 0, if w.getLsbD 1 then some (bitsOf w 32 32) else none, false, 0⟩
     info :=
      { part := p
        serial := bitsOf (rg 2) 0 32
        scope := bitsOf (rg 3) 0 16
        record := record
        root := (s.partOf p).root
        caps := (hd.map (·.caps)).getD ⟨32, 8, 8, 8, 0, 0⟩
        quota := if bitsOf (recCtl record) 48 12 = 0 then (hd.map (·.quota)).getD (bitsOf (rg 0x30) 0 10) else bitsOf (recCtl record) 48 12
        prio := max (bitsOf (recCtl record) 36 2) ((hd.map (·.prio)).getD 0)
        idem := (recCtl record).getLsbD 38 || (hd.map (·.idem)).getD false
        rerun := false
        node := none
        start := 0 }
     quota := bitsOf (rg 0x30) 0 10
     owner := none
     spilled := false }, t)

/-- The record under which an area is loaded: its resume record, or what the area gives. -/
def State.recOf (s : State) (c : Fin 256) (a : Nat) : Rec × State :=
  match s.savedRec c a with
  | some r => (r, s)
  | none => s.areaRec c a

/-- What loading an area without a record has still to ask other devices for: its kernel's header (R398). -/
def State.areaWants (s : State) (c : Fin 256) (a : Nat) : List Want :=
  let p := s.partNo c
  if (s.savedRec c a).isSome then [] else s.headerWants p (s.partOf p).root (s.saveRead p (a + 0x80) 8)

/-- CTXLOAD (R358). -/
def execCtxload (d a b : Fin 32) (s : State) : Host.Outcome State Fault Refusal :=
  runOp (do
    needLevel .supervisor (encode (.ctxload d a b))
    noTx
    let at_ := (s.reg a).toNat
    let n := (s.reg b).toNat
    let c := s.cur.core
    let p := s.partNo c
    if csaAligned (s.reg a) = false then resultOp d 3
    else do
      physical at_
      let hd := s.saveGet p (at_ + 8)
      let j : SlotId := ⟨c, slotNo n⟩
      if hd.getLsbD 0 = false ∨ bitsOf hd 8 8 ≠ c.val ∨ n > 3 ∨ (s.slotOf j).status ≠ .free then resultOp d 3
      else do
        askOp p (s.areaWants c at_)
        let r := (s.recOf c at_).1
        let s1 := ((s.recOf c at_).2.forget p).dropSavedRec c at_
        if s.recCancelled r then set ((s1.dropSaved c r).result d 2)
        else match r.kind with
          | .resume _ _ x => set ((s1.loadTask j at_ r.info x).result d 0)
          | _ => resultOp d 3) s

/-! ### Translation, errors, monitor, HALT (R360 to R363) -/

/-- Removes the entries of a partition's TLBs that a test picks. -/
def State.tlbDrop (s : State) (p : Fin 16) (f : TlbEntry → Bool) : State :=
  let keep := fun (l : List TlbEntry) => l.filter fun e => !(decide (e.part = p) && f e)
  { s with
    cores := s.cores.map fun k => (k.1, { k.2 with tlb := keep k.2.tlb })
    dies := s.dies.map fun k => (k.1, { k.2 with tlb := keep k.2.tlb }) }

/-- The slot's address-space root: its task's, or the supervisor root of a slot that holds none (R102). -/
def State.slotRoot (s : State) (i : SlotId) : Nat :=
  if (s.slotOf i).task.isSome then (s.slotOf i).ctx.root else (s.partOf (s.partNo i.core)).root

/-- Some access of a partition that has been translated is not performed: a queued store, one of an open transaction, a load block's fill, a
write that waits for an unlock, or a request to another device (R360). -/
def State.pendingAccess (s : State) (p : Fin 16) : Bool :=
  (s.slots.any fun e => decide (s.partNo (coreNo (e.1 / 4)) = p) &&
    (!e.2.sq.isEmpty || (e.2.tx.any fun t => !t.reads.isEmpty || !t.writes.isEmpty) || e.2.blocks.any fun b => b.2.lines.any fun l => !l.2)) ||
  (s.pkg.remotes.any fun r => r.part.isNone && decide (s.partNo r.slot.core = p)) || s.pkg.held.any fun h => decide (h.part = p)

/-- TLBINV (R360): it waits until what was translated before is performed. -/
def execTlbinv (d a b : Fin 32) (s : State) : Host.Outcome State Fault Refusal :=
  runOp (do
    needLevel .supervisor (encode (.tlbinv d a b))
    noTx
    let v := s.reg a
    let k := (s.reg b).toNat
    if k > 2 ∨ (k = 0 ∧ bitsOf v 48 16 ≠ 0) then resultOp d 3
    else do
      releaseOp 5
      let p := s.partNo s.cur.core
      let root := s.slotRoot s.cur
      modify fun s => (s.tlbDrop p fun e => match k with
        | 0 => e.covers p root v.toNat
        | 1 => e.root == root
        | _ => true)
      if (← get).pendingAccess p then stallOp .stores
      resultOp d 0) s

/-- A word of an entry of a partition's error log (R361): none where the entry is not there. -/
def State.logEntry (s : State) (die : Nat) (p : Fin 16) (n k : Nat) : Option Word :=
  let r := tget (0, []) (s.dieOf die).elog p.val
  let back := (r.1 + 2 ^ 32 - 1 - n) % 2 ^ 32
  match r.2[back]? with
  | none => none
  | some e => match k with
    | 0 => some e.w0
    | 1 => some e.w1
    | 2 => some e.w2
    | _ => some e.w3

/-- ELOGRD (R361): of an entry that is not there word 0 is zero, and the spec gives words 1 to 3 no value (log 3). -/
def execElogrd (d a b : Fin 32) (s : State) : Host.Outcome State Fault Refusal :=
  runOp (do
    needLevel .supervisor (encode (.elogrd d a b))
    noTx
    let v := s.reg a
    let k := (s.reg b).toNat
    let p := s.partNo s.cur.core
    let die := bitsOf v 32 2
    if bitsOf v 34 30 ≠ 0 ∨ k > 4 then resultOp d 0
    else if k = 4 then resultOp d (word (tget (0, []) (s.dieOf die).elog p.val).1)
    else match s.logEntry die p (bitsOf v 0 32) k with
      | some w => resultOp d w
      | none =>
        if k = 0 then resultOp d 0
        else modify fun s =>
          let (w, t) := s.draw
          t.result d w) s

/-- What goes wrong when the monitor reads 24 bytes at a physical address: it is not aligned, or a granule is poisoned, as one is where no
memory is; seals are not checked (R362, R377, R350; log 107). -/
def State.monFault (s : State) (p : Fin 16) (a : Nat) : Option (BitVec 8) :=
  if a % 8 ≠ 0 then some 0x03
  else if [a / 32, (a + 16) / 32].any fun n => (s.homeGran p none n).poison then some 0x0D
  else none

/-- A fault inside the ROM monitor stops the core with DOUBLE (R330, R362). -/
def State.monStop (s : State) (cause : BitVec 8) (a : Word) : State :=
  (s.setMe { s.me with level := .monitor }).double s.cur s.pc ⟨cause, a, 0, 0, 0⟩ false

/-- MONCALL (R362). -/
def execMoncall (d a b : Fin 32) (s : State) : Host.Outcome State Fault Refusal :=
  runOp (do
    needLevel .supervisor (encode (.moncall d a b))
    noTx
    let p := s.partNo s.cur.core
    let at_ := (s.reg b).toNat
    match (s.reg a).toNat with
    | 0 => resultOp d Config.romVersion
    | 1 => resultOp d (word Config.powerLimit)
    | 2 =>
      if (s.partOf p).testFlag = false then resultOp d (BitVec.allOnes 64)
      else match s.monFault p at_ with
        | some c => throw (.become (s.monStop c (s.reg b)))
        | none =>
          let l := s.saveRead p at_ 3
          modify fun s => (s.setInj s.cur.core (imgWord l 0) (imgWord l 1) (imgWord l 2)).result d 0
    | _ => resultOp d (BitVec.allOnes 64)) s

/-- HALT (R363). -/
def execHalt (s : State) : Host.Outcome State Fault Refusal :=
  runOp (do
    needLevel .monitor (encode .halt)
    noTx
    modify fun s => (s.mapCore s.cur.core fun k => { k with halted := true }).retire) s

end Sys2Proof.Machine
end

