-- ==== Sys2Proof/Machine/Async.lean ====
section
/-! DEFINITION. Asynchronous causes and their delivery (16 R326, R327, Table 3), the counters that raise them (R332, R333, R338), saving the
tasks of a partition that is quiesced (20 R381), and SAVE_TORN (R334). -/

namespace Sys2Proof.Machine

/-! ### Quiescing (R381, R386) -/

/-- Spills the banks of a list that a context owns, as ACCSPILL would. -/
def State.spillBanks (s : State) (c : Fin 256) (p : Fin 16) (a key : Nat) : List (Nat × BankTag) → State
  | [] => s
  | b :: r => (if b.2.key = key then s.spillBank c p a b.1 none else s).spillBanks c p a key r

/-- Evicts the segments of a partition that nothing pins, each to its home (R170, R386); one whose home fails stays. -/
def State.evictUnpinned (s : State) (p : Fin 16) : List SegId → State
  | [] => s
  | i :: r =>
    (match s.segOf i with
      | none => s
      | some g =>
        if g.part = p ∧ g.state = SegState.resident ∧ s.pinned g = false then
          match s.evictSeg g with
          | .ok t => t
          | .error _ => s
        else s).evictUnpinned p r

/-- A task can be saved: it is at task level, at an instruction boundary, and no store of its queue waits for a commit (R218). -/
def State.canQuiesce (s : State) (i : SlotId) : Bool :=
  let x := s.slotOf i
  x.task.isSome && decide (x.level = .task) && x.atBoundary && !s.lockedStores i && !x.farStores

/-- Saves the task of a slot to its own area, to go on at its PC, and spills its banks; a partition that is stopped has its L1 written
back and its segments evicted. -/
def State.quiesceSlot (s : State) (i : SlotId) : State :=
  let x := s.slotOf i
  let p := s.partNo i.core
  let y := x.abortTx 4 0
  let s1 := (s.setSlot i { y with frame := { y.frame with tepc := y.pc } }).saveTask i x.ctx.csa
  let s2 := s1.mapSlot i fun z => { z with frame := { z.frame with tepc := x.frame.tepc } }
  let s3 := (s2.spillBanks i.core p x.ctx.csa x.ctx.key (s2.coreOf i.core).banks).drainFifo i.core
  if (s3.partOf p).stopped then s3.evictUnpinned p (s3.segs.map (·.id)) else s3

/-- Quiesces the slots of a list: a preload is abandoned, and a task at a boundary is saved. -/
def State.quiesceSlots (s : State) : List SlotId → State
  | [] => s
  | i :: r =>
    let x := s.slotOf i
    (match x.next with
      | some n => (s.endPreload i).pushHead i.core n
      | none => if s.canQuiesce i then s.quiesceSlot i else s).quiesceSlots r

/-- Spills the banks of saved tasks of a core. -/
def State.spillSaved (s : State) (c : Fin 256) : List Rec → State
  | [] => s
  | r :: l =>
    (match r.kind with
      | .resume a e _ => s.spillBanks c r.info.part a (envKey r.info.part (e.getD 0)) (s.coreOf c).banks
      | _ => s).spillSaved c l

/-- Quiesces the cores of a list. -/
def State.quiesceCores (s : State) : List (Fin 256) → State
  | [] => s
  | c :: r =>
    let s1 := s.quiesceSlots (slotsOf c)
    ((s1.spillSaved c (s1.coreOf c).deque).drainFifo c).quiesceCores r

/-- Step 2 of R381 for a partition, as far as its tasks stand at a boundary; the others are saved when they reach one. -/
def State.quiesce (s : State) (p : Fin 16) : State :=
  s.quiesceCores (s.coresOf p)

/-! ### Delivery (R326, R327) -/

/-- The asynchronous causes in the order of Table 3; `quiesce` is the save of R381. -/
inductive Cause where
  | kill
  | quiesce
  | store (f : PendFault)
  | engine (f : PendFault)
  | error
  | wdog
  | preempt
  | device
  deriving DecidableEq, Repr

/-- The engine fault with the oldest journal number. -/
def Slot.oldestFault (x : Slot) : Option PendFault :=
  match x.eng.qs.journal.findSome? fun e => x.pend.engines.find? fun f => f.seq == e.seq with
  | some f => some f
  | none => x.pend.engines.head?

/-- The causes of a task on its slot, apart from partition events; a kill once its core has seen the mark (R342), or once it is
pending (R373). -/
def State.taskCause (s : State) (i : SlotId) (t : TaskInfo) : Option Cause :=
  let x := s.slotOf i
  if x.pend.kill.isSome || (s.partOf t.part).cancelSeen i.core s.cycle t.scope then some .kill
  else if s.quiescing t.part then (if s.canQuiesce i then some .quiesce else none)
  else if x.frame.inTrap then none
  else match x.pend.stores, x.oldestFault with
    | f :: _, _ => some (.store f)
    | [], some f => some (.engine f)
    | [], none => none

/-- A partition event that a core may deliver (R327). -/
def State.eventFor (s : State) (c : Fin 256) (pick : Part → Bool) : Bool :=
  decide ((s.partOf (s.partNo c)).icore = c) && pick (s.partOf (s.partNo c))

/-- The cause that a slot's next boundary delivers, if any. -/
def State.nextCause (s : State) (i : SlotId) : Option Cause :=
  let x := s.slotOf i
  let own := match x.task with
    | some t => if x.level = Level.task then s.taskCause i t else none
    | none => none
  if x.atBoundary = false then none
  else if own.isSome then own
  else if x.frame.inTrap then none
  else if x.level = Level.task ∧ x.task.isSome = true then
    if s.eventFor i.core (·.errPend) then some .error
    else if x.pend.wdog then some .wdog
    else if x.pend.preempt && x.loop.ready then some .preempt
    else if s.eventFor i.core (·.devPend) then some .device
    else none
  else if x.level = Level.supervisor ∧ x.task.isNone = true then
    if s.eventFor i.core (·.errPend) then some .error
    else if s.eventFor i.core (·.devPend) then some .device
    else none
  else none

/-- Takes an asynchronous trap at a slot's boundary. -/
def State.enterAsync (s : State) (i : SlotId) (eng : Nat) (cause : BitVec 8) (t0 t1 t2 t3 : Word) : State :=
  s.enterTrap i (tcauseOf true eng cause) (s.slotOf i).pc t0 t1 t2 t3

/-- One whose trap information the spec does not give (log 41). -/
def State.enterOpen (s : State) (i : SlotId) (cause : BitVec 8) (t0 : Option Word) : State :=
  let (a, s1) := s.drawTwo
  let (b, s2) := s1.drawTwo
  s2.enterAsync i 0 cause (t0.getD a.1) a.2 b.1 b.2

/-- Delivers a deferred store fault (R191): the frames of preloads are unpinned (R340), and a consumed error is redone in the first run of an
idempotent task (R348). -/
def State.deliverStore (s : State) (i : SlotId) (f : PendFault) : State :=
  let s1 := (s.unpinPreloads i.core).mapSlot i fun x => { x with pend := { x.pend with stores := x.pend.stores.drop 1 } }
  if (s.slotOf i).redoes f.cause then s1.rerun i
  else s1.enterAsync i 0 f.cause f.tinfo0 f.tinfo1 f.tinfo2 f.tinfo3

/-- Delivers a cause. -/
def State.deliver (s : State) (i : SlotId) : Cause → State
  | .kill => s.killAt i
  | .quiesce => s.quiesceSlot i
  | .store f => s.deliverStore i f
  | .engine f =>
    (s.mapSlot i fun x => { x with pend := { x.pend with engines := x.pend.engines.erase f } }).enterAsync i f.eng.code f.cause f.tinfo0
      f.tinfo1 f.tinfo2 f.tinfo3
  | .error => (s.mapPart (s.partNo i.core) fun q => { q with errPend := false }).enterOpen i 0x19 none
  | .wdog => (s.mapSlot i fun x => { x with pend := { x.pend with wdog := false } }).enterOpen i 0x14 none
  | .preempt =>
    (s.mapSlot i fun x => { x with
      pend := { x.pend with preempt := false }
      loop := { x.loop with ready := false } }).enterOpen i 0x15 none
  | .device =>
    let v := (s.partOf (s.partNo i.core)).doorbell
    (s.mapPart (s.partNo i.core) fun q => { q with devPend := false, doorbell := 0 }).enterOpen i 0x1A (some v)

/-- A slot starts as a supervisor slot at sventry, a physical address (R327, R379; log 8); its loads see what was written before (R381). -/
def Slot.supervisor (x : Slot) (i : SlotId) (entry : Word) (cycle : Nat) : Slot :=
  let y := x.freed
  { y with
    status := .ready
    level := .supervisor
    pc := entry
    ctx := { Ctx.none with key := 2 ^ 40 + slotKey i }
    bare := true
    binds := ⟨cycle + 1, [], cycle + 1⟩
    sched := { y.sched with readySince := cycle, since := cycle } }

/-- A core whose slots are all Free starts slot 0 as a supervisor slot for a pending event (R327). Where some are Free and none of the others qualifies,
the event stays pending (log 119, DESIGN CHOICE: R327 does not say). -/
def State.wakeIcore (s : State) (c : Fin 256) : State :=
  let q := s.partOf (s.partNo c)
  let i : SlotId := ⟨c, 0⟩
  if (q.icore = c ∧ (q.errPend = true ∨ q.devPend = true)) ∧ (slotsOf c).all (fun j => decide ((s.slotOf j).status = .free)) = true then
    s.mapSlot i fun x => x.supervisor i (q.word 9) s.cycle
  else s

/-- A boundary of a slot delivers its next cause. -/
def State.deliverAt (s : State) (i : SlotId) : State :=
  let s1 := if i.slot = 0 then s.wakeIcore i.core else s
  match s1.nextCause i with
  | some c => s1.deliver i c
  | none => s

/-- ASYNC_DELIVERY (R326, R327, R328). -/
def execAsyncDelivery (i : SlotId) (s : State) : Host.Outcome State Fault Refusal :=
  .next (if s.issues i || (s.runs i.core && decide (i.slot = 0)) then s.deliverAt i else s)

/-! ### Counters -/

/-- Units of WDOG and of the budget (R332, R338). -/
def counterUnit : Nat := 1024

/-- WATCHDOG (R338): the task has issued nothing and completed no command for the limit. The count then begins anew, so that one expiry is one
cause (log 46). -/
def execWatchdog (i : SlotId) (s : State) : Host.Outcome State Fault Refusal :=
  .next (
    let x := s.slotOf i
    if s.issues i = true ∧ x.task.isSome = true ∧ x.loop.wdog ≠ 0 ∧ x.sched.wdogSince + counterUnit * x.loop.wdog.toNat ≤ s.cycle then
      s.setSlot i { x with pend := { x.pend with wdog := true }, sched := { x.sched with wdogSince := s.cycle } }
    else s)

/-- PREEMPT_BUDGET (R332): the budget expires, and the frames of preloads are unpinned (R340). -/
def execPreemptBudget (i : SlotId) (s : State) : Host.Outcome State Fault Refusal :=
  .next (
    let x := s.slotOf i
    if x.task.isSome = true ∧ x.loop.budget ≠ 0 ∧ x.loop.spent = false ∧ counterUnit * x.loop.budget.toNat ≤ x.sched.budgetUsed then
      (s.unpinPreloads i.core).setSlot i { x.request s.cycle with loop := { (x.request s.cycle).loop with spent := true } }
    else s)

/-- Cycles within which a loop drain reaches its exit, and a save its end (R333, R334). -/
def drainBound : Nat := 65536

/-- LOOP_DRAIN_TIMEOUT (R333). -/
def execLoopDrainTimeout (i : SlotId) (s : State) : Host.Outcome State Fault Refusal :=
  .next (
    let x := s.slotOf i
    if x.pend.preempt = true ∧ x.loop.ready = false ∧ x.loop.reqCycle + drainBound ≤ s.cycle then
      s.setSlot i { x with loop := { x.loop with ready := true } }
    else s)

/-! ### SAVE_TORN (R334) -/

/-- A CTXSAVE that a slot is about to execute, and that would be carried out. -/
def State.saving (s : State) (i : SlotId) : Bool :=
  let x := s.slotOf i
  s.issues i && x.task.isSome && decide (x.status = .ready) && decide (x.level = .supervisor) && x.frame.inTrap && decide (x.frame.plev = .task) &&
    match s.peek i with
    | some w => match decode w with
      | .ok (.ctxsave _ a) => csaAligned (x.active.get a) && !decide (physOf (x.active.get a).toNat = .hole)
      | _ => false
    | none => false

/-- SAVE_TORN: a save does not complete within its bound; the monitor logs and reports it, and the task's scope is cancelled. -/
def execSaveTorn (i : SlotId) (s : State) : Host.Outcome State Fault Refusal :=
  .next (
    match (s.slotOf i).task with
    | none => s
    | some t =>
      if s.saving i then
        let s1 := ((s.mapPart t.part fun q => q.withRoot.markScope t.scope s.cycle).logError (dieOfCore i.core) t.part
            ⟨logWord 7 (some (s.slotOf i).ctx.ctx) false i.core 6, 0, word s.cycle, 0⟩)
        ((s1.killSlot i).report 0x18 i).cfgBusy t.part
      else s)

end Sys2Proof.Machine
end

