-- ==== Sys2Proof/Machine/Branch.lean ====
section
/-! DEFINITION. Branches and jumps (04 R84 to R88) and BRLOOP (06 R130, 07 R156, 16 R333). -/

namespace Sys2Proof.Machine

/-- The check of a taken transfer's target (R84): the fault it takes. -/
def transferFault (t : Word) : Option TrapInfo :=
  if bitsOf t 48 16 ≠ 0 then some ⟨0x04, t, 0, 0, 0⟩
  else if bitsOf t 0 2 ≠ 0 then some ⟨0x03, t, 0, 0, 0⟩
  else none

/-- Leaves the loop of R333: after a control transfer that is no taken BRLOOP. A request that waited for a loop drain which has not
begun waits no longer. -/
def Slot.outOfLoop (x : Slot) : Slot :=
  { x with loop := { x.loop with inLoop := false, ready := x.loop.ready || !x.loop.drain } }

/-- Transfer(target) (R84): the fault leaves everything as it was; otherwise a link register may be written first. -/
def State.transfer (s : State) (t : Word) (link : Option (Fin 32)) : State :=
  match transferFault t with
  | some f => s.trapMe f
  | none =>
    let s1 := match link with
      | some d => s.setReg d (s.pc + 4)
      | none => s
    let s2 := s1.retireTo t
    s2.setMe s2.me.outOfLoop

/-- A conditional branch (R85, R86). -/
def State.branch {n : Nat} (s : State) (c : Bool) (o : BitVec n) : State :=
  if c then s.transfer (branchTarget s.pc o) none else s.retire

/-- BEQ (R85). -/
def execBeq (a b : Fin 32) (o : BitVec 14) (s : State) : Host.Outcome State Fault Refusal :=
  .next (s.branch (s.reg a == s.reg b) o)

/-- BNE (R85). -/
def execBne (a b : Fin 32) (o : BitVec 14) (s : State) : Host.Outcome State Fault Refusal :=
  .next (s.branch (s.reg a != s.reg b) o)

/-- BLT (R85). -/
def execBlt (a b : Fin 32) (o : BitVec 14) (s : State) : Host.Outcome State Fault Refusal :=
  .next (s.branch ((s.reg a).slt (s.reg b)) o)

/-- BGE (R85). -/
def execBge (a b : Fin 32) (o : BitVec 14) (s : State) : Host.Outcome State Fault Refusal :=
  .next (s.branch (!(s.reg a).slt (s.reg b)) o)

/-- BLTU (R85). -/
def execBltu (a b : Fin 32) (o : BitVec 14) (s : State) : Host.Outcome State Fault Refusal :=
  .next (s.branch ((s.reg a).ult (s.reg b)) o)

/-- BGEU (R85). -/
def execBgeu (a b : Fin 32) (o : BitVec 14) (s : State) : Host.Outcome State Fault Refusal :=
  .next (s.branch (!(s.reg a).ult (s.reg b)) o)

/-- BBS (R86). -/
def execBbs (a : Fin 32) (i : Fin 64) (o : BitVec 13) (s : State) : Host.Outcome State Fault Refusal :=
  .next (s.branch ((s.reg a).getLsbD i.val) o)

/-- BBC (R86). -/
def execBbc (a : Fin 32) (i : Fin 64) (o : BitVec 13) (s : State) : Host.Outcome State Fault Refusal :=
  .next (s.branch (!(s.reg a).getLsbD i.val) o)

/-- J (R87). -/
def execJ (o : BitVec 24) (s : State) : Host.Outcome State Fault Refusal :=
  .next (s.transfer (branchTarget s.pc o) none)

/-- JAL (R87): g31 := PC + 4 unless the transfer faults. -/
def execJal (o : BitVec 24) (s : State) : Host.Outcome State Fault Refusal :=
  .next (s.transfer (branchTarget s.pc o) (some 31))

/-- JALR (R88): ga is read before gd is written. -/
def execJalr (d a : Fin 32) (i : BitVec 14) (s : State) : Host.Outcome State Fault Refusal :=
  .next (s.transfer (effPtr (s.reg a) i) (some d))

/-- What BRLOOP decides (R130, R333). -/
structure LoopDecision where
  a : Word
  ec : Word
  stage : Bool
  taken : Bool
  deriving DecidableEq, Repr

/-- R130: the ga path unless the loop drains. -/
def loopDecide (a ec : Word) (drain : Bool) : LoopDecision :=
  if a ≠ 0 ∧ drain = false then ⟨a - 1, ec, true, true⟩
  else if ec ≠ 0 then ⟨a, ec - 1, false, ec - 1 ≠ 0⟩
  else ⟨a, ec, false, false⟩

/-- A request that arrived in a loop with ld = 1 waits for this BRLOOP (R333). -/
def Slot.awaitsDrain (x : Slot) : Bool := x.pend.preempt && !x.loop.ready && !x.loop.drain

/-- This BRLOOP becomes the drain BRLOOP: EC is from 1 to 8 (R333). -/
def Slot.startsDrain (x : Slot) : Bool := x.awaitsDrain && decide (1 ≤ x.ec.toNat ∧ x.ec.toNat ≤ 8)

/-- The refill at the exit of a drained loop (R333; log 26). -/
def refillMarker (drs : Word) : BitVec 32 := markerWord 0 (2 ^ 9 + (bitsOf drs 0 4) * 2)

/-- BRLOOP after its checks: the registers, the marker, and the place of the next instruction; a drained loop that exits refills its
prologue and goes to the loop head (R130, R333). That target has not been checked, since R156 checks a taken branch alone: bits 63:48 that it
has fault at the fetch (log 22, DESIGN CHOICE). -/
def State.brloop (s : State) (r : Fin 32) (t : Word) : State :=
  let x := s.me
  let starts := x.startsDrain
  let drain := x.loop.drain || starts
  let k := loopDecide (s.reg r) x.ec drain
  let dra := if starts then s.reg r else x.loop.dra
  let drs := if starts then x.ec else x.loop.drs
  let s1 := s.setReg r k.a
  let s2 := s1.setMe { s1.me with
    ec := k.ec
    rrb := (x.rrb + 15) % 16
    loop := { s1.me.loop with
      drain := drain
      dra := dra
      drs := drs
      inLoop := k.taken
      ready := s1.me.loop.ready || (x.awaitsDrain && !starts) } }
  let s3 := s2.enqueue s.cur .v (markerWord 0 (if k.stage then 1 else 0)) 0
  if k.taken then s3.retireTo t
  else if drain then
    let s4 := s3.setMe { s3.me with loop := { s3.me.loop with drain := false, ready := true } }
    if dra ≠ 0 then
      let s5 := s4.setReg r (dra - 1)
      let s6 := s5.setMe { s5.me with ec := drs }
      (s6.enqueue s.cur .v (refillMarker drs) 0).retireTo t
    else s4.retire
  else s3.retire

/-- The markers that a BRLOOP sends: two where it refills a drained loop (R333). -/
def Slot.loopMarkers (x : Slot) (a : Word) : Nat :=
  let drain := x.loop.drain || x.startsDrain
  let dra := if x.startsDrain then a else x.loop.dra
  if drain && !(loopDecide a x.ec drain).taken && decide (dra ≠ 0) then 2 else 1

/-- BRLOOP (R156): a taken branch's target is checked before anything changes; its markers wait for the journal (R261, R262; log 26). -/
def execBrloop (a : Fin 32) (o : BitVec 14) (s : State) : Host.Outcome State Fault Refusal :=
  .next (
    let t := branchTarget s.pc o
    let k := loopDecide (s.reg a) s.me.ec (s.me.loop.drain || s.me.startsDrain)
    match s.me.tx.isSome with
    | true => s.setMe ((s.me.abortTx 3 0).issued s.cycle)
    | false =>
      match (if k.taken then transferFault t else none) with
      | some f => s.trapMe f
      | none => if s.me.journalLacks (s.me.loopMarkers (s.reg a)) then s.stallMe .journalFull else s.brloop a t)

end Sys2Proof.Machine
end

