-- ==== Sys2Proof/Machine/Fp.lean ====
section
/-! DEFINITION. Scalar FP32 operations (04 R89 to R92). -/

namespace Sys2Proof.Machine

/-- The rounding mode of a scalar operation: FLAGS.RM, code 5 acting as RNE (R10, R89). -/
def State.rm (s : State) : Nat := if rmOf s.flags = 5 then 0 else rmOf s.flags

/-- An FP operand: the low 32 bits of a register (R89). -/
def State.fpCode (s : State) (r : Fin 32) : Nat := bitsOf (s.reg r) 0 32

/-- An FP operand as an exact value. -/
def State.fpExact (s : State) (r : Fin 32) : Exact := (fp32.value (s.fpCode r)).exact

/-- A result code with its flags (R89). -/
def State.fpResult (s : State) (d : Fin 32) (r : Nat × Sticky) : State :=
  (s.stick (r.2.setWidth 12)).result d (word r.1)

/-- A rounded FP32 result. -/
def State.fpRound (s : State) (d : Fin 32) (x : Exact) : State :=
  s.fpResult d (fp32.round s.rm 0 true x)

/-- FADD (R90). -/
def execFadd (d a b : Fin 32) (s : State) : Host.Outcome State Fault Refusal :=
  .next (s.fpRound d ((s.fpExact a).add s.rm (s.fpExact b)))

/-- FSUB (R90). -/
def execFsub (d a b : Fin 32) (s : State) : Host.Outcome State Fault Refusal :=
  .next (s.fpRound d ((s.fpExact a).add s.rm (s.fpExact b).neg))

/-- FMUL (R90). -/
def execFmul (d a b : Fin 32) (s : State) : Host.Outcome State Fault Refusal :=
  .next (s.fpRound d ((s.fpExact a).mul (s.fpExact b)))

/-- FFMA (R90). -/
def execFfma (d a b : Fin 32) (s : State) : Host.Outcome State Fault Refusal :=
  .next (s.fpRound d (Exact.fma s.rm (s.fpExact d) (s.fpExact a) (s.fpExact b)))

/-- FMIN (R90). -/
def execFmin (d a b : Fin 32) (s : State) : Host.Outcome State Fault Refusal :=
  .next (s.fpResult d (minMax32 true (s.fpCode a) (s.fpCode b), 0))

/-- FMAX (R90). -/
def execFmax (d a b : Fin 32) (s : State) : Host.Outcome State Fault Refusal :=
  .next (s.fpResult d (minMax32 false (s.fpCode a) (s.fpCode b), 0))

/-- A predicate on two FP32 codes with its flags (R91, Table 12): 0 .EQ, 1 .LT, 2 .LE, 3 .UN. -/
def fpCompare (p : Nat) (a b : Nat) : Bool × Sticky :=
  match (fp32.value a).key, (fp32.value b).key with
  | some x, some y =>
    (match p with
      | 0 => decide (x.1 = y.1)
      | 1 => decide (x.1 < y.1)
      | 2 => decide (x.1 ≤ y.1)
      | _ => false, 0)
  | _, _ => (p == 3, stIf (p == 1 || p == 2) stInvalid)

/-- FCMP (R91). -/
def execFcmp (d a b : Fin 32) (p : Fin 8) (s : State) : Host.Outcome State Fault Refusal :=
  .next (
    let r := fpCompare p.val (s.fpCode a) (s.fpCode b)
    (s.stick (r.2.setWidth 12)).result d (wbit r.1))

/-- A conversion of FCVT (R92, Table 13): the register value and flags. -/
def fpConvert (k rm : Nat) (a : Word) : Word × Sticky :=
  let src := (fp32.value (bitsOf a 0 32)).exact
  let toI := fun (m : Nat) =>
    let r := toInt (-(2 ^ 63)) (2 ^ 63 - 1) m 0 src
    (BitVec.ofInt 64 r.1, r.2)
  let toF := fun (r : Nat × Sticky) => (word r.1, r.2)
  match k with
  | 0 => toF (fp32.round rm 0 true (ofInt a.toInt))
  | 1 => toF (fp32.round rm 0 true (ofInt a.toNat))
  | 2 => toI 1
  | 3 => toI rm
  | 4 => toF (bf16.round rm 0 true src)
  | _ => toF (fp32.round rm 0 true (bf16.value (bitsOf a 0 16)).exact)

/-- FCVT (R92). -/
def execFcvt (d a : Fin 32) (k : Fin 16) (s : State) : Host.Outcome State Fault Refusal :=
  .next (
    let r := fpConvert k.val s.rm (s.reg a)
    (s.stick (r.2.setWidth 12)).result d r.1)

end Sys2Proof.Machine
end

