-- ==== Sys2Proof/Machine/Partition.lean ====
section
/-! DEFINITION. Partitions (20 R378 to R384, R386): the staged layout and its checks, configuration transactions, and stopping, running and
resetting a partition. -/

namespace Sys2Proof.Machine

/-- The host reaches the device: its firmware runs (20, Bring-up). -/
def State.up (s : State) : Bool := s.pkg.firmware.isSome

/-! ### The staged layout (R379, R380) -/

/-- A staged descriptor: 32 double words at PF 0x1000 + 256p. -/
def State.staged (s : State) (p : Nat) : List Word :=
  (List.range 32).map fun k => s.pfReg (0x1000 + 256 * p + 8 * k)

/-- The descriptor that a staged one puts in force: none where it is not valid. -/
def inForce (l : List Word) : List Word := if (imgWord l 0).getLsbD 63 then l else []

/-- A staged interleave entry. -/
def State.stagedInter (s : State) (r : Nat) : Word := s.pfReg (0x2000 + 8 * r)

/-- The logical quarters of a descriptor. -/
def lmaskOf (l : List Word) : Nat := bitsOf (imgWord l 0) 0 16

/-- Q(l) of a descriptor (R378). -/
def qmapOf (l : List Word) (q : Nat) : Nat := bitsOf (imgWord l 1) (4 * q) 4

/-- The quarters of a mask. -/
def quartersOf (m : Nat) : List Nat := (List.range 16).filter fun q => m.testBit q

/-- The fields of a descriptor that must be zero are (Table 2). -/
def descZeros (l : List Word) : Bool :=
  bitsOf (imgWord l 0) 32 31 == 0 && bitsOf (imgWord l 0) 21 3 == 0 && (l.drop 11).all (· == 0)

/-- A mask is an aligned block of 1, 2, 4, 8 or 16 quarters. -/
def maskOk (m : Nat) : Bool :=
  [1, 2, 4, 8, 16].any fun n => (List.range (16 / n)).any fun k => m == (2 ^ n - 1) * 2 ^ (n * k)

/-- A valid descriptor's own checks. -/
def descOk (l : List Word) : Bool :=
  maskOk (lmaskOf l) && (lmaskOf l).testBit (bitsOf (imgWord l 0) 24 8 / 16)

/-- The physical quarters of a descriptor. -/
def physOfDesc (l : List Word) : List Nat := (quartersOf (lmaskOf l)).map (qmapOf l)

/-- Two valid descriptors share no logical quarter, physical quarter or VF. -/
def apart (a b : List Word) : Bool :=
  (quartersOf (lmaskOf a)).all (fun q => !(lmaskOf b).testBit q) && (physOfDesc a).all (fun q => !(physOfDesc b).contains q) &&
    bitsOf (imgWord a 0) 16 4 != bitsOf (imgWord b 0) 16 4

/-- Every two of a list are apart. -/
def allApart : List (List Word) → Bool
  | [] => true
  | d :: r => r.all (apart d) && allApart r

/-- The stacks of an interleave entry (Table 1). -/
def stacksOf (e : Word) : List Nat :=
  (List.range (2 ^ bitsOf e 0 3)).map fun k => bitsOf e 4 4 + k

/-- The fields of an entry that must be zero are. -/
def entryZeros (e : Word) : Bool := bitsOf e 60 3 == 0 && bitsOf e 8 48 == 0 && !e.getLsbD 3

/-- A valid entry names at most 16 stacks, all in the quarters of its partition. -/
def entryOk (descs : List (List Word)) (e : Word) : Bool :=
  decide (bitsOf e 0 3 ≤ 4) && (stacksOf e).all fun l => (lmaskOf (descs.getD (bitsOf e 56 4) [])).testBit l

/-- Sixteenths of a GiB that an entry puts on a logical stack. -/
def shareOn (l : Nat) (e : Word) : Nat := if (stacksOf e).contains l then 2 ^ (4 - bitsOf e 0 3) else 0

/-- The valid ones of the staged entries. -/
def State.stagedValid (s : State) : List Word :=
  ((List.range 768).map s.stagedInter).filter fun e => e.getLsbD 63

/-- R380: the staged layout is not INVALID. -/
def State.layoutOk (s : State) : Bool :=
  let all := (List.range 16).map s.staged
  let descs := all.map inForce
  let valid := descs.filter fun d => !d.isEmpty
  let es := s.stagedValid
  all.all descZeros && ((List.range 768).map s.stagedInter).all entryZeros && valid.all descOk && allApart valid &&
    es.all (entryOk descs) && (List.range 16).all fun l => decide ((es.map (shareOn l)).sum ≤ 48 * 16)

/-- An entry that changes names this partition. -/
def State.entryTouches (s : State) (p r : Nat) : Bool :=
  let old := tget 0 s.pkg.inter r
  let new := s.stagedInter r
  old != new && ((old.getLsbD 63 && bitsOf old 56 4 == p) || (new.getLsbD 63 && bitsOf new 56 4 == p))

/-- The partitions that a transaction affects: their descriptor or their interleave entries differ (R381). -/
def State.affectedParts (s : State) : List Nat :=
  (List.range 16).filter fun p =>
    (s.partOf (Fin.ofNat 16 p)).desc != inForce (s.staged p) || (List.range 768).any (s.entryTouches p)

/-! ### The transaction (R381 to R383) -/

/-- Quiesces the partitions of a list. -/
def State.quiesceAll (s : State) : List Nat → State
  | [] => s
  | p :: r => (s.quiesce (Fin.ofNat 16 p)).quiesceAll r

/-- Every task of a partition is saved (R381, step 2). -/
def State.allSaved (s : State) (p : Fin 16) : Bool :=
  (s.coresOf p).all fun c => (slotsOf c).all fun i => (s.slotOf i).task.isNone && (s.slotOf i).next.isNone

/-- Step 3 of a transaction begins when every task of its partitions is saved (R381). -/
def State.noteSaved (s : State) : State :=
  let k := s.pkg.cfg
  if k.status = 3 ∧ k.start.isNone = true ∧ k.affected.all (fun p => s.allSaved (Fin.ofNat 16 p)) = true then
    s.mapPkg fun k => { k with cfg := { k.cfg with start := some s.cycle } }
  else s

/-- CFG_CTL written with 1: ignored while a transaction is in progress (R383). -/
def State.startConfig (s : State) : State :=
  if s.pkg.cfg.status = 3 then s
  else if s.layoutOk = false then s.mapPkg fun k => { k with cfg := { k.cfg with status := 2 } }
  else
    let l := s.affectedParts
    ((s.mapPkg fun k => { k with cfg := ⟨3, none, l⟩ }).quiesceAll l).noteSaved

/-- CFG_CTL (R381). -/
def execCfgCtl (s : State) : Host.Outcome State Fault Refusal :=
  .next (if s.up then s.startConfig else s)

/-- A launch queue has a valid entry at its head. -/
def State.queueWaits (s : State) (p : Fin 16) (k : Nat) : Bool :=
  let root := (s.partOf p).root
  let cb := ((s.partOf p).word 4).toNat + 64 * k
  match s.devWords p root cb 4 with
  | none => false
  | some w =>
    let size := (imgWord w 1).toNat
    size != 0 && match s.devRead p root ((imgWord w 0).toNat + 64 * ((imgWord w 3).toNat % size)) with
      | some e => e.getLsbD 0
      | none => false

/-- What looking at the head of a launch queue has still to ask other devices for (R398). -/
def State.queueWants (s : State) (p : Fin 16) (k : Nat) : List Want :=
  let root := (s.partOf p).root
  let cb := ((s.partOf p).word 4).toNat + 64 * k
  match s.wants p root cb 1, s.devWords p root cb 4 with
  | [], some w =>
    let size := (imgWord w 1).toNat
    if size = 0 then [] else s.wants p root ((imgWord w 0).toNat + 64 * ((imgWord w 3).toNat % size)) 1
  | l, _ => l

/-- An action that looks at the launch queues of partitions waits, and is tried again, until nothing is wanted of other devices. -/
def State.lookingAt (s : State) (l : List Nat) (f : State → State) : State :=
  let parts := l.map (Fin.ofNat 16)
  let want := fun (p : Fin 16) => [0, 1, 2, 3].flatMap fun k => s.queueWants p k
  if parts.all fun p => (want p).isEmpty then parts.foldl (fun t p => t.forget p) (f s)
  else parts.foldl (fun t p => t.ask p (want p)) s

/-- A partition is quiet (R381, steps 2 and 3): its tasks are saved, its launch queues have no valid entry at their heads, its
transactions with other devices have ended, and what it has written back is at its homes. -/
def State.quiet (s : State) (p : Fin 16) : Bool :=
  !(s.partOf p).valid ||
    (s.allSaved p && [0, 1, 2, 3].all (fun k => !s.queueWaits p k) && s.pkg.remotes.all (fun r => !decide (s.partNo r.slot.core = p)) &&
      s.pkg.held.all fun h => !decide (h.part = p))

/-- The partitions of a transaction are quiet. -/
def State.allQuiet (s : State) : Bool := s.pkg.cfg.affected.all fun p => s.quiet (Fin.ofNat 16 p)

/-- The physical quarters of the valid partitions now. -/
def State.quartersHeld (s : State) : List Nat :=
  (List.finRange 16).flatMap fun p => if (s.partOf p).valid then physOfDesc (s.partOf p).desc else []

/-- The physical quarters that leave every partition (R378, R381). -/
def State.leavingQuarters (s : State) (new : List (List Word)) : List Nat :=
  s.quartersHeld.filter fun q => new.all fun d => !(physOfDesc d).contains q

/-- The physical quarter that a logical one is on (R378). -/
def State.quarterOf (s : State) (l : Nat) : Option Nat :=
  ((List.finRange 16).find? fun p => (s.partOf p).valid && (s.partOf p).lmask.testBit l).map fun p => qmapOf (s.partOf p).desc l

/-- The interleave entry that places what lies at an address: the one in force, or else the last that was (R377, R381). -/
def State.placeEntry (s : State) (pa : Nat) : Word :=
  if (s.interOf pa).getLsbD 63 then s.interOf pa else tget 0 s.pkg.lastInter (pa / 2 ^ 30)

/-- What lies at an address is on the stack of a physical quarter that leaves. -/
def State.scrubbed (s : State) (gone : List Nat) (pa : Nat) : Bool :=
  let e := s.placeEntry pa
  decide (physOf pa = .hbm) && e.getLsbD 63 && (s.quarterOf (bitsOf e 4 4 + (pa / 4096) % 2 ^ bitsOf e 0 3)).any gone.contains

/-- The stacks of quarters that leave are scrubbed to zeros with fresh seals: what lay on them is unlisted, and no load or fetch sees it
any more (R381). -/
def State.scrub (s : State) (gone : List Nat) : State :=
  let out := s.scrubbed gone
  let outLoc := fun (l : Loc) => match l with
    | .phys n => out (32 * n)
    | _ => false
  { s with
    past := s.past.filter fun e => !outLoc e.loc
    stored := s.stored.filter fun e => !outLoc e.loc
    mem :=
      { bytes := s.mem.bytes.filter fun e => !out e.1
        seals := s.mem.seals.filter fun e => !out (32 * e.1)
        poison := s.mem.poison.filter fun g => !out (32 * g)
        inj := s.mem.inj.filter fun g => !out (32 * g) }
    keyed := if gone.isEmpty then s.keyed else s.keyed.filter fun g => !out (2 ^ 16 * g)
    under := s.under.filter fun e => !out (32 * e.1) }

/-- The seed of a core's LFSR (R112). -/
def lfsrSeed (c : Fin 256) : BitVec 16 := BitVec.ofNat 16 (c.val * 256 + c.val) ^^^ 0xACE1

/-- A core as it enters a partition: nothing in it, its slots Free. -/
def State.freshCore (s : State) (c : Fin 256) : State :=
  let s1 : State := { s with slots := s.slots.filter fun e => e.1 / 4 != c.val }
  (s1.mapCore c fun k => { Core.initial with lfsr := lfsrSeed c, halted := k.halted }).mapCluster (clusterOfCore c) fun _ => .initial

/-- Cores of a list are made fresh. -/
def State.freshCores (s : State) : List (Fin 256) → State
  | [] => s
  | c :: r => (s.freshCore c).freshCores r

/-- The records of cores that leave a partition which stays are dropped (log 45). -/
def State.dropCores (s : State) : List (Fin 256) → State
  | [] => s
  | c :: r =>
    let l := (s.coreOf c).deque
    ((s.setDeque c []).dropRecs c l).dropCores r

/-- The segments that name a partition, or lie in pools of cores of a list, are gone. -/
def State.dropSegs (s : State) (p : Fin 16) (lost : List (Fin 256)) : State :=
  { s with segs := s.segs.filter fun g =>
      !(decide (g.part = p) && match g.pool with
        | .core c => lost.contains c
        | .cluster k => lost.any fun c => clusterOfCore c == k) }

/-- A partition as it becomes valid: empty pools of tasks, scope 0, full allowance buckets, and the dirty log that the PF has set. -/
def newPart (old : Part) (d : List Word) : Part :=
  let w := imgWord d
  Part.withRoot
    { Part.initial with
      desc := d
      spool := bitsOf (w 2) 0 32
      lpool := bitsOf (w 2) 32 32
      falBucket := ⟨10 * bitsOf (w 7) 32 32, 0⟩
      hostBucket := ⟨10 * bitsOf (w 7) 0 32, 0⟩
      logMode := old.logMode
      logActive := old.logActive }

/-- The partition's first supervisor slot (R327, R381): slot 0 of its interrupt core, at sventry, with every register zero. -/
def State.startSupervisor (s : State) (p : Fin 16) : State :=
  let i : SlotId := ⟨(s.partOf p).icore, 0⟩
  s.setSlot i (Slot.initial.supervisor i ((s.partOf p).word 9) s.cycle)

/-- A descriptor that stays valid is changed: the pools keep what is reserved of them; keys stay while a quarter of the partition does. -/
def Part.changed (q : Part) (d : List Word) : Part :=
  let w := imgWord d
  { q with
    desc := d
    spool := q.spool + bitsOf (w 2) 0 32 - bitsOf (q.word 2) 0 32
    lpool := q.lpool + bitsOf (w 2) 32 32 - bitsOf (q.word 2) 32 32
    keys := if (physOfDesc d).any fun n => (physOfDesc q.desc).contains n then q.keys else [] }

/-- A partition takes its new descriptor. -/
def State.commitPart (s : State) (p : Fin 16) (d : List Word) : State :=
  let q := s.partOf p
  let old := s.coresOf p
  if d.isEmpty then
    ((s.dropSegs p old).mapPart p fun q => { Part.initial with logMode := q.logMode, logActive := q.logActive }).freshCores old
  else if q.valid = false then
    let s1 := s.mapPart p fun q => newPart q d
    (s1.freshCores (s1.coresOf p)).startSupervisor p
  else
    let lost := old.filter fun c => !(lmaskOf d).testBit (c.val / 16)
    let s1 := (((s.dropCores lost).dropSegs p lost).freshCores lost).mapPart p fun q => q.changed d
    s1.freshCores ((s1.coresOf p).filter fun c => !old.contains c)

/-- Partitions of a list take their staged descriptors: those that give cores up first. -/
def State.commitParts (s : State) : List Nat → State
  | [] => s
  | p :: r => (s.commitPart (Fin.ofNat 16 p) (inForce (s.staged p))).commitParts r

/-- The descriptor of a partition gives quarters up. -/
def State.shrinks (s : State) (p : Nat) : Bool :=
  let q := s.partOf (Fin.ofNat 16 p)
  (quartersOf q.lmask).any fun l => q.valid && !(lmaskOf (inForce (s.staged p))).testBit l

/-- Every TLB entry of the partitions of a list is removed (step 5). -/
def State.shootDown (s : State) : List Nat → State
  | [] => s
  | p :: r => (s.tlbDrop (Fin.ofNat 16 p) fun _ => true).shootDown r

/-- The staged interleave entries, as the table that is put in force. -/
def State.stagedTable (s : State) : List (Nat × Word) :=
  ((List.range 768).map fun r => (r, s.stagedInter r)).filter fun e => e.2 != 0

/-- Steps 4 to 6 of R381. A partition that shrinks takes its descriptor before one that grows. -/
def State.commit (s : State) : State :=
  let l := s.pkg.cfg.affected
  let gone := s.leavingQuarters ((List.range 16).map fun p => inForce (s.staged p))
  let s1 := (s.scrub gone).shootDown l
  let s2 := s1.mapPkg fun k => { k with
    inter := s.stagedTable
    lastInter := (k.inter.filter fun e => e.2.getLsbD 63).foldl (fun t e => tput t e.1 e.2) k.lastInter }
  let small := l.filter s.shrinks
  ((s2.commitParts small).commitParts (l.filter fun p => !small.contains p)).endConfig 0

/-- CONFIG_COMMIT (R381, R382): every affected partition is quiet. -/
def execConfigCommit (s : State) : Host.Outcome State Fault Refusal :=
  .next (
    if s.pkg.cfg.status = 3 then s.lookingAt s.pkg.cfg.affected fun s => if s.allQuiet then s.commit else s
    else s)

/-- CFG_TMO (R381): step 3 has lasted CFG_TMO microseconds. -/
def execCfgTmo (s : State) : Host.Outcome State Fault Refusal :=
  .next (
    match s.pkg.cfg.start with
    | some t =>
      if s.pkg.cfg.status = 3 ∧ t + wakeWindow * (s.pfReg 0x10).toNat ≤ s.cycle then
        s.lookingAt s.pkg.cfg.affected fun s => if s.allQuiet then s else s.endConfig 1
      else s
    | none => s)

/-! ### Running, stopping and resetting (R384, R386) -/

/-- The area of an environment (R102), where its block can be read. -/
def State.areaOf (s : State) (p : Fin 16) (e : Nat) : Option Nat :=
  (s.devWords p (s.partOf p).root ((s.partOf p).envBase + 64 * e) 8).map fun l => (imgWord l 5).toNat

/-- An area holds a task of a core of the partition, and neither a record nor the environment's holder is here. -/
def State.adoptable (s : State) (p : Fin 16) (e a : Nat) : Bool :=
  let hd := s.saveGet p (a + 8)
  let c := coreNo (bitsOf hd 8 8)
  hd.getLsbD 0 && (s.savedRec c a).isNone && (s.coresOf p).contains c && !s.envHeld p e

/-- The task of a migrated area, if an environment's area holds one and no record of it is here (R386; log 44): its record takes the oldest end
of the deque of its core of origin. -/
def State.adopt (s : State) (p : Fin 16) (e : Nat) : State :=
  match s.areaOf p e with
  | none => s
  | some a =>
    if s.adoptable p e a then
      let c := coreNo (bitsOf (s.saveGet p (a + 8)) 8 8)
      let (r, t) := s.areaRec c a
      let n := r.info.serial
      (t.mapPart p fun q => ({ q.withRoot with
        live := q.live ++ [(n, r.info.scope)]
        serial := if q.serial ≤ n then (n + 1) % 2 ^ 32 else q.serial }).enter r.info.scope).pushTail c r
    else s

/-- Adopts the tasks of n environments. -/
def State.adoptAll (s : State) (p : Fin 16) : Nat → State
  | 0 => s
  | n + 1 => (s.adoptAll p n).adopt p n

/-- What adopting has still to ask other devices for: environment blocks and kernel headers (R398). -/
def State.adoptWants (s : State) (p : Fin 16) (e : Nat) : List Want :=
  let root := (s.partOf p).root
  match s.wants p root ((s.partOf p).envBase + 64 * e) 2, s.areaOf p e with
  | [], some a => if s.adoptable p e a then s.headerWants p root (s.saveRead p (a + 0x80) 8) else []
  | l, _ => l

/-- PART_RUN (R384, R386): the partition goes on, at the boundaries where it was frozen, and from the areas of its saved tasks. -/
def execPartRun (p : Fin 16) (s : State) : Host.Outcome State Fault Refusal :=
  .next (
    if s.up && (s.partOf p).valid then
      s.reading p ((List.range (s.partOf p).envCount).flatMap (s.adoptWants p)) fun s =>
        (s.mapPart p fun q => { q with frozen := false, stopped := false }).adoptAll p (s.partOf p).envCount
    else s)

/-- The queued stores of a partition's supervisor slots are performed, but for those that a commit holds up. -/
def State.flushSupervisors (s : State) : List SlotId → State
  | [] => s
  | i :: r => (if (s.slotOf i).task.isNone && !s.lockedStores i then s.flushStores i else s).flushSupervisors r

/-- PART_STOP (R386): the partition is quiesced, and its segments go home; supervisor slots issue and store nothing more. -/
def execPartStop (p : Fin 16) (s : State) : Host.Outcome State Fault Refusal :=
  .next (
    if s.up && (s.partOf p).valid then
      let s0 := (s.mapPart p fun q => { q with stopped := true }).flushSupervisors ((s.coresOf p).flatMap slotsOf)
      let s1 := s0.quiesce p
      s1.evictUnpinned p (s1.segs.map (·.id))
    else s)

/-- Kills the tasks of a list of slots, also those in handlers, and abandons preloads. -/
def State.killSlots (s : State) : List SlotId → State
  | [] => s
  | i :: r =>
    let x := s.slotOf i
    (if x.task.isSome then s.killSlot i
      else match x.next with
        | some n => (s.endPreload i).dropSaved i.core n
        | none => s).killSlots r

/-- Kills what the cores of a list hold. -/
def State.killCores (s : State) : List (Fin 256) → State
  | [] => s
  | c :: r =>
    let s1 := s.killSlots (slotsOf c)
    ((s1.setDeque c []).dropRecs c (s1.coreOf c).deque).killCores r

/-- Writes the acknowledgements of scopes. -/
def State.acknowledgeAll (s : State) (p : Fin 16) : List Nat → State
  | [] => s
  | i :: r => (s.acknowledge p i).acknowledgeAll p r

/-- Every task of a partition is killed as CANCEL of scope 0 would (R384). -/
def State.killPart (s : State) (p : Fin 16) : State :=
  let s1 := s.mapPart p fun q => q.withRoot.markScope 0 s.cycle
  let s2 := s1.killCores (s1.coresOf p)
  s2.dropNodes p (s2.partOf p).insts.length

/-- The supervisor starts again as in a partition that becomes valid, once what killed tasks have sent to other devices is acknowledged and
their scopes' acknowledgements are written; the page pool stays as it is (R384, R381, R346, R343). -/
def State.restart (s : State) (p : Fin 16) : State :=
  if (s.partOf p).resetting && s.ackReady p 0 then
    let s1 := s.acknowledgeAll p ((s.partOf p).scopes.map (·.id))
    let s2 := s1.mapPart p fun q =>
      { newPart q q.desc with pool := q.pool, serial := q.serial, wakeAgain := q.wakeAgain, lastWake := q.lastWake }
    s2.startSupervisor p
  else s

/-- PART_RESET's first half: what the partition's cores hold is killed, and its slots are Free. -/
def State.resetPart (s : State) (p : Fin 16) : State :=
  let s1 := s.killPart p
  let cores := s1.coresOf p
  let s2 : State := { s1 with slots := s1.slots.filter fun e => !cores.contains (coreNo (e.1 / 4)) }
  (s2.mapPart p fun q => { q with resetting := true, keys := [] }).restart p

/-- PART_RESET (R384, R394): the key slots are cleared too. -/
def execPartReset (p : Fin 16) (s : State) : Host.Outcome State Fault Refusal :=
  .next (if s.up && (s.partOf p).valid then s.resetPart p else s)

/-- The logical core at a physical place (R378). -/
def State.logicalCore (s : State) (c : Fin 256) : Option (Fin 256) :=
  let q := ((List.finRange 16).filter fun p => (s.partOf p).valid).flatMap fun p =>
    (quartersOf (s.partOf p).lmask).filter fun l => qmapOf (s.partOf p).desc l == c.val / 16
  q.head?.map fun l => coreNo (16 * l + c.val % 16)

/-- CORE_RUN (R384, R391): the physical core resumes. -/
def execCoreRun (c : Fin 256) (s : State) : Host.Outcome State Fault Refusal :=
  .next (
    match s.up, s.logicalCore c with
    | true, some l => s.mapCore l fun k => { k with halted := false }
    | _, _ => s)

end Sys2Proof.Machine
end

