-- ==== Sys2Proof/Machine/HostIo.lean ====
section
/-! DEFINITION. What the host and the fabric do to the device (20 R375, R385 to R396; 12 R277): PF registers, DMA, the dirty log, doorbells,
keys and SPDM, power, bring-up, links, Falran flits, and allowance. -/

namespace Sys2Proof.Machine

/-! ### PF registers (R391, Table 8) -/

/-- Writes a PF register. -/
def State.pfPut (s : State) (off : Nat) (v : Word) : State :=
  s.mapPkg fun k => { k with pf := if v = 0 then tdrop k.pf off else tput k.pf off v }

/-- The registers and staging areas of Table 8 that a write only fills, and the bits of them that it fills; none for the others. -/
def pfMask (off : Nat) : Option Word :=
  if off % 8 ≠ 0 then none
  else if off = 0x10 then some (BitVec.allOnes 64)
  else if off = 0x38 then some 0xFFF
  else if 0x100 ≤ off ∧ off < 0x140 then some (BitVec.allOnes 64)
  else if 0x400 ≤ off ∧ off < 0x600 then
    if off % 32 = 0 then some 3 else if off % 32 = 8 then none else some (BitVec.allOnes 64)
  else if 0x1000 ≤ off ∧ off < 0x3800 then some (BitVec.allOnes 64)
  else if 0x4000 ≤ off ∧ off < 0xC000 then some (BitVec.allOnes 64)
  else if 0xC000 ≤ off ∧ off < 0xD000 then some 0x800000000FFFFFFF
  else none

/-- PF_REGISTER_WRITE (R391, R385): LOG_CTL also sets the partition's mode. -/
def execPfRegisterWrite (off : BitVec 16) (v : BitVec 64) (s : State) : Host.Outcome State Fault Refusal :=
  .next (
    match s.up, pfMask off.toNat with
    | true, some m =>
      let s1 := s.pfPut off.toNat (v &&& m)
      if 0x400 ≤ off.toNat ∧ off.toNat < 0x600 ∧ off.toNat % 32 = 0 then
        s1.mapPart (Fin.ofNat 16 ((off.toNat - 0x400) / 32)) fun q => { q with logMode := bitsOf v 0 2 }
      else s1
    | _, _ => s)

/-- LOG_SWAP (R385): every write performed before has set its bit; the other bitmap is active from now on. -/
def execLogSwap (p : Fin 16) (s : State) : Host.Outcome State Fault Refusal :=
  .next (if s.up then s.mapPart p fun q => { q with logActive := !q.logActive } else s)

/-- POWER_CAP (R391, R396): clamped to the fused limit. A cap of 0 stands too. -/
def execPowerCap (w : BitVec 64) (s : State) : Host.Outcome State Fault Refusal :=
  .next (if s.up then s.mapPkg fun k => { k with pf := tput k.pf 0x40 (word (min w.toNat Config.powerLimit)) } else s)

/-- The power limit in force (R396); POWER_CAP as long as nothing has written it is the fused limit (log 4). -/
def State.powerCap (s : State) : Nat :=
  if thas s.pkg.pf 0x40 then min (s.pfReg 0x40).toNat Config.powerLimit else Config.powerLimit

/-- DOORBELL (R391, Table 7). -/
def execDoorbell (p : Fin 16) (v : BitVec 64) (s : State) : Host.Outcome State Fault Refusal :=
  .next (
    if s.up && (s.partOf p).valid then s.mapPart p fun q => { q with doorbell := q.doorbell ||| v, devPend := true }
    else s)

/-! ### PF DMA (R392) -/

/-- A root of an environment's block, where the device can read it (R102). -/
def State.envRoot (s : State) (p : Fin 16) (e : Nat) : Option Nat :=
  (s.devRead p (s.partOf p).root ((s.partOf p).envBase + 64 * e + 24)).map (·.toNat)

/-- The roots of a partition's address spaces: the supervisor's, those of tasks that its slots hold, of saved ones, and of every environment of its
pool (R102). -/
def State.rootsOf (s : State) (p : Fin 16) : List Nat :=
  (s.partOf p).root ::
    ((s.slots.filter fun e => e.2.task.isSome && decide (s.partNo (coreNo (e.1 / 4)) = p)).map fun e => e.2.ctx.root) ++ s.savedRoots p ++
      (List.range (s.partOf p).envCount).filterMap (s.envRoot p)

/-- A page that a partition stores under a key slot: written so, or named so by one of its page tables (R194; log 17). -/
def State.pageKeyed (s : State) (p : Fin 16) (pa : Nat) : Bool :=
  s.keyed.contains (pa / 2 ^ 16) ||
    (!(s.partOf p).keys.isEmpty && (s.rootsOf p).any fun r => s.leafKeyed p (pa / 2 ^ 16) [1, 2, 3] r)

/-- An address of HBM lies in a page that its owner stores under a key slot (R389, R392; log 17). -/
def State.keyedAt (s : State) (pa : Nat) : Bool :=
  decide (physOf pa = .hbm) && match s.ownerPart pa with
    | some p => s.pageKeyed p pa
    | none => s.keyed.contains (pa / 2 ^ 16)

/-- A granule that DMA writes: under no key that the device knows (R394). -/
def State.dmaPut (s : State) (g : Nat) (x : Granule) : State :=
  ({ s with under := tdrop s.under g }).putStored g x (s.mem.gran g)

/-- One granule of a DMA transfer: in raw mode as it is stored; else only into or out of unkeyed pages, with a fresh seal on the way in, and
checked on the way out (R190, R392). What fails on its way out of an address that no partition owns is logged for partition 0 (log 49, DESIGN
CHOICE: R190 does not say). -/
def State.dmaGran (s : State) (raw : Bool) (src dst : Nat) : State :=
  let g := s.mem.gran (src / 32)
  if raw then s.dmaPut (dst / 32) g
  else if s.keyedAt src || s.keyedAt dst then s
  else if physOf dst = .hbm then s.dmaPut (dst / 32) { mkGran g.data with poison := g.poison }
  else
    let e := s.egress ((s.ownerPart src).getD 0) (src / 32) g
    e.1.dmaPut (dst / 32) e.2

/-- n granules of a transfer, in rising order. -/
def State.dmaGrans (s : State) (raw : Bool) (src dst : Nat) : Nat → State
  | 0 => s
  | n + 1 => (s.dmaGrans raw src dst n).dmaGran raw (src + 32 * n) (dst + 32 * n)

/-- One side of a transfer is host memory and the other HBM, over its whole length (log 49). -/
def dmaSides (src dst len : Nat) : Bool :=
  let inside := fun (k : Phys) (a : Nat) => decide (physOf a = k) && decide (physOf (a + len - 1) = k)
  (inside .host src && inside .hbm dst) || (inside .hbm src && inside .host dst)

/-- No granule from an address on is locked for a commit (R218). -/
def State.unlockedRange (s : State) (a len : Nat) : Bool :=
  s.pkg.locks.all fun l => match l.loc with
    | .phys n => decide (32 * n < a ∨ a + len ≤ 32 * n)
    | _ => true

/-- DMA (R392): the transfer that the DMA registers describe, once go is set; it waits for locked homes. -/
def execDma (s : State) : Host.Outcome State Fault Refusal :=
  .next (
    let src := (s.pfReg 0x100).toNat
    let dst := (s.pfReg 0x108).toNat
    let len := (s.pfReg 0x110).toNat
    let ctl := s.pfReg 0x118
    if s.up && ctl.getLsbD 0 && decide (len % 4096 = 0) && decide (0 < len) && decide (src % 32 = 0) && decide (dst % 32 = 0) &&
        dmaSides src dst len && s.unlockedRange src len && s.unlockedRange dst len then
      (s.dmaGrans (ctl.getLsbD 1) src dst (len / 32)).pfPut 0x118 (ctl &&& ~~~(1 : Word))
    else s)

/-! ### Keys and SPDM (R393, R394) -/

/-- The partition bound to a VF (R379); the PF, 16, has none. -/
def State.partOfVf (s : State) (vf : Fin 17) : Option (Fin 16) :=
  (List.finRange 16).find? fun p => (s.partOf p).valid && bitsOf ((s.partOf p).word 0) 16 4 == vf.val

/-- KEY_LOAD (R394): in a session on the DOE of the VF bound to the partition; a message that does not unwrap leaves the slot. -/
def execKeyLoad (p k : Fin 16) (wrapped : BitVec 576) (s : State) : Host.Outcome State Fault Refusal :=
  .next (
    let q := s.partOf p
    let vf := bitsOf (q.word 0) 16 4
    match s.up && q.valid, s.pkg.spdm.sessions.find? fun x => x.1 == vf with
    | true, some x => match keyUnwrap (Config.wrapKey x.2) wrapped with
      | some key => s.mapPart p fun q => { q with keys := tput q.keys k.val key }
      | none => s
    | _, _ => s)

/-- KEY_CLEAR (R394). -/
def execKeyClear (p k : Fin 16) (s : State) : Host.Outcome State Fault Refusal :=
  .next (if s.up then s.mapPart p fun q => { q with keys := tdrop q.keys k.val } else s)

/-- Signatures of a bottom tree (R393). -/
def bottomTree : Nat := 32768

/-- Uses a one-time index; a spent bottom tree is followed by a new one under the next top index. -/
def Spdm.useLeaf (d : Spdm) : Spdm :=
  if d.leaf + 1 < bottomTree then { d with leaf := d.leaf + 1 } else { d with top := d.top + 1, leaf := 0 }

/-- Signs a digest and answers with the signature. -/
def Spdm.sign (d : Spdm) (m : BitVec 256) : Spdm :=
  ({ d with answers := d.answers ++ [Config.hssSign d.top d.leaf m] }).useLeaf

/-- A number as double words. -/
def asWords (n v : Nat) : List Word := (List.range n).map fun k => word (v / 2 ^ (64 * k))

/-- The measurements: boot ROM, firmware, and the descriptor and interleave entries of the partition of the VF (R393). -/
def State.measured (s : State) (vf : Fin 17) : List Word :=
  let fw := match s.pkg.firmware with
    | none => []
    | some f => word f.version :: asWords 4 f.keyHash.toNat
  let part := match s.partOfVf vf with
    | none => []
    | some p => (s.partOf p).desc ++ (s.pkg.inter.filter fun e => bitsOf e.2 56 4 == p.val).map (·.2)
  Config.romVersion :: (fw ++ part)

/-- SPDM_REQUEST (R393, R391) on the DOE of a VF, or of the PF: signed measurements, a key exchange, the end of the session. -/
def execSpdmRequest (p : Fin 17) (q : SpdmReq) (s : State) : Host.Outcome State Fault Refusal :=
  .next (
    if s.up = false then s
    else match q with
      | .getMeasurements nonce =>
        let m := Config.digest (s.measured p ++ asWords 4 nonce.toNat)
        s.mapPkg fun k => { k with spdm := k.spdm.sign m }
      | .keyExchange share =>
        s.mapPkg fun k =>
          let n := k.spdm.exchanges
          let m := Config.digest (asWords 12 share.toNat ++ asWords 12 (Config.deviceShare n).toNat)
          { k with spdm := { k.spdm.sign m with
            exchanges := n + 1
            sessions := tput k.spdm.sessions p.val (Config.sessionKey share n) } }
      | .endSession => s.mapPkg fun k => { k with spdm := { k.spdm with sessions := tdrop k.spdm.sessions p.val } })

/-! ### Power, clock, bring-up (R395, R396) -/

/-- A report of the monitor whose code and place the spec does not give. -/
def State.openReport (s : State) : State :=
  let (v, t) := s.draw
  t.mapPkg fun k => { k with mbox := k.mbox ++ [[v.toNat]] }

/-- THERMAL_TRIP (R396): every core stops as HALT would, and the event is reported. -/
def execThermalTrip (s : State) : Host.Outcome State Fault Refusal :=
  .next (((List.finRange 256).foldl (fun t c => t.mapCore c fun k => { k with halted := true }) s).openReport)

/-- CLOCK_THROTTLE (R396): above the limit the clock goes down one step of 25 MHz. -/
def execClockThrottle (watts : Nat) (s : State) : Host.Outcome State Fault Refusal :=
  .next (
    if s.powerCap < watts ∧ 25 < s.pkg.clockMHz then s.mapPkg fun k => { k with clockMHz := k.clockMHz - 25 } else s)

/-- The boot ROM runs an image: its signature chain, its key and its version pass (R395). -/
def bootable (f : FirmwareImage) : Bool :=
  f.signatureValid && f.keyHash == Config.fusedKeyHash && decide (Config.fusedRollback ≤ f.version)

/-- A key of 256 bits that nothing outside the device knows: free values. -/
def State.drawKey (s : State) : BitVec 256 × State :=
  let (a, s1) := s.drawTwo
  let (b, s2) := s1.drawTwo
  (a.1 ++ a.2 ++ b.1 ++ b.2, s2)

/-- Each die generates its link key (R374). -/
def State.newLinkKeys (s : State) : List Nat → State
  | [] => s
  | d :: r =>
    let (k, t) := s.drawKey
    (t.mapPkg fun g => { g with linkKeys := tput g.linkKeys d k }).newLinkKeys r

/-- COLD_RESET (R395, Bring-up): the machine is as after reset, with its firmware running if the ROM accepts it, and new link keys (R374). The
identity's one-time indexes are never used twice (R393). -/
def execColdReset (image : FirmwareImage) (s : State) : Host.Outcome State Fault Refusal :=
  .next (
    let r := { State.reset with agenda := s.agenda, free := s.free }
    (r.newLinkKeys [0, 1, 2, 3]).mapPkg fun k => { k with
      firmware := if bootable image then some image else none
      spdm := { k.spdm with top := s.pkg.spdm.top, leaf := s.pkg.spdm.leaf, exchanges := s.pkg.spdm.exchanges } })

/-! ### Links (R374, R375) -/

/-- Failed replays of one packet after which a link, or of one flit after which a port, goes down (R375, R388). -/
def replayLimit : Nat := 16

/-- The dies that a link joins (R374). -/
def linkDies (l : Fin 4) : Nat × Nat :=
  match l with
  | 0 => (0, 1)
  | 1 => (2, 3)
  | 2 => (0, 2)
  | 3 => (1, 3)

/-- The dies that traffic of an ordered pair passes, the last one included: straight across, or by way of the die whose column bit differs
(R374). -/
def dieRoute (a b : Nat) : List Nat :=
  if a = b then [] else if a ^^^ b = 3 then [a ^^^ 1, b] else [b]

/-- The other way around (R375). -/
def otherRoute (a b : Nat) : List Nat :=
  if a ^^^ b = 3 then [a ^^^ 2, b] else [a ^^^ (3 - (a ^^^ b)), b ^^^ (3 - (a ^^^ b)), b]

/-- The link between two dies whose ids differ in one bit. -/
def linkOf (a b : Nat) : Option (Fin 4) :=
  (List.finRange 4).find? fun l => linkDies l = (min a b, max a b)

/-- Every link of a route is up. -/
def State.routeUp (s : State) : Nat → List Nat → Bool
  | _, [] => true
  | a, b :: r => (linkOf a b).all (fun l => !(tget (⟨0, false⟩ : Link) s.pkg.links l.val).down) && s.routeUp b r

/-- The one route that traffic of an ordered pair of dies follows now (R374, R375); which one it is shows only in time. -/
def State.routeBetween (s : State) (a b : Nat) : List Nat :=
  if s.routeUp a (dieRoute a b) then dieRoute a b else otherRoute a b

/-- LINK_CRC_ERROR (R375): a packet fails its CRC and its replay corrects it, which is logged; or the replay fails too. Which of the link's
dies logs it, and for which partition and core, the spec does not say (log 3). -/
def execLinkCrcError (l : Fin 4) (failed : Bool) (s : State) : Host.Outcome State Fault Refusal :=
  .next (
    let k := tget (⟨0, false⟩ : Link) s.pkg.links l.val
    let put := fun (s : State) (k : Link) => s.mapPkg fun g => { g with links := tput g.links l.val k }
    if k.down then s
    else if failed then put s ⟨k.fails + 1, decide (replayLimit ≤ k.fails + 1)⟩
    else
      let (v, t) := s.draw
      let die := if v.getLsbD 0 then (linkDies l).1 else (linkDies l).2
      (put t ⟨0, false⟩).logError die (Fin.ofNat 16 (bitsOf v 1 4)) ⟨logWord 1 none false (coreNo (bitsOf v 8 8)) 5, 0, word s.cycle, 0⟩)

/-! ### Falran (R387 to R390) -/

/-- A valid peering entry of a partition names a sender (R389, Table 8). -/
def State.peered (s : State) (p : Fin 16) (dev : BitVec 12) (endpoint : BitVec 16) : Bool :=
  (List.range 32).any fun k =>
    let e := s.pfReg (0xC000 + 256 * p.val + 8 * k)
    e.getLsbD 63 && bitsOf e 16 12 == dev.toNat && bitsOf e 0 16 == endpoint.toNat

/-- A CRED on one granule of its destination (R390, R312): elements of a format from offset n up. -/
def reduceGran (op rfmt size : Nat) (mask : BitVec 32) (new : BitVec 256) (d : BitVec 256) : Nat → BitVec 256
  | 0 => d
  | n + 1 =>
    let d := reduceGran op rfmt size mask new d n
    let o := size * n
    if mask.getLsbD o && decide (o + size ≤ 32) then
      putElem d o size (cReduce op rfmt (bitsOf d (8 * o) (8 * size)) (bitsOf new (8 * o) (8 * size))).1
    else d

/-- The bytes of a granule that a mask names, in rising order. -/
def namedBytes (d : BitVec 256) (m : BitVec 32) : List Byte :=
  ((List.range 32).filter fun k => m.getLsbD k).map fun k => d.extractLsb' (8 * k) 8

/-- The answer that tells of operand bytes which have failed their check, with the two codes (R191). -/
def operandReply (f : StoreFault) : Reply := ⟨mkGran (f.t1.setWidth 256), 2⟩

/-- A granule as it comes over a link, which carries no mark of an injector (R361, R387). -/
def unmarkGran (g : Granule) : Granule := { g with inj := false }

/-- An answer as it comes over a link. -/
def unmarkReply (a : Reply) : Reply := { a with g := unmarkGran a.g }

/-- Some bytes of a granule are replaced, or the whole of it (R190), or the answer where a check fails: of the old granule, then of the bytes
that travel under a check code (R191), then of those of a copy. -/
def writeGran (g x : Granule) (m : BitVec 32) (crc : Option (BitVec 32)) : Except Reply Granule :=
  if m = BitVec.allOnes 32 then .ok (unmarkGran x)
  else if (checkGran g).isSome then .error ⟨g, 1⟩
  else match operandFault (namedBytes x.data m) crc with
    | some f => .error (operandReply f)
    | none => if (checkGran x).isSome then .error ⟨poisoned, 0⟩ else .ok (mkGran (mergeBytes g.data x.data m))

/-- What a write leaves and is answered. -/
def served (r : Except Reply Granule) : Option Granule × Reply :=
  match r with
  | .ok y => (some y, ⟨zeroGran, 0⟩)
  | .error a => (none, a)

/-- What a request makes of the granule at its home (R389, R390): the new granule if it writes one, and the answer. A granule that fails
its check stays, and is the answer. -/
def serveGran (g : Granule) : RemoteOp → Option Granule × Reply
  | .write m x crc => served (writeGran g x m crc)
  | .atom op off v e crc =>
    if (checkGran g).isSome then (none, ⟨g, 1⟩)
    else match operandFault (natBytes 8 v.toNat) (some crc) with
      | some f => (none, operandReply f)
      | none =>
        let old := takeAt g.data (8 * off.val) 8
        let put := fun (w : Word) => mkGran (mergeBytes g.data (placeAt w (8 * off.val)) (byteMask (8 * off.val) 8))
        (if op = 15 then if old = e then some (put v) else none else some (put (atomValue op.val old v)), ⟨g, 0⟩)
  | .reduce op f m x =>
    if (checkGran g).isSome ∨ (checkGran x).isSome then (none, ⟨poisoned, 0⟩)
    else match rfmtSize f.val with
      | none => (none, ⟨poisoned, 0⟩)
      | some size => (some (mkGran (reduceGran op.val f.val size m x.data g.data (32 / size))), ⟨zeroGran, 0⟩)
  | .txUnlock _ => (none, ⟨zeroGran, 0⟩)
  | _ => (none, ⟨g, 0⟩)

/-! ### Transactions of other devices (R218, R389) -/

/-- A lock is the one that a request's sender holds under a name. -/
def Lock.heldBy (l : Lock) (q : FalranReq) (owner : Nat) : Bool :=
  decide (l.loc = .phys (q.pa.toNat / 32)) && l.dev == q.dev && l.endpoint == q.endpoint && l.owner == owner

/-- A watch is that of a request's sender under a name on its granule. -/
def Watch.heldBy (w : Watch) (q : FalranReq) (owner : Nat) : Bool :=
  w.granule == q.pa.toNat / 32 && w.dev == q.dev && w.endpoint == q.endpoint && w.owner == owner

/-- A request reaches a home that another commit has locked: it waits (R218). -/
def State.mustWait (s : State) (q : FalranReq) : Bool :=
  let held := fun (o : Nat) => s.pkg.locks.any fun l => l.heldBy q o
  match q.op with
  | .dom _ _ _ _ => false
  | .txUnlock _ => false
  | .txLock o _ _ _ _ => s.isLocked (.phys (q.pa.toNat / 32)) && !held o
  | .txWrite o => s.isLocked (.phys (q.pa.toNat / 32)) && !held o
  | _ => s.isLocked (.phys (q.pa.toNat / 32))

/-- What a request of a transaction leaves at the home: a read is watched from then on; an unlock takes the lock away, and the watch with it. -/
def State.noteTx (s : State) (q : FalranReq) : State :=
  match q.op with
  | .txRead o =>
    let new : Watch := ⟨q.pa.toNat / 32, q.dev, q.endpoint, o, false⟩
    s.mapPkg fun k => { k with watches := (k.watches.filter fun w => !w.heldBy q o) ++ [new] }
  | .txUnlock o => s.mapPkg fun k => { k with
      locks := k.locks.filter fun l => !l.heldBy q o
      watches := k.watches.filter fun w => !w.heldBy q o }
  | _ => s

/-- A commit's lock finds that what the transaction has read there has been written since. -/
def State.txHit (s : State) (q : FalranReq) : Bool :=
  match q.op with
  | .txLock o true _ _ _ => s.pkg.watches.any fun w => w.heldBy q o && w.hit
  | _ => false

/-- The answer to a lock that brings bytes to write (R191, R235): those or the old granule may fail their check. -/
def lockReply (g : Granule) (r : Except StoreFault Granule) : Reply :=
  match r with
  | .ok _ => ⟨zeroGran, 0⟩
  | .error f => if f.code = 2 then operandReply f else ⟨g, 1⟩

/-- A commit of another device locks a granule (R218): the lock keeps what the commit will write there, checked now. A conflict is told first. -/
def State.serveLock (s : State) (p : Fin 16) (q : FalranReq) (o : Nat) (m : BitVec 32) (d : BitVec 256) (crc : BitVec 32) : State × Reply :=
  let n := q.pa.toNat / 32
  let g := s.homeGran p none n
  let r := writeSetGran g m d crc
  let write := if m = 0 then none else r.toOption.map fun x => (m, x)
  let t := if s.pkg.locks.any fun l => l.heldBy q o then s
    else s.mapPkg fun k => { k with locks := k.locks ++ [⟨.phys n, q.dev, q.endpoint, o, write⟩] }
  (t, if s.txHit q then ⟨mkGran 1, 0⟩ else if m = 0 then ⟨zeroGran, 0⟩ else lockReply g r)

/-! ### Domains of the fabric group (R390; log 75) -/

/-- The partition that stands for a fabric group on this device. -/
def State.groupPart (s : State) (f : Nat) : Option (Fin 16) :=
  if f = 0 then none else (List.finRange 16).find? fun p => (s.partOf p).valid && s.fgid p == f

/-- A task of another device as a domain that is kept here names it. -/
def farTask (dev task : Nat) : Nat := (1 + dev) * 2 ^ 36 + task

/-- The answer of a domain's home: a status and a phase. -/
def domAnswer (status phase : Nat) : Reply := ⟨mkGran (BitVec.ofNat 256 (status + 2 ^ 64 * phase)), 0⟩

/-- BARDECL at the home (R119, R162). -/
def Member.tryDeclare (m : Member) (n : Nat) : Nat × Member :=
  if n ≥ 2 ^ 40 ∨ (if m.decl then m.count else 0) + n ≥ 2 ^ 40 ∨ m.arr = true then (3, m)
  else if m.broken then (4, m) else (0, m.declare n)

/-- An arrival at the home (R119, R120). -/
def Member.tryArrive (m : Member) : Nat × Member :=
  if m.arr then (3, m) else if m.broken then (4, { m with broken := false }) else (0, m.arrive)

/-- What a member asks of its domain's home; the answer tells the phase it was asked in. -/
def State.domTell (s : State) (p : Fin 16) (id n : Nat) (f : Member → Nat × Member) : State × Reply :=
  match s.domOf p 5 id with
  | none => (s, domAnswer 3 0)
  | some d => match d.member n with
    | none => (s, domAnswer 3 d.phase)
    | some m => (s.mapDom p 5 id fun x => (x.mapMember n fun _ => (f m).2).settle, domAnswer (f m).1 d.phase)

/-- The end of a phase reaches the mirror of a member (R120). -/
def Dom.told (d : Dom) (t ph excess : Nat) (broken : Bool) : Dom :=
  let end_ := fun (m : Member) => { m with
    arr := false, decl := false, count := 0, early := 0, excess := 0
    result := some (if broken then .broken else .ok ph)
    overrun := if excess > 0 then some (excess, ph) else none }
  { d.mapMember t end_ with phase := max d.phase (ph + 1) }

/-- Serves a message about a domain: of a member's device to the home, or of the home to a member's device. -/
def State.serveDom (s : State) (p : Fin 16) (dev id task : Nat) (m : DomMsg) : State × Reply :=
  let n := farTask dev task
  let fromHome := decide (s.domHome p 5 id = some dev)
  let done := fun (t : State) => (t, domAnswer 0 0)
  match m with
  | .join =>
    match (if (s.domHome p 5 id).isSome then none else s.domJoin p (s.partOf p).icore n 5 id) with
    | none => (s, domAnswer 3 0)
    | some t => (t, domAnswer 0 (t.domPhase p 5 id))
  | .leave => done (s.mapDom p 5 id (·.leave n))
  | .kill => done (s.mapDom p 5 id fun d => if (d.member n).isSome then d.breakPhase n else d)
  | .declare k => s.domTell p id n (·.tryDeclare k)
  | .arrive => s.domTell p id n Member.tryArrive
  | .land b ph => done (s.mapDom p 5 id (·.landing n b ph))
  | .ended ph e b => done (if fromHome then s.mapDom p 5 id (·.told task ph e b) else s)
  | .phase ph => done (if fromHome then s.mapDom p 5 id fun d => { d with phase := max d.phase ph } else s)
  | .home => done (if (s.domOf p 5 id).isSome && (s.domHome p 5 id).isNone then s
      else s.mapPkg fun k => { k with domHomes := tput k.domHomes (s.fgid p * 2 ^ 16 + id) dev })
  | .gone => done (if fromHome then s.mapPkg fun k => { k with domHomes := tdrop k.domHomes (s.fgid p * 2 ^ 16 + id) } else s)

/-! ### Service (R389, R390) -/

/-- The partition that a request reaches: the owner of its address, or that of its fabric group. -/
def State.targetPart (s : State) (q : FalranReq) : Option (Fin 16) :=
  match q.op with
  | .dom f _ _ _ => s.groupPart f
  | _ => s.ownerPart q.pa.toNat

/-- A task's store on another device may wake the launch engine of the partition that it reaches (R107). -/
def State.peerWake (s : State) (p : Fin 16) (l : Loc) : RemoteOp → State
  | .write m x _ => s.wakeBy p l m x.data
  | _ => s

/-- A commit of another device writes the granule that its lock keeps (R218). -/
def State.serveCommit (s : State) (p : Fin 16) (q : FalranReq) (o : Nat) : State × Reply :=
  let n := q.pa.toNat / 32
  match (s.pkg.locks.find? fun l => l.heldBy q o).bind (·.write) with
  | some (m, g) => ((s.homePutNow p none q.dlog n g).wakeBy p (.phys n) m g.data, ⟨zeroGran, 0⟩)
  | none => (s, ⟨poisoned, 0⟩)

/-- What serving a request at a home of a partition leaves and answers (R389, R218, R107, R385). -/
def State.serveHome (s : State) (p : Fin 16) (q : FalranReq) : State × Reply :=
  let n := q.pa.toNat / 32
  match q.op with
  | .txLock o _ m d crc => s.serveLock p q o m d crc
  | .txWrite o => s.serveCommit p q o
  | _ =>
    let (new, ans) := serveGran (s.homeGran p none n) q.op
    let t := match new with
      | some g => (s.homePutNow p none q.dlog n g).peerWake p (.phys n) q.op
      | none => s
    (t.noteTx q, ans)

/-- Serves a request at its home: refused, which is answered poisoned, unless the partition it reaches peers with the sender and the page
is not keyed (R389). -/
def State.serveRequest (s : State) (q : FalranReq) : State × Reply :=
  match s.targetPart q with
  | none => (s, ⟨poisoned, 0⟩)
  | some p =>
    if s.peered p q.dev q.endpoint = false then (s, ⟨poisoned, 0⟩)
    else match q.op with
      | .dom _ id task m => s.serveDom p q.dev.toNat id task m
      | _ => if s.keyedAt q.pa.toNat then (s, ⟨poisoned, 0⟩) else s.serveHome p q

/-- The port that a response leaves by: the one its request came by, or where that has gone down another that leads to the device (R388). -/
def State.responsePort (s : State) (port dev : Nat) : Option Nat :=
  if (s.portOf port).down then s.routeTo 0 dev else some port

/-- Serves a request and answers it. -/
def State.respond (s : State) (port : Nat) (q : FalranReq) : State :=
  let (t, a) := s.serveRequest q
  match t.responsePort port q.dev.toNat with
  | some n => t.mapPort n fun k => k.send q.dev.toNat 3 1 (Config.responsePayload ⟨q.tag, a⟩)
  | none => t

/-! ### What has waited at locked homes (R218) -/

/-- A write of this device that has waited at a home is performed there, or fails its check, which is reported (R191, R98). -/
def State.performHeld (s : State) (h : Held) : State :=
  let l : Loc := .phys h.granule
  match serveGran (s.homeGran h.part h.key h.granule) h.op with
  | (some g, _) =>
    let t := (s.homePutNow h.part h.key h.dlog h.granule g).writtenBy l none h.core
    if h.report ∧ physOf (32 * h.granule) = .host then t.raiseMsix h.part else t
  | (none, _) => s.devFail h.part

/-- Writes of this device that wait at homes which are no longer locked are performed, in the order in which they came. -/
def State.performHelds (s : State) : List Held → State
  | [] => s
  | h :: r =>
    (if s.isLocked (.phys h.granule) then s
      else (s.mapPkg fun k => { k with held := k.held.erase h }).performHeld h).performHelds r

/-- The writes that waited are performed; then scopes that waited for them may be acknowledged and freed (R346). -/
def State.settleHeld (s : State) : State :=
  if s.pkg.held.isEmpty then s
  else (s.pkg.held.map (·.part)).dedup.foldl (fun t p => t.reap p) (s.performHelds s.pkg.held)

/-- Requests that wait at homes which are no longer locked are served, in the order in which they came (R218). -/
def State.serveWaiting (s : State) : List (Nat × FalranReq) → State
  | [] => s
  | (n, q) :: r =>
    (if s.mustWait q then s
      else (s.mapPkg fun k => { k with waiting := k.waiting.filter fun w => !decide (w = (n, q)) }).respond n q).serveWaiting r

/-- FALRAN_REQUEST (R389, R390): an accepted request is served, and its response leaves by the same port; at a locked home it waits (R218). -/
def execFalranRequest (port : Fin 64) (f : Flit) (q : FalranReq) (s : State) : Host.Outcome State Fault Refusal :=
  .next (
    if s.up = false ∨ flitType f ≠ 1 then s
    else match s.receive port.val f (s.targetPart q) with
      | (t, false) => t
      | (t, true) =>
        if t.mustWait q then t.mapPkg fun k => { k with waiting := k.waiting ++ [(port.val, q)] }
        else t.respond port.val q)

/-- FALRAN_DATA (R387): the flit is received in sequence; what it carries belongs to the request or response it follows (log 19). -/
def execFalranData (port : Fin 64) (f : Flit) (s : State) : Host.Outcome State Fault Refusal :=
  .next (if s.up = false ∨ flitType f ≠ 2 then s else (s.receive port.val f none).1)

/-- FALRAN_RESPONSE (R388, R389): it completes the request it names. -/
def execFalranResponse (port : Fin 64) (f : Flit) (r : FalranResp) (s : State) : Host.Outcome State Fault Refusal :=
  .next (
    let x := s.pkg.remotes.find? fun q => q.tag == r.tag
    if s.up = false ∨ flitType f ≠ 3 then s
    else match s.receive port.val f (x.map fun q => s.partNo q.slot.core), x with
      | (t, true), some q => t.answer q (unmarkReply r.reply)
      | (t, _), _ => t)

/-- FALRAN_ACK (R388): an ack-only or idle flit, or one whose type field holds no type of Table 6, as a damaged flit's may (log 19). -/
def execFalranAck (port : Fin 64) (f : Flit) (s : State) : Host.Outcome State Fault Refusal :=
  .next (if s.up = false ∨ (flitType f ≠ 4 ∧ flitType f ≠ 0 ∧ flitType f ≤ 5) then s else (s.receive port.val f none).1)

/-- FALRAN_RETRY_REQUEST (R388): the flits after the one acknowledged are sent again; a flit whose replay has failed 16 times takes the port
down. -/
def execFalranRetryRequest (port : Fin 64) (f : Flit) (s : State) : Host.Outcome State Fault Refusal :=
  .next (
    if s.up = false ∨ flitType f ≠ 5 then s
    else match s.receive port.val f none with
      | (t, false) => t
      | (t, true) =>
        let k := t.portOf port.val
        if k.replay.isEmpty then t
        else if replayLimit ≤ k.fails then t.portDown port.val
        else t.mapPort port.val fun k => { k with fails := k.fails + 1 })

/-! ### Allowance (R277) -/

/-- A refill of some bytes: a debt is repaid to the pool first, and what a full bucket cannot hold goes there too. -/
def Bucket.refill (b : Bucket) (pool rate : Nat) : Bucket × Nat :=
  let pay := min b.debt rate
  let fill := b.fill + (rate - pay)
  let rest := fill - bucketDepth rate
  (⟨fill - rest, b.debt - pay⟩, pool + pay + rest)

/-- ALLOWANCE_REFILL (R277): one microsecond's bytes for each bucket of a partition's VF, MB/s being bytes a microsecond. -/
def execAllowanceRefill (p : Fin 16) (s : State) : Host.Outcome State Fault Refusal :=
  .next (
    let q := s.partOf p
    let a := q.falBucket.refill s.pkg.falPool (bitsOf (q.word 7) 32 32)
    let b := q.hostBucket.refill s.pkg.hostPool (bitsOf (q.word 7) 0 32)
    if q.valid then
      (s.mapPart p fun q => { q with falBucket := a.1, hostBucket := b.1 }).mapPkg fun k => { k with falPool := a.2, hostPool := b.2 }
    else s)

end Sys2Proof.Machine
end

