-- ==== Sys2Proof/Machine/LoadStore.lean ====
section
/-! DEFINITION. Plain and strong loads and stores (04 R93, R94; 10 R221, R222). -/

namespace Sys2Proof.Machine

/-- LD (R93). -/
def execLd (d a : Fin 32) (sz : Fin 4) (zx : Bool) (i : BitVec 11) (s : State) : Host.Outcome State Fault Refusal :=
  runOp (do
    let v ← loadOp (effPtr (s.reg a) i) (sizeBytes sz) false
    resultOp d (extendLoad v sz zx)) s

/-- ST (R94). -/
def execSt (t a : Fin 32) (sz : Fin 4) (i : BitVec 11) (s : State) : Host.Outcome State Fault Refusal :=
  runOp (storeOp (effPtr (s.reg a) i) (sizeBytes sz) false (s.reg t)) s

/-- LD.S (R222): strong; .acq is an acquire point at .sys, without effect inside a transaction (R232). -/
def execLdS (d a : Fin 32) (sz : Fin 4) (zx : Bool) (o : Fin 4) (i : BitVec 9) (s : State) :
    Host.Outcome State Fault Refusal :=
  runOp (do
    let v ← loadOp (effPtr (s.reg a) i) (sizeBytes sz) true
    if o = 1 && s.me.tx.isNone then modify fun s => s.acquire s.cur 5 s.me.binds.last
    resultOp d (extendLoad v sz zx)) s

/-- ST.S (R222): strong; .rel is a release point at .sys, without effect inside a transaction (R232). -/
def execStS (t a : Fin 32) (sz o : Fin 4) (i : BitVec 9) (s : State) : Host.Outcome State Fault Refusal :=
  runOp (do
    if o = 2 && s.me.tx.isNone then releaseOp 5
    storeOp (effPtr (s.reg a) i) (sizeBytes sz) true (s.reg t)) s

end Sys2Proof.Machine
end

