-- ==== Sys2Proof/Machine/VecIssue.lean ====
section
/-! DEFINITION. The vector engine (06 R125 to R134): ports, visibility of pending writes, issue and finish of a V word, markers and port
address generators (12 R258, R259). -/

namespace Sys2Proof.Machine

/-! ### Accumulators in issue order -/

/-- The value of an accumulator that the next VCSUM adds to: its uses are in issue order (R152). -/
def VecState.xaLast (v : VecState) (n : Nat) : Xa :=
  v.pending.foldl (fun a w => match w.dest with
    | .xa m x => if m = n then x else a
    | _ => a) (v.xreg n)

/-! ### What a V word is -/

/-- Where a V word's result goes. -/
inductive VTarget where
  | none
  | v (d : Fin 32)
  | k (d : Fin 16)
  | xa (n : Fin 4)
  | scalar
  | check
  | config
  deriving DecidableEq, Repr

/-- What a V word computes. -/
inductive VOut where
  | none
  | v (lanes : List Lane) (mask : BitVec 256)
  | k (bits : BitVec 256) (mask : BitVec 256)
  | xa (x : Xa)
  | scalar (w : Word)
  | check (ok : Bool)
  | config (v : BitVec 10)
  deriving DecidableEq, Repr

/-- A result with its flags, the generators that drew, and the free values used. -/
structure VRes where
  out : VOut
  flags : Sticky
  gens : List (Nat × BitVec 32)
  used : Nat

/-- The operands of a V word at its issue (R132, R136, R137): `xlast` is `xaLast`. -/
structure VIn where
  src : Fin 32 → List Lane
  k : Fin 16 → BitVec 256
  xa : Fin 4 → Xa
  xlast : Fin 4 → Xa
  act : BitVec 256
  vt : BitVec 10
  ftz : Bool
  gen : Nat → BitVec 32
  tol : BitVec 32
  free : Nat → Word

/-- A V word: the registers it reads, its guard, its target, its latency (R131, Table 5) and what it computes. -/
structure VWord where
  vs : List (Fin 32)
  ks : List (Fin 16)
  xs : List (Fin 4)
  guard : Option (Fin 16 × Bool)
  target : VTarget
  lat : Nat
  run : VIn → VRes

/-! ### Ports (R126, R127) -/

/-- The data cap of a slot's ports (R105, R126). -/
def Slot.dataCap (x : Slot) : Nat :=
  match x.task with
  | some t => min 8 t.caps.data
  | none => 8

/-- The fault that stopped the generator bound to a port (R259). -/
def Ports.bindFault (p : Ports) (b : Binding) : Option AgFault :=
  match b with
  | .gen g => (p.walks.find? fun e => e.1 == g.val).bind (·.2.fault)
  | _ => none

/-- Lanes of an entry of v2 (R126). -/
def splitLanes (w : Word) : List Lane :=
  (List.range 256).map fun i => if i % 2 = 0 then w.extractLsb' 0 32 else w.extractLsb' 32 32

/-- The fault that a popped port entry of a word raises, at its first bad granule: cause, offset in the entry, TINFO1, and whether an injector has
made it bad (R127, R195, R361). -/
def entryFault (e : PortEntry) : Option (BitVec 8 × Nat × Word × Bool) :=
  ((e.grans.zipIdx).filterMap fun (g, n) => (checkGran g).map fun (c, t) => (c, 32 * n, t, g.inj)).head?

/-- What keeps a word from issuing, or the port fault it meets, by port (R127, R139 item 2): an empty port without a fault, or a full
v3. -/
inductive PortState where
  | wait
  | ready
  | fault (f : AgFault)

/-- A read port that a word names. -/
def readPort (named empty : Bool) (f : Option AgFault) : PortState :=
  if named && empty then match f with
    | some f => .fault f
    | none => .wait
  else .ready

/-- The ports a word names, in the order v0, v1, v2, v3. -/
def Slot.portStates (x : Slot) (w : VWord) : List PortState :=
  let p := x.eng.ports
  let toV3 := decide (w.target = .v 3)
  [readPort (w.vs.contains 0) p.v0.isEmpty (p.bindFault p.bind0), readPort (w.vs.contains 1) p.v1.isEmpty (p.bindFault p.bind1),
   readPort (w.vs.contains 2) p.v2.isEmpty none,
   if toV3 then match p.bindFault p.bind3 with
     | some f => .fault f
     | none => if p.v3.length < x.dataCap then .ready else .wait
   else .ready]

/-- A port makes the word wait. -/
def PortState.waits : PortState → Bool
  | .wait => true
  | _ => false

/-- The fault of a port. -/
def PortState.fault? : PortState → Option AgFault
  | .fault f => some f
  | _ => none

/-- Whether the word can issue but for its tokens: ports and places (R127, R138). -/
def Slot.placesFor (x : Slot) (w : VWord) : Bool :=
  (x.portStates w).all (fun p => !p.waits) && (w.target != .scalar || decide (x.eng.ports.vs.length < 32))

/-- Removes the entries a word pops (R127). -/
def Ports.pop (p : Ports) (w : VWord) : Ports :=
  { p with
    v0 := if w.vs.contains 0 then p.v0.tail else p.v0
    v1 := if w.vs.contains 1 then p.v1.tail else p.v1
    v2 := if w.vs.contains 2 then p.v2.tail else p.v2 }

/-- A word reads a port: its latency is at least 6 (R131). -/
def VWord.popsPort (w : VWord) : Bool := w.vs.any fun r => decide (r.val ≤ 2)

/-- The latency of a word (R131). -/
def VWord.latency (w : VWord) : Nat := if w.popsPort then max w.lat 6 else w.lat

/-- Some register that the word reads has a pending write (R132). -/
def VWord.late (w : VWord) (v : VecState) : Bool :=
  v.pending.any fun p => match p.dest with
    | .v n _ _ => w.vs.any fun r => decide (3 < r.val) && physV r.val v.rrb == n
    | .k n _ _ => (w.ks ++ (w.guard.map (·.1)).toList).any fun r => physK r.val v.rrb == n
    | .xa n _ => w.xs.any fun r => r.val == n

/-- The active lanes of a word: guard XOR sense (R137). -/
def VWord.active (w : VWord) (v : VecState) : BitVec 256 :=
  match w.guard with
  | none => allLanes
  | some (g, sense) => if sense then ~~~(v.kreg (physK g.val v.rrb)) else v.kreg (physK g.val v.rrb)

/-- The operands of a word at its issue; `v` is the vector state with every visible write landed. VFTZ is that of FLAGS at the issue, for
which the spec names no time (R66; log 106, DESIGN CHOICE). -/
def Slot.vIn (x : Slot) (w : VWord) (v : VecState) (tol : BitVec 32) (free : Nat) : VIn :=
  { src := fun r =>
      if r = 0 then gransLanes ((x.eng.ports.v0.head?.map (·.grans)).getD [])
      else if r = 1 then gransLanes ((x.eng.ports.v1.head?.map (·.grans)).getD [])
      else if r = 2 then splitLanes (x.eng.ports.v2.headD 0)
      else v.vreg (physV r.val v.rrb)
    k := fun r => v.kreg (physK r.val v.rrb)
    xa := fun n => v.xreg n.val
    xlast := fun n => v.xaLast n.val
    act := w.active v
    vt := v.vtype
    ftz := v.vtype.getLsbD 8 || vftzOf x.bank.flags
    gen := fun i => tget (laneSeed v.seed i) v.gens i
    tol := tol
    free := fun n => Config.freeValue (free + n) }

/-! ### Issue -/

/-- A V word whose engine holds it after its start or a fault: it stays at the head of the queue and occupies no entry (R251). -/
def Slot.holdHead (x : Slot) (q : QEntry) : Slot :=
  let y := x.mapQs fun k => { k with vq := match k.vq with
    | _ :: r => { q with held := true, popped := q.popped || (waitEng .v q.word).isSome } :: r
    | [] => [] }
  if (waitEng .v q.word).isSome then y.journalPopped q.seq else y

/-- A V word stops with a fault (R139, R253): pending writes of earlier words land, all of them now (log 118, DESIGN CHOICE: R139 does not say
when); its token stays popped (R328). -/
def State.vStopped (s : State) (i : SlotId) (q : QEntry) (inj : Bool) (f : PendFault) : State :=
  let s1 := s.mapSlot i fun x =>
    let y := x.holdHead q
    { y with eng := { y.eng with vec := y.eng.vec.landAll } }
  s1.engineFault i inj f

/-- A V word takes an engine fault of its own. -/
def State.vFault (s : State) (i : SlotId) (q : QEntry) (f : AgFault) : State :=
  s.vStopped i q f.inj ⟨f.cause, .v, q.seq, f.t0, f.t1, engInfo2 .v q.seq 0, 0⟩

/-- TINFO0 of a bad port granule (R195): where its generator read it; for an entry from a copy the spec names no address, and it is a
free value (log 41). -/
def State.entryPtr (s : State) (e : PortEntry) (off : Nat) : Word × State :=
  match e.ptr with
  | some p => (p + word off, s)
  | none => s.draw

/-- An engine fault whose cause names no TINFO0 and TINFO1: they are free values (log 41). -/
def State.vFaultBare (s : State) (i : SlotId) (q : QEntry) (cause : BitVec 8) : State :=
  let r := s.drawTwo
  r.2.vFault i q ⟨cause, r.1.1, r.1.2, false⟩

/-- The entries a word pops, v0 before v1. -/
def Ports.popped (p : Ports) (w : VWord) : List PortEntry :=
  (if w.vs.contains 0 then p.v0.take 1 else []) ++ (if w.vs.contains 1 then p.v1.take 1 else [])

/-- The fault a word takes at its issue, in the order of R139: LATE_READ, a port's, SEAL or POISON. R139 leaves the reporting to R328 (log 63). -/
def State.vCheck (s : State) (i : SlotId) (q : QEntry) (w : VWord) : Option State :=
  let x := s.slotOf i
  let v := x.eng.vec.landDue
  if w.late v && !x.vlw then some (s.vFaultBare i q 0x0E)
  else match (x.portStates w).findSome? (·.fault?) with
    | some f => some (s.vFault i q f)
    | none =>
      ((x.eng.ports.popped w).findSome? fun e => (entryFault e).map fun f => (e, f)).map fun (e, c, off, t, inj) =>
        let r := s.entryPtr e off
        r.2.vFault i q ⟨c, r.1, t, inj⟩

/-- The write a word leaves pending. -/
def VWord.pend (w : VWord) (v : VecState) (out : VOut) : List PWrite :=
  let due := v.steps + w.latency
  match w.target, out with
  | .v d, .v l m => if d.val ≤ 3 then [] else [⟨.v (physV d.val v.rrb) l m, due⟩]
  | .k d, .k b m => [⟨.k (physK d.val v.rrb) b m, due⟩]
  | .xa n, .xa x => [⟨.xa n.val x, due⟩]
  | _, _ => []

/-- The entry a word pushes into v3: inactive lanes hold zeros (R127). -/
def VWord.v3Lanes (w : VWord) (out : VOut) : Option (List Lane) :=
  match w.target, out with
  | .v d, .v l m => if d = 3 then some (mergeLanes (List.replicate 256 0) l m) else none
  | _, _ => none

/-- What a word carries to its finish. -/
def VWord.flight (w : VWord) (q : QEntry) (c : Nat) (r : VRes) : VFlight :=
  { seq := q.seq
    due := c + w.latency
    post := (postEng .v q.word).getD .v
    flags := r.flags
    v3 := w.v3Lanes r.out
    vs := match r.out with
      | .scalar w => some w
      | _ => none
    chk := match r.out with
      | .check ok => some ok
      | _ => none }

/-- A word issues, its tokens taken (R131): pops commit, its write becomes pending, its places are reserved, and it flies to its finish.
VNOP and VCFG finish at once (R138). -/
def Slot.vCommit (x : Slot) (w : VWord) (q : QEntry) (c : Nat) (r : VRes) : Slot :=
  let v := x.eng.vec.landDue
  let f := w.flight q c r
  let p := x.eng.ports.pop w
  let now := w.target = .none ∨ w.target = .config
  let v1 := { v with
    steps := v.steps + 1
    pending := v.pending ++ w.pend v r.out
    gens := r.gens.foldl (fun l g => tput l g.1 g.2) v.gens
    flight := v.flight ++ [f]
    vtype := match r.out with
      | .config t => t
      | _ => v.vtype }
  let p1 := { p with
    v3 := if f.v3.isSome then p.v3 ++ [(q.seq, none)] else p.v3
    vs := if f.vs.isSome then p.vs ++ [(q.seq, none)] else p.vs }
  let y := { x with eng := { x.eng with vec := v1, ports := p1 } }
  if f.chk.isSome then y.holdHead q
  else
    let y1 := if (waitEng .v q.word).isSome then y.journalPopped q.seq else y
    let z := y1.mapQs fun k => { k with vq := k.vq.tail }
    if now then z.finishV f c else z

/-- A V word in issue holds back the later ones: a VCHK that has not finished (R153). -/
def Slot.checking (x : Slot) : Bool := x.eng.vec.flight.any fun f => f.chk.isSome

/-- The V word at the head of a slot's queue, when the engine may start it. -/
def Slot.vHead (x : Slot) : Option QEntry :=
  match x.eng.qs.vq with
  | q :: _ => if isMarker q.word || x.eng.qs.vStop || x.checking then none else some q
  | [] => none

/-- A lane result as the injector leaves it: one bit of a lane that is hit turns (R349, Table 12). -/
def State.struckLane (s : State) (i : SlotId) (n : Nat) (l : Lane) : Lane :=
  let k := slotKey i * 256 + n
  let die := dieOfCore i.core
  if s.hit die (s.partNo i.core) .lane k then l ^^^ BitVec.ofNat 32 (2 ^ (s.struckBits die .lane k % 32)) else l

/-- The lanes that a word writes, before they are sealed. -/
def State.struckLanes (s : State) (i : SlotId) (r : VRes) : VRes :=
  match r.out with
  | .v l m =>
    if (s.dieOf (dieOfCore i.core)).injcfg.getLsbD 13 then
      { r with out := .v (l.zipIdx.map fun e => if m.getLsbD e.2 then s.struckLane i e.2 e.1 else e.1) m }
    else r
  | _ => r

/-- The engine starts the word at the head of the current slot's queue, waits, or takes its fault (R127, R131, R138, R139). -/
def State.vIssue (s : State) (w : VWord) : State :=
  let i := s.cur
  let x := s.me
  match x.vHead with
  | none => s
  | some q =>
    if x.placesFor w = false then s
    else match x.startTokens .v q.word q.popped with
      | none => s
      | some y =>
        let s0 := s.setMe (match postEng .v q.word with
          | some b => y.unreserve .v b
          | none => y)
        match s0.vCheck i q w with
        | some t => t
        | none =>
          let r := s.struckLanes i (w.run (y.vIn w y.eng.vec.landDue q.tol s.free))
          { s.setMe (y.vCommit w q s.cycle r) with free := s.free + r.used }

/-- A V word: forwarded by the control core (R22), issued by the engine (R131). -/
def vExec (i : Instr) (w : VWord) (s : State) : Host.Outcome State Fault Refusal :=
  match s.actor with
  | .control => runOp (forwardOp .v (encode i) none) s
  | .vector => .next (s.vIssue w)

/-! ### Finish (R131, R138) -/

/-- The word in flight that finishes first, if it is due. -/
def VecState.firstDue (v : VecState) (c : Nat) : Option VFlight :=
  v.flight.foldl (fun b f => if f.due > c then b else match b with
    | none => some f
    | some g => if f.due < g.due then some f else some g) none

/-- V_FINISH: a word finishes L cycles after its issue; a VCHK that has failed takes CHK_FAIL (R153, R139). -/
def execVFinish (i : SlotId) (s : State) : Host.Outcome State Fault Refusal :=
  .next (
    match (s.slotOf i).eng.vec.firstDue s.cycle with
    | none => s
    | some f =>
      let s1 := s.mapSlot i fun x => x.finishV f s.cycle
      if f.chk = some false then
        match (s1.slotOf i).eng.qs.vq with
        | q :: _ => s1.vFaultBare i q 0x12
        | [] => s1
      else s1)

/-- MARKER_APPLY (R128 to R130, R266): the marker at the head of the queue, while the core runs. -/
def execMarkerApply (i : SlotId) (s : State) : Host.Outcome State Fault Refusal :=
  .next (
    match (s.slotOf i).eng.qs.vq with
    | q :: r => if isMarker q.word && s.runs i.core then
        s.mapSlot i fun x => (x.setQueue .v r).applyMarker q s.cycle
      else s
    | [] => s)

/-! ### Port address generators (R258, R259) -/

/-- The pointer of entry e of a walk (R258). -/
def walkPtr (img : List Word) (e : Nat) : Word :=
  let n0 := bitsOf (imgWord img 1) 0 16
  imgWord img 0 + word (e % n0 * 1024) + word (e / n0) * ((imgWord img 1).sshiftRight 32)

/-- Entries of a walk. -/
def walkLen (img : List Word) : Nat := bitsOf (imgWord img 1) 0 16 * bitsOf (imgWord img 1) 16 16

/-- The port that a generator is bound to: 0, 1 or 3. -/
def Ports.boundTo (p : Ports) (g : Fin 8) : Option Nat :=
  if p.bind0 = .gen g then some 0 else if p.bind1 = .gen g then some 1 else if p.bind3 = .gen g then some 3 else none

/-- Whether a port can take or give an entry (R259). -/
def Slot.portOpen (x : Slot) (n : Nat) : Bool :=
  let p := x.eng.ports
  match n with
  | 0 => decide (p.v0.length < x.dataCap)
  | 1 => decide (p.v1.length < x.dataCap)
  | _ => match p.v3 with
    | (_, some _) :: _ => true
    | _ => false

/-- Writes granules into a segment. -/
def State.segPuts (s : State) (g : SegId) : Nat → List Granule → State
  | _, [] => s
  | n, v :: r => (s.segPut g n v).segPuts g (n + 1) r

/-- A generator's step at an entry. -/
def Slot.advance (x : Slot) (g : Fin 8) (p : Ports) : Slot :=
  { x with eng := { x.eng with ports := { p with
    walks := p.walks.map fun e => if e.1 = g.val then (e.1, { e.2 with next := e.2.next + 1 }) else e } } }

/-- Moves one admitted entry between the segment and the port, as transport (R259, R190). -/
def State.moveEntry (s : State) (i : SlotId) (g : Fin 8) (port : Nat) (seg : SegId) (off : Nat) (ptr : Word) : State :=
  let x := s.slotOf i
  let p := x.eng.ports
  let grans := (List.range 32).map fun n => s.segGran seg (off / 32 + n)
  let read := fun (s : State) => (List.range 32).foldl (fun t n => t.storeErrors seg (off / 32 + n)) s
  match port with
  | 0 => (read s).setSlot i (x.advance g { p with v0 := p.v0 ++ [⟨some ptr, grans⟩] })
  | 1 => (read s).setSlot i (x.advance g { p with v1 := p.v1 ++ [⟨some ptr, grans⟩] })
  | _ => match p.v3 with
    | (_, some l) :: r => (s.setSlot i (x.advance g { p with v3 := r })).segPuts seg (off / 32) l
    | _ => s

/-- A port's binding to a generator is in force: a channel bound before has finished its entry (R258). -/
def Slot.fedBy (x : Slot) (port : Nat) (g : Fin 8) : Bool := decide (port = 3) || decide (x.feeder port = .gen g)

/-- Some granule of an entry waits at a locked place (R218). -/
def State.entryLocked (s : State) (seg : SegId) (off : Nat) : Bool :=
  (List.range 32).any fun n => s.isLocked (.seg seg (off / 32 + n))

/-- AG_ENTRY (R258, R259): the next entry of a generator's walk, under admission of the segment it walks (R174); a home that fails is reported
with the image's pointer (R173), an entry address that fails with the entry's. An entry whose last byte alone fails DecodePtr takes that byte's
cause (log 63). -/
def execAgEntry (i : SlotId) (g : Fin 8) (s : State) : Host.Outcome State Fault Refusal :=
  .next (
    let x := s.slotOf i
    match x.eng.ports.boundTo g, x.eng.ports.walks.find? fun e => e.1 == g.val with
    | some port, some (_, k) =>
      if !s.runs i.core || k.fault.isSome || decide (walkLen k.img ≤ k.next) || !x.portOpen port || !x.fedBy port g then s
      else
        let p := walkPtr k.img k.next
        match s.decodePtr i p 32, s.decodePtr i (p + 1023) 1 with
        | .error (c, t), _ => s.agFault i g ⟨c, p, t, false⟩
        | _, .error (c, t) => s.agFault i g ⟨c, p, t, false⟩
        | .ok (.seg seg off), _ =>
          if s.entryLocked seg off || s.lockedStores i then s
          else match s.admitSet i (.ag i g) [seg] [imgWord k.img 0] 0 false with
            | .tooLarge f => s.agFault i g ⟨0x08, word f, word x.quota, false⟩
            | .go t => (t.flushLater i).moveEntry i g port seg off p
            | .wait t => t
        | .ok (.glob _ _), _ => s.agFault i g ⟨0x04, p, 0, false⟩
    | _, _ => s)

end Sys2Proof.Machine
end

