-- ==== Sys2Proof/Machine/VecLanes.lean ====
section
/-! DEFINITION. What V words compute, lane by lane (07 R136 to R154; 03 R52 to R75). -/

namespace Sys2Proof.Machine

/-! ### Domain, rounding, flushing -/

/-- VTYPE.fmt. -/
def VIn.fmt (x : VIn) : Nat := bitsOf x.vt 0 4

/-- The integer domain (R136). -/
def VIn.isInt (x : VIn) : Bool := x.fmt == 0 || x.fmt == 1 || x.fmt == 7 || x.fmt == 9

/-- VTYPE.rm. -/
def VIn.rm (x : VIn) : Nat := bitsOf x.vt 4 3

/-- VTYPE.sat. -/
def VIn.sat (x : VIn) : Bool := x.vt.getLsbD 7

/-- A lane is active. -/
def VIn.on (x : VIn) (i : Nat) : Bool := x.act.getLsbD i

/-- A lane as a number. -/
def laneAt (l : List Lane) (i : Nat) : Nat := (l.getD i 0).toNat

/-- A lane as a signed integer. -/
def laneInt (n : Nat) : Int := (BitVec.ofNat 32 n).toInt

/-- A 32-bit lane from a number. -/
def lane (n : Nat) : Lane := BitVec.ofNat 32 n

/-- A result without flags. -/
def quiet (n : Nat) : Nat × Sticky := (n, 0)

/-- The sum of flags of a list. -/
def orFlags (l : List Sticky) : Sticky := l.foldl (· ||| ·) 0

/-- A result of one value per active lane (R137): with `draws` each takes 16 random bits under rm 5 and advances its generator (R63,
R64). -/
def VIn.lanes (x : VIn) (draws : Bool) (f : Nat → Nat → Nat × Sticky) : VRes :=
  let sr := draws && x.rm == 5
  let rnd := fun (i : Nat) => laneRand (x.gen i)
  let r := (List.range 256).map fun i => if x.on i then f i (if sr then drawBits (rnd i) else 0) else (0, 0)
  { out := .v (r.map fun e => lane e.1) x.act
    flags := orFlags (r.map (·.2))
    gens := if sr then ((List.range 256).filter x.on).map fun i => (i, rnd i) else []
    used := 0 }

/-- An FP32 operand, flushed under flush-to-zero (R66). -/
def VIn.f32 (x : VIn) (c : Nat) : Nat := fp32.flushIn x.ftz c

/-- Its exact value. -/
def VIn.ex (x : VIn) (c : Nat) : Exact := (fp32.value (x.f32 c)).exact

/-- RND(x) of R140 with flush-to-zero. -/
def VIn.rnd (x : VIn) (u : Nat) (e : Exact) : Nat × Sticky :=
  fp32.flushOut x.ftz (fp32.round x.rm u x.sat e)

/-! ### Arithmetic and logic (R140) -/

/-- An integer result modulo 2^32. -/
def wrap32 (n : Int) : Nat := (BitVec.ofInt 32 n).toNat

/-- A member with an integer and a rounded floating form. -/
def VIn.arith (x : VIn) (int : Nat → Int) (flt : Nat → Exact) : VRes :=
  if x.isInt then x.lanes false fun i _ => quiet (wrap32 (int i))
  else x.lanes true fun i u => x.rnd u (flt i)

/-- A sum. -/
def addWord (a b : List Lane) (x : VIn) : VRes :=
  x.arith (fun i => laneInt (laneAt a i) + laneInt (laneAt b i)) fun i => (x.ex (laneAt a i)).add x.rm (x.ex (laneAt b i))

/-- A difference. -/
def subWord (a b : List Lane) (x : VIn) : VRes :=
  x.arith (fun i => laneInt (laneAt a i) - laneInt (laneAt b i)) fun i => (x.ex (laneAt a i)).add x.rm (x.ex (laneAt b i)).neg

/-- A product. -/
def mulWord (a b : List Lane) (x : VIn) : VRes :=
  x.arith (fun i => laneInt (laneAt a i) * laneInt (laneAt b i)) fun i => (x.ex (laneAt a i)).mul (x.ex (laneAt b i))

/-- d + a x b, or d - a x b, rounded once. -/
def fmaWord (minus : Bool) (d a b : List Lane) (x : VIn) : VRes :=
  let sg := fun (n : Int) => if minus then -n else n
  x.arith (fun i => laneInt (laneAt d i) + sg (laneInt (laneAt a i) * laneInt (laneAt b i))) fun i =>
    let p := (x.ex (laneAt a i)).mul (x.ex (laneAt b i))
    (x.ex (laneAt d i)).add x.rm (if minus then p.neg else p)

/-- Minimum or maximum of two lanes in the domain. -/
def VIn.pick (x : VIn) (least : Bool) (a b : Nat) : Nat :=
  if x.isInt then (if (laneInt a < laneInt b) == least then a else b)
  else minMax32 least (x.f32 a) (x.f32 b)

/-- VMIN and VMAX. -/
def minMaxWord (least : Bool) (a b : List Lane) (x : VIn) : VRes :=
  x.lanes false fun i _ => quiet (x.pick least (laneAt a i) (laneAt b i))

/-- VABS and VNEG: on bit 31 in the floating domain, canonical for a NaN. -/
def signWord (int : Int → Int) (flt : Nat → Nat) (a : List Lane) (x : VIn) : VRes :=
  x.lanes false fun i _ =>
    let n := laneAt a i
    if x.isInt then quiet (wrap32 (int (laneInt n)))
    else if fp32.value n = .nan then quiet fp32.nan else quiet (flt (x.f32 n))

/-- A member that is the same in both domains and rounds nothing. -/
def bitWord (f : Nat → Lane) (x : VIn) : VRes :=
  x.lanes false fun i _ => quiet (f i).toNat

/-- The shift amount b[4:0]. -/
def shiftBy (b : Lane) : Nat := b.toNat % 32

/-- VSPLAT. -/
def splatWord (i : BitVec 10) (x : VIn) : VRes :=
  x.lanes false fun _ _ => if x.isInt then quiet (wrap32 i.toInt) else quiet (fp32.round 0 0 true (ofInt i.toInt)).1

/-! ### Compare and predicates (R141 to R143) -/

/-- A k result from one bit for each active lane. -/
def VIn.bits (x : VIn) (f : Nat → Bool × Sticky) : VRes :=
  let r := (List.range 256).map fun i => if x.on i then f i else (false, 0)
  { out := .k (BitVec.ofNat 256 ((r.zipIdx.map fun (e, i) => if e.1 then 2 ^ i else 0).sum)) x.act
    flags := orFlags (r.map (·.2))
    gens := []
    used := 0 }

/-- VCMPEQ, VCMPLT and VCMPLE (R141). -/
def cmpWord (int : Int → Int → Bool) (order : Bool) (a b : List Lane) (x : VIn) : VRes :=
  x.bits fun i =>
    let m := laneAt a i
    let n := laneAt b i
    if x.isInt then (int (laneInt m) (laneInt n), 0)
    else match (fp32.value (x.f32 m)).key, (fp32.value (x.f32 n)).key with
      | some p, some q => (int p.1 q.1, 0)
      | _, _ => (false, stIf order stInvalid)

/-- VSEL: every lane is written (R142). -/
def selWord (a b : List Lane) (x : VIn) : VRes :=
  { out := .v ((List.range 256).map fun i => if x.on i then a.getD i 0 else b.getD i 0) allLanes, flags := 0, gens := [], used := 0 }

/-- KAND, KOR, KXOR and KNOT (R143). -/
def kWord (f : BitVec 256) (x : VIn) : VRes :=
  { out := .k f x.act, flags := 0, gens := [], used := 0 }

/-! ### Conversions (R144, Table 3) -/

/-- 2^(X - 127) of an E8M0 byte (R68). -/
def e8m0 (b : Nat) : Exact := if b ≥ 127 then .rat false (2 ^ (b - 127)) 1 else .rat false 1 (2 ^ (127 - b))

/-- An MXFP8 element of a lane with its scale (R68): NaN sets INVALID. -/
def mxExact (f : Fmt) (n : Nat) : Exact :=
  let b := n / 256 % 256
  match f.value (n % 256) with
  | .nan => .nan true
  | v => if b = 255 then .nan true else v.exact.mul (e8m0 b)

/-- A rounded FP32 to integer conversion into a field of bits. -/
def intField (bits : Nat) (lo hi : Int) (mode u : Nat) (e : Exact) : Nat × Sticky :=
  let r := toInt lo hi mode u e
  ((r.1 % (2 ^ bits : Int)).toNat, r.2)

/-- A signed field of a lane. -/
def signedField (bits n : Nat) : Int :=
  let m := n % 2 ^ bits
  if m < 2 ^ (bits - 1) then (m : Int) else (m : Int) - 2 ^ bits

/-- Kind 19: the block lane of an MXFP4 lane (R68). -/
def mx4Lane (n : Nat) : Nat × Sticky :=
  let b := n / 256 % 256
  let s := if b = 255 then (0, stInvalid) else e3m5.round 0 0 true (e8m0 b)
  (s.1 * 256 + n % 16, s.2)

/-- A conversion of one lane; u holds the random bits of mode SR. -/
def VIn.convert (x : VIn) (k n u : Nat) : Nat × Sticky :=
  let e := x.ex n
  let toF := fun (e : Exact) => x.rnd u e
  match k with
  | 0 => intField 32 (-(2 ^ 31)) (2 ^ 31 - 1) x.rm u e
  | 1 => intField 32 (-(2 ^ 31)) (2 ^ 31 - 1) 1 0 e
  | 2 => toF (ofInt (laneInt n))
  | 3 => bf16.flushOut x.ftz (bf16.round x.rm u x.sat e)
  | 4 => toF (bf16.value (bf16.flushIn x.ftz (n % 65536))).exact
  | 5 => fp16.flushOut x.ftz (fp16.round x.rm u x.sat e)
  | 6 => toF (fp16.value (fp16.flushIn x.ftz (n % 65536))).exact
  | 7 => e4m3.round x.rm u x.sat e
  | 8 => toF (e4m3.value (n % 256)).exact
  | 9 => e5m2.round x.rm u x.sat e
  | 10 => toF (e5m2.value (n % 256)).exact
  | 11 => intField 8 (-128) 127 x.rm u e
  | 12 => toF (ofInt (signedField 8 n))
  | 13 => intField 8 0 255 x.rm u e
  | 14 => toF (ofInt (n % 256 : Nat))
  | 15 => intField 4 (-8) 7 x.rm u e
  | 16 => toF (ofInt (signedField 4 n))
  | 17 => toF (mxExact e4m3 n)
  | 18 => toF (mxExact e5m2 n)
  | _ => mx4Lane n

/-- Kinds that round under VTYPE.rm, and so draw under SR (R63, Table 3). -/
def cvtDraws (k : Nat) : Bool := [0, 2, 3, 5, 7, 9, 11, 13, 15, 17, 18].contains k

/-- VCVT (R144). -/
def cvtWord (k : Nat) (a : List Lane) (x : VIn) : VRes :=
  x.lanes (cvtDraws k) fun i u => x.convert k (laneAt a i) u

/-! ### Quantisation (R146, R67) -/

/-- The eight lanes of block n. -/
def blockOf (a : List Lane) (n : Nat) : List Nat := (List.range 8).map fun j => laneAt a (8 * n + j)

/-- VQMAX. -/
def qmaxWord (a : List Lane) (x : VIn) : VRes :=
  let m := (List.range 32).map fun n => blockMax ((List.range 8).map fun j =>
    if x.on (8 * n + j) then x.f32 (laneAt a (8 * n + j)) else 0)
  x.lanes false fun i _ => quiet (m.getD (i / 8) 0)

/-- A block that VQCVT quantises: scale with its flags, elements with theirs (R67). `free` gives what the spec leaves open: a scale and
elements for a negative maximum (log 42). -/
def quantBlock (xs : List Nat) (m : Nat) (free : Nat → Word) : (Nat × Sticky) × List (Nat × Sticky) :=
  let none_ := xs.map fun _ => ((0, 0) : Nat × Sticky)
  match fp32.value m with
  | .nan => ((0, stInvalid), none_)
  | v =>
    if m % 2 ^ 31 = 0 then ((0, 0), none_)
    else if m ≥ 2 ^ 31 then
      ((bitsOf (free 0) 0 8, (free 0).extractLsb' 8 6),
        (List.range 8).map fun j => (bitsOf (free (j + 1)) 0 4, (free (j + 1)).extractLsb' 8 6))
    else
      let s := e3m5.round 3 0 true (v.exact.divFin 6 1)
      match e3m5.value s.1 with
      | .fin _ su => (s, xs.map fun c => e2m1.round 0 0 true ((fp32.value c).exact.divFin su unitDen))
      | _ => (s, none_)

/-- VQCVT: a block with an active lane sets its scale's flags, an element only those of an active lane. -/
def qcvtWord (a b : List Lane) (x : VIn) : VRes :=
  let blocks := (List.range 32).map fun n =>
    quantBlock ((blockOf a n).map x.f32) (x.f32 (laneAt b (8 * n))) fun k => x.free (9 * n + k)
  let anyOn := fun (n : Nat) => (List.range 8).any fun j => x.on (8 * n + j)
  let scales := (blocks.zipIdx).map fun (q, n) => if anyOn n then q.1.2 else 0
  let r := x.lanes false fun i _ =>
    let q := blocks.getD (i / 8) ((0, 0), [])
    let e := q.2.getD (i % 8) (0, 0)
    (q.1.1 * 256 + e.1, e.2)
  { r with flags := r.flags ||| orFlags scales, used := 9 * 32 }

/-- VDQ: a band field of zero stands for 1.0; a subnormal band is flushed as an input (R66; log 43). -/
def dqWord (a : List Lane) (x : VIn) : VRes :=
  x.lanes true fun i u =>
    let n := laneAt a i
    let w := n / 65536
    x.rnd u (fp4Value (n % 16) (n / 256 % 256) (if w = 0 then none else some (bf16.flushIn x.ftz w)))

/-! ### Packing (R147) -/

/-- Element width of VTYPE (R129, Table 3). -/
def VIn.ew (x : VIn) : Nat :=
  if x.fmt ≤ 3 then 8 else if x.fmt ≤ 5 then 16 else if x.fmt ≤ 7 then 4 else 32

/-- VPACK: part q of a zero image receives the elements in lane order. -/
def packWord (sel : Nat) (a : List Lane) (x : VIn) : VRes :=
  let q := sel % (32 / x.ew)
  let per := 32 / x.ew
  let width := 256 / per
  x.lanes false fun i _ =>
    if i / width = q then
      quiet (((List.range per).map fun j => laneAt a ((i % width) * per + j) % 2 ^ x.ew * 2 ^ (x.ew * j)).sum)
    else quiet 0

/-- VUNPK: element i of part q, zero-extended. -/
def unpackWord (sel : Nat) (a : List Lane) (x : VIn) : VRes :=
  let per := 32 / x.ew
  let q := sel % per
  let width := 256 / per
  x.lanes false fun i _ => quiet (laneAt a (q * width + i / per) / 2 ^ (x.ew * (i % per)) % 2 ^ x.ew)

/-! ### Reductions and lane crossing (R148 to R150, R70) -/

/-- A step of the tree: lanes, flags, generators. -/
structure RedState where
  vals : List Nat
  flags : Sticky
  gens : List (BitVec 32)

/-- The operator of a reduction with its rounding (R70). -/
def VIn.redOp (x : VIn) (op a b u : Nat) : Nat × Sticky :=
  if x.isInt then
    match op with
    | 0 => quiet ((a + b) % 2 ^ 32)
    | 1 => quiet (x.pick false a b)
    | _ => quiet (x.pick true a b)
  else
    match op with
    | 0 => x.rnd u (((fp32.value a).exact).add x.rm (fp32.value b).exact)
    | 1 => fp32.flushOut x.ftz (quiet (minMax32 false a b))
    | _ => fp32.flushOut x.ftz (quiet (minMax32 true a b))

/-- Step d of the tree. -/
def VIn.redStep (x : VIn) (op d : Nat) (r : RedState) : RedState :=
  let sr := !x.isInt && x.rm == 5
  let g := fun (i : Nat) => laneRand (r.gens.getD i 0)
  let l := (List.range d).map fun i => x.redOp op (r.vals.getD i 0) (r.vals.getD (i + d) 0) (if sr then drawBits (g i) else 0)
  { vals := l.map (·.1)
    flags := r.flags ||| orFlags (l.map (·.2))
    gens := if sr then (List.range 256).map fun i => if i < d then g i else r.gens.getD i 0 else r.gens }

/-- The identity of an operator (R70, R148). -/
def VIn.redIdent (x : VIn) (op : Nat) : Nat :=
  match op with
  | 0 => if x.isInt then 0 else if x.rm = 2 then 0 else 0x80000000
  | 1 => if x.isInt then 0x80000000 else 0xFF800000
  | _ => if x.isInt then 0x7FFFFFFF else 0x7F800000

/-- VRED (R148, R70): all 255 steps draw under SR, whatever the guard. -/
def redWord (op : Nat) (a : List Lane) (x : VIn) : VRes :=
  let start : RedState :=
    { vals := (List.range 256).map fun i =>
        if x.on i then (if x.isInt then laneAt a i else x.f32 (laneAt a i)) else x.redIdent op
      flags := 0
      gens := (List.range 256).map x.gen }
  let r := [128, 64, 32, 16, 8, 4, 2, 1].foldl (fun t d => x.redStep op d t) start
  let w := x.lanes false fun _ _ => quiet (r.vals.getD 0 0)
  { w with
    flags := r.flags
    gens := if !x.isInt && x.rm == 5 then (List.range 128).map fun i => (i, r.gens.getD i 0) else [] }

/-- VIOTA: every lane is written (R149). -/
def iotaWord (x : VIn) : VRes :=
  { out := .v ((List.range 256).map fun i => lane ((List.range i).filter x.on).length) allLanes, flags := 0, gens := [], used := 0 }

/-- A word for the V to S queue. -/
def scalarWord (w : Word) : VRes := { out := .scalar w, flags := 0, gens := [], used := 0 }

/-- VANY and VALL (R150). -/
def anyWord (all : Bool) (k : BitVec 256) (x : VIn) : VRes :=
  scalarWord (wbit (if all then x.act &&& ~~~k == 0 else x.act &&& k != 0))

/-- VXTR (R150). -/
def xtrWord (a : List Lane) (x : VIn) : VRes :=
  match (List.range 256).find? x.on with
  | none => scalarWord 0
  | some i => scalarWord (word (laneAt a i + i * 2 ^ 32 + 2 ^ 40))

/-! ### Functions (R151) -/

/-- VEXP2, VRCP and VRSQRT, under flush-to-zero (R75). -/
def funWord (f : Nat → Nat × Sticky) (a : List Lane) (x : VIn) : VRes :=
  x.lanes false fun i _ => fp32.flushOut x.ftz (f (x.f32 (laneAt a i)))

/-! ### Checksums (R152, R153, R73, R74) -/

/-- CSumAdd (R73): active lanes join exactly; a NaN or an infinity, or a sum out of range, poisons. The value keeps 384 bits. -/
def csumAdd (s : Xa) (a : List Lane) (x : VIn) : Xa × Sticky :=
  let vals := ((List.range 256).filter x.on).map fun i => fp32.value (laneAt a i)
  let bad := vals.any fun v => match v with
    | .fin _ _ => false
    | _ => true
  let sum := vals.foldl (fun (n : Int) v => match v with
    | .fin neg u => n + signedNat neg u
    | _ => n) s.value
  let out := !(decide (-(2 ^ 383 : Int) ≤ sum) && decide (sum < 2 ^ 383))
  (⟨(BitVec.ofInt 384 sum).toInt, s.poison || bad || out⟩, stIf bad stInvalid ||| stIf out stOverflow)

/-- VCSUM and VCSUM.SET. -/
def csumWord (old : Xa) (a : List Lane) (x : VIn) : VRes :=
  let r := csumAdd old a x
  { out := .xa r.1, flags := r.2, gens := [], used := 0 }

/-- An accumulator rounded to FP32 (R74). -/
def xaRound (x : Xa) : Fval := fp32.value (fp32.round 0 0 true (ratOf false x.value unitDen)).1

/-- Check (R74): whether it passes. -/
def checkOk (a b : Xa) (tol : BitVec 32) : Bool :=
  !a.poison && !b.poison && match xaRound a, xaRound b with
    | .inf m, .inf n => m == n
    | .fin m u, .fin n v =>
      let diff := (signedNat m u - signedNat n v).natAbs
      match fp32.value (bitsOf tol 0 31) with
      | .fin _ t => decide (diff * unitDen ≤ t * max u v)
      | .inf _ => true
      | .nan => decide (diff = 0)
    | _, _ => false

/-- VCHK (R153). -/
def chkWord (a b : Xa) (x : VIn) : VRes :=
  { out := .check (checkOk a b x.tol), flags := 0, gens := [], used := 0 }

/-- A word without effect on registers. -/
def noWord (_ : VIn) : VRes := { out := .none, flags := 0, gens := [], used := 0 }

/-- VCFG (R154). -/
def cfgWord (i : BitVec 10) (_ : VIn) : VRes := { out := .config i, flags := 0, gens := [], used := 0 }

end Sys2Proof.Machine
end

