-- ==== Sys2Proof/Machine/Vector.lean ====
section
/-! DEFINITION. The V words (07 R140 to R154): each names its registers, target, latency (06 Table 5) and lane computation. -/

namespace Sys2Proof.Machine

/-- A word on vector registers with a guard. -/
def vWord (t : VTail) (vs : List (Fin 32)) (target : VTarget) (lat : Nat) (run : VIn → VRes) : VWord :=
  { vs := vs, ks := [], xs := [], guard := some (t.guard, t.sense), target := target, lat := lat, run := run }

/-- A word on mask registers with a guard. -/
def kMask (t : VTail) (ks : List (Fin 16)) (target : VTarget) (lat : Nat) (run : VIn → VRes) : VWord :=
  { vs := [], ks := ks, xs := [], guard := some (t.guard, t.sense), target := target, lat := lat, run := run }

/-- A word that is not per lane. -/
def bareWord (xs : List (Fin 4)) (target : VTarget) (lat : Nat) (run : VIn → VRes) : VWord :=
  { vs := [], ks := [], xs := xs, guard := none, target := target, lat := lat, run := run }

/-- VADD (R140). -/
def execVadd (d a b : Fin 32) (t : VTail) (s : State) : Host.Outcome State Fault Refusal :=
  vExec (.vadd d a b t) (vWord t [a, b] (.v d) 2 fun x => addWord (x.src a) (x.src b) x) s

/-- VSUB (R140). -/
def execVsub (d a b : Fin 32) (t : VTail) (s : State) : Host.Outcome State Fault Refusal :=
  vExec (.vsub d a b t) (vWord t [a, b] (.v d) 2 fun x => subWord (x.src a) (x.src b) x) s

/-- VMUL (R140). -/
def execVmul (d a b : Fin 32) (t : VTail) (s : State) : Host.Outcome State Fault Refusal :=
  vExec (.vmul d a b t) (vWord t [a, b] (.v d) 4 fun x => mulWord (x.src a) (x.src b) x) s

/-- VFMA (R140): d + a x b. -/
def execVfma (d a b : Fin 32) (t : VTail) (s : State) : Host.Outcome State Fault Refusal :=
  vExec (.vfma d a b t) (vWord t [d, a, b] (.v d) 4 fun x => fmaWord false (x.src d) (x.src a) (x.src b) x) s

/-- VFMS (R140): d - a x b. -/
def execVfms (d a b : Fin 32) (t : VTail) (s : State) : Host.Outcome State Fault Refusal :=
  vExec (.vfms d a b t) (vWord t [d, a, b] (.v d) 4 fun x => fmaWord true (x.src d) (x.src a) (x.src b) x) s

/-- VMIN (R140). -/
def execVmin (d a b : Fin 32) (t : VTail) (s : State) : Host.Outcome State Fault Refusal :=
  vExec (.vmin d a b t) (vWord t [a, b] (.v d) 2 fun x => minMaxWord true (x.src a) (x.src b) x) s

/-- VMAX (R140). -/
def execVmax (d a b : Fin 32) (t : VTail) (s : State) : Host.Outcome State Fault Refusal :=
  vExec (.vmax d a b t) (vWord t [a, b] (.v d) 2 fun x => minMaxWord false (x.src a) (x.src b) x) s

/-- VABS (R140). -/
def execVabs (d a : Fin 32) (t : VTail) (s : State) : Host.Outcome State Fault Refusal :=
  vExec (.vabs d a t) (vWord t [a] (.v d) 2 fun x => signWord (fun n => (n.natAbs : Int)) (fun n => n % 2 ^ 31) (x.src a) x) s

/-- VNEG (R140). -/
def execVneg (d a : Fin 32) (t : VTail) (s : State) : Host.Outcome State Fault Refusal :=
  vExec (.vneg d a t) (vWord t [a] (.v d) 2 fun x => signWord (fun n => -n) (fun n => n ^^^ 2 ^ 31) (x.src a) x) s

/-- VAND (R140). -/
def execVand (d a b : Fin 32) (t : VTail) (s : State) : Host.Outcome State Fault Refusal :=
  vExec (.vand d a b t) (vWord t [a, b] (.v d) 2 fun x => bitWord (fun i => (x.src a).getD i 0 &&& (x.src b).getD i 0) x) s

/-- VOR (R140). -/
def execVor (d a b : Fin 32) (t : VTail) (s : State) : Host.Outcome State Fault Refusal :=
  vExec (.vor d a b t) (vWord t [a, b] (.v d) 2 fun x => bitWord (fun i => (x.src a).getD i 0 ||| (x.src b).getD i 0) x) s

/-- VXOR (R140). -/
def execVxor (d a b : Fin 32) (t : VTail) (s : State) : Host.Outcome State Fault Refusal :=
  vExec (.vxor d a b t) (vWord t [a, b] (.v d) 2 fun x => bitWord (fun i => (x.src a).getD i 0 ^^^ (x.src b).getD i 0) x) s

/-- VSHL (R140). -/
def execVshl (d a b : Fin 32) (t : VTail) (s : State) : Host.Outcome State Fault Refusal :=
  vExec (.vshl d a b t) (vWord t [a, b] (.v d) 2 fun x => bitWord (fun i => (x.src a).getD i 0 <<< shiftBy ((x.src b).getD i 0)) x) s

/-- VSHR (R140). -/
def execVshr (d a b : Fin 32) (t : VTail) (s : State) : Host.Outcome State Fault Refusal :=
  vExec (.vshr d a b t) (vWord t [a, b] (.v d) 2 fun x => bitWord (fun i => (x.src a).getD i 0 >>> shiftBy ((x.src b).getD i 0)) x) s

/-- VSHRA (R140). -/
def execVshra (d a b : Fin 32) (t : VTail) (s : State) : Host.Outcome State Fault Refusal :=
  vExec (.vshra d a b t) (vWord t [a, b] (.v d) 2 fun x => bitWord (fun i => ((x.src a).getD i 0).sshiftRight (shiftBy ((x.src b).getD i 0))) x) s

/-- VCMPEQ (R141). -/
def execVcmpeq (d : Fin 16) (a b : Fin 32) (t : VTail) (s : State) : Host.Outcome State Fault Refusal :=
  vExec (.vcmpeq d a b t) (vWord t [a, b] (.k d) 2 fun x => cmpWord (fun m n => decide (m = n)) false (x.src a) (x.src b) x) s

/-- VCMPLT (R141). -/
def execVcmplt (d : Fin 16) (a b : Fin 32) (t : VTail) (s : State) : Host.Outcome State Fault Refusal :=
  vExec (.vcmplt d a b t) (vWord t [a, b] (.k d) 2 fun x => cmpWord (fun m n => decide (m < n)) true (x.src a) (x.src b) x) s

/-- VCMPLE (R141). -/
def execVcmple (d : Fin 16) (a b : Fin 32) (t : VTail) (s : State) : Host.Outcome State Fault Refusal :=
  vExec (.vcmple d a b t) (vWord t [a, b] (.k d) 2 fun x => cmpWord (fun m n => decide (m ≤ n)) true (x.src a) (x.src b) x) s

/-- VSEL (R142). -/
def execVsel (d a b : Fin 32) (t : VTail) (s : State) : Host.Outcome State Fault Refusal :=
  vExec (.vsel d a b t) (vWord t [a, b] (.v d) 2 fun x => selWord (x.src a) (x.src b) x) s

/-- VCVT (R144). -/
def execVcvt (d a : Fin 32) (k : Fin 32) (t : VTail) (s : State) : Host.Outcome State Fault Refusal :=
  vExec (.vcvt d a k t) (vWord t [a] (.v d) 3 fun x => cvtWord k.val (x.src a) x) s

/-- VQMAX (R146). -/
def execVqmax (d a : Fin 32) (t : VTail) (s : State) : Host.Outcome State Fault Refusal :=
  vExec (.vqmax d a t) (vWord t [a] (.v d) 3 fun x => qmaxWord (x.src a) x) s

/-- VQCVT (R146). -/
def execVqcvt (d a b : Fin 32) (t : VTail) (s : State) : Host.Outcome State Fault Refusal :=
  vExec (.vqcvt d a b t) (vWord t [a, b] (.v d) 3 fun x => qcvtWord (x.src a) (x.src b) x) s

/-- VDQ (R146). -/
def execVdq (d a : Fin 32) (t : VTail) (s : State) : Host.Outcome State Fault Refusal :=
  vExec (.vdq d a t) (vWord t [a] (.v d) 3 fun x => dqWord (x.src a) x) s

/-- VRED (R148). -/
def execVred (d a : Fin 32) (o : Fin 32) (t : VTail) (s : State) : Host.Outcome State Fault Refusal :=
  vExec (.vred d a o t) (vWord t [a] (.v d) 8 fun x => redWord o.val (x.src a) x) s

/-- VANY (R150). -/
def execVany (a : Fin 16) (t : VTail) (s : State) : Host.Outcome State Fault Refusal :=
  vExec (.vany a t) (kMask t [a] .scalar 8 fun x => anyWord false (x.k a) x) s

/-- VALL (R150). -/
def execVall (a : Fin 16) (t : VTail) (s : State) : Host.Outcome State Fault Refusal :=
  vExec (.vall a t) (kMask t [a] .scalar 8 fun x => anyWord true (x.k a) x) s

/-- VBCAST (R149). -/
def execVbcast (d a : Fin 32) (l : Fin 32) (t : VTail) (s : State) : Host.Outcome State Fault Refusal :=
  vExec (.vbcast d a l t) (vWord t [a] (.v d) 2 fun x => bitWord (fun _ => (x.src a).getD l.val 0) x) s

/-- VPERM (R149). -/
def execVperm (d a b : Fin 32) (t : VTail) (s : State) : Host.Outcome State Fault Refusal :=
  vExec (.vperm d a b t) (vWord t [a, b] (.v d) 2 fun x => bitWord (fun i => (x.src a).getD (bitsOf ((x.src b).getD i 0) 0 8) 0) x) s

/-- VIOTA (R149). -/
def execViota (d : Fin 32) (t : VTail) (s : State) : Host.Outcome State Fault Refusal :=
  vExec (.viota d t) (vWord t [] (.v d) 2 iotaWord) s

/-- VMOV (R140). -/
def execVmov (d a : Fin 32) (t : VTail) (s : State) : Host.Outcome State Fault Refusal :=
  vExec (.vmov d a t) (vWord t [a] (.v d) 2 fun x => bitWord (fun i => (x.src a).getD i 0) x) s

/-- VSPLAT (R140). -/
def execVsplat (d : Fin 32) (i : BitVec 10) (t : VTail) (s : State) : Host.Outcome State Fault Refusal :=
  vExec (.vsplat d i t) (vWord t [] (.v d) 2 (splatWord i)) s

/-- VEXP2 (R151). -/
def execVexp2 (d a : Fin 32) (t : VTail) (s : State) : Host.Outcome State Fault Refusal :=
  vExec (.vexp2 d a t) (vWord t [a] (.v d) 10 fun x => funWord exp2Code (x.src a) x) s

/-- VRCP (R151). -/
def execVrcp (d a : Fin 32) (t : VTail) (s : State) : Host.Outcome State Fault Refusal :=
  vExec (.vrcp d a t) (vWord t [a] (.v d) 10 fun x => funWord rcpCode (x.src a) x) s

/-- VRSQRT (R151). -/
def execVrsqrt (d a : Fin 32) (t : VTail) (s : State) : Host.Outcome State Fault Refusal :=
  vExec (.vrsqrt d a t) (vWord t [a] (.v d) 10 fun x => funWord rsqrtCode (x.src a) x) s

/-- VCSUM (R152). -/
def execVcsum (n : Fin 4) (a : Fin 32) (t : VTail) (s : State) : Host.Outcome State Fault Refusal :=
  vExec (.vcsum n a t) (vWord t [a] (.xa n) 8 fun x => csumWord (x.xlast n) (x.src a) x) s

/-- VCSUM.SET (R152). -/
def execVcsumSet (n : Fin 4) (a : Fin 32) (t : VTail) (s : State) : Host.Outcome State Fault Refusal :=
  vExec (.vcsumSet n a t) (vWord t [a] (.xa n) 8 fun x => csumWord ⟨0, false⟩ (x.src a) x) s

/-- VCSUM.CLR (R152). -/
def execVcsumClr (n : Fin 4) (t : Tok) (s : State) : Host.Outcome State Fault Refusal :=
  vExec (.vcsumClr n t) (bareWord [] (.xa n) 8 fun _ => { out := .xa ⟨0, false⟩, flags := 0, gens := [], used := 0 }) s

/-- VCHK (R153). -/
def execVchk (a b : Fin 4) (t : Tok) (s : State) : Host.Outcome State Fault Refusal :=
  vExec (.vchk a b t) (bareWord [a, b] .check 8 fun x => chkWord (x.xa a) (x.xa b) x) s

/-- KAND (R143). -/
def execKand (d a b : Fin 16) (t : VTail) (s : State) : Host.Outcome State Fault Refusal :=
  vExec (.kand d a b t) (kMask t [a, b] (.k d) 2 fun x => kWord (x.k a &&& x.k b) x) s

/-- KOR (R143). -/
def execKor (d a b : Fin 16) (t : VTail) (s : State) : Host.Outcome State Fault Refusal :=
  vExec (.kor d a b t) (kMask t [a, b] (.k d) 2 fun x => kWord (x.k a ||| x.k b) x) s

/-- KXOR (R143). -/
def execKxor (d a b : Fin 16) (t : VTail) (s : State) : Host.Outcome State Fault Refusal :=
  vExec (.kxor d a b t) (kMask t [a, b] (.k d) 2 fun x => kWord (x.k a ^^^ x.k b) x) s

/-- KNOT (R143). -/
def execKnot (d a : Fin 16) (t : VTail) (s : State) : Host.Outcome State Fault Refusal :=
  vExec (.knot d a t) (kMask t [a] (.k d) 2 fun x => kWord (~~~(x.k a)) x) s

/-- VXTR (R150). -/
def execVxtr (a : Fin 32) (t : VTail) (s : State) : Host.Outcome State Fault Refusal :=
  vExec (.vxtr a t) (vWord t [a] .scalar 2 fun x => xtrWord (x.src a) x) s

/-- VPACK (R147). -/
def execVpack (d a : Fin 32) (l : Fin 32) (t : VTail) (s : State) : Host.Outcome State Fault Refusal :=
  vExec (.vpack d a l t) (vWord t [a] (.v d) 2 fun x => packWord l.val (x.src a) x) s

/-- VUNPK (R147). -/
def execVunpk (d a : Fin 32) (l : Fin 32) (t : VTail) (s : State) : Host.Outcome State Fault Refusal :=
  vExec (.vunpk d a l t) (vWord t [a] (.v d) 2 fun x => unpackWord l.val (x.src a) x) s

/-- VNOP (R154). -/
def execVnop (t : Tok) (s : State) : Host.Outcome State Fault Refusal :=
  vExec (.vnop t) (bareWord [] .none 0 noWord) s

/-- VCFG (R154): the control core's VTYPE changes as the word is forwarded, the engine's as it issues (R129). -/
def execVcfg (i : BitVec 10) (t : Tok) (s : State) : Host.Outcome State Fault Refusal :=
  match s.actor with
  | .control =>
    runOp (do
      forwardOp .v (encode (.vcfg i t)) none
      modify fun s => s.setMe { s.me with vtype := i }) s
  | .vector => vExec (.vcfg i t) (bareWord [] .config 0 (cfgWord i)) s

end Sys2Proof.Machine
end

