-- ==== Sys2Proof/Machine/Dispatch.lean ====
section
/-! DEFINITION. The meaning of every instruction and event: one arm for each row of spec/opcode_table.json. -/

namespace Sys2Proof.Machine

def exec (i : Instr) (s : State) : Host.Outcome State Fault Refusal :=
  match i with
  | .illegal w r => Sys2Proof.Machine.execIllegal w r s
  | .add d a b => Sys2Proof.Machine.execAdd d a b s
  | .sub d a b => Sys2Proof.Machine.execSub d a b s
  | .and d a b => Sys2Proof.Machine.execAnd d a b s
  | .or d a b => Sys2Proof.Machine.execOr d a b s
  | .xor d a b => Sys2Proof.Machine.execXor d a b s
  | .andn d a b => Sys2Proof.Machine.execAndn d a b s
  | .orn d a b => Sys2Proof.Machine.execOrn d a b s
  | .sll d a b => Sys2Proof.Machine.execSll d a b s
  | .srl d a b => Sys2Proof.Machine.execSrl d a b s
  | .sra d a b => Sys2Proof.Machine.execSra d a b s
  | .mul d a b => Sys2Proof.Machine.execMul d a b s
  | .mulh d a b => Sys2Proof.Machine.execMulh d a b s
  | .mulhu d a b => Sys2Proof.Machine.execMulhu d a b s
  | .div d a b => Sys2Proof.Machine.execDiv d a b s
  | .divu d a b => Sys2Proof.Machine.execDivu d a b s
  | .rem d a b => Sys2Proof.Machine.execRem d a b s
  | .remu d a b => Sys2Proof.Machine.execRemu d a b s
  | .slt d a b => Sys2Proof.Machine.execSlt d a b s
  | .sltu d a b => Sys2Proof.Machine.execSltu d a b s
  | .min d a b => Sys2Proof.Machine.execMin d a b s
  | .max d a b => Sys2Proof.Machine.execMax d a b s
  | .minu d a b => Sys2Proof.Machine.execMinu d a b s
  | .maxu d a b => Sys2Proof.Machine.execMaxu d a b s
  | .clz d a => Sys2Proof.Machine.execClz d a s
  | .ctz d a => Sys2Proof.Machine.execCtz d a s
  | .popc d a => Sys2Proof.Machine.execPopc d a s
  | .rol d a b => Sys2Proof.Machine.execRol d a b s
  | .ror d a b => Sys2Proof.Machine.execRor d a b s
  | .sext d a b => Sys2Proof.Machine.execSext d a b s
  | .zext d a b => Sys2Proof.Machine.execZext d a b s
  | .bext d a b => Sys2Proof.Machine.execBext d a b s
  | .bins d a b => Sys2Proof.Machine.execBins d a b s
  | .addi d a n => Sys2Proof.Machine.execAddi d a n s
  | .andi d a n => Sys2Proof.Machine.execAndi d a n s
  | .ori d a n => Sys2Proof.Machine.execOri d a n s
  | .xori d a n => Sys2Proof.Machine.execXori d a n s
  | .slti d a n => Sys2Proof.Machine.execSlti d a n s
  | .sltiu d a n => Sys2Proof.Machine.execSltiu d a n s
  | .muli d a n => Sys2Proof.Machine.execMuli d a n s
  | .slli d a n => Sys2Proof.Machine.execSlli d a n s
  | .srli d a n => Sys2Proof.Machine.execSrli d a n s
  | .srai d a n => Sys2Proof.Machine.execSrai d a n s
  | .roli d a n => Sys2Proof.Machine.execRoli d a n s
  | .bexti d a l p => Sys2Proof.Machine.execBexti d a l p s
  | .binsi d a l p => Sys2Proof.Machine.execBinsi d a l p s
  | .lui d n => Sys2Proof.Machine.execLui d n s
  | .auipc d n => Sys2Proof.Machine.execAuipc d n s
  | .beq a b o => Sys2Proof.Machine.execBeq a b o s
  | .bne a b o => Sys2Proof.Machine.execBne a b o s
  | .blt a b o => Sys2Proof.Machine.execBlt a b o s
  | .bge a b o => Sys2Proof.Machine.execBge a b o s
  | .bltu a b o => Sys2Proof.Machine.execBltu a b o s
  | .bgeu a b o => Sys2Proof.Machine.execBgeu a b o s
  | .bbs a n o => Sys2Proof.Machine.execBbs a n o s
  | .bbc a n o => Sys2Proof.Machine.execBbc a n o s
  | .j o => Sys2Proof.Machine.execJ o s
  | .jal o => Sys2Proof.Machine.execJal o s
  | .jalr d a n => Sys2Proof.Machine.execJalr d a n s
  | .brloop a o => Sys2Proof.Machine.execBrloop a o s
  | .fadd d a b => Sys2Proof.Machine.execFadd d a b s
  | .fsub d a b => Sys2Proof.Machine.execFsub d a b s
  | .fmul d a b => Sys2Proof.Machine.execFmul d a b s
  | .ffma d a b => Sys2Proof.Machine.execFfma d a b s
  | .fmin d a b => Sys2Proof.Machine.execFmin d a b s
  | .fmax d a b => Sys2Proof.Machine.execFmax d a b s
  | .fcmp d a b p => Sys2Proof.Machine.execFcmp d a b p s
  | .fcvt d a k => Sys2Proof.Machine.execFcvt d a k s
  | .ld d a x z n => Sys2Proof.Machine.execLd d a x z n s
  | .st t a x n => Sys2Proof.Machine.execSt t a x n s
  | .ldS d a x z o n => Sys2Proof.Machine.execLdS d a x z o n s
  | .stS t a x o n => Sys2Proof.Machine.execStS t a x o n s
  | .atom d a b x o p => Sys2Proof.Machine.execAtom d a b x o p s
  | .cas d a b x o => Sys2Proof.Machine.execCas d a b x o s
  | .mark => Sys2Proof.Machine.execMark s
  | .fenceRel x => Sys2Proof.Machine.execFenceRel x s
  | .fenceAcq x => Sys2Proof.Machine.execFenceAcq x s
  | .fenceAr x => Sys2Proof.Machine.execFenceAr x s
  | .lblk d a h n => Sys2Proof.Machine.execLblk d a h n s
  | .lblkRel d h => Sys2Proof.Machine.execLblkRel d h s
  | .blkwait d h => Sys2Proof.Machine.execBlkwait d h s
  | .pspace d a => Sys2Proof.Machine.execPspace d a s
  | .pcast d a b => Sys2Proof.Machine.execPcast d a b s
  | .txb d => Sys2Proof.Machine.execTxb d s
  | .txe d => Sys2Proof.Machine.execTxe d s
  | .txa a => Sys2Proof.Machine.execTxa a s
  | .pgalloc d => Sys2Proof.Machine.execPgalloc d s
  | .pgallocNb d => Sys2Proof.Machine.execPgallocNb d s
  | .pgfree d a => Sys2Proof.Machine.execPgfree d a s
  | .sgnew d a => Sys2Proof.Machine.execSgnew d a s
  | .sgnewCl d a => Sys2Proof.Machine.execSgnewCl d a s
  | .sgfree d a => Sys2Proof.Machine.execSgfree d a s
  | .sgpin d a => Sys2Proof.Machine.execSgpin d a s
  | .sgunpin d a => Sys2Proof.Machine.execSgunpin d a s
  | .sgpref d a => Sys2Proof.Machine.execSgpref d a s
  | .sginfo d a => Sys2Proof.Machine.execSginfo d a s
  | .sgquota d a => Sys2Proof.Machine.execSgquota d a s
  | .sgsched d a b => Sys2Proof.Machine.execSgsched d a b s
  | .spawn d a => Sys2Proof.Machine.execSpawn d a s
  | .tend => Sys2Proof.Machine.execTend s
  | .yield => Sys2Proof.Machine.execYield s
  | .await d a b => Sys2Proof.Machine.execAwait d a b s
  | .domjoin d a l => Sys2Proof.Machine.execDomjoin d a l s
  | .domleave d l => Sys2Proof.Machine.execDomleave d l s
  | .bardecl d a l => Sys2Proof.Machine.execBardecl d a l s
  | .bararr d l => Sys2Proof.Machine.execBararr d l s
  | .barwait d l => Sys2Proof.Machine.execBarwait d l s
  | .scnew d a => Sys2Proof.Machine.execScnew d a s
  | .cancel d a => Sys2Proof.Machine.execCancel d a s
  | .cancelwait d a => Sys2Proof.Machine.execCancelwait d a s
  | .grun d a => Sys2Proof.Machine.execGrun d a s
  | .tkpost e => Sys2Proof.Machine.execTkpost e s
  | .tkwait e => Sys2Proof.Machine.execTkwait e s
  | .qpush a => Sys2Proof.Machine.execQpush a s
  | .qpop d => Sys2Proof.Machine.execQpop d s
  | .fmtq a => Sys2Proof.Machine.execFmtq a s
  | .mlease => Sys2Proof.Machine.execMlease s
  | .mleaseG d a => Sys2Proof.Machine.execMleaseG d a s
  | .mrelease => Sys2Proof.Machine.execMrelease s
  | .chwait d a h => Sys2Proof.Machine.execChwait d a h s
  | .chid d h => Sys2Proof.Machine.execChid d h s
  | .tdset d a n => Sys2Proof.Machine.execTdset d a n s
  | .cdset d a n => Sys2Proof.Machine.execCdset d a n s
  | .agset d a n => Sys2Proof.Machine.execAgset d a n s
  | .portbind d a p => Sys2Proof.Machine.execPortbind d a p s
  | .trap n => Sys2Proof.Machine.execTrap n s
  | .tret k r => Sys2Proof.Machine.execTret k r s
  | .srd d n m => Sys2Proof.Machine.execSrd d n m s
  | .swr t n m => Sys2Proof.Machine.execSwr t n m s
  | .swrFlags t => Sys2Proof.Machine.execSwrFlags t s
  | .swrVtype t => Sys2Proof.Machine.execSwrVtype t s
  | .swrRrb t => Sys2Proof.Machine.execSwrRrb t s
  | .swrEc t => Sys2Proof.Machine.execSwrEc t s
  | .swrSrseed t => Sys2Proof.Machine.execSwrSrseed t s
  | .swrPreempt t => Sys2Proof.Machine.execSwrPreempt t s
  | .swrEnvcb t => Sys2Proof.Machine.execSwrEnvcb t s
  | .swrInjcfg t => Sys2Proof.Machine.execSwrInjcfg t s
  | .accspill d a b => Sys2Proof.Machine.execAccspill d a b s
  | .accfill d a b => Sys2Proof.Machine.execAccfill d a b s
  | .ctxsave d a => Sys2Proof.Machine.execCtxsave d a s
  | .ctxload d a b => Sys2Proof.Machine.execCtxload d a b s
  | .tlbinv d a b => Sys2Proof.Machine.execTlbinv d a b s
  | .elogrd d a b => Sys2Proof.Machine.execElogrd d a b s
  | .moncall d a b => Sys2Proof.Machine.execMoncall d a b s
  | .halt => Sys2Proof.Machine.execHalt s
  | .vnop t => Sys2Proof.Machine.execVnop t s
  | .vadd d a b t => Sys2Proof.Machine.execVadd d a b t s
  | .vsub d a b t => Sys2Proof.Machine.execVsub d a b t s
  | .vmul d a b t => Sys2Proof.Machine.execVmul d a b t s
  | .vfma d a b t => Sys2Proof.Machine.execVfma d a b t s
  | .vfms d a b t => Sys2Proof.Machine.execVfms d a b t s
  | .vmin d a b t => Sys2Proof.Machine.execVmin d a b t s
  | .vmax d a b t => Sys2Proof.Machine.execVmax d a b t s
  | .vabs d a t => Sys2Proof.Machine.execVabs d a t s
  | .vneg d a t => Sys2Proof.Machine.execVneg d a t s
  | .vand d a b t => Sys2Proof.Machine.execVand d a b t s
  | .vor d a b t => Sys2Proof.Machine.execVor d a b t s
  | .vxor d a b t => Sys2Proof.Machine.execVxor d a b t s
  | .vshl d a b t => Sys2Proof.Machine.execVshl d a b t s
  | .vshr d a b t => Sys2Proof.Machine.execVshr d a b t s
  | .vshra d a b t => Sys2Proof.Machine.execVshra d a b t s
  | .vcmpeq d a b t => Sys2Proof.Machine.execVcmpeq d a b t s
  | .vcmplt d a b t => Sys2Proof.Machine.execVcmplt d a b t s
  | .vcmple d a b t => Sys2Proof.Machine.execVcmple d a b t s
  | .vsel d a b t => Sys2Proof.Machine.execVsel d a b t s
  | .vcvt d a k t => Sys2Proof.Machine.execVcvt d a k t s
  | .vqmax d a t => Sys2Proof.Machine.execVqmax d a t s
  | .vqcvt d a b t => Sys2Proof.Machine.execVqcvt d a b t s
  | .vdq d a t => Sys2Proof.Machine.execVdq d a t s
  | .vred d a o t => Sys2Proof.Machine.execVred d a o t s
  | .vany a t => Sys2Proof.Machine.execVany a t s
  | .vall a t => Sys2Proof.Machine.execVall a t s
  | .vbcast d a l t => Sys2Proof.Machine.execVbcast d a l t s
  | .vperm d a b t => Sys2Proof.Machine.execVperm d a b t s
  | .viota d t => Sys2Proof.Machine.execViota d t s
  | .vmov d a t => Sys2Proof.Machine.execVmov d a t s
  | .vsplat d n t => Sys2Proof.Machine.execVsplat d n t s
  | .vexp2 d a t => Sys2Proof.Machine.execVexp2 d a t s
  | .vrcp d a t => Sys2Proof.Machine.execVrcp d a t s
  | .vrsqrt d a t => Sys2Proof.Machine.execVrsqrt d a t s
  | .vcsum x a t => Sys2Proof.Machine.execVcsum x a t s
  | .vcsumSet x a t => Sys2Proof.Machine.execVcsumSet x a t s
  | .vcsumClr x t => Sys2Proof.Machine.execVcsumClr x t s
  | .vchk a b t => Sys2Proof.Machine.execVchk a b t s
  | .kand d a b t => Sys2Proof.Machine.execKand d a b t s
  | .kor d a b t => Sys2Proof.Machine.execKor d a b t s
  | .kxor d a b t => Sys2Proof.Machine.execKxor d a b t s
  | .knot d a t => Sys2Proof.Machine.execKnot d a t s
  | .vcfg n t => Sys2Proof.Machine.execVcfg n t s
  | .vxtr a t => Sys2Proof.Machine.execVxtr a t s
  | .vpack d a x t => Sys2Proof.Machine.execVpack d a x t s
  | .vunpk d a x t => Sys2Proof.Machine.execVunpk d a x t s
  | .mnop k => Sys2Proof.Machine.execMnop k s
  | .mma u t a b m x y k f q => Sys2Proof.Machine.execMma u t a b m x y k f q s
  | .mzero t k => Sys2Proof.Machine.execMzero t k s
  | .mdrain t a k => Sys2Proof.Machine.execMdrain t a k s
  | .mloadc t a k => Sys2Proof.Machine.execMloadc t a k s
  | .cnop h t => Sys2Proof.Machine.execCnop h t s
  | .cpy h c r t => Sys2Proof.Machine.execCpy h c r t s
  | .cred h c r o t => Sys2Proof.Machine.execCred h c r o t s
  | .cgath h c r t => Sys2Proof.Machine.execCgath h c r t s
  | .cscat h c r t => Sys2Proof.Machine.execCscat h c r t s
  | .cmcast h c r t => Sys2Proof.Machine.execCmcast h c r t s
  | .cfill h c r o t => Sys2Proof.Machine.execCfill h c r o t s
  | .allowanceRefill p => Sys2Proof.Machine.execAllowanceRefill p s
  | .kill c => Sys2Proof.Machine.execKill c s
  | .vFinish x => Sys2Proof.Machine.execVFinish x s
  | .markerApply x => Sys2Proof.Machine.execMarkerApply x s
  | .agEntry x g => Sys2Proof.Machine.execAgEntry x g s
  | .cStart x => Sys2Proof.Machine.execCStart x s
  | .copyUnit x h => Sys2Proof.Machine.execCopyUnit x h s
  | .cComplete x h => Sys2Proof.Machine.execCComplete x h s
  | .mStart x => Sys2Proof.Machine.execMStart x s
  | .microStep x => Sys2Proof.Machine.execMicroStep x s
  | .mComplete x => Sys2Proof.Machine.execMComplete x s
  | .quiescentPoint x => Sys2Proof.Machine.execQuiescentPoint x s
  | .leaseIdleTimeout c => Sys2Proof.Machine.execLeaseIdleTimeout c s
  | .ticketServe c => Sys2Proof.Machine.execTicketServe c s
  | .poolScrub p => Sys2Proof.Machine.execPoolScrub p s
  | .storePerform x => Sys2Proof.Machine.execStorePerform x s
  | .loadBlockFill x h k => Sys2Proof.Machine.execLoadBlockFill x h k s
  | .taskStart x => Sys2Proof.Machine.execTaskStart x s
  | .resume x => Sys2Proof.Machine.execResume x s
  | .taskEnd x => Sys2Proof.Machine.execTaskEnd x s
  | .graphNodePlace p => Sys2Proof.Machine.execGraphNodePlace p s
  | .launchScan p => Sys2Proof.Machine.execLaunchScan p s
  | .periodicWake p => Sys2Proof.Machine.execPeriodicWake p s
  | .wakeWindowEnd p => Sys2Proof.Machine.execWakeWindowEnd p s
  | .steal c => Sys2Proof.Machine.execSteal c s
  | .dequeRefill c => Sys2Proof.Machine.execDequeRefill c s
  | .spillSweep c => Sys2Proof.Machine.execSpillSweep c s
  | .preload x => Sys2Proof.Machine.execPreload x s
  | .preloadComplete x => Sys2Proof.Machine.execPreloadComplete x s
  | .yieldTimeout x => Sys2Proof.Machine.execYieldTimeout x s
  | .waitSatisfied x => Sys2Proof.Machine.execWaitSatisfied x s
  | .awaitReread x => Sys2Proof.Machine.execAwaitReread x s
  | .barrierLanding p => Sys2Proof.Machine.execBarrierLanding p s
  | .barwaitReturn x => Sys2Proof.Machine.execBarwaitReturn x s
  | .asyncDelivery x => Sys2Proof.Machine.execAsyncDelivery x s
  | .watchdog x => Sys2Proof.Machine.execWatchdog x s
  | .preemptBudget x => Sys2Proof.Machine.execPreemptBudget x s
  | .loopDrainTimeout x => Sys2Proof.Machine.execLoopDrainTimeout x s
  | .saveTorn x => Sys2Proof.Machine.execSaveTorn x s
  | .cfgCtl => Sys2Proof.Machine.execCfgCtl s
  | .partRun p => Sys2Proof.Machine.execPartRun p s
  | .partStop p => Sys2Proof.Machine.execPartStop p s
  | .partReset p => Sys2Proof.Machine.execPartReset p s
  | .coreRun c => Sys2Proof.Machine.execCoreRun c s
  | .dma => Sys2Proof.Machine.execDma s
  | .logSwap p => Sys2Proof.Machine.execLogSwap p s
  | .powerCap w => Sys2Proof.Machine.execPowerCap w s
  | .pfRegisterWrite off v => Sys2Proof.Machine.execPfRegisterWrite off v s
  | .doorbell p v => Sys2Proof.Machine.execDoorbell p v s
  | .keyLoad p k wrapped => Sys2Proof.Machine.execKeyLoad p k wrapped s
  | .keyClear p k => Sys2Proof.Machine.execKeyClear p k s
  | .linkCrcError l failed => Sys2Proof.Machine.execLinkCrcError l failed s
  | .falranRequest port f q => Sys2Proof.Machine.execFalranRequest port f q s
  | .falranData port f => Sys2Proof.Machine.execFalranData port f s
  | .falranResponse port f r => Sys2Proof.Machine.execFalranResponse port f r s
  | .falranAck port f => Sys2Proof.Machine.execFalranAck port f s
  | .falranRetryRequest port f => Sys2Proof.Machine.execFalranRetryRequest port f s
  | .thermalTrip => Sys2Proof.Machine.execThermalTrip s
  | .clockThrottle watts => Sys2Proof.Machine.execClockThrottle watts s
  | .coldReset image => Sys2Proof.Machine.execColdReset image s
  | .spdmRequest p q => Sys2Proof.Machine.execSpdmRequest p q s
  | .wake p mask => Sys2Proof.Machine.execWake p mask s
  | .slotReselect c => Sys2Proof.Machine.execSlotReselect c s
  | .stallEnd x => Sys2Proof.Machine.execStallEnd x s
  | .compaction p => Sys2Proof.Machine.execCompaction p s
  | .segmentEvict g => Sys2Proof.Machine.execSegmentEvict g s
  | .configCommit => Sys2Proof.Machine.execConfigCommit s
  | .cfgTmo => Sys2Proof.Machine.execCfgTmo s
  | .freshFill g => Sys2Proof.Machine.execFreshFill g s
  | .segmentRecall g => Sys2Proof.Machine.execSegmentRecall g s
  | .writeBack c line => Sys2Proof.Machine.execWriteBack c line s

end Sys2Proof.Machine
end

