-- ==== Sys2Proof/Machine/Order.lean ====
section
/-! DEFINITION. Who moves next (log 1, log 2): the choices of the agenda, and the turn that units take while it is empty. The meaning of an
instruction is a parameter here; Step.lean supplies it. -/

namespace Sys2Proof.Machine

/-- An event of the table, and no instruction word (02 R22, R41). -/
def isEvent (i : Instr) : Bool :=
  encodeNat i == 0 && match i with
    | .illegal _ _ => false
    | _ => true

/-! ### The turn of units (log 2) -/

/-- Events as choices. -/
def events (l : List Instr) : List Choice := l.map .event

/-- What a slot's engines may do. -/
def engineTurns (i : SlotId) (x : Slot) : List Choice :=
  let e := x.eng
  (if x.sq.isEmpty then [] else events [.storePerform i]) ++
    (if e.qs.vq.isEmpty then [] else events [.markerApply i] ++ [Choice.vector i]) ++
    (if e.vec.flight.isEmpty then [] else events [.vFinish i]) ++
    (e.ports.walks.map fun w => Choice.event (Instr.agEntry i (Fin.ofNat 8 w.1))) ++
    (if e.qs.cq.isEmpty && e.chans.all (fun k => k.2.run.all fun r => r.admitted) then [] else events [.cStart i]) ++
    ((e.chans.filter fun k => k.2.run.isSome).flatMap fun k =>
      events [.copyUnit i (Fin.ofNat 8 k.1), .cComplete i (Fin.ofNat 8 k.1)]) ++
    (if e.qs.mq.isEmpty && e.mrun.isNone then [] else events [.mStart i]) ++
    (if e.mrun.isNone then [] else events [.microStep i, .mComplete i, .quiescentPoint i]) ++
    (x.blocks.flatMap fun b => (b.2.lines.zipIdx.filter fun l => !l.1.2).map fun l =>
      Choice.event (Instr.loadBlockFill i (Fin.ofNat 16 b.1) (Fin.ofNat 64 l.2)))

/-- What may happen to the task of a slot. -/
def State.taskTurns (s : State) (i : SlotId) (x : Slot) : List Choice :=
  (match x.status with
    | .waiting _ => events [.yieldTimeout i, .waitSatisfied i, .awaitReread i, .barwaitReturn i]
    | .preloaded => events [.preloadComplete i]
    | _ => []) ++
    (if x.sched.ended then events [.taskEnd i] else []) ++
    (if (s.nextCause i).isSome then events [.asyncDelivery i] else []) ++
    (if x.loop.wdog = 0 then [] else events [.watchdog i]) ++
    (if x.loop.budget = 0 then [] else events [.preemptBudget i]) ++
    (if x.pend.preempt then events [.loopDrainTimeout i] else [])

/-- A slot by its key. -/
def slotAt (k : Nat) : SlotId := ⟨coreNo (k / 4), slotNo k⟩

/-- Cores that hold a slot which is not Free. -/
def State.busyCores (s : State) : List (Fin 256) :=
  ((s.slots.filter fun e => !decide (e.2.status = .free)).map fun e => coreNo (e.1 / 4)).dedup

/-- What a core that holds records may do. -/
def coreTurns (c : Fin 256) (k : Core) : List Choice :=
  if k.deque.isEmpty then events [.steal c]
  else ((slotsOf c).flatMap fun i => events [.taskStart i, .resume i]) ++ events [.dequeRefill c, .spillSweep c]

/-- What may happen in a partition. -/
def partTurns (p : Fin 16) (q : Part) : List Choice :=
  events [.launchScan p, .periodicWake p, .wakeWindowEnd p, .allowanceRefill p] ++
    (if q.word 5 = 0 then [] else events [.poolScrub p]) ++
    (if q.insts.isEmpty then [] else events [.graphNodePlace p]) ++
    (if q.landings.isEmpty then [] else events [.barrierLanding p]) ++
    (if q.errPend || q.devPend then events [.asyncDelivery ⟨q.icore, 0⟩] else [])

/-- Cores of a partition with a cancelled scope see its mark. -/
def State.killTurns (s : State) : List Choice :=
  let marked := (s.parts.filter fun e => e.2.scopes.any (·.mark)).map (·.1)
  (((s.slots.map fun e => coreNo (e.1 / 4)) ++ s.cores.map fun e => coreNo e.1).dedup.filter fun c =>
    marked.contains (s.partNo c).val).map fun c => Choice.event (Instr.kill c)

/-- Everything that may move of itself. -/
def State.turns (s : State) : List Choice :=
  (s.busyCores.map fun c => Choice.core c) ++
    (s.slots.flatMap fun e => engineTurns (slotAt e.1) e.2) ++
    (s.slots.flatMap fun e => s.taskTurns (slotAt e.1) e.2) ++
    (s.cores.flatMap fun e => coreTurns (coreNo e.1) e.2) ++
    (s.clusters.map fun e => Choice.event (Instr.leaseIdleTimeout (Fin.ofNat 64 e.1))) ++
    (s.clusters.flatMap fun e =>
      if e.2.holder.isNone then (s.nextHolder (Fin.ofNat 64 e.1)).toList.map fun i => Choice.event (Instr.mStart i) else []) ++
    ((s.tickets.flatMap s.clustersOf).dedup.map fun c => Choice.event (Instr.ticketServe c)) ++
    ((s.parts.filter fun e => e.2.valid).flatMap fun e => partTurns (Fin.ofNat 16 e.1) e.2) ++
    s.killTurns ++
    (if s.pkg.cfg.status = 3 then events [.configCommit, .cfgTmo] else [])

/-- The choice of an empty agenda: the units take turns. -/
def State.turn (s : State) : Choice :=
  (s.turns[s.cycle % s.turns.length]?).getD (.tick 1)

/-! ### Carrying a choice out -/

/-- The control core of the current slot executes the instruction at its PC (R8). -/
def State.execPc (run : Instr → State → Host.Outcome State Fault Refusal) (s : State) : Host.Outcome State Fault Refusal :=
  match (do let w ← fetchOp; pure (instrOf w) : Op Instr) s with
  | .ok (i, t) => run i t
  | .error e => s.stopped e

/-- A slot takes its turn: a pending cause is delivered first (R326); a stalled instruction is executed again once what it waits for is
there (R261). -/
def State.slotTurn (run : Instr → State → Host.Outcome State Fault Refusal) (i : SlotId) (s : State) : Host.Outcome State Fault Refusal :=
  if s.issues i = false then .next s
  else if (s.nextCause i).isSome then .next (s.deliverAt i)
  else match (s.slotOf i).sched.stall with
    | some r => if s.stallFree i r then State.execPc run { s with cur := i, actor := .control } else .next s
    | none => State.execPc run { s with cur := i, actor := .control }

/-- A core chooses its slot (R109), which takes its turn. -/
def State.coreTurn (run : Instr → State → Host.Outcome State Fault Refusal) (c : Fin 256) (s : State) :
    Host.Outcome State Fault Refusal :=
  match s.select c with
  | none => .next s
  | some (i, t) => t.slotTurn run i

/-- The state in which the word at the head of a slot's V queue runs. -/
def State.asVector (s : State) (i : SlotId) : State := { s with cur := i, actor := .vector }

/-- The instruction at the head of a slot's V queue, when the engine may start one. -/
def State.vWord (s : State) (i : SlotId) : Option Instr :=
  match (s.slotOf i).vHead with
  | none => none
  | some q => if s.runs i.core then (decode q.word).toOption else none

/-- A slot's head can issue: running it has an effect (R127). -/
def State.vCan (run : Instr → State → Host.Outcome State Fault Refusal) (s : State) (i : SlotId) : Bool :=
  match s.vWord i with
  | none => false
  | some w => match run w (s.asVector i) with
    | .next t => decide (t ≠ s.asVector i)
    | _ => true

/-- It is a slot's turn: the vector engine goes round the slots whose heads can issue (R127). -/
def State.vTurn (run : Instr → State → Host.Outcome State Fault Refusal) (s : State) (i : SlotId) : Bool :=
  nextSlot (s.coreOf i.core).vecSlot (fun j => s.vCan run ⟨i.core, j⟩) == some i.slot

/-- The vector engine issues the word at the head of a slot's queue, when it is the slot's turn (R127). -/
def State.vectorTurn (run : Instr → State → Host.Outcome State Fault Refusal) (i : SlotId) (s : State) :
    Host.Outcome State Fault Refusal :=
  match s.vWord i with
  | none => .next s
  | some w =>
    if s.vTurn run i then run w ((s.mapCore i.core fun k => { k with vecSlot := i.slot }).asVector i) else .next s

/-! ### Natural errors (R188, R191; log 94) -/

/-- A granule that an uncorrectable error has struck. -/
def spoiled (b : Bool) (g : Granule) : Granule := if b then g else { g with poison := true }

/-- The array of an L1 has lost a granule of a line. -/
def L1Line.lose (l : L1Line) (n : Nat) : L1Line := { l with grans := setAt l.grans (n % 4) { l.gran n with bad := true } }

/-- A natural error strikes. HBM, and the L2 slice that holds a copy of its granule, correct it or keep poison, and log it. An L1 or a store that holds
granules corrects it and logs it; or has lost the granule, which shows, and is logged, when the granule is read, written back or evicted (R188,
R197). The bits of an operand on its way to a home turn, which its check code shows there. -/
def State.strikes (s : State) : Upset → State
  | .hbm p n c =>
    if s.ownerPart (32 * n) = some p then
      ({ s with mem := s.mem.putGran n (spoiled c (s.mem.gran n)) }).logArray (s.homeDie (32 * n)) p (s.partOf p).icore 4 c false (32 * n)
    else s
  | .l2 p n c =>
    if s.ownerPart (32 * n) = some p then
      ({ s with mem := s.mem.putGran n (spoiled c (s.mem.gran n)) }).logArray (s.homeDie (32 * n)) p (s.partOf p).icore 1 c false (32 * n)
    else s
  | .l1 c n b =>
    match s.l1Line c (n / 4), b with
    | none, _ => s
    | some l, true => s.logArray (dieOfCore c) l.part c 0 true false (32 * n)
    | some _, false => s.mapCore c fun k => { k with l1 := updFirst (fun l => l.line == n / 4) (·.lose n) k.l1 }
  | .store i n b =>
    match s.segOf i, b with
    | none, _ => s
    | some g, true => s.logArray (poolDie g.pool) g.part (poolCore g.pool) (poolSite g.pool) true false 0
    | some _, false => s.mapSeg i fun h => { h with bad := nput h.bad n }
  | .queued i n v => s.mapSlot i fun x =>
      let hit := fun (q : StoreReq) => if q.crc.isSome then { q with data := q.data ^^^ v } else q
      { x with sq := match x.sq[n]? with
        | some q => setAt x.sq n (hit q)
        | none => x.sq }
  | .operand v => { s with strike := v }

/-- A choice is carried out. -/
def State.carryOut (run : Instr → State → Host.Outcome State Fault Refusal) (c : Choice) (s : State) : Host.Outcome State Fault Refusal :=
  match c with
  | .core c => s.coreTurn run c
  | .vector i => s.vectorTurn run i
  | .event i => if isEvent i then run i s else .next s
  | .upset u => .next (s.strikes u)
  | .tick n => .next { s with cycle := s.cycle + n }

/-! ### What every step brings with it -/

/-- Journal entries go to their places in the ring of the context save area (R262). -/
def State.writeEntries (s : State) (p : Fin 16) (a : Nat) : List JEntry → State
  | [] => s
  | e :: r => (s.saveWords p (a + 0x4000 + 16 * (e.seq % 256)) e.words).writeEntries p a r

/-- The entries of a slot's journal that a step has written or changed, while its task stays. -/
def newEntries (old new : Slot) : List JEntry :=
  if new.task.isSome ∧ old.task = new.task then new.eng.qs.journal.filter fun e => !old.eng.qs.journal.contains e else []

/-- The journals are kept in the save areas (R262). -/
def State.writeJournals (s old : State) : List (Nat × Slot) → State
  | [] => s
  | (k, x) :: r =>
    (match newEntries (old.slotOf (slotAt k)) x with
      | [] => s
      | l => s.writeEntries (s.partNo (slotAt k).core) x.ctx.csa l).writeJournals old r

/-- What the home of a domain tells a member on another device when its phase has ended (R120, R390). -/
def Member.told (m : Member) (phase : Nat) : DomMsg :=
  match m.result with
  | some (.ok n) => .ended n ((m.overrun.map (·.1)).getD 0) false
  | some .broken => .ended (phase - 1) 0 true
  | none => .phase phase

/-- A domain that is kept here tells its members on other devices that a phase has ended. -/
def State.tellMembers (s : State) (p : Fin 16) (d : Dom) : List Member → State
  | [] => s
  | m :: r =>
    (if m.task < 2 ^ 36 then s
      else
        let t := s.sendDom p (m.task / 2 ^ 36 - 1) d.id (m.task % 2 ^ 36) (m.told d.phase)
        t.mapDom p d.level d.id fun d => d.mapMember m.task fun m => { m with result := none, overrun := none }).tellMembers p d r

/-- The level-5 domains of a partition that this device keeps. -/
def State.keptDoms (s : State) (p : Fin 16) : List Dom :=
  (s.partOf p).doms.filter fun d => d.level == 5 && (s.domHome p 5 d.id).isNone

/-- Domains whose phase has ended in a step tell their members; those that have ceased to exist tell the peers (R117, R120, R390; log 75). -/
def State.tellDoms (s old : State) (p : Fin 16) : State :=
  let ended := (s.keptDoms p).filter fun d => (old.keptDoms p).any fun e => e.id == d.id && decide (e.phase < d.phase)
  let gone := (old.keptDoms p).filter fun e => !(s.partOf p).doms.any fun d => d.level == 5 && d.id == e.id
  let s1 := ended.foldl (fun t d => t.tellMembers p d d.members) s
  gone.foldl (fun t e => (t.peerDevs p).foldl (fun u dev =>
    if (u.routeTo (u.partOf p).icore dev).isNone then u else u.sendOwn p dev 0 (.dom (u.fgid p) e.id 0 .gone) false) t) s1

/-- The core starts the record at the head of its deque on a slot (R111, R102, R336). -/
def State.startNext (s : State) (i : SlotId) : State :=
  match s.headRec i.core with
  | none => s
  | some (r, _) => match r.kind with
    | .resume _ _ _ => s.taskResume i
    | _ => s.taskStart i

/-- The next choice is a preload on a core, which claims the slot (R111, R340). -/
def State.preloadsNext (s : State) (c : Fin 256) : Bool :=
  match s.agenda with
  | .event (.preload i) :: _ => decide (i.core = c)
  | _ => false

/-- The lowest Free slot of a core. -/
def State.freeSlotOf (s : State) (c : Fin 256) : Option SlotId := (slotsOf c).find? fun i => decide ((s.slotOf i).status = .free)

/-- A core starts records at the head of its deque while it has a Free slot, n of them at most (R111). -/
def State.startRecs (s : State) (c : Fin 256) : Nat → State
  | 0 => s
  | n + 1 => match s.freeSlotOf c with
    | some i => (s.startNext i).startRecs c n
    | none => s

/-- The environments that are held, with their partitions. -/
def State.heldEnvs (s : State) : List (Fin 16 × Nat) :=
  (s.slots.filterMap fun e => e.2.ctx.env.map fun n => (s.partNo (coreNo (e.1 / 4)), n)) ++ s.resumeRecs.filterMap fun r => match r.kind with
    | .resume _ (some n) _ => some (r.info.part, n)
    | _ => none

/-- The partitions of environments that a step has freed (R102). -/
def State.freedEnvs (s old : State) : List (Fin 16) :=
  (old.heldEnvs.filter fun e => !s.heldEnvs.contains e).map (·.1)

/-- A step gives a core a record to start: a slot of it has become Free, another record is at the head of its deque (R111), or an environment
of its partition, in `envs`, is free again (R102). -/
def State.mayStart (s old : State) (envs : List (Fin 16)) (c : Fin 256) : Bool :=
  !s.preloadsNext c &&
    (((slotsOf c).any fun i => decide ((s.slotOf i).status = .free) && !decide ((old.slotOf i).status = .free)) ||
      !decide ((s.coreOf c).deque.head? = (old.coreOf c).deque.head?) || envs.contains (s.partNo c))

/-- Cores that a step has given a record to start do so at once, unless a preload claims the slot (R111, R102, R370; log 92). -/
def State.startReady (s old : State) : State :=
  let envs := s.freedEnvs old
  ((s.cores.filter fun k => !k.2.deque.isEmpty).map fun k => coreNo k.1).foldl
    (fun t c => if s.mayStart old envs c then t.startRecs c (t.coreOf c).deque.length else t) s

/-- What follows from what a step has done: journals stand in their areas, domains tell their members, writes and requests that
waited at homes are served, a reset partition starts again, step 3 of a configuration begins, and cores start records. -/
def State.after (s old : State) : State :=
  let s1 := s.writeJournals old s.slots
  let s2 := (List.finRange 16).foldl (fun t p => t.tellDoms old p) s1
  let s3 := s2.settleHeld
  let s4 := s3.serveWaiting s3.pkg.waiting
  let s5 := (List.finRange 16).foldl (fun t p => t.restart p) s4
  s5.noteSaved.startReady old

/-- A cycle passes, and what follows from the step happens. -/
def tickOutcome (old : State) : Host.Outcome State Fault Refusal → Host.Outcome State Fault Refusal
  | .next t => .next ({ t with cycle := t.cycle + 1 }.after old)
  | .fault f => .fault f
  | .refused r => .refused r

/-- One step under a meaning of instructions: the head of the agenda, or the turn of the units. -/
def State.stepWith (run : Instr → State → Host.Outcome State Fault Refusal) (s : State) : Host.Outcome State Fault Refusal :=
  match s.agenda with
  | [] => tickOutcome s (s.carryOut run s.turn)
  | c :: r => tickOutcome s ({ s with agenda := r }.carryOut run c)

/-! ### A program placed by hand (log 6) -/

/-- Where the placed word lies: virtual and physical. -/
def placedPc : Nat := 0x100000

/-- The table of level 1, and that of level 2 after it. -/
def placedRoot : Nat := 0x10000

/-- The words of a valid partition 0 that holds logical quarter 0. -/
def placedDesc : List Word :=
  (List.range 32).map fun k => if k = 0 then word (2 ^ 63 + 1) else if k = 2 then word (2 ^ 32 + 1) else if k = 3 then word placedRoot else 0

/-- One double word of a sealed granule. -/
def placedGran (m : Memory) (pa : Nat) (w : Word) : Memory := m.putGran (pa / 32) (mkGran (w.setWidth 256))

/-- The task that runs the placed word: no caps but the depths of the queues (R22). -/
def placedTaskInfo : TaskInfo :=
  { part := 0
    serial := 0
    scope := 0
    record := List.replicate 8 0
    root := placedRoot
    caps := ⟨32, 8, 8, 8, 1, 1⟩
    quota := 512
    prio := 0
    idem := false
    rerun := false
    node := none
    start := 0 }

/-- Its slot: at task level, Ready at the word, in an environment of its own. -/
def placedSlot : Slot :=
  { Slot.initial with
    status := .ready
    pc := word placedPc
    ctx := { Ctx.none with root := placedRoot, env := some 0, key := envKey 0 0 }
    task := some placedTaskInfo
    quota := 512 }

/-- The word of a page table entry: valid, its fields, and the frame. -/
def placedPte (flags pa : Nat) : Word := word (flags + pa)

/-- A machine whose next step fetches the given word: partition 0 with the identity map of its first 32 MiB, and a task on slot 0 of core 0
at the word. -/
def State.placed (s : State) (w : Nat) : State :=
  let m := placedGran (placedGran (placedGran s.mem placedRoot (placedPte 1 (placedRoot + 0x10000))) (placedRoot + 0x10000) (placedPte 0x1F 0)) placedPc
    (word (w % 2 ^ 32))
  let q : Part := Part.withRoot { Part.initial with desc := placedDesc, spool := 1, lpool := 1 }
  { s with
    agenda := [.core 0]
    cur := ⟨0, 0⟩
    actor := .control
    mem := m
    parts := tput s.parts 0 ({ q with serial := 1, live := [(0, 0)] }.enter 0)
    pkg := { s.pkg with inter := tput s.pkg.inter 0 (word (2 ^ 63)) }
    cores := tput s.cores 0 Core.initial
    slots := tput s.slots 0 placedSlot }

end Sys2Proof.Machine
end

