-- ==== Sys2Proof/Machine/Step.lean ====
section
/-! DEFINITION. One step of the machine, and a word placed where the next step fetches. -/

namespace Sys2Proof.Machine

/-- One step (log 1, log 2). -/
def step (s : State) : Host.Outcome State Fault Refusal :=
  s.stepWith exec

/-- The state with an instruction of `nbits` bits placed where the next step fetches (log 6). -/
def State.withFetchWord (s : State) (_nbits w : Nat) : State :=
  s.placed w

end Sys2Proof.Machine
end

