-- ==== Sys2Proof/Safety.lean ====
section
/-! DEFINITION. What a safe run is, the invariant of the memories, and the terms in which claims say what an instruction changes and
what it leaves. -/

namespace Sys2Proof

/-! ### Words and events -/

/-- The instruction has a word of its own (02 R22 to R40): it is no event of the table, and no word that takes ILLEGAL. -/
def Instr.isWord (i : Instr) : Bool :=
  match i with
  | .illegal _ _ | .allowanceRefill _ | .kill _ | .vFinish _ | .markerApply _ | .agEntry _ _ | .cStart _ | .copyUnit _ _ |
    .cComplete _ _ | .mStart _ | .microStep _ | .mComplete _ | .quiescentPoint _ | .leaseIdleTimeout _ | .ticketServe _ |
    .poolScrub _ | .storePerform _ | .loadBlockFill _ _ _ | .taskStart _ | .resume _ | .taskEnd _ | .graphNodePlace _ | .launchScan _ |
    .periodicWake _ | .wakeWindowEnd _ | .steal _ | .dequeRefill _ | .spillSweep _ | .preload _ | .preloadComplete _ |
    .yieldTimeout _ | .waitSatisfied _ | .awaitReread _ | .barrierLanding _ | .barwaitReturn _ | .asyncDelivery _ | .watchdog _ |
    .preemptBudget _ | .loopDrainTimeout _ | .saveTorn _ | .cfgCtl | .partRun _ | .partStop _ | .partReset _ | .coreRun _ | .dma |
    .logSwap _ | .powerCap _ | .pfRegisterWrite _ _ | .doorbell _ _ | .keyLoad _ _ _ | .keyClear _ _ | .linkCrcError _ _ |
    .falranRequest _ _ _ | .falranData _ _ | .falranResponse _ _ _ | .falranAck _ _ | .falranRetryRequest _ _ | .thermalTrip |
    .clockThrottle _ | .coldReset _ | .spdmRequest _ _ | .wake _ _ | .slotReselect _ | .stallEnd _ | .compaction _ | .segmentEvict _ |
    .configCommit | .cfgTmo | .freshFill _ | .segmentRecall _ | .writeBack _ _ => false
  | _ => true

end Sys2Proof

namespace Sys2Proof.Machine

/-! ### Runs -/

/-- The machine makes k steps without a fault or a refusal. -/
def SafeFor : Nat → State → Prop
  | 0, _ => True
  | k + 1, s => ∃ t, step s = .next t ∧ SafeFor k t

/-- It never stops. -/
def Safe (s : State) : Prop := ∀ k, SafeFor k s

/-- Every byte store of the machine, memory and the segments at their stores, is in its one canonical form. -/
def State.Canonical (s : State) : Prop :=
  s.mem.wf = true ∧ ∀ g ∈ s.segs, g.data.wf = true

/-! ### What an instruction leaves -/

/-- All but the slots is as before, byte by byte too, and of the slots only the current one may differ. -/
def State.RestKept (s t : State) : Prop :=
  t = { s with slots := t.slots } ∧ (∀ i, i ≠ s.cur → t.slotOf i = s.slotOf i) ∧ ∀ a, t.mem.byte a = s.mem.byte a

/-- Of a slot, an instruction that completes changes at most the bank in use, the PC, the counters of slot selection, the mark of its
queued stores that a later instruction has completed, and the answers it has used up; and a transfer of control ends the physical addresses of a
supervisor's start (R379): no special register, frame, descriptor, queue, token or transaction. -/
def Slot.CoreKept (x y : Slot) : Prop :=
  y = { x with bank := y.bank, sup := y.sup, pc := y.pc, sched := y.sched, sq := y.sq, replies := [], bare := y.bare } ∧
    (x.level = .task → y.sup = x.sup) ∧ (x.level ≠ .task → y.bank = x.bank) ∧
    (y.sq = x.sq.map fun q => { q with later := true }) ∧ y.bare = (x.bare && y.pc == nextPc x.pc)

/-- Every register of the bank in use reads as before, but for one, which reads v if it is not g0. -/
def State.OnlyReg (s t : State) (d : Fin 32) (v : Word) : Prop :=
  ∀ r, t.reg r = if r = d ∧ r ≠ 0 then v else s.reg r

/-- The instruction completes: gd := v, the given sticky bits are set, the PC goes on by one word, and nothing else changes. -/
def Computes (i : Instr) (s : State) (d : Fin 32) (v : Word) (f : BitVec 12) : Prop :=
  ∃ t, exec i s = .next t ∧ s.OnlyReg t d v ∧ t.flags = s.flags ||| f ∧ t.pc = nextPc s.pc ∧ s.RestKept t ∧ s.me.CoreKept t.me

/-- The instruction completes and the next one is at PC + 4: no register, flag or other part of the state changes. -/
def Continues (i : Instr) (s : State) : Prop :=
  ∃ t, exec i s = .next t ∧ t.pc = nextPc s.pc ∧ (∀ r, t.reg r = s.reg r) ∧ t.flags = s.flags ∧ s.RestKept t ∧ s.me.CoreKept t.me

/-- The instruction takes a trap of the current slot: the state becomes that of `State.trapMe`, and the instruction has no other effect. -/
def Traps (i : Instr) (s : State) (c : BitVec 8) (t0 t1 t2 t3 : Word) : Prop :=
  exec i s = .next (s.trapMe ⟨c, t0, t1, t2, t3⟩)

/-- A taken control transfer to a (R84): ADDR_SPACE or MISALIGN where the target fails its check; otherwise the PC is a, a link register
holds PC + 4, and nothing else changes but what a transfer does to a loop (R333). -/
def Transfers (i : Instr) (s : State) (a : Word) (link : Option (Fin 32)) : Prop :=
  (bitsOf a 48 16 ≠ 0 → Traps i s 0x04 a 0 0 0) ∧
  (bitsOf a 48 16 = 0 → bitsOf a 0 2 ≠ 0 → Traps i s 0x03 a 0 0 0) ∧
  (bitsOf a 48 16 = 0 → bitsOf a 0 2 = 0 → ∃ t, exec i s = .next t ∧ t.pc = a ∧ t.flags = s.flags ∧
    (match link with
      | some d => s.OnlyReg t d (s.pc + 4)
      | none => ∀ r, t.reg r = s.reg r) ∧
    s.RestKept t ∧ s.me.outOfLoop.CoreKept t.me)

/-- A branch: Transfer(a) where its condition holds, and the next word otherwise. -/
def Branches (i : Instr) (s : State) (c : Prop) (a : Word) : Prop :=
  (c → Transfers i s a none) ∧ (¬ c → Continues i s)

/-! ### Vector words -/

/-- The vector engine issues a word at the head of the current slot's queue (R127, R131): its ports and places are there, its wait token is, and
it takes no fault; then its result and flags are those of the word's lane computation on the operands at its issue, but for a bit of a lane that
the injector hits (R349), its write becomes visible after its latency, and the free values it used are spent. -/
def Issues (i : Instr) (w : VWord) : Prop :=
  ∀ (s : State) (q : QEntry) (y : Slot), s.actor = .vector → s.me.vHead = some q → s.me.placesFor w = true →
    s.me.startTokens .v q.word q.popped = some y →
    let z := match postEng .v q.word with
      | some b => y.unreserve .v b
      | none => y
    (s.setMe z).vCheck s.cur q w = none →
    let r := s.struckLanes s.cur (w.run (y.vIn w y.eng.vec.landDue q.tol s.free))
    exec i s = .next { s.setMe (y.vCommit w q s.cycle r) with free := s.free + r.used }

/-- A next state in which a slot has entered its handler for an asynchronous cause at its boundary. -/
def Delivers (s : State) (i : SlotId) (eng : Nat) (cause : BitVec 8) (post : State → Prop) : Prop :=
  ∃ u, exec (.asyncDelivery i) s = .next u ∧ (u.slotOf i).level = .supervisor ∧ (u.slotOf i).frame.inTrap = true ∧
    (u.slotOf i).frame.plev = (s.slotOf i).level ∧ (u.slotOf i).frame.tepc = (s.slotOf i).pc ∧
    (u.slotOf i).frame.tcause = BitVec.ofNat 11 (1024 + 256 * eng + cause.toNat) ∧
    (u.slotOf i).pc = BitVec.ofNat 64 (((s.slotOf i).frame.tvb.toNat + 64 * cause.toNat) % 2 ^ 48) ∧
    (u.slotOf i).bank = (s.slotOf i).bank ∧ (∀ a, u.mem.byte a = s.mem.byte a) ∧ post u

end Sys2Proof.Machine
end

