-- ==== Sys2Proof/Certificates/Slice0/Obligations.lean ====
section
/-! DEFINITION. The statements for the provers. `Computes`, `Continues`, `Transfers` and `Traps` of Safety.lean say that exec answers a
next state, which, and what it leaves. -/

open Sys2Proof Sys2Proof.Machine

/-! ### Scalar instructions (04) -/

/-- R78 without the divisions and the bit fields: each member completes with its result, no flag, and nothing else changed. R78, CLZ, CTZ
and POPC: the count that the result is. R14 and R78: the divisions with their special cases and their flags, DIVZERO (bit 5) and OVERFLOW
(bit 3). -/
def Obligations.IntegerResults : Prop :=
  (∀ (s : State) (d a b : Fin 32),
     let x := s.reg a
     let y := s.reg b
     let n := y.toNat % 64
     Computes (.add d a b) s d (x + y) 0 ∧ Computes (.sub d a b) s d (x - y) 0 ∧
     Computes (.and d a b) s d (x &&& y) 0 ∧ Computes (.or d a b) s d (x ||| y) 0 ∧
     Computes (.xor d a b) s d (x ^^^ y) 0 ∧ Computes (.andn d a b) s d (x &&& ~~~y) 0 ∧
     Computes (.orn d a b) s d (x ||| ~~~y) 0 ∧ Computes (.sll d a b) s d (x <<< n) 0 ∧
     Computes (.srl d a b) s d (x >>> n) 0 ∧ Computes (.sra d a b) s d (x.sshiftRight n) 0 ∧
     Computes (.mul d a b) s d (BitVec.ofInt 64 (x.toInt * y.toInt)) 0 ∧
     Computes (.mulh d a b) s d (BitVec.ofInt 64 (x.toInt * y.toInt / 2 ^ 64)) 0 ∧
     Computes (.mulhu d a b) s d (BitVec.ofNat 64 (x.toNat * y.toNat / 2 ^ 64)) 0 ∧
     Computes (.slt d a b) s d (if x.toInt < y.toInt then 1 else 0) 0 ∧
     Computes (.sltu d a b) s d (if x.toNat < y.toNat then 1 else 0) 0 ∧
     Computes (.min d a b) s d (BitVec.ofInt 64 (min x.toInt y.toInt)) 0 ∧
     Computes (.max d a b) s d (BitVec.ofInt 64 (max x.toInt y.toInt)) 0 ∧
     Computes (.minu d a b) s d (BitVec.ofNat 64 (min x.toNat y.toNat)) 0 ∧
     Computes (.maxu d a b) s d (BitVec.ofNat 64 (max x.toNat y.toNat)) 0 ∧
     Computes (.rol d a b) s d (x.rotateLeft n) 0 ∧ Computes (.ror d a b) s d (x.rotateRight n) 0) ∧
  (∀ (s : State) (d a : Fin 32),
     let x := s.reg a
     (∀ n ≤ 64, (∀ k < n, x.getLsbD (63 - k) = false) → (n < 64 → x.getLsbD (63 - n) = true) →
       Computes (.clz d a) s d (BitVec.ofNat 64 n) 0) ∧
     (∀ n ≤ 64, (∀ k < n, x.getLsbD k = false) → (n < 64 → x.getLsbD n = true) →
       Computes (.ctz d a) s d (BitVec.ofNat 64 n) 0) ∧
     Computes (.popc d a) s d (BitVec.ofNat 64 ((List.range 64).countP fun k => x.getLsbD k)) 0) ∧
  (∀ (s : State) (d a b : Fin 32),
     let x := s.reg a
     let y := s.reg b
     (y = 0 → Computes (.div d a b) s d (BitVec.allOnes 64) 0x020 ∧ Computes (.divu d a b) s d (BitVec.allOnes 64) 0x020 ∧
       Computes (.rem d a b) s d x 0x020 ∧ Computes (.remu d a b) s d x 0x020) ∧
     (x = BitVec.intMin 64 → y = BitVec.allOnes 64 →
       Computes (.div d a b) s d (BitVec.intMin 64) 0x008 ∧ Computes (.rem d a b) s d 0 0) ∧
     (y ≠ 0 → ¬ (x = BitVec.intMin 64 ∧ y = BitVec.allOnes 64) →
       Computes (.div d a b) s d (BitVec.ofInt 64 (x.toInt.tdiv y.toInt)) 0 ∧
       Computes (.rem d a b) s d (BitVec.ofInt 64 (x.toInt.tmod y.toInt)) 0) ∧
     (y ≠ 0 → Computes (.divu d a b) s d (BitVec.ofNat 64 (x.toNat / y.toNat)) 0 ∧
       Computes (.remu d a b) s d (BitVec.ofNat 64 (x.toNat % y.toNat)) 0))

/-- R79, R78 and R82: SEXT, ZEXT, BEXT, BINS, BEXTI and BINSI, bit by bit. R80, R81 and R83: immediate forms. -/
def Obligations.FieldsAndImmediates : Prop :=
  (∀ (s : State) (d a b : Fin 32) (l p : Fin 64),
     let x := s.reg a
     let n := (s.reg b).toNat % 64
     let m := (s.reg b).toNat / 64 % 64
     (∀ v : Word, (∀ k < 64, v.getLsbD k = x.getLsbD (min k n)) → Computes (.sext d a b) s d v 0) ∧
     (∀ v : Word, (∀ k < 64, v.getLsbD k = (decide (k ≤ n) && x.getLsbD k)) → Computes (.zext d a b) s d v 0) ∧
     (∀ v : Word, (∀ k < 64, v.getLsbD k = (decide (k < m) && decide (n + k < 64) && x.getLsbD (n + k))) →
       Computes (.bext d a b) s d v 0) ∧
     (∀ v : Word, (∀ k < 64, v.getLsbD k = if n ≤ k ∧ k < n + m then x.getLsbD (k - n) else (s.reg d).getLsbD k) →
       Computes (.bins d a b) s d v 0) ∧
     (∀ v : Word, (∀ k < 64, v.getLsbD k = (decide (k < l.val) && decide (p.val + k < 64) && x.getLsbD (p.val + k))) →
       Computes (.bexti d a l p) s d v 0) ∧
     (∀ v : Word, (∀ k < 64, v.getLsbD k = if p.val ≤ k ∧ k < p.val + l.val then x.getLsbD (k - p.val) else (s.reg d).getLsbD k) →
       Computes (.binsi d a l p) s d v 0)) ∧
  (∀ (s : State) (d a : Fin 32) (i : BitVec 14) (n : Fin 64) (u : BitVec 19),
     let x := s.reg a
     let m := BitVec.ofInt 64 i.toInt
     Computes (.addi d a i) s d (x + m) 0 ∧ Computes (.andi d a i) s d (x &&& m) 0 ∧
     Computes (.ori d a i) s d (x ||| m) 0 ∧ Computes (.xori d a i) s d (x ^^^ m) 0 ∧
     Computes (.slti d a i) s d (if x.toInt < i.toInt then 1 else 0) 0 ∧
     Computes (.sltiu d a i) s d (if x.toNat < m.toNat then 1 else 0) 0 ∧
     Computes (.muli d a i) s d (x * m) 0 ∧
     Computes (.slli d a n) s d (x <<< n.val) 0 ∧ Computes (.srli d a n) s d (x >>> n.val) 0 ∧
     Computes (.srai d a n) s d (x.sshiftRight n.val) 0 ∧ Computes (.roli d a n) s d (x.rotateLeft n.val) 0 ∧
     Computes (.lui d u) s d (BitVec.ofInt 64 (u.toInt * 2 ^ 13)) 0 ∧
     Computes (.auipc d u) s d (s.pc + BitVec.ofInt 64 (u.toInt * 2 ^ 13)) 0)

/-- R84 to R88: branches and jumps, taken or not, with the faults of their targets. -/
def Obligations.ControlTransfers : Prop :=
  ∀ (s : State) (d a b : Fin 32) (i : BitVec 14) (k : Fin 64) (h : BitVec 13) (o : BitVec 24),
    let x := s.reg a
    let y := s.reg b
    let t := s.pc + BitVec.ofInt 64 (4 * i.toInt)
    let u := s.pc + BitVec.ofInt 64 (4 * h.toInt)
    let w := s.pc + BitVec.ofInt 64 (4 * o.toInt)
    Branches (.beq a b i) s (x = y) t ∧ Branches (.bne a b i) s (x ≠ y) t ∧
    Branches (.blt a b i) s (x.toInt < y.toInt) t ∧ Branches (.bge a b i) s (x.toInt ≥ y.toInt) t ∧
    Branches (.bltu a b i) s (x.toNat < y.toNat) t ∧ Branches (.bgeu a b i) s (x.toNat ≥ y.toNat) t ∧
    Branches (.bbs a k h) s (x.getLsbD k.val = true) u ∧ Branches (.bbc a k h) s (x.getLsbD k.val = false) u ∧
    Transfers (.j o) s w none ∧ Transfers (.jal o) s w (some 31) ∧
    Transfers (.jalr d a i) s (x + BitVec.ofInt 64 i.toInt) (some d)

/-- R8: the word after PC, where the sum stays in the 48 bits of an address. That bits 63:48 stay zero past the top is the model's choice
(log 22). What the completion of an instruction with a result is: the bank in use, the PC and the counters of the slot change, and nothing
else. The statements below whose conclusion is a `result` or a `retire` have this frame. -/
def Obligations.ResultFrame : Prop :=
  (∀ p : Word, p.toNat + 4 < 2 ^ 48 → nextPc p = p + 4) ∧
  (∀ (s : State) (d : Fin 32) (v : Word),
     s.OnlyReg (s.result d v) d v ∧ (s.result d v).flags = s.flags ∧ (s.result d v).pc = nextPc s.pc ∧ s.RestKept (s.result d v) ∧
       s.me.CoreKept (s.result d v).me ∧
     (∀ r, s.retire.reg r = s.reg r) ∧ s.retire.flags = s.flags ∧ s.retire.pc = nextPc s.pc ∧ s.RestKept s.retire ∧
       s.me.CoreKept s.retire.me)

/-- R6: g0 reads as zero whatever is written to it, and a write to another register is what that register then reads. -/
def Obligations.RegisterZero : Prop :=
  ∀ (s : State) (r d : Fin 32) (v : Word),
    s.reg 0 = 0 ∧ (s.setReg 0 v).reg r = s.reg r ∧ (d ≠ 0 → (s.setReg d v).reg d = v) ∧ (r ≠ d → (s.setReg d v).reg r = s.reg r)

/-- R89 to R92: scalar FP32 on the low 32 bits of registers; one rounding of the exact value under FLAGS.RM (code 5 as RNE), flags of that
rounding, upper half zero. -/
def Obligations.ScalarFp : Prop :=
  ∀ (s : State) (d a b : Fin 32) (p : Fin 8) (k : Fin 16),
    let m := if bitsOf s.flags 8 3 = 5 then 0 else bitsOf s.flags 8 3
    let v := fun (r : Fin 32) => (fp32.value (bitsOf (s.reg r) 0 32)).exact
    let r := fun (x : Exact) (i : Instr) =>
      Computes i s d (BitVec.ofNat 64 (fp32.round m 0 true x).1) ((fp32.round m 0 true x).2.setWidth 12)
    r ((v a).add m (v b)) (.fadd d a b) ∧ r ((v a).add m (v b).neg) (.fsub d a b) ∧ r ((v a).mul (v b)) (.fmul d a b) ∧
    r (Exact.fma m (v d) (v a) (v b)) (.ffma d a b) ∧
    Computes (.fmin d a b) s d (BitVec.ofNat 64 (minMax32 true (bitsOf (s.reg a) 0 32) (bitsOf (s.reg b) 0 32))) 0 ∧
    Computes (.fmax d a b) s d (BitVec.ofNat 64 (minMax32 false (bitsOf (s.reg a) 0 32) (bitsOf (s.reg b) 0 32))) 0 ∧
    (let c := fpCompare p.val (bitsOf (s.reg a) 0 32) (bitsOf (s.reg b) 0 32)
     Computes (.fcmp d a b p) s d (if c.1 then 1 else 0) (c.2.setWidth 12)) ∧
    (let c := fpConvert k.val m (s.reg a)
     Computes (.fcvt d a k) s d c.1 (c.2.setWidth 12))

/-! ### Loads, stores and atomics (04 R93, R94; 10 R222 to R235) -/

/-- R93, R222: LD and LD.S complete with the loaded bytes extended, wherever the access is answered; LD.S.acq is then an acquire at .sys,
which a transaction leaves out (R232). R93: a value of n bytes is taken whole at size D, zero-extended with zx, and sign-extended otherwise.
-/
def Obligations.LoadsComplete : Prop :=
  (∀ (s t : State) (d a : Fin 32) (sz o : Fin 4) (z : Bool) (i : BitVec 11) (j : BitVec 9) (v : Word),
     (loadOp (s.reg a + BitVec.ofInt 64 i.toInt) (2 ^ sz.val) false s = .ok (v, t) →
       exec (.ld d a sz z i) s = .next (t.result d (extendLoad v sz z))) ∧
     (loadOp (s.reg a + BitVec.ofInt 64 j.toInt) (2 ^ sz.val) true s = .ok (v, t) →
       exec (.ldS d a sz z o j) s =
         .next ((if o = 1 ∧ s.me.tx = none then t.acquire t.cur 5 t.me.binds.last else t).result d (extendLoad v sz z)))) ∧
  (∀ (v : Word) (sz : Fin 4) (z : Bool), v.toNat < 2 ^ (8 * 2 ^ sz.val) →
     ∀ k < 64, (extendLoad v sz z).getLsbD k =
       if k < 8 * 2 ^ sz.val then v.getLsbD k else (!z && decide (sz ≠ 3) && v.getLsbD (8 * 2 ^ sz.val - 1)))

/-- R16, R166, R195, R207: a load through a pointer that names a segment of the slot, once it is admitted, is answered from the segment's
bytes, lowest address lowest, if no store of the slot to that granule waits; a seal that does not match, or poison, traps with the granule's
pointer, and what the access has logged, and brought into caches, stays (R188). The granule is as it is at the point at which the load binds
(log 96): as it is now, or as a write that the load may come before found it. R16, R166, R199: a load of local memory. A strong load and one
through window 0x2 is answered at the home, after the line has left the L1, as its granule is at the point at which the load binds (log 96);
one through window 0x0 or 0x4 is answered by the L1, which takes the line from the home where it does not hold it. -/
def Obligations.LoadedGranule : Prop :=
  (∀ (s t : State) (p : Word) (n off : Nat) (g : SegId) (strong : Bool),
     s.me.tx = none → t.me.tx = none → t.cur = s.cur → s.decodePtr s.cur p n = .ok (.seg g off) →
     s.admitSet s.cur (.control s.cur) [g] [p] (tinfo2 n .load) false = .go t → t.isLocked (.seg g (off / 32)) = false →
     (∀ q ∈ t.me.sq, q.loc ≠ .seg g (off / 32)) → byteMask (off % 32) n ≠ 0 →
     let l := Loc.seg g (off / 32)
     let u := t.storeErrors g (off / 32)
     let b := u.bindAt [l] (u.bindFloor u.cur l)
     let x := u.versionAt l b.1 (t.segGran g (off / 32))
     (x = t.segGran g (off / 32) ∨ ∃ e ∈ t.past, e.loc = l ∧ u.bindFloor u.cur l ≤ e.cycle ∧ x = e.gran) ∧
     (checkGran x = none →
       loadOp p n strong s = .ok (takeAt x.data (off % 32) n, b.2.setMe (b.2.me.bound (u.homeOf l) b.1))) ∧
     (∀ c e, checkGran x = some (c, e) →
       let z := b.2.setMe (b.2.me.bound (u.homeOf l) b.1)
       loadOp p n strong s = .error (.become (z.consumedMe x.inj ⟨c, p &&& ~~~(31 : Word), e, tinfo2 n .load, 0⟩)))) ∧
  (∀ (s : State) (p : Word) (n va w : Nat) (g : Page) (strong : Bool),
     s.me.tx = none → s.decodePtr s.cur p n = .ok (.glob w va) →
     s.translate s.cur.core (s.partNo s.cur.core) (s.rootOf s.cur) va .load = .ok g → g.rem = false →
     s.me.sq = [] → byteMask (g.pa % 32) n ≠ 0 →
     let t := s.tlbNote s.cur.core (s.partNo s.cur.core) (s.rootOf s.cur) va g
     let k := g.pa / 32
     let l := Loc.phys k
     t.blockPending s.cur.core (k / 4) = false → t.isLocked l = false →
     (strong = true ∨ w = 2 →
       let u := (t.evictLine s.cur.core (k / 4)).corrected s.cur.core g.use.part k
       let b := u.bindAt [l] (u.bindFloor s.cur l)
       let x := u.versionAt l b.1 (u.homeGran g.use.part g.use.key k)
       (x = u.homeGran g.use.part g.use.key k ∨ ∃ e ∈ u.past, e.loc = l ∧ u.bindFloor s.cur l ≤ e.cycle ∧ x = e.gran) ∧
       (checkGran x = none →
         loadOp p n strong s = .ok (takeAt x.data (g.pa % 32) n, b.2.setMe (b.2.me.bound (u.homeOf l) b.1))) ∧
       (∀ c e, checkGran x = some (c, e) →
         let z := b.2.setMe (b.2.me.bound (u.homeOf l) b.1)
         loadOp p n strong s = .error (.become (z.consumedMe x.inj ⟨c, p &&& ~~~(31 : Word), e, tinfo2 n .load, 0⟩)))) ∧
     (strong = false → w = 0 ∨ w = 4 → (∀ y ∈ lineLocs (k / 4), t.isLocked y = false) → ∃ f, fillOp g.use k t = .ok ((), f) ∧
       (t.l1Line s.cur.core (k / 4) ≠ none → f.mem = t.mem ∧ f.l1Line s.cur.core (k / 4) = t.l1Line s.cur.core (k / 4)) ∧
       (t.l1Line s.cur.core (k / 4) = none → ∃ z, f.l1Line s.cur.core (k / 4) = some z ∧
         (∀ i ∈ slotsOf s.cur.core, ∀ y ∈ lineLocs (k / 4), t.bindFloor i y ≤ z.filled) ∧
         tget 0 (t.coreOf s.cur.core).floors (k / 4) ≤ z.filled) ∧
       let u := f.l1Errors s.cur.core g.use.part k
       let x := u.l1Gran s.cur.core k
       (checkGran x = none → loadOp p n strong s = .ok (takeAt x.data (g.pa % 32) n, u)) ∧
       (∀ c e, checkGran x = some (c, e) →
         loadOp p n strong s = .error (.become (u.consumedMe x.inj ⟨c, p &&& ~~~(31 : Word), e, tinfo2 n .load, 0⟩)))))

/-- R94, R206, R222: a store that its checks let through is queued with the place that `locate` computes for its pointer, and the
instruction completes; ST.S.rel is a release at .sys first. Inside a transaction the store joins the write set (R232). R206: issuing a store
writes no byte of memory and no register: the request joins the slot's queue, after those that wait. -/
def Obligations.StoresComplete : Prop :=
  (∀ (s r u w : State) (b a : Fin 32) (sz o : Fin 4) (i : BitVec 11) (j : BitVec 9) (t : Target) (x : Tx),
     let p := s.reg a + BitVec.ofInt 64 i.toInt
     let q := s.reg a + BitVec.ofInt 64 j.toInt
     (locate p (2 ^ sz.val) .store s = .ok (t, u) → u.me.tx = none →
       exec (.st b a sz i) s = .next (u.issueStore (storeReq t (2 ^ sz.val) false p u.pc (s.reg b)))) ∧
     (locate p (2 ^ sz.val) .store s = .ok (t, u) → u.me.tx = some x → txStore x t (2 ^ sz.val) p (s.reg b) u = .ok ((), w) →
       exec (.st b a sz i) s = .next w.retire) ∧
     ((if o = 2 ∧ s.me.tx = none then releaseOp 5 s else .ok ((), s)) = .ok ((), r) →
       locate q (2 ^ sz.val) .store r = .ok (t, u) → u.me.tx = none →
       exec (.stS b a sz o j) s = .next (u.issueStore (storeReq t (2 ^ sz.val) true q u.pc (s.reg b)))) ∧
     (s.me.tx.isSome = true → locate q (2 ^ sz.val) .store s = .ok (t, u) → u.me.tx = some x →
       txStore x t (2 ^ sz.val) q (s.reg b) u = .ok ((), w) → exec (.stS b a sz o j) s = .next w.retire)) ∧
  (∀ (s : State) (q : StoreReq),
     let t := s.issueStore q
     (∀ r, t.reg r = s.reg r) ∧ t.flags = s.flags ∧ t.pc = nextPc s.pc ∧ s.RestKept t ∧
       t.me.sq = (s.me.sq.map fun x => { x with later := true }) ++ [q] ∧ s.me.CoreKept { t.me with sq := t.me.sq.dropLast })

/-- R206, R167, R191: STORE_PERFORM of the only store that a slot with a task has queued, to local memory outside the L1, in a region of the
partition, at a home that no commit has locked, without a key and a dirty log, and with its operand's check code as it was sent. The stored
bytes are the size's from the request's offset in its granule; every other byte of memory is as before, and the granule carries a fresh
seal. -/
def Obligations.StorePerformed : Prop :=
  ∀ (s : State) (i : SlotId) (q : StoreReq) (n : Nat),
    (s.slotOf i).sq = [q] → q.sent = none → q.loc = .phys n → q.cached = false → s.l1Line i.core (n / 4) = none →
    s.isLocked q.loc = false → (s.slotOf i).task.isSome = true → (∀ c, q.crc = some c → crc32c (natBytes q.size q.data.toNat) = c) →
    physOf (32 * n) ≠ .hole → (physOf (32 * n) = .hbm → s.regionOk (s.partNo i.core) (32 * n) = true) →
    s.keyOf (s.partNo i.core) (some q.key) (32 * n) = none → (s.partOf (s.partNo i.core)).logMode = 0 →
    checkGran ((s.evictLine i.core (n / 4)).homeGran (s.partNo i.core) (some q.key) n) = none →
    (s.dieOf (s.homeDie (32 * n))).injcfg = 0 → q.off + q.size ≤ 32 → q.size ≤ 8 →
    ∃ t, exec (.storePerform i) s = .next t ∧ (t.slotOf i).sq = [] ∧
      (∀ k < q.size, t.mem.byte (32 * n + q.off + k) = q.data.extractLsb' (8 * k) 8) ∧
      (∀ a, ¬ (32 * n + q.off ≤ a ∧ a < 32 * n + q.off + q.size) → t.mem.byte a = s.mem.byte a) ∧
      t.mem.sealAt n = sealOf (t.mem.gran n).data ∧ (∀ r, t.reg r = s.reg r)

/-- R224, R209: ATOM and CAS complete with the old value; release before and acquire after as the order says. The new value of each
operation is that of Table 3, and CAS writes only where the old value is gd. R191, R224: the read-check-modify-seal of an atomic at its
home, in local memory or, through window 0x8 or 0x9, in a segment: the old word is answered, and where there is a new one the granule is
written with it in place and a fresh seal; a granule that fails its check traps with TINFO3 = 1, and an operand that does not match its
check code with TINFO3 = 2, and neither is written. The errors of the array on the way are logged (log 94). At a home on another device the
request carries the operand and its check code, and the home's answer gives the old word, or the trap of a granule or an operand that fails
there (R222; the answer's form: log 53). -/
def Obligations.AtomicsComplete : Prop :=
  (∀ (s t : State) (d a b : Fin 32) (sc : Fin 8) (o : Fin 4) (p : Fin 16) (v : Word), s.me.tx = none →
     (ordered o sc.val (atomicOp (s.reg a) (s.reg b) (fun x old => some (atomValue p.val old x))
         fun w crc => .atom p (Fin.ofNat 4 (bitsOf (s.reg a) 3 2)) w 0 crc) s = .ok (v, t) →
       exec (.atom d a b sc o p) s = .next (t.result d v)) ∧
     (ordered o sc.val (atomicOp (s.reg a) (s.reg b) (fun x old => if old = s.reg d then some x else none)
         fun w crc => .atom 15 (Fin.ofNat 4 (bitsOf (s.reg a) 3 2)) w (s.reg d) crc) s = .ok (v, t) →
       exec (.cas d a b sc o) s = .next (t.result d v)) ∧
     (let x := s.reg b
      atomValue 0 v x = v + x ∧ atomValue 1 v x = v &&& x ∧ atomValue 2 v x = v ||| x ∧ atomValue 3 v x = v ^^^ x ∧
      atomValue 4 v x = BitVec.ofInt 64 (min v.toInt x.toInt) ∧ atomValue 5 v x = BitVec.ofInt 64 (max v.toInt x.toInt) ∧
      atomValue 6 v x = BitVec.ofNat 64 (min v.toNat x.toNat) ∧ atomValue 7 v x = BitVec.ofNat 64 (max v.toNat x.toNat) ∧
      atomValue 8 v x = x)) ∧
  (∀ (s : State) (p b : Word) (f : Word → Word → Option Word) (rop : Word → BitVec 32 → RemoteOp), s.me.sq = [] →
     let ends := fun (y : State) (x : Granule) (o : Nat) (put : Granule → State → State) =>
       let old := takeAt x.data o 8
       let v := b ^^^ y.strike
       let z := { y with strike := 0 }
       let e := operandFault (natBytes 8 v.toNat) (some (crc32c (natBytes 8 b.toNat)))
       (∀ c e, checkGran x = some (c, e) →
         atomicOp p b f rop s = .error (.become (y.consumedMe x.inj ⟨c, p &&& ~~~(31 : Word), e, tinfo2 8 .atomic, 1⟩))) ∧
       (∀ g, checkGran x = none → e = some g →
         atomicOp p b f rop s = .error (.become (z.trapMe ⟨0x0C, p &&& ~~~(31 : Word), g.t1, tinfo2 8 .atomic, 2⟩))) ∧
       (checkGran x = none → e = none → f v old = none → atomicOp p b f rop s = .ok (old, z)) ∧
       (∀ w, checkGran x = none → e = none → f v old = some w →
         atomicOp p b f rop s = .ok (old, put (mkGran (mergeBytes x.data (placeAt w o) (byteMask o 8))) z)) ∧
       (y.strike = 0 → v = b ∧ e = none)
     (∀ (va w : Nat) (g : Page), s.decodePtr s.cur p 8 = .ok (.glob w va) →
       s.translate s.cur.core (s.partNo s.cur.core) (s.rootOf s.cur) va .atomic = .ok g → g.rem = false →
       let t := s.tlbNote s.cur.core (s.partNo s.cur.core) (s.rootOf s.cur) va g
       let k := g.pa / 32
       t.blockPending s.cur.core (k / 4) = false → t.isLocked (.phys k) = false →
       let u := (t.evictLine s.cur.core (k / 4)).corrected s.cur.core g.use.part k
       let y := u.setMe (u.me.bound (u.homeOf (.phys k)) u.now)
       ends y (y.homeGran g.use.part g.use.key k) (g.pa % 32) fun n z =>
         (z.homePut g.use.part g.use.key g.use.dlog k n).writtenBy (.phys k) (some z.cur) none) ∧
     (∀ (t : State) (g : SegId) (off : Nat), s.decodePtr s.cur p 8 = .ok (.seg g off) →
       s.admitSet s.cur (.control s.cur) [g] [p] (tinfo2 8 .atomic) false = .go t → t.me.sq = [] →
       let k := off / 32
       t.isLocked (.seg g k) = false →
       ends ((t.storeErrors g k).setMe (t.me.bound (t.homeOf (.seg g k)) t.now)) (t.segGran g k) (off % 32) fun n z =>
         (z.segPut g k n).writtenBy (.seg g k) (some z.cur) none) ∧
     (∀ (va w : Nat) (g : Page) (e : Nat × Reply), s.decodePtr s.cur p 8 = .ok (.glob w va) →
       s.translate s.cur.core (s.partNo s.cur.core) (s.rootOf s.cur) va .atomic = .ok g → g.rem = true →
       let t := s.tlbNote s.cur.core (s.partNo s.cur.core) (s.rootOf s.cur) va g
       let q := rop (b ^^^ s.strike) (crc32c (natBytes 8 b.toNat))
       t.me.replies.find? (fun e => e.1 == replyKey g.dev (g.pa / 32 * 32) q) = some e →
       let a := e.2
       let z := t.setMe (t.me.bound (t.homeOf (.far g.dev 0)) t.now)
       (a.code = 2 → atomicOp p b f rop s =
         .error (.become (z.consumedMe a.g.inj ⟨0x0C, p &&& ~~~(31 : Word), word (bitsOf a.g.data 0 64), tinfo2 8 .atomic, 2⟩))) ∧
       (∀ c h, a.code ≠ 2 → checkGran a.g = some (c, h) →
         atomicOp p b f rop s = .error (.become (z.consumedMe a.g.inj ⟨c, p &&& ~~~(31 : Word), h, tinfo2 8 .atomic, 1⟩))) ∧
       (a.code ≠ 2 → checkGran a.g = none → ∃ u, atomicOp p b f rop s = .ok (takeAt a.g.data (g.pa % 32) 8, u) ∧ u.mem = s.mem)))

/-- R225, R210: MARK and the fences complete when their queue effects are done, with every request of the slot to another device answered;
after an acquire no later load binds before the point it names. R210: a release leaves no store of the slot that has not been performed or
sent to its home, and no request of it unanswered (a sent store leaves the queue with its answer), and beyond the core no line in the core's
dirty FIFO. An acquire beyond the core leaves no clean granule in the core's L1: that a partly dirty line loses its clean granules too is
the model's reading of R210 and R212 (log 98). -/
def Obligations.FencesComplete : Prop :=
  (∀ (s u : State) (c : Fin 8), s.me.tx = none →
     (drainOp s = .ok ((), u) → u.unanswered u.cur = none → exec .mark s = .next (u.setMe (u.me.loadsFrom u.now)).retire) ∧
     (releaseOp c.val s = .ok ((), u) → exec (.fenceRel c) s = .next (u.setMe (u.me.loadsFrom u.now)).retire) ∧
     exec (.fenceAcq c) s = .next (s.acquire s.cur c.val s.me.latestBind).retire ∧
     (releaseOp c.val s = .ok ((), u) → exec (.fenceAr c) s = .next (u.acquire u.cur c.val u.now).retire)) ∧
  (∀ (s t : State) (c n : Nat),
     (releaseOp c s = .ok ((), t) →
       t.cur = s.cur ∧ (∀ q ∈ t.me.sq, q.sent ≠ none) ∧ t.unanswered t.cur = none ∧ (1 ≤ c → (t.coreOf t.cur.core).fifo = [])) ∧
     (1 ≤ c → ∀ l ∈ ((s.acquire s.cur c n).coreOf s.cur.core).l1, ∀ x ∈ l.grans, x.dirty = true))

/-- R226 to R228: load blocks: a declared block and its lines, REFUSED past the limits; release and wait of a handle, EMPTY (5) of one that
is not declared. -/
def Obligations.LoadBlocks : Prop :=
  ∀ (s u : State) (d a : Fin 32) (h : Fin 16) (n : Fin 64) (va w va2 w2 : Nat) (ls : List (Nat × Fin 16)), s.me.tx = none →
    let p := s.reg a
    (bitsOf p 60 4 = 0 ∨ bitsOf p 60 4 = 4 → s.decodePtr s.cur p 1 = .ok (.glob w va) →
      s.decodePtr s.cur (p + word (128 * (n.val + 1) - 1)) 1 = .ok (.glob w2 va2) → p.toNat % 128 = 0 →
      blockLines p va (n.val + 1) s = .ok (some ls, u) →
      (blockFits (s.otherLines s.cur h.val) (ls.map (·.1)) = true →
        exec (.lblk d a h n) s = .next (((u.evictBlock u.cur h.val).declareBlock u.cur h.val p ls).result d 0)) ∧
      (blockFits (s.otherLines s.cur h.val) (ls.map (·.1)) = false → exec (.lblk d a h n) s = .next (u.result d 3))) ∧
    (thas s.me.blocks h.val = true → exec (.lblkRel d h) s = .next ((s.evictBlock s.cur h.val).result d 0)) ∧
    (thas s.me.blocks h.val = false → exec (.lblkRel d h) s = .next (s.result d 5) ∧ exec (.blkwait d h) s = .next (s.result d 5)) ∧
    (∀ b, s.me.blocks.find? (fun b => b.1 == h.val) = some b →
      (b.2.flag = true → exec (.blkwait d h) s = .next (s.result d 0)) ∧
      (b.2.flag = false → exec (.blkwait d h) s = .next (s.stallMe (.blkwait h.val))))

/-- R229, R230: PSPACE and PCAST trap nothing and read no memory; PCAST gives the cause of the first failing check at the first byte, and
where that is none and gb is not 0, at the last. -/
def Obligations.PointerInspection : Prop :=
  ∀ (s : State) (d a b : Fin 32),
    Computes (.pspace d a) s d (s.pspace s.cur (s.reg a)) 0 ∧
    (∀ c t, s.decodePtr s.cur (s.reg a) 1 = .error (c, t) → Computes (.pcast d a b) s d (c.setWidth 64) 0) ∧
    (∀ x, s.decodePtr s.cur (s.reg a) 1 = .ok x →
      (s.reg b = 0 → Computes (.pcast d a b) s d 0 0) ∧
      (∀ c t, s.reg b ≠ 0 → s.decodePtr s.cur (s.reg a + s.reg b - 1) 1 = .error (c, t) →
        Computes (.pcast d a b) s d (c.setWidth 64) 0) ∧
      (∀ y, s.reg b ≠ 0 → s.decodePtr s.cur (s.reg a + s.reg b - 1) 1 = .ok y → Computes (.pcast d a b) s d 0 0)) ∧
    bitsOf (s.pspace s.cur (s.reg a)) 0 4 = bitsOf (s.reg a) 60 4

/-- R218, R231 to R235: TXB opens a transaction with a copy of the bank; TXE outside one is REFUSED. Of one whose granules are all on this
device, once no other commit holds one of them and the dirty lines over them are written back: a conflict ends it with code 1; otherwise,
with the segments of its write set admitted (log 102) and every granule checked, it writes the whole write set, and a granule that fails
traps. TXA restores the bank with code 5 and its argument, and outside does nothing. -/
def Obligations.Transactions : Prop :=
  ∀ (s u v w : State) (d a : Fin 32) (x0 x : Tx) (l : List (TxWrite × Granule)),
    (s.me.tx = none →
      exec (.txb d) s = .next ((s.setMe { s.me with tx := some ⟨nextPc s.pc, d, s.me.active, [], [], false, .idle⟩ }).result d 0) ∧
      exec (.txe d) s = .next (s.result d 3) ∧ Continues (.txa a) s) ∧
    (s.me.tx = some x0 → x0.commit = .idle → releaseOp 5 s = .ok ((), u) → u.me.tx = some x → (∀ l ∈ u.txLocs x, l.isHere = true) →
      (∀ l ∈ u.txLocs x, u.isLocked l = false) →
      let y := u.evictLocs (u.txLocs x)
      let z := y.me.tx.any (·.conflict)
      (z = true → exec (.txe d) s = .next ((y.setMe { y.me with tx := none }).result d 0x0101)) ∧
      (z = false → txAdmit x.writes y = .ok ((), w) →
        (w.txPrepare x.writes = .ok (v, l) → exec (.txe d) s = .next ((v.txWriteAll l).txDone d)) ∧
        (∀ e f, w.txPrepare x.writes = .error (e, f) → exec (.txe d) s =
          .next (({ (w.txOld e).1 with strike := 0 }).consumedMe f.inj ⟨f.cause, e.ptr, f.t1, 16, word f.code⟩)))) ∧
    (v.txDone d).me.tx = none ∧
    (s.me.tx = some x → ∃ t, exec (.txa a) s = .next t ∧ t.me.tx = none ∧ t.pc = x.resume ∧
      (∀ r, t.reg r = if r = x.dst ∧ r ≠ 0 then BitVec.ofNat 64 (0x501 + 2 ^ 16 * bitsOf (s.reg a) 0 8) else x.bank.get r) ∧
      t.flags = x.bank.flags ∧ s.RestKept t)

/-- R203, R204, R236: the page pool: the head of the scrubbed list is given out, PGALLOC waits where there is none and PGALLOC.NB answers
EMPTY (5); a page of the pool that is given back joins the scrub queue. That a request which waits keeps its place, and that a page before
whose place earlier requests wait is not for a later one, so that PGALLOC.NB answers EMPTY and PGALLOC waits though pages are scrubbed, is
the model's choice (log 114). So is that the pool is built from its control block at its first use (log 31), once that block is read where
it stands on another device. -/
def Obligations.PagePool : Prop :=
  ∀ (s t : State) (d a : Fin 32) (v : Word) (k : Pool), s.me.tx = none →
    let p := s.partNo s.cur.core
    let u := s.withPool p
    ((u.partOf p).pool = some k →
      (k.scrubbed[u.poolPlace k u.cur]? = none → u.poolTake p = none) ∧
      (∀ n, k.scrubbed[u.poolPlace k u.cur]? = some n → u.scrubbing p k n = false →
        ∃ z, u.poolTake p = some (word (k.base + n * 2 ^ k.lg), z)) ∧
      (∀ l₁ l₂, u.poolQueue k = l₁ ++ u.poolRequest u.cur :: l₂ → u.poolRequest u.cur ∉ l₁ → u.poolPlace k u.cur = l₁.length) ∧
      (u.poolRequest u.cur ∉ u.poolQueue k → u.poolPlace k u.cur = (u.poolQueue k).length)) ∧
    (s.poolWants p = [] →
      ((u.partOf (u.partNo u.cur.core)).pool.isSome = true → u.poolTake (u.partNo u.cur.core) = some (v, t) →
        exec (.pgalloc d) s = .next (t.result d v) ∧ exec (.pgallocNb d) s = .next (t.result d v)) ∧
      ((u.partOf (u.partNo u.cur.core)).pool.isSome = true → u.poolTake (u.partNo u.cur.core) = none →
        exec (.pgalloc d) s = .next ((u.poolJoin (u.partNo u.cur.core)).stallMe .pool) ∧ exec (.pgallocNb d) s = .next (u.result d 5)) ∧
      ((u.partOf (u.partNo u.cur.core)).pool = none →
        exec (.pgalloc d) s = .next (u.result d 3) ∧ exec (.pgallocNb d) s = .next (u.result d 3))) ∧
    (∀ r, releaseOp 5 s = .ok ((), r) → r.poolWants p = [] →
      let w := r.withPool (r.partNo r.cur.core)
      let q := w.partNo w.cur.core
      (w.partOf q).pool = some k → ∀ n, k.pageOf (w.reg a) = some n → k.allocated.contains n = true →
        exec (.pgfree d a) s = .next (((w.devBit q (w.partOf q).root k.map n false).mapPool q fun k =>
          { k with allocated := k.allocated.filter (· != n), scrubQ := k.scrubQ ++ [n] }).result d 0))

/-! ### Segments (10 R237 to R245) -/

/-- R237: without a segment operand the segment instructions are REFUSED, and SGINFO answers all ones; SGPIN withdraws a ticket it has. R239
to R242: of a segment operand: SGFREE removes an unpinned one; SGPIN sets its pin once its ticket is served, and is refused where its ticket
failed, and leaves no ticket; SGUNPIN clears it; SGPREF always answers 0; SGINFO reads its state. -/
def Obligations.SegmentControl : Prop :=
  (∀ (s : State) (d a : Fin 32), s.me.tx = none → s.segOperand s.cur (s.reg a) = none →
     Computes (.sgfree d a) s d 3 0 ∧ exec (.sgpin d a) s = .next (s.pinResult d 3) ∧ Computes (.sgunpin d a) s d 3 0 ∧
     Computes (.sgpref d a) s d 3 0 ∧ Computes (.sginfo d a) s d (BitVec.allOnes 64) 0) ∧
  (∀ (s t : State) (d a : Fin 32) (g : Seg) (v : Word), s.me.tx = none → s.segOperand s.cur (s.reg a) = some g →
     s.segOf g.id = some g →
     (s.me.sq = [] → g.pins = 0 → g.copyPins = 0 → s.storesTo g.id = false →
       exec (.sgfree d a) s = .next (({ s with segs := s.segs.filter fun h => h.id ≠ g.id }).result d 0)) ∧
     (s.me.sq = [] → 0 < g.pins ∨ 0 < g.copyPins → exec (.sgfree d a) s = .next (s.stallMe (.segmentPins (some g.id)))) ∧
     (g.sgpin = true → exec (.sgpin d a) s = .next (s.pinResult d 0) ∧
       exec (.sgunpin d a) s = .next ((s.mapSeg g.id fun g => { g with sgpin := false }).result d 0)) ∧
     (g.sgpin = false → Computes (.sgunpin d a) s d 3 0 ∧
       (s.me.refused = false → s.admitSet s.cur (.control s.cur) [g.id] [s.reg a] 0 true = .go t →
         exec (.sgpin d a) s = .next ((t.mapSeg g.id fun g => { g with sgpin := true }).pinResult d 0)) ∧
       (s.me.refused = true → exec (.sgpin d a) s = .next (s.pinResult d 3))) ∧
     (let u := s.pinResult d v
      s.OnlyReg u d v ∧ u.pc = nextPc s.pc ∧ u.me.refused = false ∧ u.flags = s.flags ∧ u.segs = s.segs ∧ u.mem = s.mem ∧
        ∀ k, s.ticketOf (.control s.cur) = some k → ∀ x ∈ u.tickets, x.num ≠ k.num) ∧
     exec (.sgpref d a) s = .next ((s.prefetch g id).result d 0) ∧
     Computes (.sginfo d a) s d (s.segInfo s.cur g) 0 ∧
     bitsOf (s.segInfo s.cur g) 0 4 = g.k % 16)

/-- R238, R15: SGNEW and SGNEW.CL of a size of 4 KiB x 2^k within the quota allot the lowest free name of the name space and give the
pointer to the new Fresh segment; any other size, a size past the quota, and a full name space are REFUSED. R243 to R245: SGQUOTA sets a
quota in range and shrinks the charged frames to it; SGSCHED loads a schedule, selects a phase, and clears; a malformed schedule, a phase it
does not have, and a selection without a schedule are REFUSED. -/
def Obligations.SegmentAllocation : Prop :=
  (∀ (s : State) (d a : Fin 32), s.me.tx = none →
     let own := Space.task s.me.ctx.key
     let shared := Space.cluster (clusterOfCore s.cur.core)
     (∀ (k : Nat) (n : Fin 4096), (s.reg a).toNat = 4096 * 2 ^ k → k ≤ 8 →
       (s.freeName own = some n → 2 ^ k ≤ s.me.quota →
         exec (.sgnew d a) s = .next ((s.addSeg (s.newSeg s.cur false n k)).result d
           (word (2 ^ 63 + s.cur.core.val * 2 ^ 52 + n.val * 2 ^ 40))) ∧
         (s.newSeg s.cur false n k).state = .fresh ∧ (s.newSeg s.cur false n k).creator = s.me.ctx.key ∧
         (∀ m < n, ∃ g ∈ s.segs, g.id = ⟨own, m⟩) ∧ ∀ g ∈ s.segs, g.id ≠ ⟨own, n⟩) ∧
       (s.freeName shared = some n → 2 ^ k ≤ s.me.quota →
         exec (.sgnewCl d a) s = .next ((s.addSeg (s.newSeg s.cur true n k)).result d
           (word (9 * 2 ^ 60 + s.cur.core.val / 4 * 2 ^ 52 + n.val * 2 ^ 40)))) ∧
       (s.me.quota < 2 ^ k → Computes (.sgnew d a) s d 3 0 ∧ Computes (.sgnewCl d a) s d 3 0)) ∧
     ((∀ k ≤ 8, (s.reg a).toNat ≠ 4096 * 2 ^ k) → Computes (.sgnew d a) s d 3 0 ∧ Computes (.sgnewCl d a) s d 3 0) ∧
     (s.freeName own = none → Computes (.sgnew d a) s d 3 0 ∧ ∀ n, ∃ g ∈ s.segs, g.id = ⟨own, n⟩) ∧
     (s.freeName shared = none → Computes (.sgnewCl d a) s d 3 0) ∧
     (∀ g, (s.addSeg g).segs = s.segs ++ [g] ∧ (s.addSeg g).slots = s.slots ∧ (s.addSeg g).mem = s.mem)) ∧
  (∀ (s u v : State) (d a b : Fin 32) (h l : List Word) (ph : List (List (Bool × Nat))) (y : SegSched), s.me.tx = none →
     let q := (s.reg a).toNat
     let key := s.keyOfSlot s.cur
     (1 ≤ q → q ≤ s.me.quota → sumFrames ((s.chargedTo key).filter (·.sgpin)) ≤ q →
       let t := (s.setMe { s.me with quota := q }).shrinkTo key q s.segs.length
       (t.framesOf key ≤ q → exec (.sgquota d a) s = .next (t.result d 0)) ∧
       (q < t.framesOf key → exec (.sgquota d a) s = .next (t.stallMe (.segmentPins none)))) ∧
     (q = 0 ∨ s.me.quota < q → Computes (.sgquota d a) s d 3 0) ∧
     (s.reg a ≠ 0 → memOperand (s.reg a) 64 8 s = .ok ((), s) → wordsAt (s.reg a) 8 2 s = .ok (h, u) →
       wordsAt (s.reg a + 64) 8 (2 * (bitsOf (imgWord h 0) 0 4 + 1)) u = .ok (l, v) →
       (bitsOf (imgWord h 0) 4 60 = 0 → (∀ w ∈ h.drop 1, w = 0) →
         schedPhases l (bitsOf (imgWord h 0) 0 4 + 1) = some ph → bitsOf (s.reg b) 0 4 ≤ bitsOf (imgWord h 0) 0 4 →
         exec (.sgsched d a b) s =
           .next ((v.setSched (v.keyOfSlot v.cur) (some ⟨v.keyOfSlot v.cur, ph, bitsOf (s.reg b) 0 4⟩)).result d 0)) ∧
       (bitsOf (imgWord h 0) 4 60 ≠ 0 ∨ (∃ w ∈ h.drop 1, w ≠ 0) ∨ schedPhases l (bitsOf (imgWord h 0) 0 4 + 1) = none ∨
         bitsOf (imgWord h 0) 0 4 < bitsOf (s.reg b) 0 4 → exec (.sgsched d a b) s = .next (v.result d 3))) ∧
     (s.reg a = 0 → s.scheds.find? (fun x => x.key == key) = none → Computes (.sgsched d a b) s d 3 0) ∧
     (s.reg a = 0 → s.scheds.find? (fun x => x.key == key) = some y →
       (s.reg b = BitVec.allOnes 64 → exec (.sgsched d a b) s = .next ((s.setSched key none).result d 0)) ∧
       (s.reg b ≠ BitVec.allOnes 64 → (s.reg b).toNat < y.phases.length →
         exec (.sgsched d a b) s = .next ((s.setSched key (some { y with active := (s.reg b).toNat })).result d 0)) ∧
       (s.reg b ≠ BitVec.allOnes 64 → y.phases.length ≤ (s.reg b).toNat → Computes (.sgsched d a b) s d 3 0)))

/-! ### Tasks, domains, scopes, graphs (07 R157 to R164; 17 R351, R352) -/

/-- R158: SPAWN of a readable record that is well formed, within the reservation and the task's deque cap, and admitted, puts the record at
the head of the core's deque and answers 0. A record that fails its checks, a reservation that cannot be made and a full deque cap are
REFUSED (3); admission gives REFUSED, or DROPPED (2) in a cancelled scope. R159, R160, R161, R97: TEND marks the end of the task; YIELD and
an AWAIT whose word is below its goal wait, keeping their results in place; an AWAIT whose word, read at its home, has reached its goal
answers 0 after an acquire at .sys. -/
def Obligations.SpawnEndYieldAwait : Prop :=
  (∀ (s u v w : State) (d a : Fin 32) (t : TaskInfo) (l : List Word) (r x : Rec), s.me.tx = none → s.me.task = some t →
     memOperand (s.reg a) 64 0 s = .ok ((), s) → wordsAt (s.reg a) 0 2 s = .ok (l, u) → releaseOp 5 u = .ok ((), v) →
     v.headerWants t.part s.me.ctx.root l = [] →
     let z := v.forget t.part
     (z.readRecord t.part z.me.ctx.root l false = none → exec (.spawn d a) s = .next (z.result d 3)) ∧
     (z.readRecord t.part z.me.ctx.root l false = some r →
       (z.canReserve t.part r.info.caps = false ∨ t.caps.deque ≤ z.owned z.cur.core t.part t.serial →
         exec (.spawn d a) s = .next (z.result d 3)) ∧
       (z.canReserve t.part r.info.caps = true → z.owned z.cur.core t.part t.serial < t.caps.deque →
         (z.spawnRec t r = .ok (w, x) →
           exec (.spawn d a) s = .next ((w.pushHead z.cur.core { x with owner := some t.serial }).result d 0)) ∧
         (∀ e, z.spawnRec t r = .error e → (e = 2 ∨ e = 3) ∧ exec (.spawn d a) s = .next (z.result d (word e)))))) ∧
  (∀ (s u q v : State) (d a b : Fin 32) (t : Target) (g : Granule) (x : Word), s.me.tx = none →
     (s.me.task.isSome = true → ∃ n, exec .tend s = .next n ∧ n.me.sched.ended = true ∧ n.pc = s.pc ∧ (∀ r, n.reg r = s.reg r) ∧
       n.flags = s.flags ∧ s.RestKept n) ∧
     (∃ n, exec .yield s = .next n ∧ n.me.status = .waiting .yield ∧ n.pc = s.pc ∧ (∀ r, n.reg r = s.reg r) ∧ n.flags = s.flags ∧
       s.RestKept n) ∧
     (memOperand (s.reg a) 8 8 s = .ok ((), s) → memTarget (s.reg a) 8 .load s = .ok (t, u) → drainOp u = .ok ((), q) →
       homeOp t .read q = .ok (g, v) → consume g [] t.loc t.off 8 (s.reg a) 8 v = .ok (x, v) →
       let w := v.acquire v.cur 5 v.me.binds.last
       ((s.reg b).toNat ≤ x.toNat → exec (.await d a b) s = .next (w.result d 0)) ∧
       (x.toNat < (s.reg b).toNat →
         ∃ n, exec (.await d a b) s = .next n ∧ n.me.status = .waiting (.await d (s.reg a) (s.reg b) t.loc) ∧ n.pc = w.pc ∧
           (∀ r, n.reg r = w.reg r) ∧ n.flags = w.flags ∧ w.RestKept n)))

/-- R118 to R120, R162: the domain instructions of a task: joining with a free membership register, leaving, declaring, arriving (after a
release at the domain's level), and BARWAIT reporting the result of a phase or waiting for it. Of a level-5 domain that another device keeps
(R390), joining, leaving, declaring and arriving complete with the status that its home answers (log 75). R120, R217: a BARWAIT whose phase
ended without overrun answers 0, or BROKEN (4), after an acquire, and the slot goes on. -/
def Obligations.Domains : Prop :=
  (∀ (s u : State) (d a : Fin 32) (l : Fin 8) (t : TaskInfo) (id dev : Nat) (m : Member) (x : Granule), s.me.tx = none →
     s.me.task = some t →
     let n := (s.reg a).toNat
     (1 ≤ n → n < 2 ^ 16 → s.me.dom l.val = 0 → s.domHome t.part l.val n = none → s.domJoin t.part s.cur.core (taskNo t.part t.serial) l.val n = some u →
       exec (.domjoin d a l) s = .next ((u.setMe (u.me.setDom l.val n)).result d 0)) ∧
     (1 ≤ n → n < 2 ^ 16 → s.me.dom l.val = 0 → s.domHome t.part l.val n = some dev → s.fgid t.part ≠ 0 →
       domAskOp t dev n .join s = .ok (x, u) → domStatus x = 0 →
       let v := u.domMirror t.part u.cur.core (taskNo t.part t.serial) l.val n (domAnswerPhase x)
       exec (.domjoin d a l) s = .next ((v.setMe (v.me.setDom l.val n)).result d 0)) ∧
     (n = 0 ∨ 2 ^ 16 ≤ n ∨ s.me.dom l.val ≠ 0 → Computes (.domjoin d a l) s d 3 0) ∧
     (s.memberAt t s.me l.val = none → Computes (.domleave d l) s d 3 0 ∧ Computes (.bardecl d a l) s d 3 0 ∧
       Computes (.bararr d l) s d 3 0 ∧ Computes (.barwait d l) s d 3 0) ∧
     (s.memberAt t s.me l.val = some (id, m) →
       (s.domHome t.part l.val id = none →
         (let v := s.mapDom t.part l.val id fun x => x.leave (taskNo t.part t.serial)
          exec (.domleave d l) s = .next ((v.setMe (v.me.setDom l.val 0)).result d 0)) ∧
         (n < 2 ^ 40 → (if m.decl then m.count else 0) + n < 2 ^ 40 → m.arr = false →
           (m.broken = false → exec (.bardecl d a l) s = .next ((s.mapMe t l.val id fun m => m.declare n).result d 0)) ∧
           (m.broken = true → Computes (.bardecl d a l) s d 4 0)) ∧
         (m.arr = false → m.broken = false → releaseOp l.val s = .ok ((), u) →
           exec (.bararr d l) s = .next ((u.mapMe t l.val id Member.arrive).result d 0)) ∧
         (m.arr = false → m.broken = true →
           exec (.bararr d l) s = .next ((s.mapMe t l.val id fun m => { m with broken := false }).result d 4))) ∧
       (s.domHome t.part l.val id = some dev →
         (domAskOp t dev id .leave s = .ok (x, u) →
           let v := u.mapDom t.part l.val id fun x => x.without (taskNo t.part t.serial)
           exec (.domleave d l) s = .next ((v.setMe (v.me.setDom l.val 0)).result d 0)) ∧
         (n < 2 ^ 40 → domAskOp t dev id (.declare n) s = .ok (x, u) →
           exec (.bardecl d a l) s = .next (u.result d (word (domStatus x)))) ∧
         (∀ r, m.arr = false → releaseOp l.val s = .ok ((), r) → domAskOp t dev id .arrive r = .ok (x, u) → domStatus x ≠ 0 →
           exec (.bararr d l) s = .next (u.result d (word (domStatus x))))) ∧
       (m.arr = true → Computes (.bararr d l) s d 3 0) ∧
       (∀ r, m.result = some r → exec (.barwait d l) s = .next (s.barReturn s.cur t d l.val id m r)) ∧
       (m.result = none → m.arr = true → exec (.barwait d l) s = .next (s.waitMe (.barwait d l))))) ∧
  (∀ (s : State) (t : TaskInfo) (d : Fin 32) (l id : Nat) (m : Member) (r : PhaseEnd), m.overrun = none ∨ r = .broken →
     let u := s.barReturn s.cur t d l id m r
     (∀ q, u.reg q = if q = d ∧ q ≠ 0 then (if r = .broken then 4 else 0) else s.reg q) ∧ u.pc = nextPc s.pc ∧
       u.me.status = .ready ∧ u.flags = s.flags ∧ u.mem = (s.acquire s.cur (max l 1) s.now).mem)

/-- R163, R351, R352: SCNEW gives the lowest free scope id and stores the cancel word's zero and the id; CANCEL marks a live scope within
reach after a release at .sys, and a task within it sees its own mark at once (R373); CANCELWAIT of a cancelled scope without tasks, once
what killed ones have sent to other devices is answered, acknowledges it. R113, R164: GRUN of a readable graph object with a free instance
whose nodes are admitted starts the instance; else it gives the status. -/
def Obligations.ScopesAndGraphs : Prop :=
  (∀ (s u v w y : State) (d a : Fin 32) (t : TaskInfo) (x : Target) (id : Nat), s.me.tx = none → s.me.task = some t →
     let n := (s.reg a).toNat
     (memOperand (s.reg a) 16 24 s = .ok ((), s) → memTarget (s.reg a) 24 .store s = .ok (x, u) →
       let q := (u.partOf t.part).withRoot
       q.scopes.length < 4096 →
       (q.cancelled t.scope = true → exec (.scnew d a) s = .next (u.result d 2)) ∧
       (q.cancelled t.scope = false → freeScope q 1 65535 = some id → drainOp u = .ok ((), v) → v.isLocked x.loc = false →
         storeNow x (s.reg a) s.pc 0 v = .ok ((), w) →
         (∀ k pa z, x = .mem k pa z → storeNow (.mem k (pa + 8) z) (s.reg a + 8) s.pc (word id) w = .ok ((), y) →
           exec (.scnew d a) s = .next ((y.mapPart t.part fun q =>
             let q := q.withRoot
             { q with scopes := q.scopes ++
               [⟨id, t.scope, some t.serial, 0, false, some (y.me.ctx.root, bitsOf (s.reg a) 0 48), false, 0, 0, []⟩] }).result d 0)))) ∧
     (let q := (s.partOf (s.partNo s.cur.core)).withRoot
      (n < 2 ^ 16 → (q.scope n).isSome = true → (s.me.level = .task → q.within n t.scope = true) → releaseOp 5 s = .ok ((), u) →
        exec (.cancel d a) s = .next (((u.mapPart (s.partNo s.cur.core) fun q =>
          let q := q.withRoot
          if q.cancelled n then q else q.mapScope n fun z =>
            { z with mark := true, markedAt := u.cycle, seen := [] }).result d 0).mapSlot u.cur fun y => y.cancelsSelf q n)) ∧
      (2 ^ 16 ≤ n ∨ q.scope n = none → Computes (.cancel d a) s d 3 0)) ∧
     (let q := (s.partOf t.part).withRoot
      (n < 2 ^ 16 → (q.scope n).isSome = true → q.within n t.scope = true → q.cancelled n = true →
        (s.ackReady t.part n = true →
          exec (.cancelwait d a) s = .next ((((s.acknowledge t.part n).acquire s.cur 5 s.now).result d 0).reap t.part)) ∧
        (s.ackReady t.part n = false → exec (.cancelwait d a) s = .next (s.stallMe (.cancel n))) ∧
        ((s.partOf t.part).taskCount n ≠ 0 → s.ackReady t.part n = false)) ∧
      (q.cancelled n = false → Computes (.cancelwait d a) s d 3 0))) ∧
  (∀ (s u v w : State) (d a : Fin 32) (t : TaskInfo) (l : List Word) (g : Graph), s.me.tx = none → s.me.task = some t →
     memOperand (s.reg a) 64 0 s = .ok ((), s) → wordsAt (s.reg a) 0 2 s = .ok (l, u) → releaseOp 5 u = .ok ((), v) →
     (graphOf l = none → exec (.grun d a) s = .next (v.result d 3)) ∧
     (graphOf l = some g → v.graphWants t.part s.me.ctx.root g = [] →
       let z := v.forget t.part
       (z.graphRun t z.me.ctx.root (bitsOf (s.reg a) 0 48) g = .ok w → exec (.grun d a) s = .next (w.result d 0)) ∧
       (∀ e, z.graphRun t z.me.ctx.root (bitsOf (s.reg a) 0 48) g = .error e → exec (.grun d a) s = .next (z.result d (word e)))))

/-! ### Engine control (13 R292 to R302) -/

/-- R293 to R295: tokens between the control core and an engine, and the queues of words: each completes while there is a token or room, and
waits else. -/
def Obligations.TokensAndQueues : Prop :=
  ∀ (s : State) (d a : Fin 32) (e : Fin 4) (n : Nat) (v : Word) (r : List (Nat × Option Word)), s.me.tx = none →
    (s.me.tokenRoom .s (engOf e) = true → exec (.tkpost e) s = .next (s.setMe (s.me.pushToken .s (engOf e))).retire) ∧
    (s.me.tokenRoom .s (engOf e) = false → exec (.tkpost e) s = .next (s.stallMe (.tkpost (engOf e)))) ∧
    (0 < (s.me.token (engOf e) .s).n → exec (.tkwait e) s =
      .next ((s.setMe (s.me.popToken (engOf e) .s)).acquire s.cur 0 s.now).retire) ∧
    ((s.me.token (engOf e) .s).n = 0 → exec (.tkwait e) s = .next (s.waitMe (.tkwait (engOf e)))) ∧
    (s.me.eng.ports.v2.length < 32 → ∃ t, exec (.qpush a) s = .next t ∧ t.me.eng.ports.v2 = s.me.eng.ports.v2 ++ [s.reg a] ∧
      t.pc = nextPc s.pc ∧ (∀ q, t.reg q = s.reg q) ∧ t.flags = s.flags ∧ s.RestKept t) ∧
    (32 ≤ s.me.eng.ports.v2.length → exec (.qpush a) s = .next (s.stallMe .qpush)) ∧
    (s.me.eng.ports.vs = (n, some v) :: r → ∃ t, exec (.qpop d) s = .next t ∧ t.me.eng.ports.vs = r ∧
      t.pc = nextPc s.pc ∧ s.OnlyReg t d v ∧ t.flags = s.flags ∧ s.RestKept t) ∧
    (s.me.eng.ports.vs = [] ∨ s.me.eng.ports.vs.head?.map (·.2) = some none → exec (.qpop d) s = .next (s.stallMe .qpop)) ∧
    (s.me.eng.qs.fq.length < 16 → ∃ t, exec (.fmtq a) s = .next t ∧ t.me.eng.qs.fq = s.me.eng.qs.fq ++ [(s.reg a).setWidth 32] ∧
      t.pc = nextPc s.pc ∧ (∀ q, t.reg q = s.reg q) ∧ t.flags = s.flags ∧ s.RestKept t) ∧
    (16 ≤ s.me.eng.qs.fq.length → exec (.fmtq a) s = .next (s.stallMe .fmtq))

/-- R278, R279, R296: a lease is asked for once, granted to another slot of the cluster, and given up. R268, R297: CHID gives the last
transfer id of a channel; CHWAIT of an id that is done, or of 0, answers 0 after an acquire at .core, of one that was never given is
REFUSED, and of another waits. R263, R298 to R302: TDSET, CDSET and AGSET read an image, refuse one whose checks fail, and write it as a new
snapshot; PORTBIND binds a port or is refused. -/
def Obligations.EngineControl : Prop :=
  (∀ (s : State) (d a : Fin 32), s.me.tx = none →
     let c := clusterOfCore s.cur.core
     let g := grantSlot (s.reg a)
     (∃ t, exec .mlease s = .next t ∧ (∃ n, (s.cur, n) ∈ (t.clusterOf c).reqs) ∧ t.pc = nextPc s.pc ∧
       (∀ r, t.reg r = s.reg r) ∧ t.flags = s.flags ∧ ∀ b, t.mem.byte b = s.mem.byte b) ∧
     (bitsOf (s.reg a) 10 54 = 0 → clusterOfCore g.core = c → g ≠ s.cur → s.me.eng.grant = none ∨ s.me.eng.grant = some g →
       ∃ t, exec (.mleaseG d a) s = .next t ∧ t.me.eng.grant = some g ∧ t.pc = nextPc s.pc ∧ s.OnlyReg t d 0 ∧ t.flags = s.flags ∧
         s.RestKept t) ∧
     (bitsOf (s.reg a) 10 54 ≠ 0 ∨ clusterOfCore g.core ≠ c ∨ g = s.cur → Computes (.mleaseG d a) s d 3 0) ∧
     (∃ t, exec .mrelease s = .next t ∧ t.me.eng.grant = none ∧ (∀ r ∈ (t.clusterOf c).reqs, r.1 ≠ s.cur) ∧ t.pc = nextPc s.pc ∧
       (∀ r, t.reg r = s.reg r) ∧ t.flags = s.flags ∧ ∀ b, t.mem.byte b = s.mem.byte b)) ∧
  (∀ (s : State) (d a : Fin 32) (h : Fin 8), s.me.tx = none →
     let id := bitsOf (s.reg a) 0 48
     let k := s.me.chan h
     Computes (.chid d h) s d (word k.given) 0 ∧
     (bitsOf (s.reg a) 48 16 ≠ 0 → Computes (.chwait d a h) s d 3 0) ∧
     (bitsOf (s.reg a) 48 16 = 0 → id = 0 → exec (.chwait d a h) s = .next ((s.acquire s.cur 0 s.now).result d 0)) ∧
     (bitsOf (s.reg a) 48 16 = 0 → id ≠ 0 →
       (chanReached k.given id = false → Computes (.chwait d a h) s d 3 0) ∧
       (chanReached k.given id = true → chanReached k.doneId id = true →
         exec (.chwait d a h) s = .next ((s.acquire s.cur 0 s.now).result d 0)) ∧
       (chanReached k.given id = true → chanReached k.doneId id = false →
         exec (.chwait d a h) s = .next (s.waitMe (.chwait h id)))) ∧
     (∀ n i : Nat, n < 2 ^ 47 → i ≤ n → chanReached n i = true)) ∧
  (∀ (s u : State) (d a : Fin 32) (n : Fin 16) (g : Fin 8) (p : Fin 4) (x : Place) (y : Slot) (l : List Word), s.me.tx = none →
     (s.decodePtr s.cur (s.reg a) 64 = .ok x → loadWords (s.reg a) 8 s = .ok (l, u) →
       (tileOk l = false → exec (.tdset d a n) s = .next (u.result d 3)) ∧
       (tileOk l = true → u.me.setDesc n.val l = some y → exec (.tdset d a n) s = .next ((u.setMe y).result d 0))) ∧
     (s.decodePtr s.cur (s.reg a) 32 = .ok x → loadWords (s.reg a) 12 s = .ok (l, u) →
       (copyOk l = false → exec (.cdset d a n) s = .next (u.result d 3)) ∧
       (copyOk l = true → u.me.setDesc (16 + n.val) l = some y → exec (.cdset d a n) s = .next ((u.setMe y).result d 0))) ∧
     (s.decodePtr s.cur (s.reg a) 32 = .ok x → loadWords (s.reg a) 4 s = .ok (l, u) →
       (genOk l = false → exec (.agset d a g) s = .next (u.result d 3)) ∧
       (genOk l = true → u.me.setDesc (32 + g.val) l = some y → exec (.agset d a g) s = .next ((u.setMe y).result d 0))) ∧
     (s.me.portBind p (s.reg a).toNat = some y → exec (.portbind d a p) s = .next ((s.setMe y).result d 0)) ∧
     (s.me.portBind p (s.reg a).toNat = none → Computes (.portbind d a p) s d 3 0))

/-! ### Traps and system instructions (16 R324 to R330; 17 R350 to R363) -/

/-- R324: a synchronous trap at task level, or at supervisor level outside a handler, of a cause that is not consumed data. The slot enters
supervisor level; the frame holds the PC, cause, information and level; the PC goes to TVB + 64 x cause; banks, memory and the other slots
are as before, and TVB too. That bits 63:48 of PC stay zero where the sum passes the top (`% 2 ^ 48`) is the model's choice (log 22). R234,
R324: a trap inside a transaction aborts it first with code 4: the bank is restored, TXB's register gets the status, and TEPC is the word
after TXB. -/
def Obligations.TrapEntry : Prop :=
  (∀ (s : State) (c : BitVec 8) (t0 t1 t2 t3 : Word),
     s.me.level ≠ .monitor → (s.me.level = .supervisor → s.me.frame.inTrap = false) → c ≠ 0x0C → c ≠ 0x0D → s.me.tx = none →
     let t := s.trapMe ⟨c, t0, t1, t2, t3⟩
     t.me.level = .supervisor ∧ t.pc = BitVec.ofNat 64 ((s.me.frame.tvb.toNat + 64 * c.toNat) % 2 ^ 48) ∧
     t.me.frame = { s.me.frame with
       tepc := s.pc, tcause := c.setWidth 11, tinfo0 := t0, tinfo1 := t1, tinfo2 := t2, tinfo3 := t3
       plev := s.me.level, inTrap := true, tx := false, drop := false } ∧
     t.me.bank = s.me.bank ∧ t.me.sup = s.me.sup ∧ t.me.status = .ready ∧ t.me.eng = s.me.eng ∧ t.me.ctx = s.me.ctx ∧
     t.cur = s.cur ∧ (∀ i, i ≠ s.cur → t.slotOf i = s.slotOf i) ∧ (∀ a, t.mem.byte a = s.mem.byte a)) ∧
  (∀ (s : State) (x : Tx) (c : BitVec 8) (t0 t1 t2 t3 : Word),
     s.me.level = .task → s.me.tx = some x → c ≠ 0x0C → c ≠ 0x0D →
     let t := s.trapMe ⟨c, t0, t1, t2, t3⟩
     t.me.tx = none ∧ t.me.frame.tepc = x.resume ∧ t.me.frame.tx = true ∧ t.me.bank = x.bank.set x.dst 0x401 ∧ t.me.level = .supervisor)

/-- R330: a synchronous fault in a handler is DOUBLE: the partition freezes, the slot enters monitor level and keeps its first frame, and
the PF mailbox reports it. -/
def Obligations.DoubleFault : Prop :=
  ∀ (s : State) (c : BitVec 8) (t0 t1 t2 t3 : Word),
    s.me.level = .supervisor → s.me.frame.inTrap = true →
    let t := s.trapMe ⟨c, t0, t1, t2, t3⟩
    t.me.frame = s.me.frame ∧ t.me.level = .monitor ∧ (t.partOf (s.partNo s.cur.core)).frozen = true ∧
      t.pkg.mbox = s.pkg.mbox ++ [[0x17, (s.partNo s.cur.core).val, s.cur.core.val, s.cur.slot.val]]

/-- R41, R42: a word that is no instruction traps ILLEGAL with the word and the reason's code, 1 to 4, inside a transaction too (log 91).
R11, R42: an instruction that requires a level takes PRIVILEGE below it, with the word and the level, and has no effect, inside a
transaction too (log 91). R233, R234: a word that R233 does not name aborts an open transaction with code 3: the bank is that of TXB, with
the status in its register, and the slot goes on after TXB. -/
def Obligations.IllegalAndPrivilege : Prop :=
  (∀ (s : State) (w : BitVec 32),
     Traps (.illegal w .reservedOpcode) s 0x01 (w.setWidth 64) 1 0 0 ∧ Traps (.illegal w .undefinedSelector) s 0x01 (w.setWidth 64) 2 0 0 ∧
     Traps (.illegal w .mustBeZero) s 0x01 (w.setWidth 64) 3 0 0 ∧ Traps (.illegal w .forbiddenOperand) s 0x01 (w.setWidth 64) 4 0 0) ∧
  (∀ (s : State) (d a b : Fin 32) (k r : Bool) (n : Fin 1024),
     let w := fun (i : Instr) => (encode i).setWidth 64
     let sup := fun (i : Instr) => Traps i s 0x02 (w i) 1 0 0
     (s.me.level = .task →
       sup (.tret k r) ∧ sup (.swrPreempt a) ∧ sup (.swrEnvcb a) ∧ sup (.accspill d a b) ∧ sup (.accfill d a b) ∧ sup (.ctxsave d a) ∧
       sup (.ctxload d a b) ∧ sup (.tlbinv d a b) ∧ sup (.elogrd d a b) ∧ sup (.moncall d a b) ∧
       (sregNumbers.contains n.val = true → 0x100 ≤ n.val → n.val < 0x200 → sup (.srd d n 0) ∧ sup (.swr a n 0))) ∧
     (s.me.level ≠ .monitor → Traps .halt s 0x02 (w .halt) 3 0 0 ∧ Traps (.swrInjcfg a) s 0x02 (w (.swrInjcfg a)) 3 0 0 ∧
       (sregNumbers.contains n.val = true → 0x200 ≤ n.val →
         Traps (.srd d n 0) s 0x02 (w (.srd d n 0)) 3 0 0 ∧ Traps (.swr a n 0) s 0x02 (w (.swr a n 0)) 3 0 0))) ∧
  (∀ (s : State) (x : Tx) (d a : Fin 32) (sc : Fin 8) (e : Fin 4) (c : BitVec 10), s.me.tx = some x →
     let aborts := fun (i : Instr) => ∃ t, exec i s = .next t ∧ t.me.tx = none ∧ t.pc = x.resume ∧ t.flags = x.bank.flags ∧
       (∀ r, t.reg r = if r = x.dst ∧ r ≠ 0 then 0x301 else x.bank.get r) ∧ s.RestKept t
     aborts .mark ∧ aborts (.fenceRel sc) ∧ aborts (.fenceAcq sc) ∧ aborts (.fenceAr sc) ∧ aborts (.txb d) ∧ aborts (.pgalloc d) ∧
     aborts (.sgnew d a) ∧ aborts (.sginfo d a) ∧ aborts (.spawn d a) ∧ aborts .yield ∧ aborts .tend ∧ aborts (.tkpost e) ∧
     aborts (.qpush a) ∧ aborts .mlease ∧ aborts (.trap c) ∧ aborts (.swrFlags a))

/-- R353: TRAP enters the handler with cause 0x13, the code in TINFO0, zero in the other TINFO registers, and TEPC at the next word: that
entry is its effect. At supervisor level with TSTATUS.in = 1 it escalates as a synchronous fault of the handler does (R330): monitor level,
the first frame kept, the partition frozen, and a report to the host. That bits 63:48 of PC and TEPC stay zero past the top is the model's
choice (log 22). -/
def Obligations.TrapInstruction : Prop :=
  ∀ (s : State) (c : BitVec 10), s.me.tx = none →
    (s.me.level ≠ .monitor → (s.me.level = .supervisor → s.me.frame.inTrap = false) →
      ∃ t, exec (.trap c) s = .next t ∧ t.me.level = .supervisor ∧
        t.pc = BitVec.ofNat 64 ((s.me.frame.tvb.toNat + 64 * 0x13) % 2 ^ 48) ∧
        t.me.frame = { s.me.frame with
          tepc := nextPc s.pc, tcause := 0x13, tinfo0 := c.setWidth 64, tinfo1 := 0, tinfo2 := 0, tinfo3 := 0
          plev := s.me.level, inTrap := true, tx := false, drop := false } ∧
        t.me.bank = s.me.bank ∧ t.me.sup = s.me.sup ∧ ∀ a, t.mem.byte a = s.mem.byte a) ∧
    (s.me.level = .supervisor → s.me.frame.inTrap = true →
      ∃ t, exec (.trap c) s = .next t ∧ t.me.level = .monitor ∧ t.me.frame = s.me.frame ∧
        (t.partOf (s.partNo s.cur.core)).frozen = true ∧
        t.pkg.mbox = s.pkg.mbox ++ [[0x17, (s.partNo s.cur.core).val, s.cur.core.val, s.cur.slot.val]])

/-- R354: TRET without a pending kill goes to TEPC, or past it with skip, at plev, and leaves the handler. Both banks of registers are as
before; so is FLAGS of the task bank, unless unfinished engine words are discarded (vector words in flight then end, R138). -/
def Obligations.TrapReturn : Prop :=
  ∀ (s : State) (k r : Bool), s.me.level ≠ .task → s.me.tx = none → s.me.pend.kill = none →
    ∃ t, exec (.tret k r) s = .next t ∧ t.pc = (if k then s.me.frame.tepc + 4 else s.me.frame.tepc) ∧ t.me.level = s.me.frame.plev ∧
      t.me.frame = { s.me.frame with inTrap := false, drop := false } ∧ t.me.sup = s.me.sup ∧ t.me.bank.g = s.me.bank.g ∧
      (r = false → s.me.frame.drop = false → t.me.bank = s.me.bank) ∧ t.cur = s.cur

/-- R355, R356: SRD of a number of the table at a level that may read it gives the register's value, CHDONE with an acquire at .core (R209,
R268); some of the values. -/
def Obligations.SpecialRegisterReads : Prop :=
  ∀ (s : State) (d : Fin 32) (n : Fin 1024), sregNumbers.contains n.val = true →
    (0x100 ≤ n.val → s.me.level ≠ .task) → (0x200 ≤ n.val → s.me.level = .monitor) → (0x100 ≤ n.val → s.me.tx = none) →
    (isDone n.val = false → Computes (.srd d n 0) s d (s.sreg s.cur n.val) 0) ∧
    (isDone n.val = true → exec (.srd d n 0) s = .next ((s.acquire s.cur 0 s.now).result d (s.sreg s.cur n.val))) ∧
    (∀ k : Fin 8, isDone (0x20 + k.val) = true ∧ s.sreg s.cur (0x20 + k.val) = word (s.me.chan k).doneId) ∧
    s.sreg s.cur 0x000 = word s.cur.core.val ∧ s.sreg s.cur 0x001 = word s.cur.slot.val ∧
    s.sreg s.cur 0x010 = s.flags.setWidth 64 ∧ s.sreg s.cur 0x014 = word s.cycle ∧ s.sreg s.cur 0x012 = word s.me.rrb ∧
    s.sreg s.cur 0x013 = s.me.ec ∧ s.sreg s.cur 0x015 = s.me.srseed ∧ s.sreg s.cur 0x016 = s.me.tol.setWidth 64 ∧
    s.sreg s.cur 0x100 = s.me.frame.tvb ∧ s.sreg s.cur 0x101 = s.me.frame.tepc ∧ s.sreg s.cur 0x103 = s.me.frame.tinfo0 ∧
    s.sreg s.cur 0x104 = s.me.frame.tinfo1 ∧ s.sreg s.cur 0x105 = s.me.frame.tinfo2 ∧ s.sreg s.cur 0x106 = s.me.frame.tinfo3

/-- R355, R325: SWR to a register with a plain write sets it, TVB with its low 12 bits clear, and changes no general register; a read-only
number is ILLEGAL with reason 2. R10, R64, R128, R129, R332, R349: SWR to the registers with a row of their own. -/
def Obligations.SpecialRegisterWrites : Prop :=
  (∀ (s : State) (a : Fin 32), s.me.tx = none →
     let v := s.reg a
     let sets := fun (n : Fin 1024) (f : State → Prop) => ∃ t, exec (.swr a n 0) s = .next t ∧ t.pc = nextPc s.pc ∧
       (∀ r, t.reg r = s.reg r) ∧ (∀ b, t.mem.byte b = s.mem.byte b) ∧ f t
     sets 0x016 (fun t => t.me.tol = v.setWidth 32 ∧ t.flags = s.flags ∧ t.me.frame = s.me.frame) ∧
     (s.me.level ≠ .task →
       sets 0x100 (fun t => t.me.frame = { s.me.frame with tvb := v &&& ~~~(0xFFF : Word) } ∧ t.me.level = s.me.level) ∧
       sets 0x101 (fun t => t.me.frame = { s.me.frame with tepc := v }) ∧
       sets 0x103 (fun t => t.me.frame = { s.me.frame with tinfo0 := v }) ∧
       sets 0x107 (fun t => t.me.frame.inTrap = v.getLsbD 2 ∧ t.me.frame.drop = v.getLsbD 4 ∧ t.me.frame.tvb = s.me.frame.tvb) ∧
       sets 0x108 (fun t => t.me.vlw = v.getLsbD 0) ∧ sets 0x109 (fun t => t.me.loop.wdog = v.setWidth 32)) ∧
     (s.me.level = .monitor → sets 0x200 (fun t => (t.dieOf (dieOfCore s.cur.core)).mframe = v &&& 0xFFFFFFFFFC000)) ∧
     (let w := fun (n : Fin 1024) => (encode (.swr a n 0)).setWidth 64
      Traps (.swr a 0x000 0) s 0x01 (w 0x000) 2 0 0 ∧ Traps (.swr a 0x014 0) s 0x01 (w 0x014) 2 0 0)) ∧
  (∀ (s : State) (a : Fin 32), s.me.tx = none →
     let v := s.reg a
     let same := fun (t : State) => t.pc = nextPc s.pc ∧ (∀ r, t.reg r = s.reg r) ∧ ∀ b, t.mem.byte b = s.mem.byte b
     (∃ t, exec (.swrFlags a) s = .next t ∧ same t ∧
       (∀ k < 12, t.flags.getLsbD k =
         if 6 ≤ k ∧ k < 8 then false
         else if 8 ≤ k ∧ k < 11 ∧ 6 ≤ bitsOf v 8 3 then s.flags.getLsbD k else v.getLsbD k)) ∧
     (s.me.journalFull = false →
       (vtypeOk v = true → ∃ t, exec (.swrVtype a) s = .next t ∧ same t ∧ t.me.vtype = v.setWidth 10 ∧ t.flags = s.flags) ∧
       (∃ t, exec (.swrRrb a) s = .next t ∧ same t ∧ t.me.rrb = bitsOf v 0 4 ∧ t.flags = s.flags) ∧
       (∃ t, exec (.swrEc a) s = .next t ∧ same t ∧ t.me.ec = v ∧ t.flags = s.flags)) ∧
     (vtypeOk v = false → Continues (.swrVtype a) s) ∧
     (s.me.busyWith .v = false → s.me.busyWith .m = false → ∃ t, exec (.swrSrseed a) s = .next t ∧ same t ∧ t.me.srseed = v ∧
       t.me.eng.vec.seed = v ∧ t.me.eng.vec.gens = []) ∧
     (s.me.level ≠ .task → ∃ t, exec (.swrPreempt a) s = .next t ∧ same t ∧ t.me.loop.budget = v.setWidth 32 ∧ t.me.loop.ld = v.getLsbD 33 ∧
       t.me.pend.preempt = (s.me.pend.preempt || v.getLsbD 32)) ∧
     (s.me.level ≠ .task → s.anyEnv (s.partNo s.cur.core) = false →
       s.wants (s.partNo s.cur.core) (s.partOf (s.partNo s.cur.core)).root v.toNat 3 = [] →
       ∀ base n, s.envPool (s.partNo s.cur.core) v = some (base, n) →
       ∃ t, exec (.swrEnvcb a) s = .next t ∧ same t ∧ (t.partOf (s.partNo s.cur.core)).envcb = v ∧
         (t.partOf (s.partNo s.cur.core)).envBase = base ∧ (t.partOf (s.partNo s.cur.core)).envCount = n) ∧
     (s.me.level ≠ .task → s.anyEnv (s.partNo s.cur.core) = true → Continues (.swrEnvcb a) s) ∧
     (s.me.level = .monitor → ∃ t, exec (.swrInjcfg a) s = .next t ∧ same t ∧ (t.dieOf (dieOfCore s.cur.core)).injcfg = s.injWord v))

/-- R359: ACCSPILL of a tagged bank to the area of its running context stores it, marks it spilled and frees it; ACCFILL of a spilled bank
whose place is free tags it, loads it and clears the mark. Which context an area's header names, and that ACCFILL reads the spilled bit from
the slot's own mask, is the model's reading (log 88). Of an area whose context is saved (valid = 1), ACCSPILL stores a bank that still
carries its tag; what is not so is REFUSED. -/
def Obligations.AccumulatorMoves : Prop :=
  ∀ (s : State) (d a b : Fin 32) (i : SlotId) (t : BankTag), s.me.tx = none → s.me.level ≠ .task →
    let n := (s.reg a).toNat
    let pa := (s.reg b).toNat
    let c := s.cur.core
    let p := s.partNo c
    let base := (s.saveGet p (pa + 0x40)).toNat + 65536 * n
    n ≤ 47 → pa % 2 ^ 17 = 0 → physOf pa ≠ .hole → physOf base ≠ .hole →
    ((s.saveGet p (pa + 8)).getLsbD 0 = false → s.ownerOf c pa = some i → s.bankTag c n = some t →
      t.ctx.toNat = bitsOf (s.saveGet p (pa + 8)) 24 8 → s.bankSplit c n = false → s.bankBusy c n = false →
      exec (.accspill d a b) s = .next ((s.spillBank c p pa n (some i)).result d 0)) ∧
    ((s.saveGet p (pa + 8)).getLsbD 0 = true → s.bankTag c n = some t →
      t.ctx.toNat = bitsOf (s.saveGet p (pa + 8)) 24 8 → s.bankSplit c n = false →
      exec (.accspill d a b) s = .next ((s.spillBank c p pa n none).result d 0)) ∧
    ((s.saveGet p (pa + 8)).getLsbD 0 = false ∧ s.ownerOf c pa = none ∨ s.bankTag c n = none ∨ s.bankSplit c n = true →
      Computes (.accspill d a b) s d 3 0) ∧
    (bitsOf (s.saveGet p (pa + 8)) 24 8 ≠ s.me.ctx.ctx.toNat ∨ (s.bankTag c n).isSome = true ∨ s.me.ctx.spilled.getLsbD n = false →
      Computes (.accfill d a b) s d 3 0) ∧
    (bitsOf (s.saveGet p (pa + 8)) 24 8 = s.me.ctx.ctx.toNat → s.bankTag c n = none → s.me.ctx.spilled.getLsbD n = true →
      exec (.accfill d a b) s =
        .next ((((s.tagBank s.cur n).putBank c n (s.saveRead p base 8192)).setSpilled p pa n (some s.cur) false).result d 0))

/-- R357, R358, R336: CTXSAVE of a task at task level in its handler, none of whose stores waits at a locked home or for the answer of
another device (R210), saves it, frees the slot and puts a resume record at the deque's oldest end; outside a handler of a task, and on a
slot without a task (log 89), it is REFUSED. CTXLOAD of a valid area of this core loads its task into a Free slot under its resume record.
-/
def Obligations.SavedContexts : Prop :=
  ∀ (s : State) (d a b : Fin 32) (t : TaskInfo) (x : Extra) (e : Option Nat) (r : Rec), s.me.tx = none → s.me.level ≠ .task →
    let pa := (s.reg a).toNat
    let c := s.cur.core
    let p := s.partNo c
    pa % 2 ^ 17 = 0 → physOf pa ≠ .hole →
    (s.me.frame.inTrap = true → s.me.frame.plev = .task → s.me.task = some t → s.lockedStores s.cur = false →
      s.me.farStores = false → ∃ u, exec (.ctxsave d a) s = .next u ∧ u = s.saveTask s.cur pa ∧ (u.slotOf s.cur).status = .free ∧ (u.slotOf s.cur).task = none ∧
        (u.coreOf c).deque.getLast?.map (fun r => (r.names pa, r.info.serial)) = some (true, t.serial)) ∧
    (s.me.frame.inTrap = false ∨ s.me.frame.plev ≠ .task ∨ s.me.task = none → Computes (.ctxsave d a) s d 3 0) ∧
    ((s.saveGet p (pa + 8)).getLsbD 0 = true → bitsOf (s.saveGet p (pa + 8)) 8 8 = c.val → (s.reg b).toNat ≤ 3 →
      (s.slotOf ⟨c, slotNo (s.reg b).toNat⟩).status = .free → s.savedRec c pa = some r → r.kind = .resume pa e x →
      (s.recCancelled r = false →
        exec (.ctxload d a b) s =
          .next ((((s.forget p).dropSavedRec c pa).loadTask ⟨c, slotNo (s.reg b).toNat⟩ pa r.info x).result d 0)) ∧
      (s.recCancelled r = true → exec (.ctxload d a b) s = .next ((((s.forget p).dropSavedRec c pa).dropSaved c r).result d 2)))

/-- R360 to R363: TLBINV drops the translations it names after a release, and answers once no access of the partition that was translated
before is still to be performed; ELOGRD reads an entry's word, zero for word 0 of one that is not there, or the next number, and zero past
its operands' ranges; MONCALL gives version and power limit, sets the injector from three words in memory (R349), and a fault of the monitor
there is DOUBLE (log 107); HALT stops the core. -/
def Obligations.SystemServices : Prop :=
  ∀ (s u : State) (d a b : Fin 32) (w : Word), s.me.tx = none → s.me.level ≠ .task →
    let k := (s.reg b).toNat
    let v := s.reg a
    (k ≤ 2 → (k = 0 → bitsOf v 48 16 = 0) → releaseOp 5 s = .ok ((), u) →
      let z := u.tlbDrop (s.partNo s.cur.core) fun e => match k with
        | 0 => e.covers (s.partNo s.cur.core) (s.slotRoot s.cur) v.toNat
        | 1 => e.root == s.slotRoot s.cur
        | _ => true
      (z.pendingAccess (s.partNo s.cur.core) = false → exec (.tlbinv d a b) s = .next (z.result d 0)) ∧
      (z.pendingAccess (s.partNo s.cur.core) = true → exec (.tlbinv d a b) s = .next (z.stallMe .stores))) ∧
    (bitsOf v 34 30 = 0 → k ≤ 3 → s.logEntry (bitsOf v 32 2) (s.partNo s.cur.core) (bitsOf v 0 32) k = some w →
      Computes (.elogrd d a b) s d w 0) ∧
    (bitsOf v 34 30 = 0 → k = 0 → s.logEntry (bitsOf v 32 2) (s.partNo s.cur.core) (bitsOf v 0 32) 0 = none →
      Computes (.elogrd d a b) s d 0 0) ∧
    (bitsOf v 34 30 = 0 → k = 4 →
      Computes (.elogrd d a b) s d (word (tget (0, []) (s.dieOf (bitsOf v 32 2)).elog (s.partNo s.cur.core).val).1) 0) ∧
    (bitsOf v 34 30 ≠ 0 ∨ 4 < k → Computes (.elogrd d a b) s d 0 0) ∧
    (v = 1 → Computes (.moncall d a b) s d 3600 0) ∧ (v = 0 → Computes (.moncall d a b) s d Config.romVersion 0) ∧
    (3 ≤ v.toNat → Computes (.moncall d a b) s d (BitVec.allOnes 64) 0) ∧
    (let p := s.partNo s.cur.core
     let l := s.saveRead p k 3
     v = 2 →
       ((s.partOf p).testFlag = false → Computes (.moncall d a b) s d (BitVec.allOnes 64) 0) ∧
       ((s.partOf p).testFlag = true → s.monFault p k = none →
         exec (.moncall d a b) s = .next ((s.setInj s.cur.core (imgWord l 0) (imgWord l 1) (imgWord l 2)).result d 0)) ∧
       ((s.partOf p).testFlag = true → ∀ c, s.monFault p k = some c →
         ∃ t, exec (.moncall d a b) s = .next t ∧ (t.coreOf s.cur.core).halted = true ∧ (t.partOf p).frozen = true ∧
           t.pkg.mbox = s.pkg.mbox ++ [[0x17, p.val, s.cur.core.val, s.cur.slot.val]])) ∧
    (s.me.level = .monitor → ∃ t, exec .halt s = .next t ∧ (t.coreOf s.cur.core).halted = true ∧ t.pc = nextPc s.pc ∧
      (∀ r, t.reg r = s.reg r) ∧ ∀ x, t.mem.byte x = s.mem.byte x)

/-! ### Engine words (02 R22; 06 R125 to R133; 07 R136 to R154) -/

/-- R22, R251, R324: the control core of a task forwards an engine word to the queue of its class, V (bits 31:30 = 01), M (10) or C (11),
with a journal entry, when queue and journal have room; a C word takes the next transfer id of its channel, and VCFG also sets the control
core's VTYPE (R129). R261, R22, R324: a forwarded word waits while its queue or the journal is full, and is ILLEGAL with reason 2 in a
handler. -/
def Obligations.EngineWordsForwarded : Prop :=
  (∀ (s : State) (i : Instr), s.actor = .control → s.me.level = .task → s.me.tx = none → s.me.journalFull = false →
     (encodeNat i / 2 ^ 30 = 1 → s.me.depth .v < s.me.depthLimit .v →
       ((∀ x t, i ≠ .vcfg x t) → exec i s = .next (s.enqueue s.cur .v (encode i) 0).retire) ∧
       (∀ x t, i = .vcfg x t →
         let u := (s.enqueue s.cur .v (encode i) 0).retire
         exec i s = .next (u.setMe { u.me with vtype := x }))) ∧
     (encodeNat i / 2 ^ 30 = 2 → s.me.depth .m < s.me.depthLimit .m → exec i s = .next (s.enqueue s.cur .m (encode i) 0).retire) ∧
     (encodeNat i / 2 ^ 30 = 3 → s.me.depth .c < s.me.depthLimit .c →
       let h := Fin.ofNat 8 (encodeNat i / 2 ^ 22)
       let n := ((s.me.chan h).given + 1) % 2 ^ 48
       exec i s = .next ((s.enqueue s.cur .c (encode i) n).mapSlot s.cur fun x =>
         x.setChan h { x.chan h with given := n }).retire)) ∧
  (∀ (s : State) (i : Instr) (e : Eng), s.actor = .control →
     encodeNat i / 2 ^ 30 = (match e with | .s => 0 | .v => 1 | .m => 2 | .c => 3) → e ≠ .s →
     (s.me.level ≠ .task → Traps i s 0x01 ((encode i).setWidth 64) 2 0 0) ∧
     (s.me.level = .task → s.me.tx = none →
       (s.me.depthLimit e ≤ s.me.depth e → exec i s = .next (s.stallMe (.queueFull e))) ∧
       (s.me.depth e < s.me.depthLimit e → s.me.journalFull = true → exec i s = .next (s.stallMe .journalFull))))

/-- R131, R137, R140 to R142, R149: the vector words of arithmetic, logic, compare, selection and movement: registers read, target, latency
(Table 5), and the lane computation of each. R131, R143 to R154: the remaining vector words: conversion, quantisation, packing, reduction,
functions, checksums, masks, VXTR, VNOP and VCFG. -/
def Obligations.VectorWordsIssue : Prop :=
  (∀ (d a b : Fin 32) (p : Fin 16) (l : Fin 32) (i : BitVec 10) (t : VTail),
     Issues (.vadd d a b t) (vWord t [a, b] (.v d) 2 fun x => addWord (x.src a) (x.src b) x) ∧
     Issues (.vsub d a b t) (vWord t [a, b] (.v d) 2 fun x => subWord (x.src a) (x.src b) x) ∧
     Issues (.vmul d a b t) (vWord t [a, b] (.v d) 4 fun x => mulWord (x.src a) (x.src b) x) ∧
     Issues (.vfma d a b t) (vWord t [d, a, b] (.v d) 4 fun x => fmaWord false (x.src d) (x.src a) (x.src b) x) ∧
     Issues (.vfms d a b t) (vWord t [d, a, b] (.v d) 4 fun x => fmaWord true (x.src d) (x.src a) (x.src b) x) ∧
     Issues (.vmin d a b t) (vWord t [a, b] (.v d) 2 fun x => minMaxWord true (x.src a) (x.src b) x) ∧
     Issues (.vmax d a b t) (vWord t [a, b] (.v d) 2 fun x => minMaxWord false (x.src a) (x.src b) x) ∧
     Issues (.vabs d a t) (vWord t [a] (.v d) 2 fun x => signWord (fun n => (n.natAbs : Int)) (fun n => n % 2 ^ 31) (x.src a) x) ∧
     Issues (.vneg d a t) (vWord t [a] (.v d) 2 fun x => signWord (fun n => -n) (fun n => n ^^^ 2 ^ 31) (x.src a) x) ∧
     Issues (.vand d a b t) (vWord t [a, b] (.v d) 2 fun x => bitWord (fun i => (x.src a).getD i 0 &&& (x.src b).getD i 0) x) ∧
     Issues (.vor d a b t) (vWord t [a, b] (.v d) 2 fun x => bitWord (fun i => (x.src a).getD i 0 ||| (x.src b).getD i 0) x) ∧
     Issues (.vxor d a b t) (vWord t [a, b] (.v d) 2 fun x => bitWord (fun i => (x.src a).getD i 0 ^^^ (x.src b).getD i 0) x) ∧
     Issues (.vshl d a b t) (vWord t [a, b] (.v d) 2 fun x => bitWord (fun i => (x.src a).getD i 0 <<< shiftBy ((x.src b).getD i 0)) x) ∧
     Issues (.vshr d a b t) (vWord t [a, b] (.v d) 2 fun x => bitWord (fun i => (x.src a).getD i 0 >>> shiftBy ((x.src b).getD i 0)) x) ∧
     Issues (.vshra d a b t) (vWord t [a, b] (.v d) 2 fun x => bitWord (fun i => ((x.src a).getD i 0).sshiftRight (shiftBy ((x.src b).getD i 0))) x) ∧
     Issues (.vcmpeq p a b t) (vWord t [a, b] (.k p) 2 fun x => cmpWord (fun m n => decide (m = n)) false (x.src a) (x.src b) x) ∧
     Issues (.vcmplt p a b t) (vWord t [a, b] (.k p) 2 fun x => cmpWord (fun m n => decide (m < n)) true (x.src a) (x.src b) x) ∧
     Issues (.vcmple p a b t) (vWord t [a, b] (.k p) 2 fun x => cmpWord (fun m n => decide (m ≤ n)) true (x.src a) (x.src b) x) ∧
     Issues (.vsel d a b t) (vWord t [a, b] (.v d) 2 fun x => selWord (x.src a) (x.src b) x) ∧
     Issues (.vbcast d a l t) (vWord t [a] (.v d) 2 fun x => bitWord (fun _ => (x.src a).getD l.val 0) x) ∧
     Issues (.vperm d a b t) (vWord t [a, b] (.v d) 2 fun x => bitWord (fun i => (x.src a).getD (bitsOf ((x.src b).getD i 0) 0 8) 0) x) ∧
     Issues (.viota d t) (vWord t [] (.v d) 2 iotaWord) ∧
     Issues (.vmov d a t) (vWord t [a] (.v d) 2 fun x => bitWord (fun i => (x.src a).getD i 0) x) ∧
     Issues (.vsplat d i t) (vWord t [] (.v d) 2 (splatWord i))) ∧
  (∀ (d a b : Fin 32) (p q r : Fin 16) (n m : Fin 4) (k l o : Fin 32) (i : BitVec 10) (t : VTail) (u : Tok),
     Issues (.vcvt d a k t) (vWord t [a] (.v d) 3 fun x => cvtWord k.val (x.src a) x) ∧
     Issues (.vqmax d a t) (vWord t [a] (.v d) 3 fun x => qmaxWord (x.src a) x) ∧
     Issues (.vqcvt d a b t) (vWord t [a, b] (.v d) 3 fun x => qcvtWord (x.src a) (x.src b) x) ∧
     Issues (.vdq d a t) (vWord t [a] (.v d) 3 fun x => dqWord (x.src a) x) ∧
     Issues (.vred d a o t) (vWord t [a] (.v d) 8 fun x => redWord o.val (x.src a) x) ∧
     Issues (.vany p t) (kMask t [p] .scalar 8 fun x => anyWord false (x.k p) x) ∧
     Issues (.vall p t) (kMask t [p] .scalar 8 fun x => anyWord true (x.k p) x) ∧
     Issues (.vexp2 d a t) (vWord t [a] (.v d) 10 fun x => funWord exp2Code (x.src a) x) ∧
     Issues (.vrcp d a t) (vWord t [a] (.v d) 10 fun x => funWord rcpCode (x.src a) x) ∧
     Issues (.vrsqrt d a t) (vWord t [a] (.v d) 10 fun x => funWord rsqrtCode (x.src a) x) ∧
     Issues (.vcsum n a t) (vWord t [a] (.xa n) 8 fun x => csumWord (x.xlast n) (x.src a) x) ∧
     Issues (.vcsumSet n a t) (vWord t [a] (.xa n) 8 fun x => csumWord ⟨0, false⟩ (x.src a) x) ∧
     Issues (.vcsumClr n u) (bareWord [] (.xa n) 8 fun _ => { out := .xa ⟨0, false⟩, flags := 0, gens := [], used := 0 }) ∧
     Issues (.vchk n m u) (bareWord [n, m] .check 8 fun x => chkWord (x.xa n) (x.xa m) x) ∧
     Issues (.kand p q r t) (kMask t [q, r] (.k p) 2 fun x => kWord (x.k q &&& x.k r) x) ∧
     Issues (.kor p q r t) (kMask t [q, r] (.k p) 2 fun x => kWord (x.k q ||| x.k r) x) ∧
     Issues (.kxor p q r t) (kMask t [q, r] (.k p) 2 fun x => kWord (x.k q ^^^ x.k r) x) ∧
     Issues (.knot p q t) (kMask t [q] (.k p) 2 fun x => kWord (~~~(x.k q)) x) ∧
     Issues (.vxtr a t) (vWord t [a] .scalar 2 fun x => xtrWord (x.src a) x) ∧
     Issues (.vpack d a l t) (vWord t [a] (.v d) 2 fun x => packWord l.val (x.src a) x) ∧
     Issues (.vunpk d a l t) (vWord t [a] (.v d) 2 fun x => unpackWord l.val (x.src a) x) ∧
     Issues (.vnop u) (bareWord [] .none 0 noWord) ∧
     Issues (.vcfg i u) (bareWord [] .config 0 (cfgWord i)))

/-! ### Steps of the engines (95; 06, 12, 13) -/

/-- R131, R138, R139: V_FINISH of a word that is due: its flags join FLAGS of the task bank, it leaves the words in flight, and memory is as
before; nothing happens while none is due. R128 to R130, R266: MARKER_APPLY takes the marker at the head of the V queue of a slot whose core
runs and applies it. -/
def Obligations.VectorFinish : Prop :=
  (∀ (s : State) (i : SlotId) (f : VFlight),
     ((s.slotOf i).eng.vec.firstDue s.cycle = none → exec (.vFinish i) s = .next s) ∧
     ((s.slotOf i).eng.vec.firstDue s.cycle = some f → f.chk ≠ some false →
       ∃ t, exec (.vFinish i) s = .next t ∧ (t.slotOf i).bank.flags = (s.slotOf i).bank.flags ||| f.flags.setWidth 12 ∧
         (t.slotOf i).eng.vec.flight = (s.slotOf i).eng.vec.flight.filter (fun g => g.seq != f.seq) ∧
         (t.slotOf i).pc = (s.slotOf i).pc ∧ (∀ j, j ≠ i → t.slotOf j = s.slotOf j) ∧ ∀ a, t.mem.byte a = s.mem.byte a)) ∧
  (∀ (s : State) (i : SlotId) (q : QEntry) (r : List QEntry), (s.slotOf i).eng.qs.vq = q :: r → isMarker q.word = true →
     s.runs i.core = true →
     exec (.markerApply i) s = .next (s.mapSlot i fun x => (x.setQueue .v r).applyMarker q s.cycle))

/-- R258, R259: AG_ENTRY of a core that runs moves the next entry of a bound generator's walk between its admitted segment, which no commit
has locked (log 104), and its open port; an entry whose pointer fails its checks, or whose segment is larger than the quota, stops the
generator with that fault (R173, R175, R328; log 63), and a core that does not run moves nothing (R363). -/
def Obligations.GeneratorEntry : Prop :=
  ∀ (s u : State) (i : SlotId) (g : Fin 8) (port n off : Nat) (k : Walk) (seg : SegId) (y : Place),
    let x := s.slotOf i
    x.eng.ports.boundTo g = some port → x.eng.ports.walks.find? (fun e => e.1 == g.val) = some (n, k) → k.fault = none →
    k.next < walkLen k.img → x.portOpen port = true → x.fedBy port g = true →
    let p := walkPtr k.img k.next
    (s.runs i.core = true → s.decodePtr i p 32 = .ok (.seg seg off) → s.decodePtr i (p + 1023) 1 = .ok y →
      s.entryLocked seg off = false → s.lockedStores i = false →
      s.admitSet i (.ag i g) [seg] [imgWord k.img 0] 0 false = .go u →
      exec (.agEntry i g) s = .next ((u.flushLater i).moveEntry i g port seg off p)) ∧
    (s.runs i.core = true → s.decodePtr i p 32 = .ok (.seg seg off) → s.decodePtr i (p + 1023) 1 = .ok y →
      s.entryLocked seg off = false → s.lockedStores i = false →
      ∀ f, s.admitSet i (.ag i g) [seg] [imgWord k.img 0] 0 false = .tooLarge f →
        exec (.agEntry i g) s = .next (s.agFault i g ⟨0x08, word f, word x.quota, false⟩)) ∧
    (s.runs i.core = true → ∀ c t, s.decodePtr i p 32 = .error (c, t) →
      exec (.agEntry i g) s = .next (s.agFault i g ⟨c, p, t, false⟩)) ∧
    (s.runs i.core = true → s.decodePtr i p 32 = .ok (.seg seg off) → ∀ c t, s.decodePtr i (p + 1023) 1 = .error (c, t) →
      exec (.agEntry i g) s = .next (s.agFault i g ⟨c, p, t, false⟩)) ∧
    (s.runs i.core = false → exec (.agEntry i g) s = .next s)

/-- R251, R252, R272: C_START, when the turn of the core's slots is the slot's, takes a copy command whose channel is free; COPY_UNIT
performs a unit of an admitted command, or stops it with its fault, when only the error logs keep what the unit met (R188); C_COMPLETE of a
finished command whose units are all acknowledged counts its id as done, adds its flags to FLAGS, ends its journal entry and invalidates the
issuer's lines of what was written, which none of its loads then fills from before this point (R214). -/
def Obligations.CopySteps : Prop :=
  ∀ (s t : State) (i : SlotId) (h : Fin 8) (q : QEntry) (w : CWord) (y : Slot) (r r1 : CRun) (k : CKind),
    (s.runs i.core = true →
      let s1 := (List.finRange 8).foldl (fun t h => t.cRetry i h) s
      s1.cHead i = some (q, w) → s1.cTurn i = true →
      ((s1.slotOf i).chan w.chan).run = none → (s1.slotOf i).startTokens .c q.word q.popped = some y →
      exec (.cStart i) s = .next ((s1.mapCore i.core fun k => { k with copySlot := i.slot }).cTake i q w y)) ∧
    (s.runs i.core = true → ((s.slotOf i).chan h).run = some r → r.admitted = true → r.stopped = false →
      r.elem < cTotal r.img → (s.slotOf i).cPortOpen h r.img = true →
      ∀ w, cWordOf r.q.word = some w → w.kind = some k →
        (cRunUnit i h r w k s = .ok (r1, t) → exec (.copyUnit i h) s = .next (t.setRun i h (some r1))) ∧
        (∀ l e c t0 t1 n, cRunUnit i h r w k s = .error (.err l e c t0 t1 n) →
          exec (.copyUnit i h) s = .next (({ s with dies := l }).cFault i h e c t0 t1 n))) ∧
    (((s.slotOf i).chan h).run = some r → r.admitted = true → cTotal r.img ≤ r.elem →
      s.cUnacked i h r = false → (∀ n ∈ r.lines, s.lineHeld i.core n = false) →
      ∃ t, exec (.cComplete i h) s = .next t ∧ ((t.slotOf i).chan h).doneId = r.q.tid ∧ ((t.slotOf i).chan h).run = none ∧
        (t.slotOf i).bank.flags = (s.slotOf i).bank.flags ||| r.flags.setWidth 12 ∧
        (∀ e ∈ (t.slotOf i).eng.qs.journal, e.seq = r.q.seq → e.done = true) ∧
        (∀ n ∈ r.lines, t.l1Line i.core n = none ∧ tget 0 (t.coreOf i.core).floors n = s.now) ∧
        t.mem = (r.lines.foldl (fun t n => t.leaveLine i.core n) s).mem)

/-- R278, R286 to R289, R303: M_START takes the command at the head of the queue under the lease; MICRO_STEP advances an admitted one, or
stops it with its fault, and waits while a commit holds a granule of its segments locked (R218; log 104); M_COMPLETE of a finished one adds
its flags to FLAGS, frees its format word and clears MUPC; QUIESCENT_POINT stops an admitted command of a core that does not run. R278:
LEASE_IDLE_TIMEOUT ends a lease that has been idle for 256 cycles while another slot asks for it, and no earlier. -/
def Obligations.MatrixSteps : Prop :=
  (∀ (s s1 t : State) (i : SlotId) (q : QEntry) (l : List QEntry) (y : Slot) (r : MRun) (fw : BitVec 32) (fq : List (BitVec 32))
     (p : MPlan) (f : Sticky) (e : MErr),
     (s.runs i.core = true → s.takeLease i = some s1 → (s1.slotOf i).eng.qs.mStop = false → (s1.slotOf i).eng.mrun = none →
       (s1.slotOf i).eng.qs.mq = q :: l → s1.withinLease (clusterOfCore i.core) q = true →
       s1.lockedStores i = false → (s1.bandSlots i (wordParts q.word)).isSome = true → (s1.slotOf i).startTokens .m q.word q.popped = some y →
       exec (.mStart i) s = .next (s1.mTake i q y)) ∧
     (s.runs i.core = true → (s.clusterOf (clusterOfCore i.core)).holder = some i → (s.slotOf i).eng.mrun = some r →
       (s.slotOf i).eng.qs.fq = fw :: fq → r.admitted = true → r.finished = false → (s.slotOf i).planOf r.q fw = some p →
       (s.segLocked r.pins = true → exec (.microStep i) s = .next s) ∧
       (s.segLocked r.pins = false → s.mStep i p r = .ok (t, f) →
         exec (.microStep i) s = .next ((t.mapRun i fun r => { p.advance r with flags := r.flags ||| f }).mapCluster
           (clusterOfCore i.core) fun k => { k with steps := k.steps + p.parts })) ∧
       (s.segLocked r.pins = false → s.mStep i p r = .error e → exec (.microStep i) s = .next (s.mErr i e))) ∧
     ((s.slotOf i).eng.mrun = some r → r.finished = true →
       ∃ t, exec (.mComplete i) s = .next t ∧ (t.slotOf i).eng.mrun = none ∧ (t.slotOf i).eng.mupc = 0 ∧
         (t.slotOf i).eng.qs.fq = (s.slotOf i).eng.qs.fq.tail ∧ (∀ e ∈ (t.slotOf i).eng.qs.journal, e.seq = r.q.seq → e.done = true) ∧
         (t.slotOf i).bank.flags = (s.slotOf i).bank.flags ||| r.flags.setWidth 12 ∧ ∀ a, t.mem.byte a = s.mem.byte a) ∧
     ((s.slotOf i).eng.mrun = some r → s.runs i.core = false → r.admitted = true → r.finished = false →
       ∃ t, exec (.quiescentPoint i) s = .next t ∧ (∃ r2, (t.slotOf i).eng.mrun = some r2 ∧ r2.admitted = false) ∧
         ∀ a, t.mem.byte a = s.mem.byte a)) ∧
  (∀ (s : State) (c : Fin 64) (h : SlotId) (t : Nat),
     (s.clusterOf c).holder = some h → (s.clusterOf c).idleSince = some t →
     (s.cycle < t + 256 → exec (.leaseIdleTimeout c) s = .next s) ∧
     ((s.slotOf h).eng.qs.mq = [] → t + 256 ≤ s.cycle → (∃ r ∈ (s.clusterOf c).reqs, r.1 ≠ h) →
       ∃ u, exec (.leaseIdleTimeout c) s = .next u ∧ (u.clusterOf c).holder = none ∧ u.slots = s.slots ∧ u.mem = s.mem))

/-! ### Steps of memory and segments (95; 08, 09, 10) -/

/-- R170 to R177: TICKET_SERVE without a ticket does nothing; SEGMENT_EVICT of a claimed resident segment writes it home, and leaves any
other; SEGMENT_RECALL and FRESH_FILL bring in a member of the oldest ticket where room is free; COMPACTION moves frames and no byte. -/
def Obligations.SegmentSteps : Prop :=
  ∀ (s t : State) (c : Fin 64) (g : Seg) (k : Ticket) (b : Nat) (p : PoolId),
    (s.oldestIn c = none → exec (.ticketServe c) s = .next s) ∧
    (s.oldestIn c = some k → exec (.ticketServe c) s = .next (s.serve c)) ∧
    (s.segOf g.id = some g → g.claimed = true → g.state = .resident → s.pinned g = false →
      (s.evictSeg g = .ok t → exec (.segmentEvict g.id) s = .next t) ∧
      (∀ e, s.evictSeg g = .error e →
        exec (.segmentEvict g.id) s = .next (s.mapSeg g.id fun g => { g with claimed := false }))) ∧
    (s.segOf g.id = some g → g.claimed = false → exec (.segmentEvict g.id) s = .next s) ∧
    (s.segOf g.id = some g → s.recallable g = some k → s.placeFor g.pool g.frames = some b →
      (s.bringIn g b = .ok t →
        (g.state = .absent → exec (.segmentRecall g.id) s = .next t) ∧ (g.state = .fresh → exec (.freshFill g.id) s = .next t)) ∧
      (∀ e, s.bringIn g b = .error e →
        (g.state = .absent → exec (.segmentRecall g.id) s = .next (s.ticketFails k (k.ptrOf g.id) e)) ∧
        (g.state = .fresh → exec (.freshFill g.id) s = .next (s.ticketFails k (k.ptrOf g.id) e)))) ∧
    (∃ u, exec (.compaction p) s = .next u ∧ u.mem = s.mem ∧ u.slots = s.slots ∧ u.segs.map (·.data) = s.segs.map (·.data) ∧
      u.segs.map (·.id) = s.segs.map (·.id))

/-- R183, R184: WRITE_BACK of a line the L1 does not hold leaves memory; of one it holds, the line stays with no dirty granule and leaves
the dirty FIFO, and where its home is plain HBM of its partition, the bytes of its dirty granules are in memory and every other byte is as
before; a line that a commit has locked waits (log 104). LOAD_BLOCK_FILL fills a declared line once. R204: POOL_SCRUB takes the page at the
head of the scrub queue, writes zero granules over it, and puts it at the end of the scrubbed list; while the partition is quiesced or
stopped it writes nothing (R386). -/
def Obligations.CacheSteps : Prop :=
  (∀ (s : State) (c : Fin 256) (n : Nat) (l : L1Line) (i : SlotId) (h : Fin 16) (k : Fin 64) (b : Nat × Block),
     (s.lineLocked n = true → exec (.writeBack c n) s = .next s) ∧
     (s.lineLocked n = false → s.l1Line c n = none → ∃ t, exec (.writeBack c n) s = .next t ∧ ∀ a, t.mem.byte a = s.mem.byte a) ∧
     (s.lineLocked n = false → s.l1Line c n = some l → ∃ t m, exec (.writeBack c n) s = .next t ∧ t.l1Line c n = some m ∧
       (∀ g ∈ m.grans, g.dirty = false) ∧ m.grans.map (·.g) = l.grans.map (·.g) ∧ n ∉ (t.coreOf c).fifo ∧
       (l.line = n → (s.partOf l.part).logMode = 0 → (∀ k < l.grans.length, physOf (32 * (4 * n + k)) = .hbm ∧
           s.regionOk l.part (32 * (4 * n + k)) = true ∧ s.keyOf l.part (some l.key) (32 * (4 * n + k)) = none ∧
           s.hit (dieOfCore c) l.part .l1 (4 * n + k) = false ∧ s.isLocked (.phys (4 * n + k)) = false) →
         (∀ k x, l.grans[k]? = some x → ∀ b < 32, t.mem.byte (32 * (4 * n + k) + b) =
           if x.dirty then x.g.data.extractLsb' (8 * b) 8 else s.mem.byte (32 * (4 * n + k) + b)) ∧
         ∀ a, a < 128 * n ∨ 128 * n + 32 * l.grans.length ≤ a → t.mem.byte a = s.mem.byte a)) ∧
     ((s.slotOf i).blocks.find? (fun b => b.1 == h.val) = some b → s.lineLocked n = false →
       (b.2.lines[k.val]? = some (n, false) → exec (.loadBlockFill i h k) s = .next (s.fillBlockLine i h.val b.2 k.val n)) ∧
       (b.2.lines[k.val]? = some (n, true) → exec (.loadBlockFill i h k) s = .next s))) ∧
  (∀ (s : State) (p : Fin 16) (k : Pool) (n : Nat) (r : List Nat) (g : Page),
     (s.quiescing p = true → exec (.poolScrub p) s = .next s) ∧
     (s.quiescing p = false → (s.partOf p).pool = some k → k.scrubQ = n :: r → s.pageSite p k n = some (.here g) →
       ∃ t, exec (.poolScrub p) s = .next t ∧ t = (s.scrubGrans g.use (g.pa / 32) (2 ^ k.lg / 32)).mapPool p (fun k =>
           { k with scrubQ := r, scrubbed := k.scrubbed ++ [n] }) ∧
         (t.partOf p).pool = some { k with scrubQ := r, scrubbed := k.scrubbed ++ [n] }))

/-! ### Steps of tasks (95; 05, 16) -/

/-- R97, R102, R111, R336, R340: TASK_START, RESUME and PRELOAD of the record at the head of a core's deque on a Free slot. A record whose
scope the core has seen cancelled is dropped instead (R342). R13, R101: the start state of a task on its slot: the PC is the record's entry,
g1 its argument, g30 the top of the private area, every other register and FLAGS zero, TOL zero, task level, VLWMODE and the context those
of the environment, the quota the record's; nothing of an earlier task is left. -/
def Obligations.TaskStarts : Prop :=
  (∀ (s t : State) (i : SlotId) (r : Rec) (l : List Rec) (e a : Nat) (x : Extra) (v : Option Nat),
     s.starts i.core = true → (s.slotOf i).status = .free → s.headRec i.core = some (r, l) →
     (r.kind = .fresh ∨ r.kind = .rerun → s.recSeen i.core r = false → s.freeEnv r.info.part = some e → s.startWants r e = [] →
       (s.setDeque i.core l).startRec i r e = some t → exec (.taskStart i) s = .next (t.forget r.info.part)) ∧
     (r.kind = .fresh ∨ r.kind = .rerun → s.recSeen i.core r = true → exec (.taskStart i) s = .next ((s.setDeque i.core l).dropRec r)) ∧
     (r.kind = .resume a v x →
       (exec (.resume i) s = .next ((s.setDeque i.core l).resumeRec i r)) ∧ exec (.taskStart i) s = .next s) ∧
     (r.kind = .fresh ∨ r.kind = .rerun →
       ∃ u, exec (.preload i) s = .next u ∧ (u.slotOf i).status = .preloaded ∧ (u.slotOf i).next = some r ∧ (u.coreOf i.core).deque = l ∧
         u.mem = s.mem) ∧
     (r.kind = .resume a (some e) x → ∃ u, exec (.preload i) s = .next u ∧ u = ((s.setDeque i.core l).mapSlot i fun x =>
         { x with status := .preloaded, next := some r, quota := r.quota, ctx := { Ctx.none with key := envKey r.info.part e } }).preloadSegs
           ((((s.setDeque i.core l).mapSlot i fun x =>
             { x with status := .preloaded, next := some r, quota := r.quota, ctx := { Ctx.none with key := envKey r.info.part e } }).chargedTo
               (envKey r.info.part e)).filter fun g => g.atSave && decide (g.state = .absent)))) ∧
  (∀ (x : Slot) (r : Rec) (c : Ctx) (v : Bool) (n : Nat),
     let y := x.started r c v n
     y.pc = imgWord r.info.record 0 ∧ y.bank.get 1 = imgWord r.info.record 1 ∧ y.bank.get 30 = 0x4000000000000000 + word c.privSize ∧
       (∀ q : Fin 32, q ≠ 1 → q ≠ 30 → y.bank.get q = 0) ∧ y.bank.flags = 0 ∧ y.tol = 0 ∧ y.level = .task ∧ y.status = .ready ∧
       y.ctx = c ∧ y.vlw = v ∧ y.quota = r.quota ∧ y.task = some { r.info with start := n } ∧ y.frame.inTrap = false ∧ y.tx = none ∧ y.sq = [] ∧
       y.blocks = [] ∧ y.eng.qs.journal = [])

/-- R98, R340: TASK_END of a task whose work is done frees its slot and reports it; PRELOAD_COMPLETE starts the record of a preload, or puts
it back where the deque holds a more urgent one. -/
def Obligations.TaskEnds : Prop :=
  ∀ (s t : State) (i : SlotId) (k : TaskInfo) (r : Rec) (e : Nat),
    ((s.slotOf i).task = some k → s.canEnd i = true → s.endWants k = [] →
      exec (.taskEnd i) s = .next (((((((s.drainFifo i.core).stopWork i).freeSlot i).leaveTask k (s.slotOf i).doms false).completeWord
        k).nodeEnded k true).forget k.part)) ∧
    ((s.slotOf i).task = some k → s.canEnd i = false → exec (.taskEnd i) s = .next s) ∧
    ((s.slotOf i).status = .preloaded → (s.slotOf i).next = some r → s.starts i.core = true →
      ((s.coreOf i.core).deque.all (fun x => x.spilled || decide (r.info.prio ≤ x.info.prio)) = false →
        exec (.preloadComplete i) s = .next ((s.endPreload i).pushHead i.core r)) ∧
      ((s.coreOf i.core).deque.all (fun x => x.spilled || decide (r.info.prio ≤ x.info.prio)) = true → r.kind = .fresh ∨ r.kind = .rerun →
        s.recSeen i.core r = false → s.freeEnv r.info.part = some e → s.startWants r e = [] →
        (s.endPreload i).startRec i r e = some t → exec (.preloadComplete i) s = .next (t.forget r.info.part)))

/-- R106 to R108, R114: GRAPH_NODE_PLACE, LAUNCH_SCAN, and the wakes of the launch engine: periodic after 65,536 cycles, from the host at
once or merged within 1 us, and the end of the window. That a scan whose queue heads stand on another device asks for them first, and does
nothing else in that step, is the model's reading (log 108). -/
def Obligations.LaunchSteps : Prop :=
  ∀ (s : State) (p : Fin 16) (m : BitVec 4) (g : GInst) (n w : Nat) (l : List Nat) (r : Rec),
    ((s.partOf p).insts.find? (fun g => !g.unplaced.isEmpty && !g.broken) = some g → g.unplaced = n :: l →
      g.recs.find? (fun r => r.info.node = some (g.graph, g.index * 65536 + n)) = some r →
      let s1 := s.mapPart p fun q => q.mapInst g.graph g.index fun g => { g with unplaced := l }
      exec (.graphNodePlace p) s = .next (if s1.recCancelled r then s1.dropRec r else s1.place r)) ∧
    (s.launches p = true → (s.partOf p).scanMask ≠ 0 →
      let z := (s.mapPart p fun q => { q with scanMask := 0, lastScan := s.cycle }).scanQueues p (s.partOf p).scanMask [0, 1, 2, 3]
      (∀ t, z = .ok t → exec (.launchScan p) s =
        .next ((t.mapPart p fun q => { q with scanMask := q.scanMask ||| q.wakeAgain, wakeAgain := 0 }).forget p)) ∧
      (∀ l, z = .error l → exec (.launchScan p) s = .next (s.ask p l))) ∧
    ((s.partOf p).scanMask = 0 → exec (.launchScan p) s = .next s) ∧
    ((s.partOf p).valid = true → (s.partOf p).lastScan + 65536 ≤ s.cycle →
      ∃ t, exec (.periodicWake p) s = .next t ∧ (t.partOf p).scanMask = 15 ∧ t.slots = s.slots ∧ t.mem = s.mem) ∧
    (s.cycle < (s.partOf p).lastScan + 65536 → exec (.periodicWake p) s = .next s) ∧
    (s.pkg.cfg.status ≠ 3 → (s.partOf p).lastWake = none →
      ∃ t, exec (.wake p m) s = .next t ∧ (t.partOf p).scanMask = (s.partOf p).scanMask ||| m ∧
        (t.partOf p).lastWake = some s.cycle ∧ t.slots = s.slots ∧ t.mem = s.mem) ∧
    ((s.partOf p).lastWake = some w → s.cycle < w + 1600 →
      ∃ t, exec (.wake p m) s = .next t ∧ (t.partOf p).wakeAgain = (s.partOf p).wakeAgain ||| m ∧
        (t.partOf p).scanMask = (s.partOf p).scanMask ∧ t.slots = s.slots ∧ t.mem = s.mem) ∧
    ((s.partOf p).lastWake = some w → w + 1600 ≤ s.cycle → (s.partOf p).wakeAgain ≠ 0 → (s.partOf p).scanMask = 0 →
      s.launches p = true → ∃ t, exec (.wakeWindowEnd p) s = .next t ∧ (t.partOf p).scanMask = (s.partOf p).wakeAgain ∧
        (t.partOf p).wakeAgain = 0 ∧ (t.partOf p).lastWake = some s.cycle ∧ t.slots = s.slots ∧ t.mem = s.mem)

/-- R111, R112, R344: STEAL of a thief that may takes the oldest record of the victim its LFSR names; DEQUE_REFILL brings the oldest spilled
record back; SPILL_SWEEP and KILL drop the records and tasks of scopes whose mark the core sees (R342), and change nothing where there is
none. -/
def Obligations.DequeSteps : Prop :=
  ∀ (s : State) (c : Fin 256) (r : Rec),
    let k := s.coreOf c
    let dom := (s.coresOf (s.partNo c)).filter (· != c)
    let x := lfsrStep k.lfsr
    let v := dom.getD (x.toNat % dom.length) c
    let s1 := s.mapCore c fun k => { k with lfsr := x }
    (s.starts c = true → dom ≠ [] → k.deque = [] → k.backoff ≤ s.cycle → (∃ i ∈ slotsOf c, (s.slotOf i).status = .free) →
      (s.stealable v c = some r → s.recSeen c r = false →
        exec (.steal c) s = .next (((s1.setDeque v ((s1.coreOf v).deque.dropLast)).mapCore c fun k => { k with tries := 0 }).pushHead c
          { r with spilled := false })) ∧
      (s.stealable v c = none → k.tries = 0 → exec (.steal c) s = .next (s1.mapCore c fun k => { k with tries := k.tries + 1 })) ∧
      (s.stealable v c = none → 1 ≤ k.tries →
        exec (.steal c) s = .next (s1.mapCore c fun k => { k with tries := 0, backoff := s.cycle + 1024 }))) ∧
    (∀ l₁ l₂ : List Rec, k.deque = l₁ ++ r :: l₂ → r.spilled = true → (∀ y ∈ l₂, y.spilled = false) →
      (k.deque.filter fun r => !r.spilled).length < 32 →
      ∃ t, exec (.dequeRefill c) s = .next t ∧ (t.coreOf c).deque = l₁ ++ { r with spilled := false } :: l₂ ∧ t.slots = s.slots ∧
        t.mem = s.mem) ∧
    ((∀ r ∈ k.deque, r.spilled = true → s.recSeen c r = false) →
      ∃ t, exec (.spillSweep c) s = .next t ∧ (t.coreOf c).deque = k.deque ∧ t.slots = s.slots ∧ t.mem = s.mem) ∧
    (∀ y ∈ k.deque, s.recSeen c y = true → y.spilled = true → k.deque = [y] →
      exec (.spillSweep c) s = .next ((s.setDeque c []).dropSaved c y)) ∧
    (∀ (i : SlotId) (t : TaskInfo), (s.slotOf i).task = some t → (s.slotOf i).level = .task → (s.slotOf i).atBoundary = true →
      (s.partOf t.part).cancelSeen i.core s.cycle t.scope = true → s.killAt i = s.killSlot i) ∧
    (∀ n : Nat, ((s.seeMarks c).partOf (s.partNo c)).cancelSeen c s.cycle n = (s.partOf (s.partNo c)).cancelled n) ∧
    ∃ t, exec (.kill c) s = .next t ∧ t = s.killCore c ∧
      ((∀ i ∈ slotsOf c, (s.slotOf i).task = none ∧ (s.slotOf i).next = none) → k.deque = [] → s.cancelledNodes (s.partNo c) = [] →
        t.slots = s.slots ∧ t.mem = s.mem)

/-- R97, R109, R161, R261: the ends of waits: YIELD goes on past its word after another slot has issued, or after 64 cycles with none Ready;
CHWAIT and TKWAIT are executed again once what they wait for is there; a stall ends when its cause has gone; an AWAIT reads again after a
store to its granule or 4,096 cycles; a core whose slot has stalled for more than 64 cycles chooses again. -/
def Obligations.WaitEnds : Prop :=
  ∀ (s : State) (i : SlotId) (c : Fin 256) (h : Fin 8) (n : Nat) (e : Eng) (r : Stall) (d : Fin 32) (va goal : Word) (l : Loc) (j : SlotId),
    let x := s.slotOf i
    (x.status = .waiting .yield →
      (s.otherIssued i = true → exec (.waitSatisfied i) s = .next (s.setSlot i (x.readyAt (nextPc x.pc) s.cycle))) ∧
      (s.otherIssued i = false → exec (.waitSatisfied i) s = .next s) ∧
      (x.sched.since + 64 ≤ s.cycle → s.otherReady i = false →
        exec (.yieldTimeout i) s = .next (s.setSlot i (x.readyAt (nextPc x.pc) s.cycle))) ∧
      (s.cycle < x.sched.since + 64 → exec (.yieldTimeout i) s = .next s)) ∧
    (x.status = .waiting (.chwait h n) → doneReached (x.chan h).doneId n = true →
      exec (.waitSatisfied i) s = .next (s.setSlot i (x.readyAt x.pc s.cycle))) ∧
    (x.status = .waiting (.tkwait e) → 0 < (x.token e .s).n → exec (.waitSatisfied i) s = .next (s.setSlot i (x.readyAt x.pc s.cycle))) ∧
    (x.sched.stall = some r →
      (s.stallFree i r = true → ∃ t, exec (.stallEnd i) s = .next t ∧ (t.slotOf i).sched.stall = none ∧ (t.slotOf i).pc = x.pc ∧
        (t.slotOf i).bank = x.bank ∧ t.mem = s.mem) ∧
      (s.stallFree i r = false → exec (.stallEnd i) s = .next s)) ∧
    (x.status = .waiting (.await d va goal l) → x.sched.awaitHit = false → s.cycle < x.sched.since + 4096 →
      exec (.awaitReread i) s = .next s) ∧
    (x.status = .waiting (.await d va goal l) → x.sched.awaitHit = true ∨ x.sched.since + 4096 ≤ s.cycle →
      let u : State := { s.setSlot i { x with status := .ready, sched := { x.sched with readySince := s.cycle, awaitHit := false } } with cur := i }
      ∀ t, awaitOp d va goal u = .ok ((), t) → (t.slotOf i).status = .ready →
        exec (.awaitReread i) s = .next { t with cur := s.cur }) ∧
    ((s.slotOf (s.curOf c)).canIssue = true → (s.slotOf (s.curOf c)).sched.stall = some r →
      (s.cycle ≤ (s.slotOf (s.curOf c)).sched.since + 64 → exec (.slotReselect c) s = .next s) ∧
      ((s.slotOf (s.curOf c)).sched.since + 64 < s.cycle → s.chooseSlot c = some j →
        exec (.slotReselect c) s = .next (s.turnTo j)))

/-- R119, R120: BARRIER_LANDING delivers the oldest landing of a partition to its domain, on another device as a message (R390; log 75);
BARWAIT_RETURN reports a phase that has ended. -/
def Obligations.BarrierSteps : Prop :=
  ∀ (s : State) (p : Fin 16) (l : Landing) (r : List Landing) (i : SlotId) (d : Fin 32) (v : Fin 8) (t : TaskInfo) (id : Nat) (m : Member)
    (e : PhaseEnd),
    ((s.partOf p).landings = l :: r → s.domHome p l.level l.id = none →
      ∃ u, exec (.barrierLanding p) s = .next u ∧ (u.partOf p).landings = r ∧
        (u.partOf (s.domPart p l.level)).doms = (updFirst (fun d => d.level == l.level && d.id == l.id)
          (fun d => d.landing l.task l.bytes l.phase) (s.partOf (s.domPart p l.level)).doms).filter (fun d => !d.members.isEmpty) ∧
        u.slots = s.slots ∧ u.mem = s.mem) ∧
    ((s.partOf p).landings = l :: r → ∀ dev, s.domHome p l.level l.id = some dev →
      exec (.barrierLanding p) s =
        .next ((s.mapPart p fun q => { q with landings := r }).sendDom p dev l.id l.task (.land l.bytes l.phase))) ∧
    ((s.slotOf i).status = .waiting (.barwait d v) → (s.slotOf i).task = some t → s.memberAt t (s.slotOf i) v.val = some (id, m) →
      (m.result = some e → exec (.barwaitReturn i) s = .next (s.barReturn i t d v.val id m e)) ∧
      (m.result = none → exec (.barwaitReturn i) s = .next s))

/-! ### Asynchronous causes and configuration (95; 16, 20) -/

/-- R326 to R328, Table 3: at the boundary of a slot that is not in a trap, the causes in their order. A task whose core sees its scope
cancelled, or that has cancelled its own (R373), is killed; one whose partition is quiesced is saved; then a deferred store fault (redone in
the first run of an idempotent task, R348), an engine fault, the error event, the watchdog, the pre-emption and the device event each enter
the handler as an asynchronous trap, with TEPC at the boundary. A supervisor slot without a task takes the two events, and so does slot 0 of
a core whose slots are all Free (log 41 has the TINFO registers that the spec leaves open; that bits 63:48 of PC stay zero where TVB + 64 x
cause passes the top is log 22, and how a boundary is reached for the save is log 9, both the model's). -/
def Obligations.AsyncDelivered : Prop :=
  ∀ (s : State) (i : SlotId),
    let x := s.slotOf i
    let err := s.eventFor i.core (·.errPend) = true
    let dev := s.eventFor i.core (·.devPend) = true
    let error := Delivers s i 0 0x19 fun u => (u.partOf (s.partNo i.core)).errPend = false
    let device := Delivers s i 0 0x1A fun u => (u.partOf (s.partNo i.core)).devPend = false ∧
      (u.slotOf i).frame.tinfo0 = (s.partOf (s.partNo i.core)).doorbell
    (s.issues i = true → x.atBoundary = true → x.tx = none → ∀ t, x.task = some t → x.level = .task →
      (x.pend.kill.isSome = true → exec (.asyncDelivery i) s = .next (s.killSlot i)) ∧
      ((s.partOf t.part).cancelSeen i.core s.cycle t.scope = true → exec (.asyncDelivery i) s = .next (s.killSlot i)) ∧
      ((s.partOf t.part).cancelSeen i.core s.cycle t.scope = false → x.pend.kill = none → s.quiescing t.part = true →
        s.canQuiesce i = true →
        exec (.asyncDelivery i) s = .next (s.quiesceSlot i)) ∧
      ((s.partOf t.part).cancelSeen i.core s.cycle t.scope = false → x.pend.kill = none → s.quiescing t.part = false →
        x.frame.inTrap = false →
        (∀ f r, x.pend.stores = f :: r →
          (f.cause ≠ 0x0C ∧ f.cause ≠ 0x0D ∨ t.idem = false ∨ t.rerun = true → Delivers s i 0 f.cause fun u => (u.slotOf i).pend.stores = r ∧
            (u.slotOf i).frame.tinfo0 = f.tinfo0 ∧ (u.slotOf i).frame.tinfo1 = f.tinfo1 ∧ (u.slotOf i).frame.tinfo2 = f.tinfo2 ∧
            (u.slotOf i).frame.tinfo3 = f.tinfo3) ∧
          (f.cause = 0x0C ∨ f.cause = 0x0D → t.idem = true → t.rerun = false →
            exec (.asyncDelivery i) s = .next (((s.unpinPreloads i.core).mapSlot i fun x =>
              { x with pend := { x.pend with stores := x.pend.stores.drop 1 } }).rerun i))) ∧
        (x.pend.stores = [] → ∀ f, x.oldestFault = some f → Delivers s i f.eng.code f.cause fun u =>
          (u.slotOf i).pend.engines = x.pend.engines.erase f ∧ (u.slotOf i).frame.tinfo0 = f.tinfo0 ∧
          (u.slotOf i).frame.tinfo1 = f.tinfo1 ∧ (u.slotOf i).frame.tinfo2 = f.tinfo2 ∧ (u.slotOf i).frame.tinfo3 = f.tinfo3) ∧
        (x.pend.stores = [] → x.oldestFault = none →
          (err → error) ∧
          (¬ err → x.pend.wdog = true → Delivers s i 0 0x14 fun u => (u.slotOf i).pend.wdog = false) ∧
          (¬ err → x.pend.wdog = false → x.pend.preempt = true → x.loop.ready = true →
            Delivers s i 0 0x15 fun u => (u.slotOf i).pend.preempt = false ∧ (u.slotOf i).loop.ready = false) ∧
          (¬ err → x.pend.wdog = false → x.pend.preempt = false → dev → device)))) ∧
    (s.issues i = true → x.atBoundary = true → x.tx = none → x.task = none → x.level = .supervisor → x.frame.inTrap = false →
      (err → error) ∧ (¬ err → dev → device)) ∧
    (s.runs i.core = true → i.slot = 0 → (∀ j ∈ slotsOf i.core, (s.slotOf j).status = .free) → (err ∨ dev) → ¬ (err ∧ dev) →
      ∃ u, exec (.asyncDelivery i) s = .next u ∧ (u.slotOf i).level = .supervisor ∧ (u.slotOf i).task = none ∧
        (u.slotOf i).frame.tepc = (s.partOf (s.partNo i.core)).word 9 ∧
        (u.slotOf i).frame.tcause = BitVec.ofNat 11 (1024 + if err then 0x19 else 0x1A) ∧ ∀ a, u.mem.byte a = s.mem.byte a)

/-- R332 to R334, R338: the watchdog, the budget and the bound of a loop drain make their causes pending when their limits have passed, and
not before; SAVE_TORN cancels the scope of the task whose save it stops, kills it, logs and reports it. -/
def Obligations.CountersExpire : Prop :=
  ∀ (s : State) (i : SlotId) (t : TaskInfo),
    let x := s.slotOf i
    (s.issues i = true → x.task.isSome = true → x.loop.wdog ≠ 0 → x.sched.wdogSince + 1024 * x.loop.wdog.toNat ≤ s.cycle →
      ∃ u, exec (.watchdog i) s = .next u ∧ (u.slotOf i).pend.wdog = true ∧ (u.slotOf i).pc = x.pc ∧ u.mem = s.mem) ∧
    (s.cycle < x.sched.wdogSince + 1024 * x.loop.wdog.toNat → exec (.watchdog i) s = .next s) ∧
    (x.task.isSome = true → x.loop.budget ≠ 0 → x.loop.spent = false → 1024 * x.loop.budget.toNat ≤ x.sched.budgetUsed →
      ∃ u, exec (.preemptBudget i) s = .next u ∧ (u.slotOf i).pend.preempt = true ∧ (u.slotOf i).pc = x.pc ∧ u.mem = s.mem) ∧
    (x.sched.budgetUsed < 1024 * x.loop.budget.toNat → exec (.preemptBudget i) s = .next s) ∧
    (x.pend.preempt = true → x.loop.ready = false → x.loop.reqCycle + 65536 ≤ s.cycle →
      ∃ u, exec (.loopDrainTimeout i) s = .next u ∧ (u.slotOf i).loop.ready = true ∧ u.mem = s.mem) ∧
    (s.cycle < x.loop.reqCycle + 65536 → exec (.loopDrainTimeout i) s = .next s) ∧
    (x.task = some t → s.saving i = true → ∃ u, exec (.saveTorn i) s = .next u ∧ (u.slotOf i).status = .free ∧
      (∃ m ∈ u.pkg.mbox, m = [0x18, (s.partNo i.core).val, i.core.val, i.slot.val]) ∧
      let v := s.mapPart t.part fun q => q.withRoot.markScope t.scope s.cycle
      (t.scope = 0 ∨ ((s.partOf t.part).scope t.scope).isSome = true → (v.partOf t.part).cancelled t.scope = true) ∧
      u = (((v.logError (dieOfCore i.core) t.part
        ⟨logWord 7 (some x.ctx.ctx) false i.core 6, 0, word s.cycle, 0⟩).killSlot i).report 0x18 i).cfgBusy t.part) ∧
    (s.saving i = false → exec (.saveTorn i) s = .next s)

/-! ### BRLOOP (04 R84; 06 R130; 16 R333) -/

/-- R84, R130, R333: BRLOOP outside a transaction. Taken with a malformed target it traps; with no room in the journal for its markers it
waits. A kernel stage counts ga down; in the epilogue EC counts down; it is taken while one is left. Each execution turns RRB by 15 and
sends one marker, with the stage bit set in a kernel stage only. While a drain is on, ga stays and EC counts down; at its end the loop is
refilled from the saved ga and EC, with a second marker (log 26), if any of it is left, and otherwise the loop ends; the refill takes the
target unchecked (log 22). -/
def Obligations.LoopBranch : Prop :=
  ∀ (s : State) (a : Fin 32) (o : BitVec 14), s.me.tx = none →
    let i := Instr.brloop a o
    let tgt := branchTarget s.pc o
    let starts := s.me.pend.preempt && !s.me.loop.ready && !s.me.loop.drain && decide (1 ≤ s.me.ec.toNat ∧ s.me.ec.toNat ≤ 8)
    let drain := s.me.loop.drain || starts
    let kernel := s.reg a ≠ 0 ∧ drain = false
    let taken := kernel ∨ 2 ≤ s.me.ec.toNat
    let fits := bitsOf tgt 48 16 = 0 ∧ bitsOf tgt 0 2 = 0
    let words := fun (t : State) => t.me.eng.qs.vq.map (·.word)
    let turned := fun (t : State) => t.me.rrb = (s.me.rrb + 15) % 16 ∧ t.me.loop.inLoop = decide taken ∧ t.flags = s.flags ∧
      t = { s with slots := t.slots } ∧ ∀ j, j ≠ s.cur → t.slotOf j = s.slotOf j
    (taken → bitsOf tgt 48 16 ≠ 0 → Traps i s 0x04 tgt 0 0 0) ∧
    (taken → bitsOf tgt 48 16 = 0 → bitsOf tgt 0 2 ≠ 0 → Traps i s 0x03 tgt 0 0 0) ∧
    ((taken → fits) → s.me.journalFull = true → exec i s = .next (s.stallMe .journalFull)) ∧
    (s.me.journalFull = false →
      (kernel → fits → ∃ t, exec i s = .next t ∧ turned t ∧ s.OnlyReg t a (s.reg a - 1) ∧ t.me.ec = s.me.ec ∧ t.pc = tgt ∧
        words t = words s ++ [0x7F000001]) ∧
      (¬ kernel → 2 ≤ s.me.ec.toNat → fits → ∃ t, exec i s = .next t ∧ turned t ∧ (∀ r, t.reg r = s.reg r) ∧ t.me.ec = s.me.ec - 1 ∧
        t.pc = tgt ∧ words t = words s ++ [0x7F000000]) ∧
      (¬ taken → drain = false → ∃ t, exec i s = .next t ∧ turned t ∧ (∀ r, t.reg r = s.reg r) ∧ t.me.ec = 0 ∧ t.pc = nextPc s.pc ∧
        words t = words s ++ [0x7F000000]) ∧
      (¬ taken → drain = true →
        let left := if starts then s.reg a else s.me.loop.dra
        let ec := if starts then s.me.ec else s.me.loop.drs
        (left = 0 → ∃ t, exec i s = .next t ∧ turned t ∧ (∀ r, t.reg r = s.reg r) ∧ t.me.ec = 0 ∧ t.pc = nextPc s.pc ∧
          t.me.loop.drain = false ∧ t.me.loop.ready = true ∧ words t = words s ++ [0x7F000000]) ∧
        (left ≠ 0 → s.me.journalLacks 2 = true → exec i s = .next (s.stallMe .journalFull)) ∧
        (left ≠ 0 → s.me.journalLacks 2 = false → ∃ t, exec i s = .next t ∧ turned t ∧ s.OnlyReg t a (left - 1) ∧ t.me.ec = ec ∧ t.pc = tgt ∧
          t.me.loop.drain = false ∧ t.me.loop.ready = true ∧
          words t = words s ++ [0x7F000000, BitVec.ofNat 32 (0x7F000200 + 2 * bitsOf ec 0 4)])))

/-! ### Configuration (20 R379 to R386) -/

/-- R380 to R383: CFG_CTL is ignored while a transaction is on, answers INVALID for a staged layout that is not one, and otherwise starts
one that quiesces the affected partitions; it is committed once they are quiet, and ends BUSY when CFG_TMO has passed since all their tasks
were saved, and not before. The heads of launch queues on other devices are asked for first (log 108). R378, R384, R386: PART_RUN, PART_STOP
and PART_RESET of a valid partition, CORE_RUN of a physical core, and none of them has an effect where there is no such partition.
PART_RESET kills every task, and the supervisor starts at sventry once what they have sent to other devices is acknowledged (log 11). -/
def Obligations.PartitionSteps : Prop :=
  (∀ (s : State),
     let c := s.pkg.cfg
     let parts := c.affected.map (Fin.ofNat 16)
     let limit := 1600 * (s.pfReg 0x10).toNat
     let forgets := fun (t : State) => parts.foldl (fun t p => t.forget p) t
     (c.status = 3 → exec .cfgCtl s = .next s) ∧
     (s.up = true → c.status ≠ 3 → s.layoutOk = false →
       ∃ t, exec .cfgCtl s = .next t ∧ t = { s with pkg := { s.pkg with cfg := { c with status := 2 } } }) ∧
     (s.up = true → c.status ≠ 3 → s.layoutOk = true → exec .cfgCtl s = .next
       (((s.mapPkg fun k => { k with cfg := ⟨3, none, s.affectedParts⟩ }).quiesceAll s.affectedParts).noteSaved)) ∧
     (c.status = 3 → c.start = none → (∀ p ∈ c.affected, s.allSaved (Fin.ofNat 16 p) = true) → s.noteSaved.pkg.cfg.start = some s.cycle) ∧
     (c.status = 3 → (∀ p ∈ parts, ∀ k ∈ [0, 1, 2, 3], s.queueWants p k = []) →
       ((∀ p ∈ c.affected, s.quiet (Fin.ofNat 16 p) = true) →
         exec .configCommit s = .next (forgets s.commit) ∧ s.commit.pkg.cfg.status = 0 ∧
         ∀ t, c.start = some t → t + limit ≤ s.cycle → exec .cfgTmo s = .next (forgets s)) ∧
       (¬ (∀ p ∈ c.affected, s.quiet (Fin.ofNat 16 p) = true) →
         exec .configCommit s = .next (forgets s) ∧
         ∀ t, c.start = some t → t + limit ≤ s.cycle → ∃ u, exec .cfgTmo s = .next u ∧ u.pkg.cfg.status = 1 ∧ u.slots = s.slots ∧
           u.mem = s.mem)) ∧
     (∀ t, c.start = some t → s.cycle < t + limit → exec .cfgTmo s = .next s) ∧
     (c.start = none → exec .cfgTmo s = .next s) ∧
     (c.status ≠ 3 → exec .configCommit s = .next s ∧ exec .cfgTmo s = .next s)) ∧
  (∀ (s : State) (p : Fin 16) (c l : Fin 256), s.up = true →
     ((s.partOf p).valid = false → exec (.partRun p) s = .next s ∧ exec (.partStop p) s = .next s ∧ exec (.partReset p) s = .next s) ∧
     ((s.partOf p).valid = true →
       let r := s.mapPart p fun q => { q with frozen := false, stopped := false }
       let z := ((s.mapPart p fun q => { q with stopped := true }).flushSupervisors ((s.coresOf p).flatMap slotsOf)).quiesce p
       ((List.range (s.partOf p).envCount).flatMap (s.adoptWants p) = [] →
         exec (.partRun p) s = .next ((r.adoptAll p (s.partOf p).envCount).forget p)) ∧
       exec (.partStop p) s = .next (z.evictUnpinned p (z.segs.map (·.id))) ∧
       exec (.partReset p) s = .next (s.resetPart p) ∧
       ∃ u : State, s.resetPart p = u.restart p ∧ (u.partOf p).resetting = true ∧ (u.partOf p).keys = []) ∧
     (∀ u : State, (u.partOf p).resetting = true →
       (u.ackReady p 0 = false → u.restart p = u) ∧
       (u.ackReady p 0 = true → ((u.restart p).partOf p).resetting = false ∧ ((u.restart p).partOf p).frozen = false ∧
         ((u.restart p).partOf p).keys = [] ∧ ((u.restart p).slotOf ⟨((u.restart p).partOf p).icore, 0⟩).level = .supervisor ∧
         ((u.restart p).slotOf ⟨((u.restart p).partOf p).icore, 0⟩).pc = ((u.restart p).partOf p).word 9)) ∧
     (s.logicalCore c = some l → ∃ t, exec (.coreRun c) s = .next t ∧ (t.coreOf l).halted = false ∧ t.slots = s.slots ∧ t.mem = s.mem) ∧
     (s.logicalCore c = none → exec (.coreRun c) s = .next s))

/-! ### The host and the fabric (20 R375, R385, R391 to R396; 12 R277) -/

/-- R375, R385, R391 to R396, R277: what the host's registers, the dirty log, DMA, keys, SPDM, power, links, bring-up and the refill of
allowance do (the model's choices: logs 4, 5, 49, 50, 61). KEY_LOAD's unwrapping under a session's key is log 17 (presumed), and that
COLD_RESET keeps the SPDM measurements is log 18, the model's. -/
def Obligations.HostSteps : Prop :=
  ∀ (s : State) (p k : Fin 16) (v : BitVec 64) (off : BitVec 16) (m : Word) (w : BitVec 576) (n : Nat) (l : Fin 4) (vf : Fin 17)
    (g : FirmwareImage),
    (s.up = true →
      (pfMask off.toNat = some m → ∃ t, exec (.pfRegisterWrite off v) s = .next t ∧ t.pfReg off.toNat = v &&& m ∧ t.slots = s.slots ∧
        t.mem = s.mem) ∧
      (∃ t, exec (.powerCap v) s = .next t ∧ t.pfReg 0x40 = BitVec.ofNat 64 (min v.toNat Config.powerLimit) ∧ t.powerCap = min v.toNat Config.powerLimit ∧ t.slots = s.slots ∧
        t.mem = s.mem) ∧
      (∃ t, exec (.logSwap p) s = .next t ∧ (t.partOf p).logActive = !(s.partOf p).logActive ∧ t.slots = s.slots ∧ t.mem = s.mem) ∧
      ((s.partOf p).valid = true → ∃ t, exec (.doorbell p v) s = .next t ∧ (t.partOf p).devPend = true ∧
        (t.partOf p).doorbell = (s.partOf p).doorbell ||| v ∧ t.slots = s.slots ∧ t.mem = s.mem) ∧
      (∃ t, exec (.keyClear p k) s = .next t ∧ thas (t.partOf p).keys k.val = false ∧
        t.slots = s.slots ∧ t.mem = s.mem) ∧
      ((s.partOf p).valid = false → exec (.keyLoad p k w) s = .next s) ∧
      ((s.partOf p).valid = true → ∀ e key, s.pkg.spdm.sessions.find? (fun x => x.1 == bitsOf ((s.partOf p).word 0) 16 4) = some e →
        (keyUnwrap (Config.wrapKey e.2) w = some key → ∃ t, exec (.keyLoad p k w) s = .next t ∧ ∀ d, tget d (t.partOf p).keys k.val = key) ∧
        (keyUnwrap (Config.wrapKey e.2) w = none → exec (.keyLoad p k w) s = .next s)) ∧
      (∀ nonce, ∃ t sig, exec (.spdmRequest vf (.getMeasurements nonce)) s = .next t ∧
        t.pkg.spdm.answers = s.pkg.spdm.answers ++ [sig] ∧ t.slots = s.slots ∧ t.mem = s.mem) ∧
      (∀ share, ∃ t sig, exec (.spdmRequest vf (.keyExchange share)) s = .next t ∧
        t.pkg.spdm.answers = s.pkg.spdm.answers ++ [sig] ∧ t.pkg.spdm.exchanges = s.pkg.spdm.exchanges + 1 ∧ t.slots = s.slots) ∧
      (∃ t, exec (.spdmRequest vf .endSession) s = .next t ∧ t.pkg.spdm.sessions = tdrop s.pkg.spdm.sessions vf.val ∧ t.slots = s.slots) ∧
      ((s.pfReg 0x118).getLsbD 0 = true → (s.pfReg 0x110).toNat % 4096 = 0 → 0 < (s.pfReg 0x110).toNat → (s.pfReg 0x100).toNat % 32 = 0 →
        (s.pfReg 0x108).toNat % 32 = 0 → dmaSides (s.pfReg 0x100).toNat (s.pfReg 0x108).toNat (s.pfReg 0x110).toNat = true →
        s.unlockedRange (s.pfReg 0x100).toNat (s.pfReg 0x110).toNat = true →
        s.unlockedRange (s.pfReg 0x108).toNat (s.pfReg 0x110).toNat = true →
        exec .dma s = .next ((s.dmaGrans ((s.pfReg 0x118).getLsbD 1) (s.pfReg 0x100).toNat (s.pfReg 0x108).toNat
          ((s.pfReg 0x110).toNat / 32)).pfPut 0x118 (s.pfReg 0x118 &&& ~~~(1 : Word))))) ∧
    (∃ t, exec .thermalTrip s = .next t ∧ (∀ c, (t.coreOf c).halted = true) ∧ t.pkg.mbox.length = s.pkg.mbox.length + 1 ∧
      t.slots = s.slots ∧ t.mem = s.mem) ∧
    (s.powerCap < n → 25 < s.pkg.clockMHz → ∃ t, exec (.clockThrottle n) s = .next t ∧ t.pkg.clockMHz = s.pkg.clockMHz - 25 ∧
      t.slots = s.slots ∧ t.mem = s.mem) ∧
    (n ≤ s.powerCap → exec (.clockThrottle n) s = .next s) ∧
    (∃ t, exec (.coldReset g) s = .next t ∧ t.slots = [] ∧ t.parts = [] ∧ t.segs = [] ∧ t.mem = .empty ∧
      (∀ d < 4, thas t.pkg.linkKeys d = true) ∧ t.pkg.spdm.top = s.pkg.spdm.top ∧ t.pkg.spdm.leaf = s.pkg.spdm.leaf ∧
      (t.up = true ↔ g.signatureValid = true ∧ g.keyHash = Config.fusedKeyHash ∧ Config.fusedRollback ≤ g.version)) ∧
    (∀ z : Link, tget ⟨0, false⟩ s.pkg.links l.val = z → z.down = false →
      (∃ t, exec (.linkCrcError l true) s = .next t ∧ t.slots = s.slots ∧
        tget (⟨0, false⟩ : Link) t.pkg.links l.val = ⟨z.fails + 1, decide (16 ≤ z.fails + 1)⟩) ∧
      (∃ t, exec (.linkCrcError l false) s = .next t ∧ t.slots = s.slots ∧ tget (⟨0, false⟩ : Link) t.pkg.links l.val = ⟨0, false⟩)) ∧
    ((s.partOf p).valid = true → ∃ t, exec (.allowanceRefill p) s = .next t ∧ t.slots = s.slots ∧
      t.mem = s.mem ∧ (t.partOf p).falBucket.debt = (s.partOf p).falBucket.debt - bitsOf ((s.partOf p).word 7) 32 32 ∧
      (t.partOf p).falBucket.fill ≤ bucketDepth (bitsOf ((s.partOf p).word 7) 32 32) ∧
      (t.partOf p).falBucket.fill + t.pkg.falPool = (s.partOf p).falBucket.fill + s.pkg.falPool + bitsOf ((s.partOf p).word 7) 32 32)

/-! ### Falran (20 R387 to R390) -/

/-- R387 to R390: a flit that comes to a port that is down changes nothing; one that fails its CRC is dropped, and later flits with it until
the expected one comes, and a retry request names the first lost number; a data flit out of sequence changes no sequence number and no
memory. In sequence: the sequence number goes on; a response completes the request it names; an acknowledgement frees what it names; a retry
request leaves the rest to be sent again, and counts a failure. A request to an address that no partition owns leaves memory. One to an
address that a partition owns is served there and answered by the port it came by, or by another link to its sender if that port has gone
down (R388): a read is answered, a write performed, an atomic done once, a domain's message delivered, and a commit's lock keeps the bytes
that its write then performs (R218, R191); where a granule or an operand's check code fails there, the answer's code says so (R222; log 53);
from a sender that is not peered, or for a keyed page, it is answered poisoned; at a locked home it waits. The bits of a flit are the
model's choice (log 19). -/
def Obligations.FalranSteps : Prop :=
  ∀ (s : State) (n : Fin 64) (f : Flit) (q : FalranReq) (r : FalranResp) (x : Remote), s.up = true →
    let k := s.portOf n.val
    let good := k.down = false ∧ flitOk f = true
    (k.down = true →
      (∃ t, exec (.falranRequest n f q) s = .next t ∧ t.mem = s.mem ∧ t.slots = s.slots ∧ t.portOf n.val = k) ∧
      (∃ t, exec (.falranResponse n f r) s = .next t ∧ t.mem = s.mem ∧ t.slots = s.slots ∧ t.pkg.remotes = s.pkg.remotes) ∧
      (∃ t, exec (.falranData n f) s = .next t ∧ t.mem = s.mem ∧ t.slots = s.slots ∧ t.portOf n.val = k)) ∧
    (flitType f = 2 → k.down = false → flitOk f = false →
      ∃ t, exec (.falranData n f) s = .next t ∧ (t.portOf n.val).rxDrop = true ∧ (t.portOf n.val).rxSeq = k.rxSeq ∧
        (∃ y, (t.portOf n.val).retry = some y ∧ flitType y = 5 ∧ flitSeq y = k.rxSeq % 4096) ∧
        (t.portOf n.val).replay = k.replay ∧ t.mem = s.mem ∧ t.slots = s.slots) ∧
    (flitType f = 4 ∨ flitType f = 0 ∨ 5 < flitType f → k.down = false → flitOk f = false →
      ∃ t, exec (.falranAck n f) s = .next t ∧ (t.portOf n.val).rxDrop = true ∧
        (∃ y, (t.portOf n.val).retry = some y ∧ flitType y = 5 ∧ flitSeq y = k.rxSeq % 4096) ∧ t.mem = s.mem ∧ t.slots = s.slots) ∧
    (5 < flitType f → good → ∃ t, exec (.falranAck n f) s = .next t ∧ t.portOf n.val = k ∧ t.mem = s.mem ∧ t.slots = s.slots) ∧
    (flitType f = 2 → good → flitSeq f = k.rxSeq →
      ∃ t, exec (.falranData n f) s = .next t ∧ (t.portOf n.val).rxSeq = (k.rxSeq + 1) % 4096 ∧ (t.portOf n.val).rxDrop = false ∧
        t.mem = s.mem ∧ t.slots = s.slots) ∧
    (flitType f = 2 → good → flitSeq f ≠ k.rxSeq →
      ∃ t, exec (.falranData n f) s = .next t ∧ (t.portOf n.val).rxSeq = k.rxSeq ∧ (t.portOf n.val).replay = k.replay ∧ t.mem = s.mem ∧
        t.slots = s.slots) ∧
    (flitType f = 1 → good → flitSeq f = k.rxSeq → s.targetPart q = none →
      ∃ t, exec (.falranRequest n f q) s = .next t ∧ t.mem = s.mem ∧ t.slots = s.slots ∧
        (t.portOf n.val).rxSeq = (k.rxSeq + 1) % 4096) ∧
    (flitType f ≠ 1 → exec (.falranRequest n f q) s = .next s) ∧
    (flitType f = 1 → good → flitSeq f = k.rxSeq → ∀ p, s.targetPart q = some p → s.hit (portDie n.val) p .flit n.val = false →
      let t := (s.receive n.val f (some p)).1
      let a := q.pa.toNat / 32
      let g := t.homeGran p none a
      let reply := fun (u : State) (x : Reply) => exec (.falranRequest n f q) s =
        .next (match u.responsePort n.val q.dev.toNat with
          | some j => u.mapPort j fun k => k.send q.dev.toNat 3 1 (Config.responsePayload ⟨q.tag, x⟩)
          | none => u)
      ((t.portOf n.val).down = false → t.responsePort n.val q.dev.toNat = some n.val) ∧
      (t.mustWait q = true →
        exec (.falranRequest n f q) s = .next (t.mapPkg fun k => { k with waiting := k.waiting ++ [(n.val, q)] })) ∧
      (t.mustWait q = false →
        (t.peered p q.dev q.endpoint = false → reply t ⟨poisoned, 0⟩) ∧
        (t.peered p q.dev q.endpoint = true →
          (∀ h id task m, q.op = .dom h id task m → reply (t.serveDom p q.dev.toNat id task m).1 (t.serveDom p q.dev.toNat id task m).2) ∧
          ((∀ h id task m, q.op ≠ .dom h id task m) → t.keyedAt q.pa.toNat = true → reply t ⟨poisoned, 0⟩) ∧
          (t.keyedAt q.pa.toNat = false →
            (q.op = .read → reply t ⟨g, 0⟩) ∧
            (∀ m x c, q.op = .write m x c →
              (∀ y, writeGran g x m c = .ok y →
                reply ((t.homePutNow p none q.dlog a y).wakeBy p (.phys a) m x.data) ⟨zeroGran, 0⟩) ∧
              (∀ e, writeGran g x m c = .error e → reply t e) ∧
              (m ≠ BitVec.allOnes 32 → checkGran g ≠ none → writeGran g x m c = .error ⟨g, 1⟩) ∧
              (∀ e, m ≠ BitVec.allOnes 32 → checkGran g = none → operandFault (namedBytes x.data m) c = some e →
                writeGran g x m c = .error ⟨mkGran (e.t1.setWidth 256), 2⟩)) ∧
            (∀ op off v e c, q.op = .atom op off v e c →
              let bad := operandFault (natBytes 8 v.toNat) (some c)
              (checkGran g ≠ none → reply t ⟨g, 1⟩) ∧
              (∀ h, checkGran g = none → bad = some h → reply t ⟨mkGran (h.t1.setWidth 256), 2⟩) ∧
              (checkGran g = none → bad = none →
                let old := takeAt g.data (8 * off.val) 8
                let put := fun (w : Word) =>
                  t.homePutNow p none q.dlog a (mkGran (mergeBytes g.data (placeAt w (8 * off.val)) (byteMask (8 * off.val) 8)))
                (op ≠ 15 → reply (put (atomValue op.val old v)) ⟨g, 0⟩) ∧
                (op = 15 → old = e → reply (put v) ⟨g, 0⟩) ∧ (op = 15 → old ≠ e → reply t ⟨g, 0⟩))) ∧
            (∀ o rd m x c y, q.op = .txLock o rd m x c → m ≠ 0 → t.txHit q = false → (∀ l ∈ t.pkg.locks, l.heldBy q o = false) →
              writeSetGran g m x c = .ok y → reply (t.mapPkg fun k =>
                { k with locks := k.locks ++ [⟨.phys a, q.dev, q.endpoint, o, some (m, y)⟩] }) ⟨zeroGran, 0⟩) ∧
            (∀ o rd m x c e, q.op = .txLock o rd m x c → m ≠ 0 → t.txHit q = false → writeSetGran g m x c = .error e →
              ∃ u, reply u (if e.code = 2 then ⟨mkGran (e.t1.setWidth 256), 2⟩ else ⟨g, 1⟩) ∧ u.mem = t.mem ∧ u.slots = t.slots) ∧
            (∀ o l m y, q.op = .txWrite o → t.pkg.locks.find? (fun l => l.heldBy q o) = some l → l.write = some (m, y) →
              reply ((t.homePutNow p none q.dlog a y).wakeBy p (.phys a) m y.data) ⟨zeroGran, 0⟩))))) ∧
    (flitType f = 3 → s.receive n.val f ((s.pkg.remotes.find? fun q => q.tag == r.tag).map fun q => s.partNo q.slot.core) =
        ((s.receive n.val f ((s.pkg.remotes.find? fun q => q.tag == r.tag).map fun q => s.partNo q.slot.core)).1, true) →
      s.pkg.remotes.find? (fun q => q.tag == r.tag) = some x →
      exec (.falranResponse n f r) s = .next ((s.receive n.val f (some (s.partNo x.slot.core))).1.answer x (unmarkReply r.reply))) ∧
    (flitType f = 4 ∨ flitType f = 0 → good → k.rxDrop = false → ∃ t, exec (.falranAck n f) s = .next t ∧ t.portOf n.val = k.acked (flitAck f) ∧
      t.mem = s.mem ∧ t.slots = s.slots) ∧
    (flitType f = 4 ∨ flitType f = 0 → k.rxDrop = true → ∃ t, exec (.falranAck n f) s = .next t ∧ (t.portOf n.val).replay = k.replay ∧
      (t.portOf n.val).rxSeq = k.rxSeq ∧ t.mem = s.mem ∧ t.slots = s.slots) ∧
    (flitType f = 5 → good → k.rxDrop = false → (k.acked (flitAck f)).replay ≠ [] → (k.acked (flitAck f)).fails < 16 →
      ∃ t, exec (.falranRetryRequest n f) s = .next t ∧ (t.portOf n.val).fails = (k.acked (flitAck f)).fails + 1 ∧
        (t.portOf n.val).down = false ∧ (t.portOf n.val).replay = (k.acked (flitAck f)).replay ∧ t.slots = s.slots)

/-! ### One step (02 R22, R41; 04 R95) -/

/-- R8, R41, R95, R109, R127: a step of a core whose chosen slot has no pending cause runs the instruction that the word at its PC decodes
to, an ILLEGAL word its trap; a step of the vector engine runs the word at the head of the queue of the slot whose turn it is; an event of
the agenda runs as itself. After each a cycle passes, with what follows from it (the choices of logs 1, 2 and 3). -/
def Obligations.StepRunsDecoded : Prop :=
  ∀ (s t u : State) (r : List Choice) (c : Fin 256) (i : SlotId) (w : IWord) (a : Instr) (q : QEntry) (k : Nat),
    let s1 : State := { s with agenda := r }
    (s.agenda = .core c :: r → s1.select c = some (i, t) → t.issues i = true → t.nextCause i = none →
      (∀ z, (t.slotOf i).sched.stall = some z → t.stallFree i z = true) →
      fetchOp { t with cur := i, actor := .control } = .ok (w, u) →
      (decode w = .ok a → step s = tickOutcome s (exec a u)) ∧
      (∀ e, decode w = .error e → step s = tickOutcome s (exec (.illegal w e) u))) ∧
    (s.agenda = .vector i :: r → (s.slotOf i).vHead = some q → s.runs i.core = true → decode q.word = .ok a →
      (s1.vTurn exec i = true →
        step s = tickOutcome s (exec a ((s1.mapCore i.core fun k => { k with vecSlot := i.slot }).asVector i))) ∧
      (s1.vTurn exec i = false → step s = tickOutcome s (.next s1))) ∧
    (s.agenda = .event a :: r → isEvent a = true → step s = tickOutcome s (exec a s1)) ∧
    (s.agenda = .tick k :: r → step s = tickOutcome s (.next { s1 with cycle := s.cycle + k })) ∧
    (s.agenda = [] → s.turn = .event a → isEvent a = true → step s = tickOutcome s (exec a s)) ∧
    (exec a u = .next t → tickOutcome s (exec a u) = .next ({ t with cycle := t.cycle + 1 }.after s))

/-! ### Encodings (02) -/

/-- Words written out from the encodings of 02 decode to the instructions they stand for, and words that are none are rejected for their
reasons. -/
def Obligations.DecodeWords : Prop :=
  decode 0x00184401 = .ok (.add 3 1 2) ∧ decode 0x01000000 = .ok (.addi 0 0 0) ∧ decode 0x11283FFD = .ok (.bne 5 0 0x3FFD) ∧
    decode 0x0B314108 = .ok (.bexti 6 5 4 8) ∧ decode 0x19000040 = .ok (.jal 64) ∧ decode 0x0F088647 = .ok (.fcmp 1 2 3 1) ∧
    decode 0x20293008 = .ok (.ld 5 4 3 false 8) ∧ decode 0x38282003 = .ok (.srd 5 16 0) ∧ decode 0x38000602 = .ok (.tret true true) ∧
    decode 0x44A00B3D = .ok (.vfma 20 0 5 ⟨9, true, 3, 1⟩) ∧
    decode 0x82204A2D = .ok (.mma 0 8 1 2 true false false false true ⟨3, 1⟩) ∧ decode 0xC294300B = .ok (.cpy 2 5 true ⟨2, 3⟩) ∧
    decode 0x00000000 = .error .undefinedSelector ∧ decode 0x0D000000 = .error .reservedOpcode ∧
    decode 0x82E04A2D = .error .undefinedSelector ∧ decode 0xC2940003 = .error .mustBeZero ∧ decode 0x44080001 = .error .forbiddenOperand

/-- R17 to R41: the decoder reads every instruction word that the encoder writes of a well-formed instruction as that instruction, whatever
its operands. -/
def Obligations.EncodeDecode : Prop :=
  ∀ i : Instr, i.isWord = true → i.WellFormed = true → decode (encode i) = .ok i

/-! ### Invariants -/

/-- The model's own invariant (log 5): memory and every segment keep their canonical form in every step, from whatever state. -/
def Obligations.StepKeepsCanonical : Prop :=
  ∀ s t : State, s.Canonical → step s = .next t → t.Canonical

/-- R13, R109, R379, R381, Bring-up: after reset no partition is valid, no core runs, every slot is Free and holds no task, nothing waits in
a queue, the clock is at 1,600 MHz, no device firmware runs, memory is in its canonical form, and a step only lets a cycle pass. The values
of registers that the spec leaves open (logs 4 and 5) are not stated; that the step passes a cycle is the model's choice (logs 2 and 3). -/
def Obligations.ResetState : Prop :=
  let s := State.reset
  (∀ p, (s.partOf p).valid = false) ∧ (∀ c, s.runs c = false) ∧ (∀ i, (s.slotOf i).status = .free ∧ (s.slotOf i).task = none) ∧
    s.segs = [] ∧ s.tickets = [] ∧ s.pkg.remotes = [] ∧ s.pkg.clockMHz = 1600 ∧ s.up = false ∧ s.Canonical ∧
    step s = .next { s with cycle := 2 }

/-! ### Keyed pages (08 R194; 20 R394) -/

/-- R194, R394 (the byte order, the tweak and the tracked keys: log 17): a granule of the partition's HBM that is written under a loaded key
slot reads back through the same slot; without a slot it reads as the ciphertext of its 36-byte unit, with the poison bit in the clear, and
so it does through a slot that holds another key. Through an empty slot it is stored plain. No other granule's bytes change. -/
def Obligations.KeyedMemory : Prop :=
  ∀ (s : State) (p k j : Fin 16) (n : Nat) (x : Granule) (key other : BitVec 512) (d : Bool),
    physOf (32 * n) = .hbm → s.regionOk p (32 * n) = true → (s.partOf p).logMode = 0 →
    s.hit (s.homeDie (32 * n)) p .seal n = false → s.hit (s.homeDie (32 * n)) p .hbmu n = false →
    let t := s.homePutNow p (some k) d n x
    let raw := ofUnit36 (xtsEncrypt key n (unit36 x)) x.poison x.inj
    (s.keyOf p (some k) (32 * n) = some key → t.homeGran p (some k) n = x ∧ t.homeGran p none n = raw ∧
      (s.keyOf p (some j) (32 * n) = some other → other ≠ key → t.homeGran p (some j) n = raw)) ∧
    (s.keyOf p (some k) (32 * n) = none → t.homeGran p (some k) n = x ∧ t.homeGran p none n = x) ∧
    ∀ a, a / 32 ≠ n → t.mem.byte a = s.mem.byte a
end

