-- ==== Sys2Proof/Laws/Cipher.lean ====
section
/-! SUPPORT. The ciphers of 08 R194 and 20 R394 undo themselves: AES-256, XTS of a unit, key wrap. -/

namespace Sys2Proof.Machine

/-- A byte string: every element is a byte. -/
def IsBytes (n : Nat) (b : List Nat) : Prop := b.length = n ∧ ∀ x ∈ b, x < 256

/-! ### Bytes -/

theorem xor_byte {x y : Nat} (hx : x < 256) (hy : y < 256) : x ^^^ y < 256 := Nat.xor_lt_two_pow (n := 8) hx hy

theorem xorBytes_isBytes {n : Nat} {a b : List Nat} (ha : IsBytes n a) (hb : IsBytes n b) : IsBytes n (xorBytes a b) := by
  refine ⟨by simp [xorBytes, ha.1, hb.1], fun x hx => ?_⟩
  obtain ⟨e, he, rfl⟩ := List.mem_map.1 hx
  have := List.of_mem_zip (a := e.1) (b := e.2) he
  exact xor_byte (ha.2 _ this.1) (hb.2 _ this.2)

theorem xorBytes_cancel : ∀ {a b : List Nat}, a.length = b.length → xorBytes (xorBytes a b) b = a
  | [], [], _ => rfl
  | x :: a, y :: b, h => by
    have ih := xorBytes_cancel (a := a) (b := b) (by simpa using h)
    simp only [xorBytes] at ih
    simp [xorBytes, ih]

theorem sbox_lt (b : Nat) : sbox b < 256 := Nat.mod_lt _ (by decide)

theorem invSbox_sbox : ∀ b < 256, invSbox (sbox b) = b := by decide +kernel

theorem map_sbox_isBytes {n : Nat} {b : List Nat} (h : b.length = n) : IsBytes n (b.map sbox) :=
  ⟨by simpa using h, by simp only [List.mem_map]; rintro _ ⟨x, _, rfl⟩; exact sbox_lt x⟩

theorem map_invSbox_map_sbox {b : List Nat} (h : ∀ x ∈ b, x < 256) : (b.map sbox).map invSbox = b := by
  rw [List.map_map]
  exact (List.map_congr_left fun x hx => invSbox_sbox x (h x hx)).trans (List.map_id' b)

/-! ### The layers of a round -/

theorem xtime_lt {x : Nat} (h : x < 256) : xtime x < 256 := by
  unfold xtime
  split
  · omega
  · exact xor_byte (Nat.mod_lt _ (by decide)) (by decide)

theorem xtime_eq : ∀ x < 256, xtime x = (x <<< 1) ^^^ ((x >>> 7) * 0x11B) := by decide +kernel

theorem xtime_xor {x y : Nat} (hx : x < 256) (hy : y < 256) : xtime (x ^^^ y) = xtime x ^^^ xtime y := by
  have bit : ∀ c < 2, ∀ d < 2, (c ^^^ d) * 0x11B = c * 0x11B ^^^ d * 0x11B := by decide
  rw [xtime_eq _ hx, xtime_eq _ hy, xtime_eq _ (xor_byte hx hy), Nat.shiftLeft_xor_distrib, Nat.shiftRight_xor_distrib,
    bit _ (by rw [Nat.shiftRight_eq_div_pow]; omega) _ (by rw [Nat.shiftRight_eq_div_pow]; omega)]
  ac_rfl

theorem gmul_lt {k x : Nat} (h : x < 256) : gmul k x < 256 := by
  have h2 := xtime_lt h
  have h4 := xtime_lt h2
  have h8 := xtime_lt h4
  unfold gmul
  refine xor_byte (xor_byte (xor_byte ?_ ?_) ?_) ?_ <;> (dsimp only; split <;> first | assumption | decide)

theorem gmul_xor {k x y : Nat} (hx : x < 256) (hy : y < 256) : gmul k (x ^^^ y) = gmul k x ^^^ gmul k y := by
  have e2 := xtime_xor hx hy
  have e4 := xtime_xor (xtime_lt hx) (xtime_lt hy)
  have e8 := xtime_xor (xtime_lt (xtime_lt hx)) (xtime_lt (xtime_lt hy))
  have sw : ∀ a b c d e f g h : Nat, a ^^^ b ^^^ (c ^^^ d) ^^^ (e ^^^ f) ^^^ (g ^^^ h) = a ^^^ c ^^^ e ^^^ g ^^^ (b ^^^ d ^^^ f ^^^ h) := by
    intros; ac_rfl
  unfold gmul
  dsimp only
  rw [e2, e4, e8, ← sw]
  congr 1
  · congr 1
    · congr 1 <;> split <;> simp
    · split <;> simp
  · split <;> simp

theorem isBytes_cons {n : Nat} {b : List Nat} (h : IsBytes (n + 1) b) : ∃ x l, b = x :: l ∧ x < 256 ∧ IsBytes n l := by
  obtain ⟨hl, hb⟩ := h
  cases b with
  | nil => simp at hl
  | cons x l => exact ⟨x, l, rfl, hb x (by simp), by simpa using hl, fun y hy => hb y (by simp [hy])⟩

theorem isBytes_nil {b : List Nat} (h : IsBytes 0 b) : b = [] := List.length_eq_zero_iff.1 h.1

theorem shuffle_isBytes {b : List Nat} (f : Nat → Nat) (h : ∀ x ∈ b, x < 256) : IsBytes 16 (shuffle b f) := by
  refine ⟨by simp [shuffle], fun x hx => ?_⟩
  obtain ⟨n, _, rfl⟩ := List.mem_map.1 hx
  rw [List.getD_eq_getElem?_getD]
  rcases hg : b[f n]? with _ | y
  · simp
  · simpa using h y (List.mem_of_getElem? hg)

theorem invShiftRows_shiftRows {b : List Nat} (h : IsBytes 16 b) : invShiftRows (shiftRows b) = b := by
  obtain ⟨x0, b, rfl, -, h⟩ := isBytes_cons h
  obtain ⟨x1, b, rfl, -, h⟩ := isBytes_cons h
  obtain ⟨x2, b, rfl, -, h⟩ := isBytes_cons h
  obtain ⟨x3, b, rfl, -, h⟩ := isBytes_cons h
  obtain ⟨x4, b, rfl, -, h⟩ := isBytes_cons h
  obtain ⟨x5, b, rfl, -, h⟩ := isBytes_cons h
  obtain ⟨x6, b, rfl, -, h⟩ := isBytes_cons h
  obtain ⟨x7, b, rfl, -, h⟩ := isBytes_cons h
  obtain ⟨x8, b, rfl, -, h⟩ := isBytes_cons h
  obtain ⟨x9, b, rfl, -, h⟩ := isBytes_cons h
  obtain ⟨xa, b, rfl, -, h⟩ := isBytes_cons h
  obtain ⟨xb, b, rfl, -, h⟩ := isBytes_cons h
  obtain ⟨xc, b, rfl, -, h⟩ := isBytes_cons h
  obtain ⟨xd, b, rfl, -, h⟩ := isBytes_cons h
  obtain ⟨xe, b, rfl, -, h⟩ := isBytes_cons h
  obtain ⟨xf, b, rfl, -, h⟩ := isBytes_cons h
  cases isBytes_nil h
  rfl

/-- The inverse matrix undoes the matrix, for one column. -/
theorem column_inverse : ∀ x < 256,
    gmul 14 (gmul 2 x) ^^^ gmul 11 (gmul 1 x) ^^^ gmul 13 (gmul 1 x) ^^^ gmul 9 (gmul 3 x) = x ∧
    gmul 14 (gmul 3 x) ^^^ gmul 11 (gmul 2 x) ^^^ gmul 13 (gmul 1 x) ^^^ gmul 9 (gmul 1 x) = 0 ∧
    gmul 14 (gmul 1 x) ^^^ gmul 11 (gmul 3 x) ^^^ gmul 13 (gmul 2 x) ^^^ gmul 9 (gmul 1 x) = 0 ∧
    gmul 14 (gmul 1 x) ^^^ gmul 11 (gmul 1 x) ^^^ gmul 13 (gmul 3 x) ^^^ gmul 9 (gmul 2 x) = 0 := by decide +kernel

/-- One output byte of the inverse matrix on the output bytes of a column. -/
theorem column_back {a b c d : Nat} (ha : a < 256) (hb : b < 256) (hc : c < 256) (hd : d < 256) :
    gmul 14 (gmul 2 a ^^^ gmul 3 b ^^^ gmul 1 c ^^^ gmul 1 d) ^^^ gmul 11 (gmul 1 a ^^^ gmul 2 b ^^^ gmul 3 c ^^^ gmul 1 d) ^^^
      gmul 13 (gmul 1 a ^^^ gmul 1 b ^^^ gmul 2 c ^^^ gmul 3 d) ^^^ gmul 9 (gmul 3 a ^^^ gmul 1 b ^^^ gmul 1 c ^^^ gmul 2 d) = a := by
  have lt : ∀ {k x : Nat}, x < 256 → gmul k x < 256 := gmul_lt
  have four : ∀ {k p q r t : Nat}, p < 256 → q < 256 → r < 256 → t < 256 →
      gmul k (p ^^^ q ^^^ r ^^^ t) = gmul k p ^^^ gmul k q ^^^ gmul k r ^^^ gmul k t := fun hp hq hr ht => by
    rw [gmul_xor (xor_byte (xor_byte hp hq) hr) ht, gmul_xor (xor_byte hp hq) hr, gmul_xor hp hq]
  rw [four (lt ha) (lt hb) (lt hc) (lt hd), four (lt ha) (lt hb) (lt hc) (lt hd), four (lt ha) (lt hb) (lt hc) (lt hd),
    four (lt ha) (lt hb) (lt hc) (lt hd)]
  have sw : ∀ a0 a1 a2 a3 b0 b1 b2 b3 c0 c1 c2 c3 d0 d1 d2 d3 : Nat,
      (a0 ^^^ b0 ^^^ c0 ^^^ d0) ^^^ (a1 ^^^ b1 ^^^ c1 ^^^ d1) ^^^ (a2 ^^^ b2 ^^^ c2 ^^^ d2) ^^^ (a3 ^^^ b3 ^^^ c3 ^^^ d3) =
      (a0 ^^^ a1 ^^^ a2 ^^^ a3) ^^^ (b0 ^^^ b1 ^^^ b2 ^^^ b3) ^^^ (c0 ^^^ c1 ^^^ c2 ^^^ c3) ^^^ (d0 ^^^ d1 ^^^ d2 ^^^ d3) := by
    intros; ac_rfl
  rw [sw, (column_inverse a ha).1, (column_inverse b hb).2.1, (column_inverse c hc).2.2.1, (column_inverse d hd).2.2.2]
  simp

theorem mixColumns_eq (m0 m1 m2 m3 x0 x1 x2 x3 x4 x5 x6 x7 x8 x9 xa xb xc xd xe xf : Nat) :
    mixColumns [m0, m1, m2, m3] [x0, x1, x2, x3, x4, x5, x6, x7, x8, x9, xa, xb, xc, xd, xe, xf] =
      [gmul m0 x0 ^^^ gmul m1 x1 ^^^ gmul m2 x2 ^^^ gmul m3 x3, gmul m3 x0 ^^^ gmul m0 x1 ^^^ gmul m1 x2 ^^^ gmul m2 x3, gmul m2 x0 ^^^ gmul m3 x1 ^^^ gmul m0 x2 ^^^ gmul m1 x3, gmul m1 x0 ^^^ gmul m2 x1 ^^^ gmul m3 x2 ^^^ gmul m0 x3,
        gmul m0 x4 ^^^ gmul m1 x5 ^^^ gmul m2 x6 ^^^ gmul m3 x7, gmul m3 x4 ^^^ gmul m0 x5 ^^^ gmul m1 x6 ^^^ gmul m2 x7, gmul m2 x4 ^^^ gmul m3 x5 ^^^ gmul m0 x6 ^^^ gmul m1 x7, gmul m1 x4 ^^^ gmul m2 x5 ^^^ gmul m3 x6 ^^^ gmul m0 x7,
        gmul m0 x8 ^^^ gmul m1 x9 ^^^ gmul m2 xa ^^^ gmul m3 xb, gmul m3 x8 ^^^ gmul m0 x9 ^^^ gmul m1 xa ^^^ gmul m2 xb, gmul m2 x8 ^^^ gmul m3 x9 ^^^ gmul m0 xa ^^^ gmul m1 xb, gmul m1 x8 ^^^ gmul m2 x9 ^^^ gmul m3 xa ^^^ gmul m0 xb,
        gmul m0 xc ^^^ gmul m1 xd ^^^ gmul m2 xe ^^^ gmul m3 xf, gmul m3 xc ^^^ gmul m0 xd ^^^ gmul m1 xe ^^^ gmul m2 xf, gmul m2 xc ^^^ gmul m3 xd ^^^ gmul m0 xe ^^^ gmul m1 xf, gmul m1 xc ^^^ gmul m2 xd ^^^ gmul m3 xe ^^^ gmul m0 xf] := by
  simp [mixColumns, List.range, List.range.loop]

theorem mixColumns_isBytes {m b : List Nat} (h : ∀ x ∈ b, x < 256) : IsBytes 16 (mixColumns m b) := by
  refine ⟨by simp [mixColumns], fun x hx => ?_⟩
  obtain ⟨n, _, rfl⟩ := List.mem_map.1 hx
  have hb : ∀ i : Nat, b.getD i 0 < 256 := fun i => by
    rw [List.getD_eq_getElem?_getD]
    rcases hg : b[i]? with _ | y
    · simp
    · simpa using h y (List.mem_of_getElem? hg)
  simp only [List.range, List.range.loop, List.foldl_cons, List.foldl_nil]
  exact xor_byte (xor_byte (xor_byte (xor_byte (by decide) (gmul_lt (hb _))) (gmul_lt (hb _))) (gmul_lt (hb _))) (gmul_lt (hb _))

theorem mixColumns_inverse {b : List Nat} (h : IsBytes 16 b) : mixColumns [14, 11, 13, 9] (mixColumns [2, 3, 1, 1] b) = b := by
  obtain ⟨x0, b, rfl, h0, h⟩ := isBytes_cons h
  obtain ⟨x1, b, rfl, h1, h⟩ := isBytes_cons h
  obtain ⟨x2, b, rfl, h2, h⟩ := isBytes_cons h
  obtain ⟨x3, b, rfl, h3, h⟩ := isBytes_cons h
  obtain ⟨x4, b, rfl, h4, h⟩ := isBytes_cons h
  obtain ⟨x5, b, rfl, h5, h⟩ := isBytes_cons h
  obtain ⟨x6, b, rfl, h6, h⟩ := isBytes_cons h
  obtain ⟨x7, b, rfl, h7, h⟩ := isBytes_cons h
  obtain ⟨x8, b, rfl, h8, h⟩ := isBytes_cons h
  obtain ⟨x9, b, rfl, h9, h⟩ := isBytes_cons h
  obtain ⟨xa, b, rfl, ha, h⟩ := isBytes_cons h
  obtain ⟨xb, b, rfl, hb, h⟩ := isBytes_cons h
  obtain ⟨xc, b, rfl, hc, h⟩ := isBytes_cons h
  obtain ⟨xd, b, rfl, hd, h⟩ := isBytes_cons h
  obtain ⟨xe, b, rfl, he, h⟩ := isBytes_cons h
  obtain ⟨xf, b, rfl, hf, h⟩ := isBytes_cons h
  cases isBytes_nil h
  rw [mixColumns_eq, mixColumns_eq]
  refine congrArg₂ List.cons (Eq.trans rfl (column_back h0 h1 h2 h3)) <|
    congrArg₂ List.cons (Eq.trans ?_ (column_back h1 h2 h3 h0)) <|
    congrArg₂ List.cons (Eq.trans ?_ (column_back h2 h3 h0 h1)) <|
    congrArg₂ List.cons (Eq.trans ?_ (column_back h3 h0 h1 h2)) <|
    congrArg₂ List.cons (Eq.trans rfl (column_back h4 h5 h6 h7)) <|
    congrArg₂ List.cons (Eq.trans ?_ (column_back h5 h6 h7 h4)) <|
    congrArg₂ List.cons (Eq.trans ?_ (column_back h6 h7 h4 h5)) <|
    congrArg₂ List.cons (Eq.trans ?_ (column_back h7 h4 h5 h6)) <|
    congrArg₂ List.cons (Eq.trans rfl (column_back h8 h9 ha hb)) <|
    congrArg₂ List.cons (Eq.trans ?_ (column_back h9 ha hb h8)) <|
    congrArg₂ List.cons (Eq.trans ?_ (column_back ha hb h8 h9)) <|
    congrArg₂ List.cons (Eq.trans ?_ (column_back hb h8 h9 ha)) <|
    congrArg₂ List.cons (Eq.trans rfl (column_back hc hd he hf)) <|
    congrArg₂ List.cons (Eq.trans ?_ (column_back hd he hf hc)) <|
    congrArg₂ List.cons (Eq.trans ?_ (column_back he hf hc hd)) <|
    congrArg₂ List.cons (Eq.trans ?_ (column_back hf hc hd he)) <|
    rfl
  all_goals ac_rfl

/-! ### The rounds -/

/-- A list of round keys. -/
def AreKeys (l : List (List Nat)) : Prop := ∀ k ∈ l, IsBytes 16 k

/-- A round's substitution and row shift. -/
theorem layer_isBytes {b : List Nat} (h : IsBytes 16 b) : IsBytes 16 (shiftRows (b.map sbox)) :=
  shuffle_isBytes _ (map_sbox_isBytes h.1).2

theorem layer_inverse {b : List Nat} (h : IsBytes 16 b) : (invShiftRows (shiftRows (b.map sbox))).map invSbox = b := by
  rw [invShiftRows_shiftRows (map_sbox_isBytes h.1), map_invSbox_map_sbox h.2]

/-- The inverse rounds from the last key on undo the rounds but for the first layer; the keys left go on. -/
theorem decryptRounds_encryptRounds : ∀ (k : List Nat) (l s : List (List Nat)) (b : List Nat), AreKeys (k :: l) → s ≠ [] → IsBytes 16 b →
    decryptRounds ((k :: l).reverse.drop 1 ++ s) (xorBytes (encryptRounds (k :: l) b) ((k :: l).reverse.headD [])) =
      decryptRounds s (shiftRows (b.map sbox)) := by
  intro k l
  induction l generalizing k with
  | nil =>
    intro s b hk _ hb
    have hk := hk k (by simp)
    simp [encryptRounds, xorBytes_cancel (show (shiftRows (b.map sbox)).length = k.length by rw [(layer_isBytes hb).1, hk.1])]
  | cons j l ih =>
    intro s b hk hs hb
    have hk0 := hk k (by simp)
    have hm := mixColumns_isBytes (m := [2, 3, 1, 1]) (layer_isBytes hb).2
    have hb' := xorBytes_isBytes hm hk0
    have hr : (k :: j :: l).reverse.drop 1 ++ s = (j :: l).reverse.drop 1 ++ (k :: s) := by
      rw [List.reverse_cons, List.drop_append_of_le_length (by simp), List.append_assoc, List.singleton_append]
    have hh : (k :: j :: l).reverse.headD [] = (j :: l).reverse.headD [] := by
      rw [List.reverse_cons]
      cases hc : (j :: l).reverse with
      | nil => simp at hc
      | cons x y => simp
    rw [hr, hh, show encryptRounds (k :: j :: l) b = encryptRounds (j :: l) (xorBytes (mixColumns [2, 3, 1, 1] (shiftRows (b.map sbox))) k) from rfl,
      ih j (k :: s) _ (fun x hx => hk x (by simp at hx ⊢; tauto)) (by simp) hb']
    obtain ⟨t, s, rfl⟩ := List.exists_cons_of_ne_nil hs
    rw [show decryptRounds (k :: t :: s) (shiftRows ((xorBytes (mixColumns [2, 3, 1, 1] (shiftRows (b.map sbox))) k).map sbox)) =
        decryptRounds (t :: s) (mixColumns [14, 11, 13, 9] (xorBytes ((invShiftRows (shiftRows
          ((xorBytes (mixColumns [2, 3, 1, 1] (shiftRows (b.map sbox))) k).map sbox))).map invSbox) k)) from rfl,
      layer_inverse hb', xorBytes_cancel (by rw [hm.1, hk0.1]), mixColumns_inverse (layer_isBytes hb)]

theorem encryptRounds_isBytes : ∀ (l : List (List Nat)) (b : List Nat), AreKeys l → IsBytes 16 b → IsBytes 16 (encryptRounds l b)
  | [], _, _, hb => hb
  | [k], b, hk, hb => xorBytes_isBytes (layer_isBytes hb) (hk k (by simp))
  | k :: j :: l, b, hk, hb =>
    encryptRounds_isBytes (j :: l) _ (fun x hx => hk x (by simp at hx ⊢; tauto))
      (xorBytes_isBytes (mixColumns_isBytes (layer_isBytes hb).2) (hk k (by simp)))

/-! ### The key schedule -/

theorem expandKey_words : ∀ (n : Nat) (w : List (List Nat)) (rcon i : Nat), 8 ≤ w.length → rcon < 256 → (∀ x ∈ w, IsBytes 4 x) →
    (expandKey w rcon i n).length = w.length + n ∧ ∀ x ∈ expandKey w rcon i n, IsBytes 4 x
  | 0, w, _, _, _, _, hw => ⟨rfl, hw⟩
  | n + 1, w, rcon, i, hl, hr, hw => by
    have ht : IsBytes 4 (w.headD []) := by
      cases w with
      | nil => simp at hl
      | cons x l => exact hw x (by simp)
    have h7 : IsBytes 4 (w.getD 7 []) := by
      rw [List.getD_eq_getElem?_getD, List.getElem?_eq_getElem (by omega)]
      exact hw _ (List.getElem_mem _)
    have hu : IsBytes 4 (if i % 8 = 0 then xorBytes (((w.headD []).drop 1 ++ (w.headD []).take 1).map sbox) [rcon, 0, 0, 0]
        else if i % 8 = 4 then (w.headD []).map sbox else w.headD []) := by
      split
      · exact xorBytes_isBytes (map_sbox_isBytes (by have := ht.1; simp at this ⊢; omega)) ⟨rfl, by simp [hr]⟩
      · split
        · exact map_sbox_isBytes ht.1
        · exact ht
    have ih := expandKey_words n (xorBytes (w.getD 7 []) (if i % 8 = 0 then xorBytes (((w.headD []).drop 1 ++ (w.headD []).take 1).map sbox) [rcon, 0, 0, 0]
        else if i % 8 = 4 then (w.headD []).map sbox else w.headD []) :: w) (if i % 8 = 0 then xtime rcon else rcon) (i + 1)
      (by simp; omega) (by split <;> [exact xtime_lt hr; exact hr])
      (fun x hx => by
        rcases List.mem_cons.1 hx with rfl | hx
        · exact xorBytes_isBytes h7 hu
        · exact hw x hx)
    exact ⟨by rw [show (expandKey w rcon i (n + 1)).length = _ from ih.1]; simp; omega, ih.2⟩

theorem four_words {l : List (List Nat)} (h : l.length = 4) (hw : ∀ x ∈ l, IsBytes 4 x) : IsBytes 16 l.flatten := by
  match l, h with
  | [a, b, c, d], _ =>
    have ha := hw a (by simp); have hb := hw b (by simp); have hc := hw c (by simp); have hd := hw d (by simp)
    refine ⟨by simp [ha.1, hb.1, hc.1, hd.1], fun x hx => ?_⟩
    simp only [List.flatten_cons, List.flatten_nil, List.append_nil, List.mem_append] at hx
    rcases hx with h | h | h | h
    exacts [ha.2 x h, hb.2 x h, hc.2 x h, hd.2 x h]

theorem roundKeys_areKeys {key : List Nat} (h : IsBytes 32 key) : (roundKeys key).length = 15 ∧ AreKeys (roundKeys key) := by
  have hw : ∀ x ∈ ((List.range 8).map fun i => (key.drop (4 * i)).take 4).reverse, IsBytes 4 x := fun x hx => by
    obtain ⟨i, hi, rfl⟩ := List.mem_map.1 (List.mem_reverse.1 hx)
    have := List.mem_range.1 hi
    exact ⟨by simp [h.1]; omega, fun y hy => h.2 y (List.mem_of_mem_drop (List.mem_of_mem_take hy))⟩
  obtain ⟨hl, hb⟩ := expandKey_words 52 _ 1 8 (by simp) (by decide) hw
  refine ⟨by simp [roundKeys], fun k hk => ?_⟩
  obtain ⟨r, hr, rfl⟩ := List.mem_map.1 hk
  have hr := List.mem_range.1 hr
  refine four_words ?_ fun x hx => hb x (List.mem_reverse.1 (List.mem_of_mem_drop (List.mem_of_mem_take hx)))
  rw [List.length_take, List.length_drop, List.length_reverse, hl]
  simp
  omega

/-- AES-256 of a block is a block. -/
theorem aesEncrypt_isBytes {key b : List Nat} (hk : IsBytes 32 key) (hb : IsBytes 16 b) : IsBytes 16 (aesEncrypt key b) := by
  obtain ⟨hl, hr⟩ := roundKeys_areKeys hk
  unfold aesEncrypt
  cases hc : roundKeys key with
  | nil => simp [hc] at hl
  | cons k l =>
    rw [hc] at hr
    exact encryptRounds_isBytes _ _ (fun x hx => hr x (by simp at hx ⊢; tauto)) (xorBytes_isBytes hb (hr k (by simp)))

/-- AES-256 decryption undoes encryption. -/
theorem aesDecrypt_aesEncrypt {key b : List Nat} (hk : IsBytes 32 key) (hb : IsBytes 16 b) : aesDecrypt key (aesEncrypt key b) = b := by
  obtain ⟨hl, hr⟩ := roundKeys_areKeys hk
  unfold aesEncrypt aesDecrypt
  match hc : roundKeys key with
  | [] => simp [hc] at hl
  | [_] => simp [hc] at hl
  | k0 :: k :: l =>
    rw [hc] at hr
    have h0 := hr k0 (by simp)
    have hx := xorBytes_isBytes hb h0
    have e1 : (k0 :: k :: l).reverse.drop 1 = (k :: l).reverse.drop 1 ++ [k0] := by
      rw [List.reverse_cons, List.drop_append_of_le_length (by simp)]
    have e2 : (k0 :: k :: l).reverse.headD [] = (k :: l).reverse.headD [] := by
      rw [List.reverse_cons]
      cases hc : (k :: l).reverse with
      | nil => simp at hc
      | cons x y => simp
    show decryptRounds ((k0 :: k :: l).reverse.drop 1) (xorBytes (encryptRounds (k :: l) (xorBytes b k0)) ((k0 :: k :: l).reverse.headD [])) = b
    rw [e1, e2, decryptRounds_encryptRounds k l [k0] _ (fun x hx => hr x (by simp at hx ⊢; tauto)) (by simp) hx]
    show xorBytes ((invShiftRows (shiftRows ((xorBytes b k0).map sbox))).map invSbox) k0 = b
    rw [layer_inverse hx, xorBytes_cancel (by rw [hb.1, h0.1])]

/-! ### Numbers and bytes -/

theorem numBytes_isBytes (n v : Nat) : IsBytes n (numBytes n v) :=
  ⟨by simp [numBytes], fun x hx => by
    obtain ⟨k, _, rfl⟩ := List.mem_map.1 hx
    exact Nat.mod_lt _ (by decide)⟩

theorem numBytes_succ (n v : Nat) : numBytes (n + 1) v = v % 256 :: numBytes n (v / 256) := by
  simp only [numBytes, List.range_succ_eq_map, List.map_cons, List.map_map]
  congr 1
  · simp
  · exact List.map_congr_left fun k _ => by simp [Function.comp, Nat.pow_succ', Nat.div_div_eq_div_mul]

theorem bytesNum_numBytes : ∀ n v : Nat, bytesNum (numBytes n v) = v % 256 ^ n
  | 0, v => by simp [numBytes, bytesNum, Nat.mod_one]
  | n + 1, v => by
    have ih := bytesNum_numBytes n (v / 256)
    simp only [bytesNum] at ih
    rw [numBytes_succ]
    simp only [bytesNum, List.foldr_cons, ih]
    rw [Nat.pow_succ', Nat.mod_mul]

theorem numBytes_bytesNum : ∀ {n : Nat} {b : List Nat}, IsBytes n b → numBytes n (bytesNum b) = b
  | 0, b, h => by rw [isBytes_nil h]; rfl
  | n + 1, b, h => by
    obtain ⟨x, l, rfl, hx, hl⟩ := isBytes_cons h
    have ih := numBytes_bytesNum hl
    simp only [bytesNum] at ih
    rw [numBytes_succ]
    simp only [bytesNum, List.foldr_cons]
    rw [show (x + 256 * l.foldr (fun x a => x + 256 * a) 0) % 256 = x by omega,
      show (x + 256 * l.foldr (fun x a => x + 256 * a) 0) / 256 = l.foldr (fun x a => x + 256 * a) 0 by omega, ih]

theorem bytesNum_lt : ∀ {n : Nat} {b : List Nat}, IsBytes n b → bytesNum b < 256 ^ n
  | 0, b, h => by rw [isBytes_nil h]; decide
  | n + 1, b, h => by
    obtain ⟨x, l, rfl, hx, hl⟩ := isBytes_cons h
    have ih := bytesNum_lt hl
    simp only [bytesNum] at ih
    simp only [bytesNum, List.foldr_cons, Nat.pow_succ']
    omega

theorem pow_bytes (n : Nat) : 256 ^ n = 2 ^ (8 * n) := by rw [show (256 : Nat) = 2 ^ 8 from rfl, ← Nat.pow_mul]

theorem bytesNum_lt_two_pow {n m : Nat} {b : List Nat} (h : IsBytes n b) (hm : m = 8 * n) : bytesNum b < 2 ^ m := by
  subst hm
  rw [← pow_bytes]
  exact bytesNum_lt h

theorem isBytes_append {m n : Nat} {a b : List Nat} (ha : IsBytes m a) (hb : IsBytes n b) : IsBytes (m + n) (a ++ b) :=
  ⟨by simp [ha.1, hb.1], fun x hx => by
    rcases List.mem_append.1 hx with h | h
    exacts [ha.2 x h, hb.2 x h]⟩

theorem isBytes_take {n : Nat} {b : List Nat} (h : IsBytes n b) (k : Nat) (hk : k ≤ n) : IsBytes k (b.take k) :=
  ⟨by simp [h.1, hk], fun x hx => h.2 x (List.mem_of_mem_take hx)⟩

theorem isBytes_drop {n : Nat} {b : List Nat} (h : IsBytes n b) (k : Nat) : IsBytes (n - k) (b.drop k) :=
  ⟨by simp [h.1], fun x hx => h.2 x (List.mem_of_mem_drop hx)⟩

/-! ### XTS -/

theorem tweaked_isBytes {k t b : List Nat} (hk : IsBytes 32 k) (ht : IsBytes 16 t) (hb : IsBytes 16 b) :
    IsBytes 16 (tweaked (aesEncrypt k) t b) :=
  xorBytes_isBytes (aesEncrypt_isBytes hk (xorBytes_isBytes hb ht)) ht

theorem tweaked_inverse {k t b : List Nat} (hk : IsBytes 32 k) (ht : IsBytes 16 t) (hb : IsBytes 16 b) :
    tweaked (aesDecrypt k) t (tweaked (aesEncrypt k) t b) = b := by
  have hx := xorBytes_isBytes hb ht
  unfold tweaked
  rw [xorBytes_cancel (by rw [(aesEncrypt_isBytes hk hx).1, ht.1]), aesDecrypt_aesEncrypt hk hx, xorBytes_cancel (by rw [hb.1, ht.1])]

/-- The 36 bytes of a unit encrypted, and their inverse, from the data key and the three tweaks. -/
theorem stealing {k t0 t1 t2 p : List Nat} (hk : IsBytes 32 k) (h0 : IsBytes 16 t0) (h1 : IsBytes 16 t1) (h2 : IsBytes 16 t2)
    (hp : IsBytes 36 p) :
    let cc := tweaked (aesEncrypt k) t1 ((p.drop 16).take 16)
    let last := tweaked (aesEncrypt k) t2 (p.drop 32 ++ cc.drop 4)
    let c := tweaked (aesEncrypt k) t0 (p.take 16) ++ last ++ cc.take 4
    let pp := tweaked (aesDecrypt k) t2 ((c.drop 16).take 16)
    let mid := tweaked (aesDecrypt k) t1 (c.drop 32 ++ pp.drop 4)
    IsBytes 36 c ∧ tweaked (aesDecrypt k) t0 (c.take 16) ++ mid ++ pp.take 4 = p := by
  intro cc last c pp mid
  have hp0 : IsBytes 16 (p.take 16) := isBytes_take hp 16 (by decide)
  have hp1 : IsBytes 16 ((p.drop 16).take 16) := isBytes_take (isBytes_drop hp 16) 16 (by decide)
  have hp2 : IsBytes 4 (p.drop 32) := isBytes_drop hp 32
  have hcc : IsBytes 16 cc := tweaked_isBytes hk h1 hp1
  have hcd : IsBytes 12 (cc.drop 4) := isBytes_drop hcc 4
  have hct : IsBytes 4 (cc.take 4) := isBytes_take hcc 4 (by decide)
  have hl : IsBytes 16 last := tweaked_isBytes hk h2 (isBytes_append hp2 hcd)
  have ha : IsBytes 16 (tweaked (aesEncrypt k) t0 (p.take 16)) := tweaked_isBytes hk h0 hp0
  have e0 : c.take 16 = tweaked (aesEncrypt k) t0 (p.take 16) := by
    rw [show c = tweaked (aesEncrypt k) t0 (p.take 16) ++ (last ++ cc.take 4) from List.append_assoc _ _ _]
    exact List.take_left' ha.1
  have e1 : c.drop 16 = last ++ cc.take 4 := by
    rw [show c = tweaked (aesEncrypt k) t0 (p.take 16) ++ (last ++ cc.take 4) from List.append_assoc _ _ _]
    exact List.drop_left' ha.1
  have e2 : c.drop 32 = cc.take 4 := by
    rw [show (32 : Nat) = 16 + 16 from rfl, ← List.drop_drop, e1]
    exact List.drop_left' hl.1
  have hpp : pp = p.drop 32 ++ cc.drop 4 := by
    show tweaked (aesDecrypt k) t2 ((c.drop 16).take 16) = _
    rw [e1, List.take_left' hl.1]
    exact tweaked_inverse hk h2 (isBytes_append hp2 hcd)
  have hm : mid = (p.drop 16).take 16 := by
    show tweaked (aesDecrypt k) t1 (c.drop 32 ++ pp.drop 4) = _
    rw [e2, hpp, List.drop_left' hp2.1, List.take_append_drop]
    exact tweaked_inverse hk h1 hp1
  refine ⟨isBytes_append (isBytes_append ha hl) hct, ?_⟩
  rw [e0, tweaked_inverse hk h0 hp0, hm, hpp, List.take_left' hp2.1,
    show p.drop 32 = (p.drop 16).drop 16 by rw [List.drop_drop], List.append_assoc, List.take_append_drop, List.take_append_drop]

/-- R194: what a unit was stored under a key pair, a read under the same key pair gives back. -/
theorem xtsDecrypt_xtsEncrypt (k : BitVec 512) (unit : Nat) (v : BitVec 288) : xtsDecrypt k unit (xtsEncrypt k unit v) = v := by
  have h := stealing (k := numBytes 32 (bitsOf k 0 256)) (numBytes_isBytes _ _) (numBytes_isBytes 16 (bytesNum (aesEncrypt (numBytes 32 (bitsOf k 256 256)) (numBytes 16 unit))))
    (numBytes_isBytes 16 (nextTweak (bytesNum (aesEncrypt (numBytes 32 (bitsOf k 256 256)) (numBytes 16 unit)))))
    (numBytes_isBytes 16 (nextTweak (nextTweak (bytesNum (aesEncrypt (numBytes 32 (bitsOf k 256 256)) (numBytes 16 unit))))))
    (numBytes_isBytes 36 v.toNat)
  dsimp only at h
  obtain ⟨hc, he⟩ := h
  simp only [xtsDecrypt, xtsEncrypt, keyPair, tweaks]
  rw [BitVec.toNat_ofNat, Nat.mod_eq_of_lt (bytesNum_lt_two_pow hc rfl), numBytes_bytesNum hc, he, bytesNum_numBytes, pow_bytes,
    Nat.mod_eq_of_lt v.isLt, BitVec.ofNat_toNat, BitVec.setWidth_eq]

/-! ### Key wrap -/

theorem setAt_length {α : Type} : ∀ (l : List α) (n : Nat) (v : α), (setAt l n v).length = l.length
  | [], _, _ => rfl
  | _ :: _, 0, _ => rfl
  | _ :: r, n + 1, v => by simp [setAt, setAt_length r n v]

theorem getD_setAt {α : Type} (d v : α) : ∀ (l : List α) (n : Nat), n < l.length → (setAt l n v).getD n d = v
  | [], _, h => by simp at h
  | _ :: _, 0, _ => rfl
  | x :: r, n + 1, h => by simpa [setAt] using getD_setAt d v r n (by simpa using h)

theorem setAt_setAt_getD {α : Type} (d v : α) : ∀ (l : List α) (n : Nat), n < l.length → setAt (setAt l n v) n (l.getD n d) = l
  | [], _, h => by simp at h
  | _ :: _, 0, _ => rfl
  | x :: r, n + 1, h => by simpa [setAt] using setAt_setAt_getD d v r n (by simpa using h)

theorem mem_setAt {α : Type} {x v : α} : ∀ {l : List α} {n : Nat}, x ∈ setAt l n v → x = v ∨ x ∈ l
  | [], _, h => by simp [setAt] at h
  | _ :: _, 0, h => by
    rcases List.mem_cons.1 h with h | h
    exacts [.inl h, .inr (by simp [h])]
  | y :: r, n + 1, h => by
    rcases List.mem_cons.1 h with h | h
    · exact .inr (by simp [h])
    · rcases mem_setAt h with h | h
      exacts [.inl h, .inr (by simp [h])]

/-- The steps of key wrap (RFC 3394), which the host makes: `unwrapSteps` undoes them. -/
def wrapSteps (kek : List Nat) (n : Nat) : Nat → List Nat → List (List Nat) → List Nat × List (List Nat)
  | 0, a, r => (a, r)
  | t + 1, a, r =>
    let w := wrapSteps kek n t a r
    let b := aesEncrypt kek (w.1 ++ w.2.getD (t % n) [])
    (xorBytes (b.take 8) (numBytes 8 (t + 1)).reverse, setAt w.2 (t % n) (b.drop 8))

theorem wrapSteps_succ (kek : List Nat) (n t : Nat) (a : List Nat) (r : List (List Nat)) :
    wrapSteps kek n (t + 1) a r =
      (xorBytes ((aesEncrypt kek ((wrapSteps kek n t a r).1 ++ (wrapSteps kek n t a r).2.getD (t % n) [])).take 8) (numBytes 8 (t + 1)).reverse,
        setAt (wrapSteps kek n t a r).2 (t % n)
          ((aesEncrypt kek ((wrapSteps kek n t a r).1 ++ (wrapSteps kek n t a r).2.getD (t % n) [])).drop 8)) := rfl

theorem unwrapSteps_succ (kek : List Nat) (n t : Nat) (a : List Nat) (r : List (List Nat)) :
    unwrapSteps kek n (t + 1) a r =
      unwrapSteps kek n t ((aesDecrypt kek (xorBytes a (numBytes 8 (t + 1)).reverse ++ r.getD (t % n) [])).take 8)
        (setAt r (t % n) ((aesDecrypt kek (xorBytes a (numBytes 8 (t + 1)).reverse ++ r.getD (t % n) [])).drop 8)) := rfl

theorem unwrapSteps_wrapSteps {kek : List Nat} (hk : IsBytes 32 kek) {n : Nat} (hn : 0 < n) {a : List Nat} {r : List (List Nat)} (ha : IsBytes 8 a)
    (hr : r.length = n ∧ ∀ x ∈ r, IsBytes 8 x) (t : Nat) :
    IsBytes 8 (wrapSteps kek n t a r).1 ∧ ((wrapSteps kek n t a r).2.length = n ∧ ∀ x ∈ (wrapSteps kek n t a r).2, IsBytes 8 x) ∧
      unwrapSteps kek n t (wrapSteps kek n t a r).1 (wrapSteps kek n t a r).2 = (a, r) := by
  induction t with
  | zero => exact ⟨ha, hr, rfl⟩
  | succ t ih =>
    obtain ⟨h1, ⟨h2, h3⟩, h4⟩ := ih
    have hi : t % n < (wrapSteps kek n t a r).2.length := by rw [h2]; exact Nat.mod_lt _ hn
    have hg : IsBytes 8 ((wrapSteps kek n t a r).2.getD (t % n) []) := by
      rw [List.getD_eq_getElem?_getD, List.getElem?_eq_getElem hi]
      exact h3 _ (List.getElem_mem _)
    have hb := aesEncrypt_isBytes hk (isBytes_append h1 hg)
    have hx : IsBytes 8 ((numBytes 8 (t + 1)).reverse) :=
      ⟨by simp [numBytes], fun x hx => (numBytes_isBytes 8 (t + 1)).2 x (List.mem_reverse.1 hx)⟩
    have ht := isBytes_take hb 8 (by decide)
    rw [wrapSteps_succ]
    generalize wrapSteps kek n t a r = w at *
    generalize hc : aesEncrypt kek (w.1 ++ w.2.getD (t % n) []) = c at *
    refine ⟨xorBytes_isBytes ht hx, ⟨by rw [setAt_length, h2], fun x hm => ?_⟩, ?_⟩
    · rcases mem_setAt hm with h | hm
      · rw [h]; exact isBytes_drop hb 8
      · exact h3 x hm
    · rw [unwrapSteps_succ]
      dsimp only
      rw [xorBytes_cancel (by rw [ht.1, hx.1]), getD_setAt _ _ _ _ hi, List.take_append_drop, ← hc, aesDecrypt_aesEncrypt hk (isBytes_append h1 hg),
        List.take_left' h1.1, List.drop_left' h1.1, setAt_setAt_getD _ _ _ _ hi, h4]

/-- The blocks of 8 bytes that a string consists of. -/
theorem blocks_flatten : ∀ (n : Nat) (b : List Nat), b.length = 8 * n → ((List.range n).map fun i => (b.drop (8 * i)).take 8).flatten = b
  | 0, b, h => by simp [List.length_eq_zero_iff.1 h]
  | n + 1, b, h => by
    have ih := blocks_flatten n (b.drop 8) (by simp [h]; omega)
    simp only [List.drop_drop] at ih
    rw [List.range_succ_eq_map, List.map_cons, List.map_map, List.flatten_cons]
    simp only [Function.comp_def, Nat.mul_succ, Nat.add_comm (8 * _) 8, ih]
    exact List.take_append_drop 8 b

/-- The blocks of a string made of blocks. -/
theorem flatten_blocks : ∀ (r : List (List Nat)), (∀ x ∈ r, IsBytes 8 x) →
    ((List.range r.length).map fun i => (r.flatten.drop (8 * i)).take 8) = r
  | [], _ => rfl
  | x :: r, h => by
    have hx := (h x (by simp)).1
    have ih := flatten_blocks r fun y hy => h y (by simp [hy])
    rw [List.length_cons, List.range_succ_eq_map, List.map_cons, List.map_map, List.flatten_cons]
    congr 1
    · exact List.take_left' hx
    · refine Eq.trans (List.map_congr_left fun i _ => ?_) ih
      simp only [Function.comp_def, Nat.mul_succ, Nat.add_comm (8 * i) 8, ← List.drop_drop]
      rw [List.drop_left' hx]

/-- What a host wraps under a key-encryption key with an integrity value (RFC 3394). -/
def keyWrapped (kek : BitVec 256) (iv : List Nat) (key : BitVec 512) : BitVec 576 :=
  let w := wrapSteps (numBytes 32 kek.toNat) 8 48 iv ((List.range 8).map fun i => ((numBytes 64 key.toNat).drop (8 * i)).take 8)
  BitVec.ofNat 576 (bytesNum (w.1 ++ w.2.flatten))

theorem flatten_isBytes : ∀ (r : List (List Nat)), (∀ x ∈ r, IsBytes 8 x) → IsBytes (8 * r.length) r.flatten
  | [], _ => ⟨rfl, by simp⟩
  | x :: r, h => by
    have := isBytes_append (h x (by simp)) (flatten_isBytes r fun y hy => h y (by simp [hy]))
    rw [List.length_cons, Nat.mul_succ, Nat.add_comm]
    exact this

/-- R394: the unwrap of a wrapped key pair is that key pair where the integrity value is the standard one, and fails otherwise. -/
theorem keyUnwrap_keyWrapped (kek : BitVec 256) {iv : List Nat} (hi : IsBytes 8 iv) (key : BitVec 512) :
    keyUnwrap kek (keyWrapped kek iv key) = if iv = List.replicate 8 0xA6 then some key else none := by
  have hp := numBytes_isBytes 64 key.toNat
  have hr : ((List.range 8).map fun i => ((numBytes 64 key.toNat).drop (8 * i)).take 8).length = 8 ∧
      ∀ x ∈ (List.range 8).map fun i => ((numBytes 64 key.toNat).drop (8 * i)).take 8, IsBytes 8 x := by
    refine ⟨by simp, fun x hx => ?_⟩
    obtain ⟨i, hi, rfl⟩ := List.mem_map.1 hx
    have := List.mem_range.1 hi
    exact isBytes_take (isBytes_drop hp (8 * i)) 8 (by omega)
  obtain ⟨h1, ⟨h2, h3⟩, h4⟩ := unwrapSteps_wrapSteps (numBytes_isBytes 32 kek.toNat) (n := 8) (by decide) hi hr 48
  generalize hw : wrapSteps (numBytes 32 kek.toNat) 8 48 iv ((List.range 8).map fun i => ((numBytes 64 key.toNat).drop (8 * i)).take 8) = w at h1 h2 h3 h4
  have hf : IsBytes 64 w.2.flatten := by have := flatten_isBytes w.2 h3; rwa [h2] at this
  have hc : IsBytes 72 (w.1 ++ w.2.flatten) := isBytes_append h1 hf
  have hb : ((List.range 8).map fun i => ((w.1 ++ w.2.flatten).drop (8 * (i + 1))).take 8) = w.2 := by
    have := flatten_blocks w.2 h3
    rw [h2] at this
    refine Eq.trans (List.map_congr_left fun i _ => ?_) this
    rw [Nat.mul_succ, Nat.add_comm, ← List.drop_drop, List.drop_left' h1.1]
  simp only [keyUnwrap, keyWrapped, hw]
  rw [BitVec.toNat_ofNat, Nat.mod_eq_of_lt (bytesNum_lt_two_pow hc rfl), numBytes_bytesNum hc, List.take_left' h1.1, hb, h4]
  simp only [blocks_flatten 8 _ hp.1, bytesNum_numBytes, pow_bytes]
  rw [Nat.mod_eq_of_lt key.isLt, BitVec.ofNat_toNat, BitVec.setWidth_eq]

end Sys2Proof.Machine
end

