-- ==== Sys2Proof/Laws/Tables.lean ====
section
/-! SUPPORT. Laws of tables and lists with rising keys, and the canonical form of byte stores. -/

namespace Sys2Proof.Machine

/-! ### Tables -/

/-- Reading after writing. -/
@[simp] theorem tget_tput {α : Type} (d : α) (l : List (Nat × α)) (i j : Nat) (v : α) :
    tget d (tput l i v) j = if j = i then v else tget d l j := by
  induction l with
  | nil =>
    simp only [tput, tget]
    by_cases h : j = i
    · simp [h]
    · simp [h, Ne.symm h]
  | cons e r ih =>
    obtain ⟨k, w⟩ := e
    simp only [tput]
    by_cases h : j = i
    · subst h
      split
      · simp [tget]
      · split
        · simp [tget]
        · rename_i hk _; simp [tget, hk, ih]
    · have h' : ¬ i = j := fun e => h e.symm
      split
      · rename_i hk; subst hk; simp [tget, h']
      · split
        · simp [tget, h']
        · simp [tget, ih, h]

/-- Reading a key after dropping it, or another one. -/
@[simp] theorem tget_tdrop {α : Type} (d : α) (l : List (Nat × α)) (i j : Nat) :
    tget d (tdrop l i) j = if j = i then d else tget d l j := by
  induction l with
  | nil => simp [tdrop, tget]
  | cons e r ih =>
    obtain ⟨k, w⟩ := e
    unfold tdrop at ih ⊢
    by_cases hk : k = i
    · subst hk
      simp only [List.filter, bne_self_eq_false, ih, tget]
      by_cases h : j = k
      · simp [h]
      · simp [h, Ne.symm h]
    · have hb : (k != i) = true := by simp [hk]
      simp only [List.filter, hb, tget, ih]
      by_cases h : j = i
      · subst h; simp [hk]
      · simp [h]

/-- Strictly rising is pairwise rising. -/
theorem rising_iff (l : List Nat) : rising l = true ↔ l.Pairwise (· < ·) := by
  induction l with
  | nil => simp [rising]
  | cons a r ih =>
    cases r with
    | nil => simp [rising]
    | cons b q =>
      simp only [rising, Bool.and_eq_true, decide_eq_true_eq, ih, List.pairwise_cons]
      constructor
      · rintro ⟨h, hb, hq⟩
        exact ⟨fun x hx => by
          rcases List.mem_cons.mp hx with rfl | hx
          · exact h
          · exact Nat.lt_trans h (hb x hx), hb, hq⟩
      · rintro ⟨ha, hb, hq⟩
        exact ⟨ha b (by simp), hb, hq⟩

/-- The keys of a table after writing are the old ones and the written one. -/
theorem mem_keys_tput {α : Type} (l : List (Nat × α)) (i k : Nat) (v : α) (h : k ∈ (tput l i v).map (·.1)) :
    k = i ∨ k ∈ l.map (·.1) := by
  induction l with
  | nil => simpa [tput] using h
  | cons e r ih =>
    obtain ⟨a, w⟩ := e
    simp only [tput] at h
    split at h
    · rename_i ha; subst ha; simpa using h
    · split at h
      · simpa using h
      · simp only [List.map_cons, List.mem_cons] at h ⊢
        rcases h with h | h
        · exact .inr (.inl h)
        · rcases ih h with h | h
          · exact .inl h
          · exact .inr (.inr h)

/-- Writing keeps the keys rising. -/
theorem rising_tput {α : Type} (l : List (Nat × α)) (i : Nat) (v : α) (h : rising (l.map (·.1)) = true) :
    rising ((tput l i v).map (·.1)) = true := by
  rw [rising_iff] at h ⊢
  induction l with
  | nil => simp [tput]
  | cons e r ih =>
    obtain ⟨a, w⟩ := e
    simp only [List.map_cons, List.pairwise_cons] at h
    simp only [tput]
    split
    · rename_i ha; subst ha; simpa using h
    · split
      · rename_i hi
        simp only [List.map_cons, List.pairwise_cons, List.mem_cons]
        exact ⟨fun x hx => hx.elim (fun e => e ▸ hi) (fun hx => Nat.lt_trans hi (h.1 x hx)), h.1, h.2⟩
      · simp only [List.map_cons, List.pairwise_cons]
        refine ⟨fun x hx => ?_, ih h.2⟩
        rcases mem_keys_tput r i x v hx with rfl | hx
        · omega
        · exact h.1 x hx

/-- Removing keeps the keys rising. -/
theorem rising_filter {α : Type} (p : Nat × α → Bool) (l : List (Nat × α)) (h : rising (l.map (·.1)) = true) :
    rising ((l.filter p).map (·.1)) = true := by
  rw [rising_iff] at h ⊢
  exact h.sublist (List.filter_sublist.map _)

/-- What a table holds after writing is what it held, or the written entry. -/
theorem mem_tput {α : Type} (l : List (Nat × α)) (i : Nat) (v : α) (e : Nat × α) (h : e ∈ tput l i v) : e = (i, v) ∨ e ∈ l := by
  induction l with
  | nil => simpa [tput] using h
  | cons x r ih =>
    obtain ⟨a, w⟩ := x
    simp only [tput] at h
    split at h
    · exact (List.mem_cons.mp h).imp_right (List.mem_cons_of_mem _)
    · split at h
      · exact List.mem_cons.mp h
      · rcases List.mem_cons.mp h with h | h
        · exact .inr (h ▸ List.mem_cons_self)
        · exact (ih h).imp_right (List.mem_cons_of_mem _)

/-- Putting a number keeps a list rising. -/
theorem mem_nput (l : List Nat) (i x : Nat) (h : x ∈ nput l i) : x = i ∨ x ∈ l := by
  induction l with
  | nil => simpa [nput] using h
  | cons a r ih =>
    simp only [nput] at h
    split at h
    · exact .inr h
    · split at h
      · exact List.mem_cons.mp h
      · rcases List.mem_cons.mp h with h | h
        · exact .inr (h ▸ List.mem_cons_self)
        · exact (ih h).imp_right (List.mem_cons_of_mem _)

/-- Putting a number keeps a list rising. -/
theorem rising_nput (l : List Nat) (i : Nat) (h : rising l = true) : rising (nput l i) = true := by
  rw [rising_iff] at h ⊢
  induction l with
  | nil => simp [nput]
  | cons a r ih =>
    rw [List.pairwise_cons] at h
    simp only [nput]
    split
    · exact List.pairwise_cons.mpr h
    · split
      · rename_i hi
        refine List.pairwise_cons.mpr ⟨fun x hx => ?_, List.pairwise_cons.mpr h⟩
        rcases List.mem_cons.mp hx with rfl | hx
        · exact hi
        · exact Nat.lt_trans hi (h.1 x hx)
      · refine List.pairwise_cons.mpr ⟨fun x hx => ?_, ih h.2⟩
        rcases mem_nput r i x hx with rfl | hx
        · omega
        · exact h.1 x hx

/-! ### Byte stores -/

/-- A byte after writing one. -/
@[simp] theorem Memory.byte_putByte (m : Memory) (a c : Nat) (b : Byte) :
    (m.putByte a b).byte c = if c = a then b else m.byte c := by
  unfold Memory.putByte Memory.byte
  by_cases h : b = unlisted
  · simp only [h, if_true, tget_tdrop]
  · simp only [h, if_false, tget_tput]

/-- A byte after writing several. -/
theorem Memory.byte_putBytes (bs : List Byte) (m : Memory) (a c : Nat) :
    (m.putBytes a bs).byte c = if a ≤ c ∧ c < a + bs.length then bs.getD (c - a) 0 else m.byte c := by
  induction bs generalizing m a with
  | nil => simp [Memory.putBytes]
  | cons b r ih =>
    simp only [Memory.putBytes, ih, Memory.byte_putByte, List.length_cons]
    by_cases h : c = a
    · subst h; simp
    · by_cases h1 : a + 1 ≤ c ∧ c < a + 1 + r.length
      · have h2 : a ≤ c ∧ c < a + (r.length + 1) := by omega
        have h3 : c - a = (c - (a + 1)) + 1 := by omega
        simp [h1, h2, h3]
      · have h2 : ¬ (a ≤ c ∧ c < a + (r.length + 1)) := by omega
        rw [if_neg h1, if_neg h2, if_neg h]

/-- Seals and poison bits leave the bytes. -/
@[simp] theorem Memory.byte_putMeta (m : Memory) (g : Nat) (c : BitVec 32) (p i : Bool) (a : Nat) :
    (m.putMeta g c p i).byte a = m.byte a := rfl

/-- The length of a number's bytes. -/
@[simp] theorem natBytes_length (k n : Nat) : (natBytes k n).length = k := by
  induction k generalizing n with
  | zero => rfl
  | succ k ih => simp [natBytes, ih]

/-- A byte outside a written granule is as before. -/
theorem Memory.byte_putGran_other (m : Memory) (g : Nat) (x : Granule) (a : Nat) (h : a / 32 ≠ g) :
    (m.putGran g x).byte a = m.byte a := by
  have : ¬ (32 * g ≤ a ∧ a < 32 * g + 32) := by omega
  simp [Memory.putGran, Memory.byte_putBytes, this]

/-- Bytes taken where they were put. -/
theorem Memory.take_putBytes (m : Memory) (a : Nat) (bs : List Byte) : (m.putBytes a bs).take a bs.length = bs := by
  suffices h : ∀ (l : List Byte) (k : Nat), k + l.length = bs.length → bs.drop k = l → (m.putBytes a bs).take (a + k) l.length = l by
    simpa using h bs 0 (by simp) (by simp)
  intro l
  induction l with
  | nil => intros; rfl
  | cons b r ih =>
    intro k hk hd
    have hg : bs[k]? = some b := by
      have := congrArg (·[0]?) hd
      simpa using this
    have hr : bs.drop (k + 1) = r := by rw [← List.drop_drop, hd]; rfl
    simp only [List.length_cons] at hk
    simp only [List.length_cons, Memory.take, Memory.byte_putBytes]
    rw [if_pos (by omega), show a + k - a = k by omega, List.getD_eq_getElem?_getD, hg, Nat.add_assoc a k 1, ih (k + 1) (by omega) hr]
    rfl

/-- The number of a number's bytes. -/
theorem bytesNat_natBytes (k n : Nat) : bytesNat (natBytes k n) = n % 256 ^ k := by
  induction k generalizing n with
  | zero => simp [natBytes, bytesNat, Nat.mod_one]
  | succ k ih =>
    rw [natBytes, bytesNat, ih, BitVec.toNat_ofNat, show 256 ^ (k + 1) = 256 * 256 ^ k from Nat.pow_succ', Nat.mod_mul]

/-- A number is a member after it has been put in. -/
theorem mem_nput_self (l : List Nat) (i : Nat) : i ∈ nput l i := by
  induction l with
  | nil => simp [nput]
  | cons k r ih =>
    unfold nput
    split
    · simp_all
    · split <;> simp [*]

/-- A number is in a list as it was marked. -/
theorem nmark_contains (l : List Nat) (g : Nat) (b : Bool) : (nmark l g b).contains g = b := by
  unfold nmark
  cases b <;> simp [mem_nput_self]

/-- A granule reads back as it was written. -/
theorem Memory.gran_putGran (m : Memory) (n : Nat) (x : Granule) : (m.putGran n x).gran n = x := by
  have h1 : (m.putGran n x).take (32 * n) 32 = natBytes 32 x.data.toNat := by
    have h := Memory.take_putBytes m (32 * n) (natBytes 32 x.data.toNat)
    rw [natBytes_length] at h
    exact h
  have h2 : (m.putGran n x).sealAt n = x.code := by
    unfold Memory.putGran Memory.putMeta Memory.sealAt
    by_cases h : x.code = zeroSeal <;> simp [h]
  have h3 : (m.putGran n x).poisonAt n = x.poison := by
    exact nmark_contains _ _ _
  have h4 : (m.putGran n x).injAt n = x.inj := by
    exact nmark_contains _ _ _
  obtain ⟨d, c, q, i⟩ := x
  simp only [Memory.gran, h1, h2, h3, h4, bytesNat_natBytes]
  congr 1
  apply BitVec.eq_of_toNat_eq
  rw [BitVec.toNat_ofNat, show 256 ^ 32 = 2 ^ 256 by norm_num, Nat.mod_mod, Nat.mod_eq_of_lt d.isLt]

/-- The parts of the canonical form. -/
theorem Memory.wf_iff (m : Memory) : m.wf = true ↔
    rising (m.bytes.map (·.1)) = true ∧ (∀ c ∈ m.bytes, c.2 ≠ unlisted) ∧ rising (m.seals.map (·.1)) = true ∧
      (∀ c ∈ m.seals, c.2 ≠ zeroSeal) ∧ rising m.poison = true ∧ rising m.inj = true := by
  simp [Memory.wf, and_assoc]

/-- The empty store has the form. -/
@[simp] theorem Memory.empty_wf : Memory.empty.wf = true := by decide

/-- Writing a byte keeps the form. -/
theorem Memory.putByte_wf (m : Memory) (a : Nat) (b : Byte) (h : m.wf = true) : (m.putByte a b).wf = true := by
  rw [Memory.wf_iff] at h ⊢
  obtain ⟨h1, h2, h3, h4, h5⟩ := h
  unfold Memory.putByte
  by_cases hb : b = unlisted
  · simp only [hb, if_true]
    exact ⟨rising_filter _ _ h1, fun c hc => h2 c (List.mem_of_mem_filter hc), h3, h4, h5⟩
  · simp only [hb, if_false]
    exact ⟨rising_tput _ _ _ h1, fun c hc => (mem_tput _ _ _ c hc).elim (fun e => e ▸ hb) (h2 c), h3, h4, h5⟩

/-- Writing bytes keeps the form. -/
theorem Memory.putBytes_wf (bs : List Byte) (m : Memory) (a : Nat) (h : m.wf = true) : (m.putBytes a bs).wf = true := by
  induction bs generalizing m a with
  | nil => exact h
  | cons b r ih => exact ih _ _ (m.putByte_wf a b h)

/-- Marking a number keeps a list rising. -/
theorem rising_nmark (l : List Nat) (g : Nat) (b : Bool) (h : rising l = true) : rising (nmark l g b) = true := by
  unfold nmark
  cases b
  · simp only [Bool.false_eq_true, if_false]
    rw [rising_iff] at h ⊢
    exact h.filter _
  · simp only [if_true]; exact rising_nput _ _ h

/-- Writing seal, poison bit and injector mark keeps the form. -/
theorem Memory.putMeta_wf (m : Memory) (g : Nat) (c : BitVec 32) (p i : Bool) (h : m.wf = true) : (m.putMeta g c p i).wf = true := by
  rw [Memory.wf_iff] at h ⊢
  obtain ⟨h1, h2, h3, h4, h5, h6⟩ := h
  refine ⟨h1, h2, ?_, ?_, rising_nmark _ _ _ h5, rising_nmark _ _ _ h6⟩ <;> unfold Memory.putMeta
  · by_cases hc : c = zeroSeal
    · simp only [hc, if_true]; exact rising_filter _ _ h3
    · simp only [hc, if_false]; exact rising_tput _ _ _ h3
  · by_cases hc : c = zeroSeal
    · simp only [hc, if_true]; exact fun e he => h4 e (List.mem_of_mem_filter he)
    · simp only [hc, if_false]; exact fun e he => (mem_tput _ _ _ e he).elim (fun x => x ▸ hc) (h4 e)

/-- Writing a granule keeps the form. -/
theorem Memory.putGran_wf (m : Memory) (g : Nat) (x : Granule) (h : m.wf = true) : (m.putGran g x).wf = true :=
  Memory.putMeta_wf _ _ _ _ _ (Memory.putBytes_wf _ _ _ h)

end Sys2Proof.Machine
end

