-- ==== Sys2Proof/Laws/State.lean ====
section
/-! SUPPORT. What each update of the state leaves and what an accessor reads after it: one lemma per field per update. -/

namespace Sys2Proof.Machine

/-! ### The state -/

/-! What `State.setSlot` leaves: all but slots. -/

@[simp] theorem State.setSlot_agenda (s : State) (i : SlotId) (x : Slot) : (s.setSlot i x).agenda = s.agenda := rfl
@[simp] theorem State.setSlot_free (s : State) (i : SlotId) (x : Slot) : (s.setSlot i x).free = s.free := rfl
@[simp] theorem State.setSlot_cycle (s : State) (i : SlotId) (x : Slot) : (s.setSlot i x).cycle = s.cycle := rfl
@[simp] theorem State.setSlot_cur (s : State) (i : SlotId) (x : Slot) : (s.setSlot i x).cur = s.cur := rfl
@[simp] theorem State.setSlot_actor (s : State) (i : SlotId) (x : Slot) : (s.setSlot i x).actor = s.actor := rfl
@[simp] theorem State.setSlot_cores (s : State) (i : SlotId) (x : Slot) : (s.setSlot i x).cores = s.cores := rfl
@[simp] theorem State.setSlot_clusters (s : State) (i : SlotId) (x : Slot) : (s.setSlot i x).clusters = s.clusters := rfl
@[simp] theorem State.setSlot_dies (s : State) (i : SlotId) (x : Slot) : (s.setSlot i x).dies = s.dies := rfl
@[simp] theorem State.setSlot_parts (s : State) (i : SlotId) (x : Slot) : (s.setSlot i x).parts = s.parts := rfl
@[simp] theorem State.setSlot_segs (s : State) (i : SlotId) (x : Slot) : (s.setSlot i x).segs = s.segs := rfl
@[simp] theorem State.setSlot_scheds (s : State) (i : SlotId) (x : Slot) : (s.setSlot i x).scheds = s.scheds := rfl
@[simp] theorem State.setSlot_tickets (s : State) (i : SlotId) (x : Slot) : (s.setSlot i x).tickets = s.tickets := rfl
@[simp] theorem State.setSlot_nextTicket (s : State) (i : SlotId) (x : Slot) : (s.setSlot i x).nextTicket = s.nextTicket := rfl
@[simp] theorem State.setSlot_mem (s : State) (i : SlotId) (x : Slot) : (s.setSlot i x).mem = s.mem := rfl
@[simp] theorem State.setSlot_keyed (s : State) (i : SlotId) (x : Slot) : (s.setSlot i x).keyed = s.keyed := rfl
@[simp] theorem State.setSlot_under (s : State) (i : SlotId) (x : Slot) : (s.setSlot i x).under = s.under := rfl
@[simp] theorem State.setSlot_past (s : State) (i : SlotId) (x : Slot) : (s.setSlot i x).past = s.past := rfl
@[simp] theorem State.setSlot_stored (s : State) (i : SlotId) (x : Slot) : (s.setSlot i x).stored = s.stored := rfl
@[simp] theorem State.setSlot_strike (s : State) (i : SlotId) (x : Slot) : (s.setSlot i x).strike = s.strike := rfl
@[simp] theorem State.setSlot_pkg (s : State) (i : SlotId) (x : Slot) : (s.setSlot i x).pkg = s.pkg := rfl

/-! What `State.mapSlot` leaves: all but slots. -/

@[simp] theorem State.mapSlot_agenda (s : State) (i : SlotId) (f : Slot → Slot) : (s.mapSlot i f).agenda = s.agenda := rfl
@[simp] theorem State.mapSlot_free (s : State) (i : SlotId) (f : Slot → Slot) : (s.mapSlot i f).free = s.free := rfl
@[simp] theorem State.mapSlot_cycle (s : State) (i : SlotId) (f : Slot → Slot) : (s.mapSlot i f).cycle = s.cycle := rfl
@[simp] theorem State.mapSlot_cur (s : State) (i : SlotId) (f : Slot → Slot) : (s.mapSlot i f).cur = s.cur := rfl
@[simp] theorem State.mapSlot_actor (s : State) (i : SlotId) (f : Slot → Slot) : (s.mapSlot i f).actor = s.actor := rfl
@[simp] theorem State.mapSlot_cores (s : State) (i : SlotId) (f : Slot → Slot) : (s.mapSlot i f).cores = s.cores := rfl
@[simp] theorem State.mapSlot_clusters (s : State) (i : SlotId) (f : Slot → Slot) : (s.mapSlot i f).clusters = s.clusters := rfl
@[simp] theorem State.mapSlot_dies (s : State) (i : SlotId) (f : Slot → Slot) : (s.mapSlot i f).dies = s.dies := rfl
@[simp] theorem State.mapSlot_parts (s : State) (i : SlotId) (f : Slot → Slot) : (s.mapSlot i f).parts = s.parts := rfl
@[simp] theorem State.mapSlot_segs (s : State) (i : SlotId) (f : Slot → Slot) : (s.mapSlot i f).segs = s.segs := rfl
@[simp] theorem State.mapSlot_scheds (s : State) (i : SlotId) (f : Slot → Slot) : (s.mapSlot i f).scheds = s.scheds := rfl
@[simp] theorem State.mapSlot_tickets (s : State) (i : SlotId) (f : Slot → Slot) : (s.mapSlot i f).tickets = s.tickets := rfl
@[simp] theorem State.mapSlot_nextTicket (s : State) (i : SlotId) (f : Slot → Slot) : (s.mapSlot i f).nextTicket = s.nextTicket := rfl
@[simp] theorem State.mapSlot_mem (s : State) (i : SlotId) (f : Slot → Slot) : (s.mapSlot i f).mem = s.mem := rfl
@[simp] theorem State.mapSlot_keyed (s : State) (i : SlotId) (f : Slot → Slot) : (s.mapSlot i f).keyed = s.keyed := rfl
@[simp] theorem State.mapSlot_under (s : State) (i : SlotId) (f : Slot → Slot) : (s.mapSlot i f).under = s.under := rfl
@[simp] theorem State.mapSlot_past (s : State) (i : SlotId) (f : Slot → Slot) : (s.mapSlot i f).past = s.past := rfl
@[simp] theorem State.mapSlot_stored (s : State) (i : SlotId) (f : Slot → Slot) : (s.mapSlot i f).stored = s.stored := rfl
@[simp] theorem State.mapSlot_strike (s : State) (i : SlotId) (f : Slot → Slot) : (s.mapSlot i f).strike = s.strike := rfl
@[simp] theorem State.mapSlot_pkg (s : State) (i : SlotId) (f : Slot → Slot) : (s.mapSlot i f).pkg = s.pkg := rfl

/-! What `State.setMe` leaves: all but slots. -/

@[simp] theorem State.setMe_agenda (s : State) (x : Slot) : (s.setMe x).agenda = s.agenda := rfl
@[simp] theorem State.setMe_free (s : State) (x : Slot) : (s.setMe x).free = s.free := rfl
@[simp] theorem State.setMe_cycle (s : State) (x : Slot) : (s.setMe x).cycle = s.cycle := rfl
@[simp] theorem State.setMe_cur (s : State) (x : Slot) : (s.setMe x).cur = s.cur := rfl
@[simp] theorem State.setMe_actor (s : State) (x : Slot) : (s.setMe x).actor = s.actor := rfl
@[simp] theorem State.setMe_cores (s : State) (x : Slot) : (s.setMe x).cores = s.cores := rfl
@[simp] theorem State.setMe_clusters (s : State) (x : Slot) : (s.setMe x).clusters = s.clusters := rfl
@[simp] theorem State.setMe_dies (s : State) (x : Slot) : (s.setMe x).dies = s.dies := rfl
@[simp] theorem State.setMe_parts (s : State) (x : Slot) : (s.setMe x).parts = s.parts := rfl
@[simp] theorem State.setMe_segs (s : State) (x : Slot) : (s.setMe x).segs = s.segs := rfl
@[simp] theorem State.setMe_scheds (s : State) (x : Slot) : (s.setMe x).scheds = s.scheds := rfl
@[simp] theorem State.setMe_tickets (s : State) (x : Slot) : (s.setMe x).tickets = s.tickets := rfl
@[simp] theorem State.setMe_nextTicket (s : State) (x : Slot) : (s.setMe x).nextTicket = s.nextTicket := rfl
@[simp] theorem State.setMe_mem (s : State) (x : Slot) : (s.setMe x).mem = s.mem := rfl
@[simp] theorem State.setMe_keyed (s : State) (x : Slot) : (s.setMe x).keyed = s.keyed := rfl
@[simp] theorem State.setMe_under (s : State) (x : Slot) : (s.setMe x).under = s.under := rfl
@[simp] theorem State.setMe_past (s : State) (x : Slot) : (s.setMe x).past = s.past := rfl
@[simp] theorem State.setMe_stored (s : State) (x : Slot) : (s.setMe x).stored = s.stored := rfl
@[simp] theorem State.setMe_strike (s : State) (x : Slot) : (s.setMe x).strike = s.strike := rfl
@[simp] theorem State.setMe_pkg (s : State) (x : Slot) : (s.setMe x).pkg = s.pkg := rfl

/-! What `State.mapCore` leaves: all but cores. -/

@[simp] theorem State.mapCore_agenda (s : State) (c : Fin 256) (f : Core → Core) : (s.mapCore c f).agenda = s.agenda := rfl
@[simp] theorem State.mapCore_free (s : State) (c : Fin 256) (f : Core → Core) : (s.mapCore c f).free = s.free := rfl
@[simp] theorem State.mapCore_cycle (s : State) (c : Fin 256) (f : Core → Core) : (s.mapCore c f).cycle = s.cycle := rfl
@[simp] theorem State.mapCore_cur (s : State) (c : Fin 256) (f : Core → Core) : (s.mapCore c f).cur = s.cur := rfl
@[simp] theorem State.mapCore_actor (s : State) (c : Fin 256) (f : Core → Core) : (s.mapCore c f).actor = s.actor := rfl
@[simp] theorem State.mapCore_slots (s : State) (c : Fin 256) (f : Core → Core) : (s.mapCore c f).slots = s.slots := rfl
@[simp] theorem State.mapCore_clusters (s : State) (c : Fin 256) (f : Core → Core) : (s.mapCore c f).clusters = s.clusters := rfl
@[simp] theorem State.mapCore_dies (s : State) (c : Fin 256) (f : Core → Core) : (s.mapCore c f).dies = s.dies := rfl
@[simp] theorem State.mapCore_parts (s : State) (c : Fin 256) (f : Core → Core) : (s.mapCore c f).parts = s.parts := rfl
@[simp] theorem State.mapCore_segs (s : State) (c : Fin 256) (f : Core → Core) : (s.mapCore c f).segs = s.segs := rfl
@[simp] theorem State.mapCore_scheds (s : State) (c : Fin 256) (f : Core → Core) : (s.mapCore c f).scheds = s.scheds := rfl
@[simp] theorem State.mapCore_tickets (s : State) (c : Fin 256) (f : Core → Core) : (s.mapCore c f).tickets = s.tickets := rfl
@[simp] theorem State.mapCore_nextTicket (s : State) (c : Fin 256) (f : Core → Core) : (s.mapCore c f).nextTicket = s.nextTicket := rfl
@[simp] theorem State.mapCore_mem (s : State) (c : Fin 256) (f : Core → Core) : (s.mapCore c f).mem = s.mem := rfl
@[simp] theorem State.mapCore_keyed (s : State) (c : Fin 256) (f : Core → Core) : (s.mapCore c f).keyed = s.keyed := rfl
@[simp] theorem State.mapCore_under (s : State) (c : Fin 256) (f : Core → Core) : (s.mapCore c f).under = s.under := rfl
@[simp] theorem State.mapCore_past (s : State) (c : Fin 256) (f : Core → Core) : (s.mapCore c f).past = s.past := rfl
@[simp] theorem State.mapCore_stored (s : State) (c : Fin 256) (f : Core → Core) : (s.mapCore c f).stored = s.stored := rfl
@[simp] theorem State.mapCore_strike (s : State) (c : Fin 256) (f : Core → Core) : (s.mapCore c f).strike = s.strike := rfl
@[simp] theorem State.mapCore_pkg (s : State) (c : Fin 256) (f : Core → Core) : (s.mapCore c f).pkg = s.pkg := rfl

/-! What `State.mapCluster` leaves: all but clusters. -/

@[simp] theorem State.mapCluster_agenda (s : State) (c : Fin 64) (f : Cluster → Cluster) : (s.mapCluster c f).agenda = s.agenda := rfl
@[simp] theorem State.mapCluster_free (s : State) (c : Fin 64) (f : Cluster → Cluster) : (s.mapCluster c f).free = s.free := rfl
@[simp] theorem State.mapCluster_cycle (s : State) (c : Fin 64) (f : Cluster → Cluster) : (s.mapCluster c f).cycle = s.cycle := rfl
@[simp] theorem State.mapCluster_cur (s : State) (c : Fin 64) (f : Cluster → Cluster) : (s.mapCluster c f).cur = s.cur := rfl
@[simp] theorem State.mapCluster_actor (s : State) (c : Fin 64) (f : Cluster → Cluster) : (s.mapCluster c f).actor = s.actor := rfl
@[simp] theorem State.mapCluster_slots (s : State) (c : Fin 64) (f : Cluster → Cluster) : (s.mapCluster c f).slots = s.slots := rfl
@[simp] theorem State.mapCluster_cores (s : State) (c : Fin 64) (f : Cluster → Cluster) : (s.mapCluster c f).cores = s.cores := rfl
@[simp] theorem State.mapCluster_dies (s : State) (c : Fin 64) (f : Cluster → Cluster) : (s.mapCluster c f).dies = s.dies := rfl
@[simp] theorem State.mapCluster_parts (s : State) (c : Fin 64) (f : Cluster → Cluster) : (s.mapCluster c f).parts = s.parts := rfl
@[simp] theorem State.mapCluster_segs (s : State) (c : Fin 64) (f : Cluster → Cluster) : (s.mapCluster c f).segs = s.segs := rfl
@[simp] theorem State.mapCluster_scheds (s : State) (c : Fin 64) (f : Cluster → Cluster) : (s.mapCluster c f).scheds = s.scheds := rfl
@[simp] theorem State.mapCluster_tickets (s : State) (c : Fin 64) (f : Cluster → Cluster) : (s.mapCluster c f).tickets = s.tickets := rfl
@[simp] theorem State.mapCluster_nextTicket (s : State) (c : Fin 64) (f : Cluster → Cluster) : (s.mapCluster c f).nextTicket = s.nextTicket := rfl
@[simp] theorem State.mapCluster_mem (s : State) (c : Fin 64) (f : Cluster → Cluster) : (s.mapCluster c f).mem = s.mem := rfl
@[simp] theorem State.mapCluster_keyed (s : State) (c : Fin 64) (f : Cluster → Cluster) : (s.mapCluster c f).keyed = s.keyed := rfl
@[simp] theorem State.mapCluster_under (s : State) (c : Fin 64) (f : Cluster → Cluster) : (s.mapCluster c f).under = s.under := rfl
@[simp] theorem State.mapCluster_past (s : State) (c : Fin 64) (f : Cluster → Cluster) : (s.mapCluster c f).past = s.past := rfl
@[simp] theorem State.mapCluster_stored (s : State) (c : Fin 64) (f : Cluster → Cluster) : (s.mapCluster c f).stored = s.stored := rfl
@[simp] theorem State.mapCluster_strike (s : State) (c : Fin 64) (f : Cluster → Cluster) : (s.mapCluster c f).strike = s.strike := rfl
@[simp] theorem State.mapCluster_pkg (s : State) (c : Fin 64) (f : Cluster → Cluster) : (s.mapCluster c f).pkg = s.pkg := rfl

/-! What `State.mapDie` leaves: all but dies. -/

@[simp] theorem State.mapDie_agenda (s : State) (d : Nat) (f : Die → Die) : (s.mapDie d f).agenda = s.agenda := rfl
@[simp] theorem State.mapDie_free (s : State) (d : Nat) (f : Die → Die) : (s.mapDie d f).free = s.free := rfl
@[simp] theorem State.mapDie_cycle (s : State) (d : Nat) (f : Die → Die) : (s.mapDie d f).cycle = s.cycle := rfl
@[simp] theorem State.mapDie_cur (s : State) (d : Nat) (f : Die → Die) : (s.mapDie d f).cur = s.cur := rfl
@[simp] theorem State.mapDie_actor (s : State) (d : Nat) (f : Die → Die) : (s.mapDie d f).actor = s.actor := rfl
@[simp] theorem State.mapDie_slots (s : State) (d : Nat) (f : Die → Die) : (s.mapDie d f).slots = s.slots := rfl
@[simp] theorem State.mapDie_cores (s : State) (d : Nat) (f : Die → Die) : (s.mapDie d f).cores = s.cores := rfl
@[simp] theorem State.mapDie_clusters (s : State) (d : Nat) (f : Die → Die) : (s.mapDie d f).clusters = s.clusters := rfl
@[simp] theorem State.mapDie_parts (s : State) (d : Nat) (f : Die → Die) : (s.mapDie d f).parts = s.parts := rfl
@[simp] theorem State.mapDie_segs (s : State) (d : Nat) (f : Die → Die) : (s.mapDie d f).segs = s.segs := rfl
@[simp] theorem State.mapDie_scheds (s : State) (d : Nat) (f : Die → Die) : (s.mapDie d f).scheds = s.scheds := rfl
@[simp] theorem State.mapDie_tickets (s : State) (d : Nat) (f : Die → Die) : (s.mapDie d f).tickets = s.tickets := rfl
@[simp] theorem State.mapDie_nextTicket (s : State) (d : Nat) (f : Die → Die) : (s.mapDie d f).nextTicket = s.nextTicket := rfl
@[simp] theorem State.mapDie_mem (s : State) (d : Nat) (f : Die → Die) : (s.mapDie d f).mem = s.mem := rfl
@[simp] theorem State.mapDie_keyed (s : State) (d : Nat) (f : Die → Die) : (s.mapDie d f).keyed = s.keyed := rfl
@[simp] theorem State.mapDie_under (s : State) (d : Nat) (f : Die → Die) : (s.mapDie d f).under = s.under := rfl
@[simp] theorem State.mapDie_past (s : State) (d : Nat) (f : Die → Die) : (s.mapDie d f).past = s.past := rfl
@[simp] theorem State.mapDie_stored (s : State) (d : Nat) (f : Die → Die) : (s.mapDie d f).stored = s.stored := rfl
@[simp] theorem State.mapDie_strike (s : State) (d : Nat) (f : Die → Die) : (s.mapDie d f).strike = s.strike := rfl
@[simp] theorem State.mapDie_pkg (s : State) (d : Nat) (f : Die → Die) : (s.mapDie d f).pkg = s.pkg := rfl

/-! What `State.mapPart` leaves: all but parts. -/

@[simp] theorem State.mapPart_agenda (s : State) (p : Fin 16) (f : Part → Part) : (s.mapPart p f).agenda = s.agenda := rfl
@[simp] theorem State.mapPart_free (s : State) (p : Fin 16) (f : Part → Part) : (s.mapPart p f).free = s.free := rfl
@[simp] theorem State.mapPart_cycle (s : State) (p : Fin 16) (f : Part → Part) : (s.mapPart p f).cycle = s.cycle := rfl
@[simp] theorem State.mapPart_cur (s : State) (p : Fin 16) (f : Part → Part) : (s.mapPart p f).cur = s.cur := rfl
@[simp] theorem State.mapPart_actor (s : State) (p : Fin 16) (f : Part → Part) : (s.mapPart p f).actor = s.actor := rfl
@[simp] theorem State.mapPart_slots (s : State) (p : Fin 16) (f : Part → Part) : (s.mapPart p f).slots = s.slots := rfl
@[simp] theorem State.mapPart_cores (s : State) (p : Fin 16) (f : Part → Part) : (s.mapPart p f).cores = s.cores := rfl
@[simp] theorem State.mapPart_clusters (s : State) (p : Fin 16) (f : Part → Part) : (s.mapPart p f).clusters = s.clusters := rfl
@[simp] theorem State.mapPart_dies (s : State) (p : Fin 16) (f : Part → Part) : (s.mapPart p f).dies = s.dies := rfl
@[simp] theorem State.mapPart_segs (s : State) (p : Fin 16) (f : Part → Part) : (s.mapPart p f).segs = s.segs := rfl
@[simp] theorem State.mapPart_scheds (s : State) (p : Fin 16) (f : Part → Part) : (s.mapPart p f).scheds = s.scheds := rfl
@[simp] theorem State.mapPart_tickets (s : State) (p : Fin 16) (f : Part → Part) : (s.mapPart p f).tickets = s.tickets := rfl
@[simp] theorem State.mapPart_nextTicket (s : State) (p : Fin 16) (f : Part → Part) : (s.mapPart p f).nextTicket = s.nextTicket := rfl
@[simp] theorem State.mapPart_mem (s : State) (p : Fin 16) (f : Part → Part) : (s.mapPart p f).mem = s.mem := rfl
@[simp] theorem State.mapPart_keyed (s : State) (p : Fin 16) (f : Part → Part) : (s.mapPart p f).keyed = s.keyed := rfl
@[simp] theorem State.mapPart_under (s : State) (p : Fin 16) (f : Part → Part) : (s.mapPart p f).under = s.under := rfl
@[simp] theorem State.mapPart_past (s : State) (p : Fin 16) (f : Part → Part) : (s.mapPart p f).past = s.past := rfl
@[simp] theorem State.mapPart_stored (s : State) (p : Fin 16) (f : Part → Part) : (s.mapPart p f).stored = s.stored := rfl
@[simp] theorem State.mapPart_strike (s : State) (p : Fin 16) (f : Part → Part) : (s.mapPart p f).strike = s.strike := rfl
@[simp] theorem State.mapPart_pkg (s : State) (p : Fin 16) (f : Part → Part) : (s.mapPart p f).pkg = s.pkg := rfl

/-! What `State.mapPkg` leaves: all but pkg. -/

@[simp] theorem State.mapPkg_agenda (s : State) (f : Package → Package) : (s.mapPkg f).agenda = s.agenda := rfl
@[simp] theorem State.mapPkg_free (s : State) (f : Package → Package) : (s.mapPkg f).free = s.free := rfl
@[simp] theorem State.mapPkg_cycle (s : State) (f : Package → Package) : (s.mapPkg f).cycle = s.cycle := rfl
@[simp] theorem State.mapPkg_cur (s : State) (f : Package → Package) : (s.mapPkg f).cur = s.cur := rfl
@[simp] theorem State.mapPkg_actor (s : State) (f : Package → Package) : (s.mapPkg f).actor = s.actor := rfl
@[simp] theorem State.mapPkg_slots (s : State) (f : Package → Package) : (s.mapPkg f).slots = s.slots := rfl
@[simp] theorem State.mapPkg_cores (s : State) (f : Package → Package) : (s.mapPkg f).cores = s.cores := rfl
@[simp] theorem State.mapPkg_clusters (s : State) (f : Package → Package) : (s.mapPkg f).clusters = s.clusters := rfl
@[simp] theorem State.mapPkg_dies (s : State) (f : Package → Package) : (s.mapPkg f).dies = s.dies := rfl
@[simp] theorem State.mapPkg_parts (s : State) (f : Package → Package) : (s.mapPkg f).parts = s.parts := rfl
@[simp] theorem State.mapPkg_segs (s : State) (f : Package → Package) : (s.mapPkg f).segs = s.segs := rfl
@[simp] theorem State.mapPkg_scheds (s : State) (f : Package → Package) : (s.mapPkg f).scheds = s.scheds := rfl
@[simp] theorem State.mapPkg_tickets (s : State) (f : Package → Package) : (s.mapPkg f).tickets = s.tickets := rfl
@[simp] theorem State.mapPkg_nextTicket (s : State) (f : Package → Package) : (s.mapPkg f).nextTicket = s.nextTicket := rfl
@[simp] theorem State.mapPkg_mem (s : State) (f : Package → Package) : (s.mapPkg f).mem = s.mem := rfl
@[simp] theorem State.mapPkg_keyed (s : State) (f : Package → Package) : (s.mapPkg f).keyed = s.keyed := rfl
@[simp] theorem State.mapPkg_under (s : State) (f : Package → Package) : (s.mapPkg f).under = s.under := rfl
@[simp] theorem State.mapPkg_past (s : State) (f : Package → Package) : (s.mapPkg f).past = s.past := rfl
@[simp] theorem State.mapPkg_stored (s : State) (f : Package → Package) : (s.mapPkg f).stored = s.stored := rfl
@[simp] theorem State.mapPkg_strike (s : State) (f : Package → Package) : (s.mapPkg f).strike = s.strike := rfl

/-! What `State.setReg` leaves: all but slots. -/

@[simp] theorem State.setReg_agenda (s : State) (r : Fin 32) (v : Word) : (s.setReg r v).agenda = s.agenda := rfl
@[simp] theorem State.setReg_free (s : State) (r : Fin 32) (v : Word) : (s.setReg r v).free = s.free := rfl
@[simp] theorem State.setReg_cycle (s : State) (r : Fin 32) (v : Word) : (s.setReg r v).cycle = s.cycle := rfl
@[simp] theorem State.setReg_cur (s : State) (r : Fin 32) (v : Word) : (s.setReg r v).cur = s.cur := rfl
@[simp] theorem State.setReg_actor (s : State) (r : Fin 32) (v : Word) : (s.setReg r v).actor = s.actor := rfl
@[simp] theorem State.setReg_cores (s : State) (r : Fin 32) (v : Word) : (s.setReg r v).cores = s.cores := rfl
@[simp] theorem State.setReg_clusters (s : State) (r : Fin 32) (v : Word) : (s.setReg r v).clusters = s.clusters := rfl
@[simp] theorem State.setReg_dies (s : State) (r : Fin 32) (v : Word) : (s.setReg r v).dies = s.dies := rfl
@[simp] theorem State.setReg_parts (s : State) (r : Fin 32) (v : Word) : (s.setReg r v).parts = s.parts := rfl
@[simp] theorem State.setReg_segs (s : State) (r : Fin 32) (v : Word) : (s.setReg r v).segs = s.segs := rfl
@[simp] theorem State.setReg_scheds (s : State) (r : Fin 32) (v : Word) : (s.setReg r v).scheds = s.scheds := rfl
@[simp] theorem State.setReg_tickets (s : State) (r : Fin 32) (v : Word) : (s.setReg r v).tickets = s.tickets := rfl
@[simp] theorem State.setReg_nextTicket (s : State) (r : Fin 32) (v : Word) : (s.setReg r v).nextTicket = s.nextTicket := rfl
@[simp] theorem State.setReg_mem (s : State) (r : Fin 32) (v : Word) : (s.setReg r v).mem = s.mem := rfl
@[simp] theorem State.setReg_keyed (s : State) (r : Fin 32) (v : Word) : (s.setReg r v).keyed = s.keyed := rfl
@[simp] theorem State.setReg_under (s : State) (r : Fin 32) (v : Word) : (s.setReg r v).under = s.under := rfl
@[simp] theorem State.setReg_past (s : State) (r : Fin 32) (v : Word) : (s.setReg r v).past = s.past := rfl
@[simp] theorem State.setReg_stored (s : State) (r : Fin 32) (v : Word) : (s.setReg r v).stored = s.stored := rfl
@[simp] theorem State.setReg_strike (s : State) (r : Fin 32) (v : Word) : (s.setReg r v).strike = s.strike := rfl
@[simp] theorem State.setReg_pkg (s : State) (r : Fin 32) (v : Word) : (s.setReg r v).pkg = s.pkg := rfl

/-! What `State.stick` leaves: all but slots. -/

@[simp] theorem State.stick_agenda (s : State) (f : BitVec 12) : (s.stick f).agenda = s.agenda := rfl
@[simp] theorem State.stick_free (s : State) (f : BitVec 12) : (s.stick f).free = s.free := rfl
@[simp] theorem State.stick_cycle (s : State) (f : BitVec 12) : (s.stick f).cycle = s.cycle := rfl
@[simp] theorem State.stick_cur (s : State) (f : BitVec 12) : (s.stick f).cur = s.cur := rfl
@[simp] theorem State.stick_actor (s : State) (f : BitVec 12) : (s.stick f).actor = s.actor := rfl
@[simp] theorem State.stick_cores (s : State) (f : BitVec 12) : (s.stick f).cores = s.cores := rfl
@[simp] theorem State.stick_clusters (s : State) (f : BitVec 12) : (s.stick f).clusters = s.clusters := rfl
@[simp] theorem State.stick_dies (s : State) (f : BitVec 12) : (s.stick f).dies = s.dies := rfl
@[simp] theorem State.stick_parts (s : State) (f : BitVec 12) : (s.stick f).parts = s.parts := rfl
@[simp] theorem State.stick_segs (s : State) (f : BitVec 12) : (s.stick f).segs = s.segs := rfl
@[simp] theorem State.stick_scheds (s : State) (f : BitVec 12) : (s.stick f).scheds = s.scheds := rfl
@[simp] theorem State.stick_tickets (s : State) (f : BitVec 12) : (s.stick f).tickets = s.tickets := rfl
@[simp] theorem State.stick_nextTicket (s : State) (f : BitVec 12) : (s.stick f).nextTicket = s.nextTicket := rfl
@[simp] theorem State.stick_mem (s : State) (f : BitVec 12) : (s.stick f).mem = s.mem := rfl
@[simp] theorem State.stick_keyed (s : State) (f : BitVec 12) : (s.stick f).keyed = s.keyed := rfl
@[simp] theorem State.stick_under (s : State) (f : BitVec 12) : (s.stick f).under = s.under := rfl
@[simp] theorem State.stick_past (s : State) (f : BitVec 12) : (s.stick f).past = s.past := rfl
@[simp] theorem State.stick_stored (s : State) (f : BitVec 12) : (s.stick f).stored = s.stored := rfl
@[simp] theorem State.stick_strike (s : State) (f : BitVec 12) : (s.stick f).strike = s.strike := rfl
@[simp] theorem State.stick_pkg (s : State) (f : BitVec 12) : (s.stick f).pkg = s.pkg := rfl

/-! What `State.retireTo` leaves: all but slots. -/

@[simp] theorem State.retireTo_agenda (s : State) (t : Word) : (s.retireTo t).agenda = s.agenda := rfl
@[simp] theorem State.retireTo_free (s : State) (t : Word) : (s.retireTo t).free = s.free := rfl
@[simp] theorem State.retireTo_cycle (s : State) (t : Word) : (s.retireTo t).cycle = s.cycle := rfl
@[simp] theorem State.retireTo_cur (s : State) (t : Word) : (s.retireTo t).cur = s.cur := rfl
@[simp] theorem State.retireTo_actor (s : State) (t : Word) : (s.retireTo t).actor = s.actor := rfl
@[simp] theorem State.retireTo_cores (s : State) (t : Word) : (s.retireTo t).cores = s.cores := rfl
@[simp] theorem State.retireTo_clusters (s : State) (t : Word) : (s.retireTo t).clusters = s.clusters := rfl
@[simp] theorem State.retireTo_dies (s : State) (t : Word) : (s.retireTo t).dies = s.dies := rfl
@[simp] theorem State.retireTo_parts (s : State) (t : Word) : (s.retireTo t).parts = s.parts := rfl
@[simp] theorem State.retireTo_segs (s : State) (t : Word) : (s.retireTo t).segs = s.segs := rfl
@[simp] theorem State.retireTo_scheds (s : State) (t : Word) : (s.retireTo t).scheds = s.scheds := rfl
@[simp] theorem State.retireTo_tickets (s : State) (t : Word) : (s.retireTo t).tickets = s.tickets := rfl
@[simp] theorem State.retireTo_nextTicket (s : State) (t : Word) : (s.retireTo t).nextTicket = s.nextTicket := rfl
@[simp] theorem State.retireTo_mem (s : State) (t : Word) : (s.retireTo t).mem = s.mem := rfl
@[simp] theorem State.retireTo_keyed (s : State) (t : Word) : (s.retireTo t).keyed = s.keyed := rfl
@[simp] theorem State.retireTo_under (s : State) (t : Word) : (s.retireTo t).under = s.under := rfl
@[simp] theorem State.retireTo_past (s : State) (t : Word) : (s.retireTo t).past = s.past := rfl
@[simp] theorem State.retireTo_stored (s : State) (t : Word) : (s.retireTo t).stored = s.stored := rfl
@[simp] theorem State.retireTo_strike (s : State) (t : Word) : (s.retireTo t).strike = s.strike := rfl
@[simp] theorem State.retireTo_pkg (s : State) (t : Word) : (s.retireTo t).pkg = s.pkg := rfl

/-! What `State.result` leaves: all but slots. -/

@[simp] theorem State.result_agenda (s : State) (d : Fin 32) (v : Word) : (s.result d v).agenda = s.agenda := rfl
@[simp] theorem State.result_free (s : State) (d : Fin 32) (v : Word) : (s.result d v).free = s.free := rfl
@[simp] theorem State.result_cycle (s : State) (d : Fin 32) (v : Word) : (s.result d v).cycle = s.cycle := rfl
@[simp] theorem State.result_cur (s : State) (d : Fin 32) (v : Word) : (s.result d v).cur = s.cur := rfl
@[simp] theorem State.result_actor (s : State) (d : Fin 32) (v : Word) : (s.result d v).actor = s.actor := rfl
@[simp] theorem State.result_cores (s : State) (d : Fin 32) (v : Word) : (s.result d v).cores = s.cores := rfl
@[simp] theorem State.result_clusters (s : State) (d : Fin 32) (v : Word) : (s.result d v).clusters = s.clusters := rfl
@[simp] theorem State.result_dies (s : State) (d : Fin 32) (v : Word) : (s.result d v).dies = s.dies := rfl
@[simp] theorem State.result_parts (s : State) (d : Fin 32) (v : Word) : (s.result d v).parts = s.parts := rfl
@[simp] theorem State.result_segs (s : State) (d : Fin 32) (v : Word) : (s.result d v).segs = s.segs := rfl
@[simp] theorem State.result_scheds (s : State) (d : Fin 32) (v : Word) : (s.result d v).scheds = s.scheds := rfl
@[simp] theorem State.result_tickets (s : State) (d : Fin 32) (v : Word) : (s.result d v).tickets = s.tickets := rfl
@[simp] theorem State.result_nextTicket (s : State) (d : Fin 32) (v : Word) : (s.result d v).nextTicket = s.nextTicket := rfl
@[simp] theorem State.result_mem (s : State) (d : Fin 32) (v : Word) : (s.result d v).mem = s.mem := rfl
@[simp] theorem State.result_keyed (s : State) (d : Fin 32) (v : Word) : (s.result d v).keyed = s.keyed := rfl
@[simp] theorem State.result_under (s : State) (d : Fin 32) (v : Word) : (s.result d v).under = s.under := rfl
@[simp] theorem State.result_past (s : State) (d : Fin 32) (v : Word) : (s.result d v).past = s.past := rfl
@[simp] theorem State.result_stored (s : State) (d : Fin 32) (v : Word) : (s.result d v).stored = s.stored := rfl
@[simp] theorem State.result_strike (s : State) (d : Fin 32) (v : Word) : (s.result d v).strike = s.strike := rfl
@[simp] theorem State.result_pkg (s : State) (d : Fin 32) (v : Word) : (s.result d v).pkg = s.pkg := rfl

/-! What `State.retire` leaves: all but slots. -/

@[simp] theorem State.retire_agenda (s : State) : (s.retire).agenda = s.agenda := rfl
@[simp] theorem State.retire_free (s : State) : (s.retire).free = s.free := rfl
@[simp] theorem State.retire_cycle (s : State) : (s.retire).cycle = s.cycle := rfl
@[simp] theorem State.retire_cur (s : State) : (s.retire).cur = s.cur := rfl
@[simp] theorem State.retire_actor (s : State) : (s.retire).actor = s.actor := rfl
@[simp] theorem State.retire_cores (s : State) : (s.retire).cores = s.cores := rfl
@[simp] theorem State.retire_clusters (s : State) : (s.retire).clusters = s.clusters := rfl
@[simp] theorem State.retire_dies (s : State) : (s.retire).dies = s.dies := rfl
@[simp] theorem State.retire_parts (s : State) : (s.retire).parts = s.parts := rfl
@[simp] theorem State.retire_segs (s : State) : (s.retire).segs = s.segs := rfl
@[simp] theorem State.retire_scheds (s : State) : (s.retire).scheds = s.scheds := rfl
@[simp] theorem State.retire_tickets (s : State) : (s.retire).tickets = s.tickets := rfl
@[simp] theorem State.retire_nextTicket (s : State) : (s.retire).nextTicket = s.nextTicket := rfl
@[simp] theorem State.retire_mem (s : State) : (s.retire).mem = s.mem := rfl
@[simp] theorem State.retire_keyed (s : State) : (s.retire).keyed = s.keyed := rfl
@[simp] theorem State.retire_under (s : State) : (s.retire).under = s.under := rfl
@[simp] theorem State.retire_past (s : State) : (s.retire).past = s.past := rfl
@[simp] theorem State.retire_stored (s : State) : (s.retire).stored = s.stored := rfl
@[simp] theorem State.retire_strike (s : State) : (s.retire).strike = s.strike := rfl
@[simp] theorem State.retire_pkg (s : State) : (s.retire).pkg = s.pkg := rfl

@[simp] theorem State.coreOf_setSlot (s : State) (i : SlotId) (x : Slot) (j : Fin 256) : (s.setSlot i x).coreOf j = s.coreOf j := rfl
@[simp] theorem State.clusterOf_setSlot (s : State) (i : SlotId) (x : Slot) (j : Fin 64) : (s.setSlot i x).clusterOf j = s.clusterOf j := rfl
@[simp] theorem State.dieOf_setSlot (s : State) (i : SlotId) (x : Slot) (j : Nat) : (s.setSlot i x).dieOf j = s.dieOf j := rfl
@[simp] theorem State.partOf_setSlot (s : State) (i : SlotId) (x : Slot) (j : Fin 16) : (s.setSlot i x).partOf j = s.partOf j := rfl

@[simp] theorem State.coreOf_mapSlot (s : State) (i : SlotId) (f : Slot → Slot) (j : Fin 256) : (s.mapSlot i f).coreOf j = s.coreOf j := rfl
@[simp] theorem State.clusterOf_mapSlot (s : State) (i : SlotId) (f : Slot → Slot) (j : Fin 64) : (s.mapSlot i f).clusterOf j = s.clusterOf j := rfl
@[simp] theorem State.dieOf_mapSlot (s : State) (i : SlotId) (f : Slot → Slot) (j : Nat) : (s.mapSlot i f).dieOf j = s.dieOf j := rfl
@[simp] theorem State.partOf_mapSlot (s : State) (i : SlotId) (f : Slot → Slot) (j : Fin 16) : (s.mapSlot i f).partOf j = s.partOf j := rfl

@[simp] theorem State.coreOf_setMe (s : State) (x : Slot) (j : Fin 256) : (s.setMe x).coreOf j = s.coreOf j := rfl
@[simp] theorem State.clusterOf_setMe (s : State) (x : Slot) (j : Fin 64) : (s.setMe x).clusterOf j = s.clusterOf j := rfl
@[simp] theorem State.dieOf_setMe (s : State) (x : Slot) (j : Nat) : (s.setMe x).dieOf j = s.dieOf j := rfl
@[simp] theorem State.partOf_setMe (s : State) (x : Slot) (j : Fin 16) : (s.setMe x).partOf j = s.partOf j := rfl

@[simp] theorem State.slotOf_mapCore (s : State) (c : Fin 256) (f : Core → Core) (j : SlotId) : (s.mapCore c f).slotOf j = s.slotOf j := rfl
@[simp] theorem State.clusterOf_mapCore (s : State) (c : Fin 256) (f : Core → Core) (j : Fin 64) : (s.mapCore c f).clusterOf j = s.clusterOf j := rfl
@[simp] theorem State.dieOf_mapCore (s : State) (c : Fin 256) (f : Core → Core) (j : Nat) : (s.mapCore c f).dieOf j = s.dieOf j := rfl
@[simp] theorem State.partOf_mapCore (s : State) (c : Fin 256) (f : Core → Core) (j : Fin 16) : (s.mapCore c f).partOf j = s.partOf j := rfl
@[simp] theorem State.me_mapCore (s : State) (c : Fin 256) (f : Core → Core) : (s.mapCore c f).me = s.me := rfl
@[simp] theorem State.pc_mapCore (s : State) (c : Fin 256) (f : Core → Core) : (s.mapCore c f).pc = s.pc := rfl
@[simp] theorem State.flags_mapCore (s : State) (c : Fin 256) (f : Core → Core) : (s.mapCore c f).flags = s.flags := rfl
@[simp] theorem State.reg_mapCore (s : State) (c : Fin 256) (f : Core → Core) (j : Fin 32) : (s.mapCore c f).reg j = s.reg j := rfl

@[simp] theorem State.slotOf_mapCluster (s : State) (c : Fin 64) (f : Cluster → Cluster) (j : SlotId) : (s.mapCluster c f).slotOf j = s.slotOf j := rfl
@[simp] theorem State.coreOf_mapCluster (s : State) (c : Fin 64) (f : Cluster → Cluster) (j : Fin 256) : (s.mapCluster c f).coreOf j = s.coreOf j := rfl
@[simp] theorem State.dieOf_mapCluster (s : State) (c : Fin 64) (f : Cluster → Cluster) (j : Nat) : (s.mapCluster c f).dieOf j = s.dieOf j := rfl
@[simp] theorem State.partOf_mapCluster (s : State) (c : Fin 64) (f : Cluster → Cluster) (j : Fin 16) : (s.mapCluster c f).partOf j = s.partOf j := rfl
@[simp] theorem State.me_mapCluster (s : State) (c : Fin 64) (f : Cluster → Cluster) : (s.mapCluster c f).me = s.me := rfl
@[simp] theorem State.pc_mapCluster (s : State) (c : Fin 64) (f : Cluster → Cluster) : (s.mapCluster c f).pc = s.pc := rfl
@[simp] theorem State.flags_mapCluster (s : State) (c : Fin 64) (f : Cluster → Cluster) : (s.mapCluster c f).flags = s.flags := rfl
@[simp] theorem State.reg_mapCluster (s : State) (c : Fin 64) (f : Cluster → Cluster) (j : Fin 32) : (s.mapCluster c f).reg j = s.reg j := rfl

@[simp] theorem State.slotOf_mapDie (s : State) (d : Nat) (f : Die → Die) (j : SlotId) : (s.mapDie d f).slotOf j = s.slotOf j := rfl
@[simp] theorem State.coreOf_mapDie (s : State) (d : Nat) (f : Die → Die) (j : Fin 256) : (s.mapDie d f).coreOf j = s.coreOf j := rfl
@[simp] theorem State.clusterOf_mapDie (s : State) (d : Nat) (f : Die → Die) (j : Fin 64) : (s.mapDie d f).clusterOf j = s.clusterOf j := rfl
@[simp] theorem State.partOf_mapDie (s : State) (d : Nat) (f : Die → Die) (j : Fin 16) : (s.mapDie d f).partOf j = s.partOf j := rfl
@[simp] theorem State.me_mapDie (s : State) (d : Nat) (f : Die → Die) : (s.mapDie d f).me = s.me := rfl
@[simp] theorem State.pc_mapDie (s : State) (d : Nat) (f : Die → Die) : (s.mapDie d f).pc = s.pc := rfl
@[simp] theorem State.flags_mapDie (s : State) (d : Nat) (f : Die → Die) : (s.mapDie d f).flags = s.flags := rfl
@[simp] theorem State.reg_mapDie (s : State) (d : Nat) (f : Die → Die) (j : Fin 32) : (s.mapDie d f).reg j = s.reg j := rfl

@[simp] theorem State.slotOf_mapPart (s : State) (p : Fin 16) (f : Part → Part) (j : SlotId) : (s.mapPart p f).slotOf j = s.slotOf j := rfl
@[simp] theorem State.coreOf_mapPart (s : State) (p : Fin 16) (f : Part → Part) (j : Fin 256) : (s.mapPart p f).coreOf j = s.coreOf j := rfl
@[simp] theorem State.clusterOf_mapPart (s : State) (p : Fin 16) (f : Part → Part) (j : Fin 64) : (s.mapPart p f).clusterOf j = s.clusterOf j := rfl
@[simp] theorem State.dieOf_mapPart (s : State) (p : Fin 16) (f : Part → Part) (j : Nat) : (s.mapPart p f).dieOf j = s.dieOf j := rfl
@[simp] theorem State.me_mapPart (s : State) (p : Fin 16) (f : Part → Part) : (s.mapPart p f).me = s.me := rfl
@[simp] theorem State.pc_mapPart (s : State) (p : Fin 16) (f : Part → Part) : (s.mapPart p f).pc = s.pc := rfl
@[simp] theorem State.flags_mapPart (s : State) (p : Fin 16) (f : Part → Part) : (s.mapPart p f).flags = s.flags := rfl
@[simp] theorem State.reg_mapPart (s : State) (p : Fin 16) (f : Part → Part) (j : Fin 32) : (s.mapPart p f).reg j = s.reg j := rfl

@[simp] theorem State.slotOf_mapPkg (s : State) (f : Package → Package) (j : SlotId) : (s.mapPkg f).slotOf j = s.slotOf j := rfl
@[simp] theorem State.coreOf_mapPkg (s : State) (f : Package → Package) (j : Fin 256) : (s.mapPkg f).coreOf j = s.coreOf j := rfl
@[simp] theorem State.clusterOf_mapPkg (s : State) (f : Package → Package) (j : Fin 64) : (s.mapPkg f).clusterOf j = s.clusterOf j := rfl
@[simp] theorem State.dieOf_mapPkg (s : State) (f : Package → Package) (j : Nat) : (s.mapPkg f).dieOf j = s.dieOf j := rfl
@[simp] theorem State.partOf_mapPkg (s : State) (f : Package → Package) (j : Fin 16) : (s.mapPkg f).partOf j = s.partOf j := rfl
@[simp] theorem State.me_mapPkg (s : State) (f : Package → Package) : (s.mapPkg f).me = s.me := rfl
@[simp] theorem State.pc_mapPkg (s : State) (f : Package → Package) : (s.mapPkg f).pc = s.pc := rfl
@[simp] theorem State.flags_mapPkg (s : State) (f : Package → Package) : (s.mapPkg f).flags = s.flags := rfl
@[simp] theorem State.reg_mapPkg (s : State) (f : Package → Package) (j : Fin 32) : (s.mapPkg f).reg j = s.reg j := rfl

@[simp] theorem State.coreOf_setReg (s : State) (r : Fin 32) (v : Word) (j : Fin 256) : (s.setReg r v).coreOf j = s.coreOf j := rfl
@[simp] theorem State.clusterOf_setReg (s : State) (r : Fin 32) (v : Word) (j : Fin 64) : (s.setReg r v).clusterOf j = s.clusterOf j := rfl
@[simp] theorem State.dieOf_setReg (s : State) (r : Fin 32) (v : Word) (j : Nat) : (s.setReg r v).dieOf j = s.dieOf j := rfl
@[simp] theorem State.partOf_setReg (s : State) (r : Fin 32) (v : Word) (j : Fin 16) : (s.setReg r v).partOf j = s.partOf j := rfl

@[simp] theorem State.coreOf_stick (s : State) (f : BitVec 12) (j : Fin 256) : (s.stick f).coreOf j = s.coreOf j := rfl
@[simp] theorem State.clusterOf_stick (s : State) (f : BitVec 12) (j : Fin 64) : (s.stick f).clusterOf j = s.clusterOf j := rfl
@[simp] theorem State.dieOf_stick (s : State) (f : BitVec 12) (j : Nat) : (s.stick f).dieOf j = s.dieOf j := rfl
@[simp] theorem State.partOf_stick (s : State) (f : BitVec 12) (j : Fin 16) : (s.stick f).partOf j = s.partOf j := rfl

@[simp] theorem State.coreOf_retireTo (s : State) (t : Word) (j : Fin 256) : (s.retireTo t).coreOf j = s.coreOf j := rfl
@[simp] theorem State.clusterOf_retireTo (s : State) (t : Word) (j : Fin 64) : (s.retireTo t).clusterOf j = s.clusterOf j := rfl
@[simp] theorem State.dieOf_retireTo (s : State) (t : Word) (j : Nat) : (s.retireTo t).dieOf j = s.dieOf j := rfl
@[simp] theorem State.partOf_retireTo (s : State) (t : Word) (j : Fin 16) : (s.retireTo t).partOf j = s.partOf j := rfl

@[simp] theorem State.coreOf_result (s : State) (d : Fin 32) (v : Word) (j : Fin 256) : (s.result d v).coreOf j = s.coreOf j := rfl
@[simp] theorem State.clusterOf_result (s : State) (d : Fin 32) (v : Word) (j : Fin 64) : (s.result d v).clusterOf j = s.clusterOf j := rfl
@[simp] theorem State.dieOf_result (s : State) (d : Fin 32) (v : Word) (j : Nat) : (s.result d v).dieOf j = s.dieOf j := rfl
@[simp] theorem State.partOf_result (s : State) (d : Fin 32) (v : Word) (j : Fin 16) : (s.result d v).partOf j = s.partOf j := rfl

@[simp] theorem State.coreOf_retire (s : State)  (j : Fin 256) : (s.retire).coreOf j = s.coreOf j := rfl
@[simp] theorem State.clusterOf_retire (s : State)  (j : Fin 64) : (s.retire).clusterOf j = s.clusterOf j := rfl
@[simp] theorem State.dieOf_retire (s : State)  (j : Nat) : (s.retire).dieOf j = s.dieOf j := rfl
@[simp] theorem State.partOf_retire (s : State)  (j : Fin 16) : (s.retire).partOf j = s.partOf j := rfl

/-! ### Slots -/

/-! What `Slot.setActive` leaves. -/

@[simp] theorem Slot.setActive_status (x : Slot) (b : Bank) : (x.setActive b).status = x.status := by unfold Slot.setActive; split <;> rfl
@[simp] theorem Slot.setActive_level (x : Slot) (b : Bank) : (x.setActive b).level = x.level := by unfold Slot.setActive; split <;> rfl
@[simp] theorem Slot.setActive_pc (x : Slot) (b : Bank) : (x.setActive b).pc = x.pc := by unfold Slot.setActive; split <;> rfl
@[simp] theorem Slot.setActive_frame (x : Slot) (b : Bank) : (x.setActive b).frame = x.frame := by unfold Slot.setActive; split <;> rfl
@[simp] theorem Slot.setActive_ctx (x : Slot) (b : Bank) : (x.setActive b).ctx = x.ctx := by unfold Slot.setActive; split <;> rfl
@[simp] theorem Slot.setActive_task (x : Slot) (b : Bank) : (x.setActive b).task = x.task := by unfold Slot.setActive; split <;> rfl
@[simp] theorem Slot.setActive_quota (x : Slot) (b : Bank) : (x.setActive b).quota = x.quota := by unfold Slot.setActive; split <;> rfl
@[simp] theorem Slot.setActive_doms (x : Slot) (b : Bank) : (x.setActive b).doms = x.doms := by unfold Slot.setActive; split <;> rfl
@[simp] theorem Slot.setActive_vtype (x : Slot) (b : Bank) : (x.setActive b).vtype = x.vtype := by unfold Slot.setActive; split <;> rfl
@[simp] theorem Slot.setActive_rrb (x : Slot) (b : Bank) : (x.setActive b).rrb = x.rrb := by unfold Slot.setActive; split <;> rfl
@[simp] theorem Slot.setActive_ec (x : Slot) (b : Bank) : (x.setActive b).ec = x.ec := by unfold Slot.setActive; split <;> rfl
@[simp] theorem Slot.setActive_srseed (x : Slot) (b : Bank) : (x.setActive b).srseed = x.srseed := by unfold Slot.setActive; split <;> rfl
@[simp] theorem Slot.setActive_tol (x : Slot) (b : Bank) : (x.setActive b).tol = x.tol := by unfold Slot.setActive; split <;> rfl
@[simp] theorem Slot.setActive_vlw (x : Slot) (b : Bank) : (x.setActive b).vlw = x.vlw := by unfold Slot.setActive; split <;> rfl
@[simp] theorem Slot.setActive_sched (x : Slot) (b : Bank) : (x.setActive b).sched = x.sched := by unfold Slot.setActive; split <;> rfl
@[simp] theorem Slot.setActive_pend (x : Slot) (b : Bank) : (x.setActive b).pend = x.pend := by unfold Slot.setActive; split <;> rfl
@[simp] theorem Slot.setActive_loop (x : Slot) (b : Bank) : (x.setActive b).loop = x.loop := by unfold Slot.setActive; split <;> rfl
@[simp] theorem Slot.setActive_eng (x : Slot) (b : Bank) : (x.setActive b).eng = x.eng := by unfold Slot.setActive; split <;> rfl
@[simp] theorem Slot.setActive_tx (x : Slot) (b : Bank) : (x.setActive b).tx = x.tx := by unfold Slot.setActive; split <;> rfl
@[simp] theorem Slot.setActive_blocks (x : Slot) (b : Bank) : (x.setActive b).blocks = x.blocks := by unfold Slot.setActive; split <;> rfl
@[simp] theorem Slot.setActive_sq (x : Slot) (b : Bank) : (x.setActive b).sq = x.sq := by unfold Slot.setActive; split <;> rfl
@[simp] theorem Slot.setActive_replies (x : Slot) (b : Bank) : (x.setActive b).replies = x.replies := by unfold Slot.setActive; split <;> rfl
@[simp] theorem Slot.setActive_code (x : Slot) (b : Bank) : (x.setActive b).code = x.code := by unfold Slot.setActive; split <;> rfl
@[simp] theorem Slot.setActive_refused (x : Slot) (b : Bank) : (x.setActive b).refused = x.refused := by unfold Slot.setActive; split <;> rfl
@[simp] theorem Slot.setActive_next (x : Slot) (b : Bank) : (x.setActive b).next = x.next := by unfold Slot.setActive; split <;> rfl
@[simp] theorem Slot.setActive_binds (x : Slot) (b : Bank) : (x.setActive b).binds = x.binds := by unfold Slot.setActive; split <;> rfl
@[simp] theorem Slot.setActive_bare (x : Slot) (b : Bank) : (x.setActive b).bare = x.bare := by unfold Slot.setActive; split <;> rfl

/-! What `Slot.issued` leaves. -/

@[simp] theorem Slot.issued_status (x : Slot) (c : Nat) : (x.issued c).status = x.status := rfl
@[simp] theorem Slot.issued_level (x : Slot) (c : Nat) : (x.issued c).level = x.level := rfl
@[simp] theorem Slot.issued_pc (x : Slot) (c : Nat) : (x.issued c).pc = x.pc := rfl
@[simp] theorem Slot.issued_bank (x : Slot) (c : Nat) : (x.issued c).bank = x.bank := rfl
@[simp] theorem Slot.issued_sup (x : Slot) (c : Nat) : (x.issued c).sup = x.sup := rfl
@[simp] theorem Slot.issued_frame (x : Slot) (c : Nat) : (x.issued c).frame = x.frame := rfl
@[simp] theorem Slot.issued_ctx (x : Slot) (c : Nat) : (x.issued c).ctx = x.ctx := rfl
@[simp] theorem Slot.issued_task (x : Slot) (c : Nat) : (x.issued c).task = x.task := rfl
@[simp] theorem Slot.issued_quota (x : Slot) (c : Nat) : (x.issued c).quota = x.quota := rfl
@[simp] theorem Slot.issued_doms (x : Slot) (c : Nat) : (x.issued c).doms = x.doms := rfl
@[simp] theorem Slot.issued_vtype (x : Slot) (c : Nat) : (x.issued c).vtype = x.vtype := rfl
@[simp] theorem Slot.issued_rrb (x : Slot) (c : Nat) : (x.issued c).rrb = x.rrb := rfl
@[simp] theorem Slot.issued_ec (x : Slot) (c : Nat) : (x.issued c).ec = x.ec := rfl
@[simp] theorem Slot.issued_srseed (x : Slot) (c : Nat) : (x.issued c).srseed = x.srseed := rfl
@[simp] theorem Slot.issued_tol (x : Slot) (c : Nat) : (x.issued c).tol = x.tol := rfl
@[simp] theorem Slot.issued_vlw (x : Slot) (c : Nat) : (x.issued c).vlw = x.vlw := rfl
@[simp] theorem Slot.issued_pend (x : Slot) (c : Nat) : (x.issued c).pend = x.pend := rfl
@[simp] theorem Slot.issued_loop (x : Slot) (c : Nat) : (x.issued c).loop = x.loop := rfl
@[simp] theorem Slot.issued_eng (x : Slot) (c : Nat) : (x.issued c).eng = x.eng := rfl
@[simp] theorem Slot.issued_tx (x : Slot) (c : Nat) : (x.issued c).tx = x.tx := rfl
@[simp] theorem Slot.issued_blocks (x : Slot) (c : Nat) : (x.issued c).blocks = x.blocks := rfl
@[simp] theorem Slot.issued_replies (x : Slot) (c : Nat) : (x.issued c).replies = [] := rfl
@[simp] theorem Slot.issued_code (x : Slot) (c : Nat) : (x.issued c).code = x.code := rfl
@[simp] theorem Slot.issued_refused (x : Slot) (c : Nat) : (x.issued c).refused = x.refused := rfl
@[simp] theorem Slot.issued_next (x : Slot) (c : Nat) : (x.issued c).next = x.next := rfl
@[simp] theorem Slot.issued_binds (x : Slot) (c : Nat) : (x.issued c).binds = x.binds := rfl
@[simp] theorem Slot.issued_bare (x : Slot) (c : Nat) : (x.issued c).bare = x.bare := rfl



/-- The bank in use after it is replaced. -/
@[simp] theorem Slot.active_setActive (x : Slot) (b : Bank) : (x.setActive b).active = b := by
  unfold Slot.active Slot.setActive; split <;> simp_all

/-- Replacing it twice. -/
@[simp] theorem Slot.setActive_setActive (x : Slot) (b c : Bank) : (x.setActive b).setActive c = x.setActive c := by
  unfold Slot.setActive; split <;> simp_all

/-- Issuing leaves the bank in use. -/
@[simp] theorem Slot.active_issued (x : Slot) (c : Nat) : (x.issued c).active = x.active := rfl

/-- At task level the supervisor bank stays, and otherwise the task bank. -/
theorem Slot.setActive_other (x : Slot) (b : Bank) :
    (x.level = .task → (x.setActive b).sup = x.sup) ∧ (x.level ≠ .task → (x.setActive b).bank = x.bank) := by
  unfold Slot.setActive; constructor <;> intro h <;> simp [h]

/-! ### Registers -/

/-- Reading a register after writing one (R6). -/
@[simp] theorem Bank.get_set (b : Bank) (r q : Fin 32) (v : Word) :
    (b.set r v).get q = if q = r ∧ q ≠ 0 then v else b.get q := by
  unfold Bank.get Bank.set
  by_cases hq : q = 0
  · simp [hq]
  · by_cases hr : r = 0
    · simp [hr, hq]
    · by_cases h : q = r
      · subst h; simp [hq]
      · have h' : r.val ≠ q.val := fun e => h (Fin.ext e.symm)
        simp [hr, hq, h, Vector.getElem_set_ne _ _ h']

/-- A write of a register leaves FLAGS. -/
@[simp] theorem Bank.set_flags (b : Bank) (r : Fin 32) (v : Word) : (b.set r v).flags = b.flags := by
  unfold Bank.set; split <;> rfl

/-! ### Accessors after updates -/

/-- Slots have different keys. -/
@[simp] theorem slotKey_inj (i j : SlotId) : slotKey i = slotKey j ↔ i = j := by
  obtain ⟨c, n⟩ := i
  obtain ⟨d, m⟩ := j
  simp only [slotKey, SlotId.mk.injEq, Fin.ext_iff]
  omega

/-- A slot after one is replaced. -/
@[simp] theorem State.slotOf_setSlot (s : State) (i j : SlotId) (x : Slot) :
    (s.setSlot i x).slotOf j = if j = i then x else s.slotOf j := by
  simp [State.slotOf, State.setSlot]

/-- A slot after one is changed. -/
@[simp] theorem State.slotOf_mapSlot (s : State) (i j : SlotId) (f : Slot → Slot) :
    (s.mapSlot i f).slotOf j = if j = i then f (s.slotOf i) else s.slotOf j := by
  simp [State.mapSlot]

/-- A slot after the current one is replaced. -/
@[simp] theorem State.slotOf_setMe (s : State) (j : SlotId) (x : Slot) :
    (s.setMe x).slotOf j = if j = s.cur then x else s.slotOf j := by
  simp [State.setMe]

/-- The current slot after it is replaced. -/
@[simp] theorem State.me_setMe (s : State) (x : Slot) : (s.setMe x).me = x := by
  simp [State.me]

/-- A core after one is changed. -/
@[simp] theorem State.coreOf_mapCore (s : State) (c j : Fin 256) (f : Core → Core) :
    (s.mapCore c f).coreOf j = if j = c then f (s.coreOf c) else s.coreOf j := by
  simp [State.coreOf, State.mapCore, Fin.ext_iff]

/-- A cluster after one is changed. -/
@[simp] theorem State.clusterOf_mapCluster (s : State) (c j : Fin 64) (f : Cluster → Cluster) :
    (s.mapCluster c f).clusterOf j = if j = c then f (s.clusterOf c) else s.clusterOf j := by
  simp [State.clusterOf, State.mapCluster, Fin.ext_iff]

/-- A die after one is changed. -/
@[simp] theorem State.dieOf_mapDie (s : State) (c j : Nat) (f : Die → Die) :
    (s.mapDie c f).dieOf j = if j = c then f (s.dieOf c) else s.dieOf j := by
  simp [State.dieOf, State.mapDie]

/-- A partition after one is changed. -/
@[simp] theorem State.partOf_mapPart (s : State) (c j : Fin 16) (f : Part → Part) :
    (s.mapPart c f).partOf j = if j = c then f (s.partOf c) else s.partOf j := by
  simp [State.partOf, State.mapPart, Fin.ext_iff]

/-- The package after it is changed. -/
@[simp] theorem State.mapPkg_pkg (s : State) (f : Package → Package) : (s.mapPkg f).pkg = f s.pkg := rfl

/-! ### The current slot's registers, flags and PC -/

@[simp] theorem State.me_setReg (s : State) (r : Fin 32) (v : Word) :
    (s.setReg r v).me = s.me.setActive (s.me.active.set r v) := by simp [State.setReg]

@[simp] theorem State.me_stick (s : State) (f : BitVec 12) :
    (s.stick f).me = s.me.setActive { s.me.active with flags := s.me.active.flags ||| f } := by simp [State.stick]

@[simp] theorem State.me_retireTo (s : State) (t : Word) :
    (s.retireTo t).me = { s.me.issued s.cycle with pc := t, bare := s.me.bare && t == nextPc s.me.pc } := by
  simp [State.retireTo]

@[simp] theorem State.reg_setReg (s : State) (r q : Fin 32) (v : Word) :
    (s.setReg r v).reg q = if q = r ∧ q ≠ 0 then v else s.reg q := by simp [State.reg]

@[simp] theorem State.flags_setReg (s : State) (r : Fin 32) (v : Word) : (s.setReg r v).flags = s.flags := by simp [State.flags]

@[simp] theorem State.pc_setReg (s : State) (r : Fin 32) (v : Word) : (s.setReg r v).pc = s.pc := by simp [State.pc]

@[simp] theorem State.flags_stick (s : State) (f : BitVec 12) : (s.stick f).flags = s.flags ||| f := by simp [State.flags]

@[simp] theorem State.pc_stick (s : State) (f : BitVec 12) : (s.stick f).pc = s.pc := by simp [State.pc]

@[simp] theorem State.reg_stick (s : State) (f : BitVec 12) (q : Fin 32) : (s.stick f).reg q = s.reg q := by
  simp [State.reg, Bank.get]

@[simp] theorem State.pc_retireTo (s : State) (t : Word) : (s.retireTo t).pc = t := by simp [State.pc]

@[simp] theorem State.reg_retireTo (s : State) (t : Word) (q : Fin 32) : (s.retireTo t).reg q = s.reg q := by
  simp [State.reg, Slot.active, Slot.issued]

@[simp] theorem State.flags_retireTo (s : State) (t : Word) : (s.retireTo t).flags = s.flags := by
  simp [State.flags, Slot.active, Slot.issued]

@[simp] theorem State.pc_result (s : State) (d : Fin 32) (v : Word) : (s.result d v).pc = nextPc s.pc := by
  simp [State.result, State.retire]

@[simp] theorem State.reg_result (s : State) (d q : Fin 32) (v : Word) :
    (s.result d v).reg q = if q = d ∧ q ≠ 0 then v else s.reg q := by simp [State.result, State.retire]

@[simp] theorem State.flags_result (s : State) (d : Fin 32) (v : Word) : (s.result d v).flags = s.flags := by
  simp [State.result, State.retire]

@[simp] theorem State.pc_retire (s : State) : s.retire.pc = nextPc s.pc := by simp [State.retire]

@[simp] theorem State.reg_retire (s : State) (q : Fin 32) : s.retire.reg q = s.reg q := by simp [State.retire]

@[simp] theorem State.flags_retire (s : State) : s.retire.flags = s.flags := by simp [State.retire]

/-! ### The current slot's registers after it is replaced -/

@[simp] theorem State.reg_setMe (s : State) (x : Slot) (r : Fin 32) : (s.setMe x).reg r = x.active.get r := by
  simp [State.reg]
@[simp] theorem State.flags_setMe (s : State) (x : Slot) : (s.setMe x).flags = x.active.flags := by
  simp [State.flags]
@[simp] theorem State.pc_setMe (s : State) (x : Slot) : (s.setMe x).pc = x.pc := by
  simp [State.pc]
@[simp] theorem State.me_retire (s : State) : s.retire.me = { s.me.issued s.cycle with pc := nextPc s.pc } := by
  simp [State.retire, State.pc]
@[simp] theorem State.me_result (s : State) (d : Fin 32) (v : Word) :
    (s.result d v).me = { (s.me.setActive (s.me.active.set d v)).issued s.cycle with pc := nextPc s.pc } := by
  simp [State.result, State.retire, State.pc]

end Sys2Proof.Machine
end

