-- ==== Sys2Proof/Laws/Ops.lean ====
section
/-! SUPPORT. What the shared operations of the control core can do: the ends of an instruction, its guards, traps, releases and
retirement. A proof about an instruction cites these and does not unfold the operations. -/

namespace Sys2Proof.Machine

/-! ### Programs over the state -/

@[simp] theorem Op.pure_apply {α : Type} (a : α) (s : State) : (pure a : Op α) s = .ok (a, s) := rfl

@[simp] theorem Op.bind_apply {α β : Type} (m : Op α) (f : α → Op β) (s : State) :
    (m >>= f) s = match m s with
      | .ok (a, t) => f a t
      | .error e => .error e := by
  show (StateT.bind m f) s = _
  unfold StateT.bind
  cases h : m s <;> rfl

@[simp] theorem Op.get_apply (s : State) : (get : Op State) s = .ok (s, s) := rfl
@[simp] theorem Op.set_apply (t s : State) : (set t : Op PUnit) s = .ok ((), t) := rfl
@[simp] theorem Op.modify_apply (f : State → State) (s : State) : (modify f : Op PUnit) s = .ok ((), f s) := rfl
@[simp] theorem Op.throw_apply {α : Type} (e : Stop) (s : State) : (throw e : Op α) s = .error e := rfl
@[simp] theorem trapOp_apply {α : Type} (c : BitVec 8) (a b d e : Word) (s : State) :
    (trapOp c a b d e : Op α) s = .error (.trap ⟨c, a, b, d, e⟩) := rfl
@[simp] theorem stallOp_apply {α : Type} (r : Stall) (s : State) : (stallOp r : Op α) s = .error (.become (s.stallMe r)) := rfl
@[simp] theorem waitOp_apply {α : Type} (w : Wait) (s : State) : (waitOp w : Op α) s = .error (.become (s.waitMe w)) := rfl
@[simp] theorem resultOp_apply (d : Fin 32) (v : Word) (s : State) : resultOp d v s = .ok ((), s.result d v) := rfl

/-- R233: outside a transaction the guard lets the instruction through. -/
theorem noTx_closed {s : State} (h : s.me.tx = none) : noTx s = .ok ((), s) := by
  simp [noTx, h]

/-- R233: inside one it aborts with code nesting. -/
theorem noTx_open {s : State} {x : Tx} (h : s.me.tx = some x) : noTx s = .error (.abort 3) := by
  simp [noTx, h]

/-- R11: a level that suffices. -/
theorem needLevel_ok {s : State} {l : Level} (w : IWord) (h : ¬ s.me.level.code < l.code) : needLevel l w s = .ok ((), s) := by
  simp [needLevel, h]

/-- R11, R42: a level that does not. -/
theorem needLevel_low {s : State} {l : Level} (w : IWord) (h : s.me.level.code < l.code) :
    needLevel l w s = .error (.trap ⟨0x02, w.setWidth 64, word l.code, 0, 0⟩) := by
  simp [needLevel, h]

/-! ### What completion leaves -/

theorem State.reg_zero (s : State) : s.reg 0 = 0 := rfl

theorem State.RestKept.refl (s : State) : s.RestKept s := ⟨rfl, fun _ _ => rfl, fun _ => rfl⟩

/-- Writes of the current slot leave all else. -/
theorem State.RestKept.setMe {s t : State} (h : s.RestKept t) (x : Slot) : s.RestKept (t.setMe x) := by
  obtain ⟨h1, h2, h3⟩ := h
  have hc : t.cur = s.cur := by rw [h1]
  refine ⟨?_, ?_, fun a => h3 a⟩
  · rw [h1]; rfl
  · intro i hi
    rw [State.slotOf_setMe, if_neg (by rw [hc]; exact hi)]
    exact h2 i hi

theorem State.RestKept.result (s : State) (d : Fin 32) (v : Word) : s.RestKept (s.result d v) :=
  ((State.RestKept.refl s).setMe _).setMe _

theorem State.RestKept.retire (s : State) : s.RestKept s.retire := (State.RestKept.refl s).setMe _

theorem Slot.CoreKept.retire (x : Slot) (p : Word) (c : Nat) :
    x.CoreKept { x.issued c with pc := p, bare := x.bare && p == nextPc x.pc } := by
  refine ⟨rfl, fun _ => rfl, fun _ => rfl, rfl, rfl⟩

theorem Slot.CoreKept.bank (x : Slot) (b : Bank) (c : Nat) : x.CoreKept { (x.setActive b).issued c with pc := nextPc x.pc } := by
  refine ⟨?_, ?_, ?_, ?_, ?_⟩
  · unfold Slot.setActive
    split <;> rfl
  · intro h; simp [Slot.issued, Slot.setActive, h]
  · intro h; simp [Slot.issued, Slot.setActive, h]
  · simp [Slot.issued]
  · simp

/-- An instruction that ends in a result and sets sticky bits. -/
theorem computes_stick {i : Instr} {s : State} {d : Fin 32} {v : Word} {f : BitVec 12}
    (h : exec i s = .next ((s.stick f).result d v)) : Computes i s d v f := by
  refine ⟨_, h, fun r => by simp, by simp, by simp, ?_, ?_⟩
  · exact (((State.RestKept.refl s).setMe _).setMe _).setMe _
  · simp only [State.me_result, State.me_stick, Slot.setActive_setActive, State.pc_stick]
    exact Slot.CoreKept.bank _ _ _

/-- An instruction that ends in a result. -/
theorem computes_result {i : Instr} {s : State} {d : Fin 32} {v : Word} (h : exec i s = .next (s.result d v)) :
    Computes i s d v 0 := by
  refine ⟨_, h, fun r => by simp, by simp, by simp, State.RestKept.result s d v, ?_⟩
  rw [State.me_result]
  exact Slot.CoreKept.bank _ _ _

/-- An instruction that ends with nothing but the next PC. -/
theorem continues_retire {i : Instr} {s : State} (h : exec i s = .next s.retire) : Continues i s := by
  refine ⟨_, h, by simp, fun r => by simp, by simp, State.RestKept.retire s, ?_⟩
  exact (State.me_retireTo s _) ▸ Slot.CoreKept.retire _ _ _

/-! ### Transactions end (R234) -/

@[simp] theorem Slot.abortTx_status (x : Slot) (c n : Nat) : (x.abortTx c n).status = x.status := by unfold Slot.abortTx Slot.setActive; split <;> [rfl; (split <;> rfl)]
@[simp] theorem Slot.abortTx_level (x : Slot) (c n : Nat) : (x.abortTx c n).level = x.level := by unfold Slot.abortTx Slot.setActive; split <;> [rfl; (split <;> rfl)]
@[simp] theorem Slot.abortTx_frame (x : Slot) (c n : Nat) : (x.abortTx c n).frame = x.frame := by unfold Slot.abortTx Slot.setActive; split <;> [rfl; (split <;> rfl)]
@[simp] theorem Slot.abortTx_ctx (x : Slot) (c n : Nat) : (x.abortTx c n).ctx = x.ctx := by unfold Slot.abortTx Slot.setActive; split <;> [rfl; (split <;> rfl)]
@[simp] theorem Slot.abortTx_task (x : Slot) (c n : Nat) : (x.abortTx c n).task = x.task := by unfold Slot.abortTx Slot.setActive; split <;> [rfl; (split <;> rfl)]
@[simp] theorem Slot.abortTx_quota (x : Slot) (c n : Nat) : (x.abortTx c n).quota = x.quota := by unfold Slot.abortTx Slot.setActive; split <;> [rfl; (split <;> rfl)]
@[simp] theorem Slot.abortTx_doms (x : Slot) (c n : Nat) : (x.abortTx c n).doms = x.doms := by unfold Slot.abortTx Slot.setActive; split <;> [rfl; (split <;> rfl)]
@[simp] theorem Slot.abortTx_vtype (x : Slot) (c n : Nat) : (x.abortTx c n).vtype = x.vtype := by unfold Slot.abortTx Slot.setActive; split <;> [rfl; (split <;> rfl)]
@[simp] theorem Slot.abortTx_rrb (x : Slot) (c n : Nat) : (x.abortTx c n).rrb = x.rrb := by unfold Slot.abortTx Slot.setActive; split <;> [rfl; (split <;> rfl)]
@[simp] theorem Slot.abortTx_ec (x : Slot) (c n : Nat) : (x.abortTx c n).ec = x.ec := by unfold Slot.abortTx Slot.setActive; split <;> [rfl; (split <;> rfl)]
@[simp] theorem Slot.abortTx_srseed (x : Slot) (c n : Nat) : (x.abortTx c n).srseed = x.srseed := by unfold Slot.abortTx Slot.setActive; split <;> [rfl; (split <;> rfl)]
@[simp] theorem Slot.abortTx_tol (x : Slot) (c n : Nat) : (x.abortTx c n).tol = x.tol := by unfold Slot.abortTx Slot.setActive; split <;> [rfl; (split <;> rfl)]
@[simp] theorem Slot.abortTx_vlw (x : Slot) (c n : Nat) : (x.abortTx c n).vlw = x.vlw := by unfold Slot.abortTx Slot.setActive; split <;> [rfl; (split <;> rfl)]
@[simp] theorem Slot.abortTx_sched (x : Slot) (c n : Nat) : (x.abortTx c n).sched = x.sched := by unfold Slot.abortTx Slot.setActive; split <;> [rfl; (split <;> rfl)]
@[simp] theorem Slot.abortTx_pend (x : Slot) (c n : Nat) : (x.abortTx c n).pend = x.pend := by unfold Slot.abortTx Slot.setActive; split <;> [rfl; (split <;> rfl)]
@[simp] theorem Slot.abortTx_loop (x : Slot) (c n : Nat) : (x.abortTx c n).loop = x.loop := by unfold Slot.abortTx Slot.setActive; split <;> [rfl; (split <;> rfl)]
@[simp] theorem Slot.abortTx_eng (x : Slot) (c n : Nat) : (x.abortTx c n).eng = x.eng := by unfold Slot.abortTx Slot.setActive; split <;> [rfl; (split <;> rfl)]
@[simp] theorem Slot.abortTx_blocks (x : Slot) (c n : Nat) : (x.abortTx c n).blocks = x.blocks := by unfold Slot.abortTx Slot.setActive; split <;> [rfl; (split <;> rfl)]
@[simp] theorem Slot.abortTx_sq (x : Slot) (c n : Nat) : (x.abortTx c n).sq = x.sq := by unfold Slot.abortTx Slot.setActive; split <;> [rfl; (split <;> rfl)]
@[simp] theorem Slot.abortTx_replies (x : Slot) (c n : Nat) : (x.abortTx c n).replies = x.replies := by unfold Slot.abortTx Slot.setActive; split <;> [rfl; (split <;> rfl)]
@[simp] theorem Slot.abortTx_code (x : Slot) (c n : Nat) : (x.abortTx c n).code = x.code := by unfold Slot.abortTx Slot.setActive; split <;> [rfl; (split <;> rfl)]
@[simp] theorem Slot.abortTx_refused (x : Slot) (c n : Nat) : (x.abortTx c n).refused = x.refused := by unfold Slot.abortTx Slot.setActive; split <;> [rfl; (split <;> rfl)]
@[simp] theorem Slot.abortTx_binds (x : Slot) (c n : Nat) : (x.abortTx c n).binds = x.binds := by unfold Slot.abortTx Slot.setActive; split <;> [rfl; (split <;> rfl)]
@[simp] theorem Slot.abortTx_bare (x : Slot) (c n : Nat) : (x.abortTx c n).bare = x.bare := by unfold Slot.abortTx Slot.setActive; split <;> [rfl; (split <;> rfl)]
@[simp] theorem Slot.abortTx_next (x : Slot) (c n : Nat) : (x.abortTx c n).next = x.next := by unfold Slot.abortTx Slot.setActive; split <;> [rfl; (split <;> rfl)]

/-! ### Traps (R324) -/

/-- A synchronous fault of a slot that is no consumed data and no fault of a handler enters the handler. -/
theorem State.syncTrap_enter {s : State} {i : SlotId} {p : Word} {t : TrapInfo} (h1 : (s.slotOf i).level ≠ .monitor)
    (h2 : (s.slotOf i).level = .supervisor → (s.slotOf i).frame.inTrap = false) (h3 : t.cause ≠ 0x0C) (h4 : t.cause ≠ 0x0D) :
    s.syncTrap i p t = (s.unpinPreloads i.core).enterTrap i (tcauseOf false 0 t.cause) p t.t0 t.t1 t.t2 t.t3 := by
  have h5 : ¬ ((s.slotOf i).level = .monitor ∨ ((s.slotOf i).level = .supervisor ∧ (s.slotOf i).frame.inTrap = true)) := by
    rintro (h | ⟨h, h'⟩)
    · exact h1 h
    · simp [h2 h] at h'
  have h6 : (s.slotOf i).redoes t.cause = false := by
    have h3' : t.cause ≠ 12#8 := h3
    have h4' : t.cause ≠ 13#8 := h4
    simp [Slot.redoes, h3', h4']
  simp only [State.syncTrap, State.syncTrapBy]
  rw [if_neg h5, h6, if_neg Bool.false_ne_true, State.logConsumed, if_pos ⟨h3, h4⟩]

/-- A cause that is no consumed data is not logged (R361). -/
theorem State.logConsumed_other {c : BitVec 8} (h1 : c ≠ 0x0C) (h2 : c ≠ 0x0D) (s : State) (i : SlotId) (e : Bool) (k n : Nat) :
    s.logConsumed i e c k n = s := by
  rw [State.logConsumed, if_pos ⟨h1, h2⟩]

/-- A bad granule that no injector has hit traps as any fault does. -/
theorem State.consumedMe_natural (s : State) (t : TrapInfo) : s.consumedMe false t = s.trapMe t := rfl

/-- A synchronous fault in a handler is DOUBLE (R330). -/
theorem State.syncTrap_double {s : State} {i : SlotId} {p : Word} {t : TrapInfo} (h1 : (s.slotOf i).level = .supervisor)
    (h2 : (s.slotOf i).frame.inTrap = true) :
    s.syncTrap i p t =
      (((s.unpinPreloads i.core).logConsumed i false t.cause 0 0).setSlot i ((s.slotOf i).abortTx 4 0)).double i
          (if (s.slotOf i).tx.isSome then ((s.slotOf i).abortTx 4 0).pc else p) t (s.slotOf i).tx.isSome := by
  simp only [State.syncTrap, State.syncTrapBy]
  rw [if_pos (Or.inr ⟨h1, h2⟩)]

@[simp] theorem State.slots_unpinPreloads (s : State) (c : Fin 256) : (s.unpinPreloads c).slots = s.slots := rfl
@[simp] theorem State.slotOf_unpinPreloads (s : State) (c : Fin 256) (i : SlotId) : (s.unpinPreloads c).slotOf i = s.slotOf i := rfl
@[simp] theorem State.cur_unpinPreloads (s : State) (c : Fin 256) : (s.unpinPreloads c).cur = s.cur := rfl
@[simp] theorem State.mem_unpinPreloads (s : State) (c : Fin 256) : (s.unpinPreloads c).mem = s.mem := rfl
@[simp] theorem State.cycle_unpinPreloads (s : State) (c : Fin 256) : (s.unpinPreloads c).cycle = s.cycle := rfl

/-- A ticket that ends leaves all but the list of tickets. -/
theorem State.dropTicket_eq (s : State) (u : TicketUser) : s.dropTicket u = { s with tickets := (s.dropTicket u).tickets } := by
  unfold State.dropTicket
  split <;> rfl

@[simp] theorem State.slotOf_dropTicket (s : State) (u : TicketUser) (i : SlotId) : (s.dropTicket u).slotOf i = s.slotOf i := by
  rw [State.dropTicket_eq]; rfl
@[simp] theorem State.cur_dropTicket (s : State) (u : TicketUser) : (s.dropTicket u).cur = s.cur := by
  rw [State.dropTicket_eq]
@[simp] theorem State.mem_dropTicket (s : State) (u : TicketUser) : (s.dropTicket u).mem = s.mem := by
  rw [State.dropTicket_eq]
@[simp] theorem State.cycle_dropTicket (s : State) (u : TicketUser) : (s.dropTicket u).cycle = s.cycle := by
  rw [State.dropTicket_eq]

/-- Entering a trap changes the slot that traps, and of the rest only tickets. -/
theorem State.enterTrap_eq (s : State) (i : SlotId) (c : BitVec 11) (p t0 t1 t2 t3 : Word) :
    ∃ x, s.enterTrap i c p t0 t1 t2 t3 = (s.dropTicket (.control i)).setSlot i x ∧
      x = (if (s.slotOf i).tx.isSome then ((s.slotOf i).abortTx 4 0).enter s.cycle c ((s.slotOf i).abortTx 4 0).pc t0 t1 t2 t3 true
        else (s.slotOf i).enter s.cycle c p t0 t1 t2 t3 false) := by
  unfold State.enterTrap
  simp only [State.slotOf_dropTicket]
  split <;> exact ⟨_, rfl, rfl⟩

/-! ### Queued stores (R191, R206, R389) -/

/-! What a store that leaves its queue, or is sent, leaves of the slot. -/

@[simp] theorem Slot.dropStore_status (x : Slot) (n : Nat) : (x.dropStore n).status = x.status := rfl
@[simp] theorem Slot.dropStore_level (x : Slot) (n : Nat) : (x.dropStore n).level = x.level := rfl
@[simp] theorem Slot.dropStore_pc (x : Slot) (n : Nat) : (x.dropStore n).pc = x.pc := rfl
@[simp] theorem Slot.dropStore_bank (x : Slot) (n : Nat) : (x.dropStore n).bank = x.bank := rfl
@[simp] theorem Slot.dropStore_sup (x : Slot) (n : Nat) : (x.dropStore n).sup = x.sup := rfl
@[simp] theorem Slot.dropStore_frame (x : Slot) (n : Nat) : (x.dropStore n).frame = x.frame := rfl
@[simp] theorem Slot.dropStore_ctx (x : Slot) (n : Nat) : (x.dropStore n).ctx = x.ctx := rfl
@[simp] theorem Slot.dropStore_task (x : Slot) (n : Nat) : (x.dropStore n).task = x.task := rfl
@[simp] theorem Slot.dropStore_quota (x : Slot) (n : Nat) : (x.dropStore n).quota = x.quota := rfl
@[simp] theorem Slot.dropStore_doms (x : Slot) (n : Nat) : (x.dropStore n).doms = x.doms := rfl
@[simp] theorem Slot.dropStore_vtype (x : Slot) (n : Nat) : (x.dropStore n).vtype = x.vtype := rfl
@[simp] theorem Slot.dropStore_rrb (x : Slot) (n : Nat) : (x.dropStore n).rrb = x.rrb := rfl
@[simp] theorem Slot.dropStore_ec (x : Slot) (n : Nat) : (x.dropStore n).ec = x.ec := rfl
@[simp] theorem Slot.dropStore_srseed (x : Slot) (n : Nat) : (x.dropStore n).srseed = x.srseed := rfl
@[simp] theorem Slot.dropStore_tol (x : Slot) (n : Nat) : (x.dropStore n).tol = x.tol := rfl
@[simp] theorem Slot.dropStore_vlw (x : Slot) (n : Nat) : (x.dropStore n).vlw = x.vlw := rfl
@[simp] theorem Slot.dropStore_sched (x : Slot) (n : Nat) : (x.dropStore n).sched = x.sched := rfl
@[simp] theorem Slot.dropStore_pend (x : Slot) (n : Nat) : (x.dropStore n).pend = x.pend := rfl
@[simp] theorem Slot.dropStore_loop (x : Slot) (n : Nat) : (x.dropStore n).loop = x.loop := rfl
@[simp] theorem Slot.dropStore_eng (x : Slot) (n : Nat) : (x.dropStore n).eng = x.eng := rfl
@[simp] theorem Slot.dropStore_tx (x : Slot) (n : Nat) : (x.dropStore n).tx = x.tx := rfl
@[simp] theorem Slot.dropStore_blocks (x : Slot) (n : Nat) : (x.dropStore n).blocks = x.blocks := rfl
@[simp] theorem Slot.dropStore_replies (x : Slot) (n : Nat) : (x.dropStore n).replies = x.replies := rfl
@[simp] theorem Slot.dropStore_code (x : Slot) (n : Nat) : (x.dropStore n).code = x.code := rfl
@[simp] theorem Slot.dropStore_refused (x : Slot) (n : Nat) : (x.dropStore n).refused = x.refused := rfl
@[simp] theorem Slot.dropStore_next (x : Slot) (n : Nat) : (x.dropStore n).next = x.next := rfl
@[simp] theorem Slot.dropStore_binds (x : Slot) (n : Nat) : (x.dropStore n).binds = x.binds := rfl
@[simp] theorem Slot.dropStore_bare (x : Slot) (n : Nat) : (x.dropStore n).bare = x.bare := rfl
@[simp] theorem Slot.dropStore_sq (x : Slot) (n : Nat) : (x.dropStore n).sq = x.sq.eraseIdx n := rfl

@[simp] theorem Slot.sentStore_status (x : Slot) (n : Nat) (q : StoreReq) (t : Nat) : (x.sentStore n q t).status = x.status := rfl
@[simp] theorem Slot.sentStore_level (x : Slot) (n : Nat) (q : StoreReq) (t : Nat) : (x.sentStore n q t).level = x.level := rfl
@[simp] theorem Slot.sentStore_pc (x : Slot) (n : Nat) (q : StoreReq) (t : Nat) : (x.sentStore n q t).pc = x.pc := rfl
@[simp] theorem Slot.sentStore_bank (x : Slot) (n : Nat) (q : StoreReq) (t : Nat) : (x.sentStore n q t).bank = x.bank := rfl
@[simp] theorem Slot.sentStore_sup (x : Slot) (n : Nat) (q : StoreReq) (t : Nat) : (x.sentStore n q t).sup = x.sup := rfl
@[simp] theorem Slot.sentStore_frame (x : Slot) (n : Nat) (q : StoreReq) (t : Nat) : (x.sentStore n q t).frame = x.frame := rfl
@[simp] theorem Slot.sentStore_ctx (x : Slot) (n : Nat) (q : StoreReq) (t : Nat) : (x.sentStore n q t).ctx = x.ctx := rfl
@[simp] theorem Slot.sentStore_task (x : Slot) (n : Nat) (q : StoreReq) (t : Nat) : (x.sentStore n q t).task = x.task := rfl
@[simp] theorem Slot.sentStore_quota (x : Slot) (n : Nat) (q : StoreReq) (t : Nat) : (x.sentStore n q t).quota = x.quota := rfl
@[simp] theorem Slot.sentStore_doms (x : Slot) (n : Nat) (q : StoreReq) (t : Nat) : (x.sentStore n q t).doms = x.doms := rfl
@[simp] theorem Slot.sentStore_vtype (x : Slot) (n : Nat) (q : StoreReq) (t : Nat) : (x.sentStore n q t).vtype = x.vtype := rfl
@[simp] theorem Slot.sentStore_rrb (x : Slot) (n : Nat) (q : StoreReq) (t : Nat) : (x.sentStore n q t).rrb = x.rrb := rfl
@[simp] theorem Slot.sentStore_ec (x : Slot) (n : Nat) (q : StoreReq) (t : Nat) : (x.sentStore n q t).ec = x.ec := rfl
@[simp] theorem Slot.sentStore_srseed (x : Slot) (n : Nat) (q : StoreReq) (t : Nat) : (x.sentStore n q t).srseed = x.srseed := rfl
@[simp] theorem Slot.sentStore_tol (x : Slot) (n : Nat) (q : StoreReq) (t : Nat) : (x.sentStore n q t).tol = x.tol := rfl
@[simp] theorem Slot.sentStore_vlw (x : Slot) (n : Nat) (q : StoreReq) (t : Nat) : (x.sentStore n q t).vlw = x.vlw := rfl
@[simp] theorem Slot.sentStore_sched (x : Slot) (n : Nat) (q : StoreReq) (t : Nat) : (x.sentStore n q t).sched = x.sched := rfl
@[simp] theorem Slot.sentStore_pend (x : Slot) (n : Nat) (q : StoreReq) (t : Nat) : (x.sentStore n q t).pend = x.pend := rfl
@[simp] theorem Slot.sentStore_loop (x : Slot) (n : Nat) (q : StoreReq) (t : Nat) : (x.sentStore n q t).loop = x.loop := rfl
@[simp] theorem Slot.sentStore_eng (x : Slot) (n : Nat) (q : StoreReq) (t : Nat) : (x.sentStore n q t).eng = x.eng := rfl
@[simp] theorem Slot.sentStore_tx (x : Slot) (n : Nat) (q : StoreReq) (t : Nat) : (x.sentStore n q t).tx = x.tx := rfl
@[simp] theorem Slot.sentStore_blocks (x : Slot) (n : Nat) (q : StoreReq) (t : Nat) : (x.sentStore n q t).blocks = x.blocks := rfl
@[simp] theorem Slot.sentStore_replies (x : Slot) (n : Nat) (q : StoreReq) (t : Nat) : (x.sentStore n q t).replies = x.replies := rfl
@[simp] theorem Slot.sentStore_code (x : Slot) (n : Nat) (q : StoreReq) (t : Nat) : (x.sentStore n q t).code = x.code := rfl
@[simp] theorem Slot.sentStore_refused (x : Slot) (n : Nat) (q : StoreReq) (t : Nat) : (x.sentStore n q t).refused = x.refused := rfl
@[simp] theorem Slot.sentStore_next (x : Slot) (n : Nat) (q : StoreReq) (t : Nat) : (x.sentStore n q t).next = x.next := rfl
@[simp] theorem Slot.sentStore_binds (x : Slot) (n : Nat) (q : StoreReq) (t : Nat) : (x.sentStore n q t).binds = x.binds := rfl
@[simp] theorem Slot.sentStore_bare (x : Slot) (n : Nat) (q : StoreReq) (t : Nat) : (x.sentStore n q t).bare = x.bare := rfl
@[simp] theorem Slot.sentStore_sq (x : Slot) (n : Nat) (q : StoreReq) (t : Nat) :
    (x.sentStore n q t).sq = setAt x.sq n { q with sent := some t } := rfl

/-! What noting a store for fetches leaves (R95). -/

@[simp] theorem State.keepStored_agenda (s : State) (l : Loc) (m : BitVec 32) (d : BitVec 256) : (s.keepStored l m d).agenda = s.agenda := rfl
@[simp] theorem State.keepStored_free (s : State) (l : Loc) (m : BitVec 32) (d : BitVec 256) : (s.keepStored l m d).free = s.free := rfl
@[simp] theorem State.keepStored_cycle (s : State) (l : Loc) (m : BitVec 32) (d : BitVec 256) : (s.keepStored l m d).cycle = s.cycle := rfl
@[simp] theorem State.keepStored_cur (s : State) (l : Loc) (m : BitVec 32) (d : BitVec 256) : (s.keepStored l m d).cur = s.cur := rfl
@[simp] theorem State.keepStored_actor (s : State) (l : Loc) (m : BitVec 32) (d : BitVec 256) : (s.keepStored l m d).actor = s.actor := rfl
@[simp] theorem State.keepStored_slots (s : State) (l : Loc) (m : BitVec 32) (d : BitVec 256) : (s.keepStored l m d).slots = s.slots := rfl
@[simp] theorem State.keepStored_cores (s : State) (l : Loc) (m : BitVec 32) (d : BitVec 256) : (s.keepStored l m d).cores = s.cores := rfl
@[simp] theorem State.keepStored_clusters (s : State) (l : Loc) (m : BitVec 32) (d : BitVec 256) : (s.keepStored l m d).clusters = s.clusters := rfl
@[simp] theorem State.keepStored_dies (s : State) (l : Loc) (m : BitVec 32) (d : BitVec 256) : (s.keepStored l m d).dies = s.dies := rfl
@[simp] theorem State.keepStored_parts (s : State) (l : Loc) (m : BitVec 32) (d : BitVec 256) : (s.keepStored l m d).parts = s.parts := rfl
@[simp] theorem State.keepStored_segs (s : State) (l : Loc) (m : BitVec 32) (d : BitVec 256) : (s.keepStored l m d).segs = s.segs := rfl
@[simp] theorem State.keepStored_scheds (s : State) (l : Loc) (m : BitVec 32) (d : BitVec 256) : (s.keepStored l m d).scheds = s.scheds := rfl
@[simp] theorem State.keepStored_tickets (s : State) (l : Loc) (m : BitVec 32) (d : BitVec 256) : (s.keepStored l m d).tickets = s.tickets := rfl
@[simp] theorem State.keepStored_nextTicket (s : State) (l : Loc) (m : BitVec 32) (d : BitVec 256) : (s.keepStored l m d).nextTicket = s.nextTicket := rfl
@[simp] theorem State.keepStored_mem (s : State) (l : Loc) (m : BitVec 32) (d : BitVec 256) : (s.keepStored l m d).mem = s.mem := rfl
@[simp] theorem State.keepStored_keyed (s : State) (l : Loc) (m : BitVec 32) (d : BitVec 256) : (s.keepStored l m d).keyed = s.keyed := rfl
@[simp] theorem State.keepStored_under (s : State) (l : Loc) (m : BitVec 32) (d : BitVec 256) : (s.keepStored l m d).under = s.under := rfl
@[simp] theorem State.keepStored_past (s : State) (l : Loc) (m : BitVec 32) (d : BitVec 256) : (s.keepStored l m d).past = s.past := rfl
@[simp] theorem State.keepStored_strike (s : State) (l : Loc) (m : BitVec 32) (d : BitVec 256) : (s.keepStored l m d).strike = s.strike := rfl
@[simp] theorem State.keepStored_pkg (s : State) (l : Loc) (m : BitVec 32) (d : BitVec 256) : (s.keepStored l m d).pkg = s.pkg := rfl

@[simp] theorem State.keepFar_mem (s : State) (q : StoreReq) : (s.keepFar q).mem = s.mem := rfl
@[simp] theorem State.keepFar_slots (s : State) (q : StoreReq) : (s.keepFar q).slots = s.slots := rfl
@[simp] theorem State.keepFar_pkg (s : State) (q : StoreReq) : (s.keepFar q).pkg = s.pkg := rfl

/-! What waking the launch engine leaves: all but the partitions (R107). -/

theorem State.wakeBy_eq (s : State) (p : Fin 16) (l : Loc) (m : BitVec 32) (d : BitVec 256) :
    s.wakeBy p l m d = { s with parts := (s.wakeBy p l m d).parts } := by
  unfold State.wakeBy
  simp only
  split
  · rfl
  · split <;> first | rfl | (split <;> rfl)

theorem State.noteWake_eq (s : State) (p : Fin 16) (l : Loc) (w : Option (BitVec 32 × BitVec 256)) :
    s.noteWake p l w = { s with parts := (s.noteWake p l w).parts } := by
  unfold State.noteWake
  split
  · exact s.wakeBy_eq p l _ _
  · rfl

@[simp] theorem State.noteWake_mem (s : State) (p : Fin 16) (l : Loc) (w : Option (BitVec 32 × BitVec 256)) : (s.noteWake p l w).mem = s.mem := by
  rw [State.noteWake_eq]
@[simp] theorem State.noteWake_slots (s : State) (p : Fin 16) (l : Loc) (w : Option (BitVec 32 × BitVec 256)) :
    (s.noteWake p l w).slots = s.slots := by
  rw [State.noteWake_eq]
@[simp] theorem State.noteWake_cur (s : State) (p : Fin 16) (l : Loc) (w : Option (BitVec 32 × BitVec 256)) : (s.noteWake p l w).cur = s.cur := by
  rw [State.noteWake_eq]

/-! What a write that waits at a locked home leaves (R218). -/

@[simp] theorem State.hold_agenda (s : State) (h : Held) : (s.hold h).agenda = s.agenda := rfl
@[simp] theorem State.hold_free (s : State) (h : Held) : (s.hold h).free = s.free := rfl
@[simp] theorem State.hold_cycle (s : State) (h : Held) : (s.hold h).cycle = s.cycle := rfl
@[simp] theorem State.hold_cur (s : State) (h : Held) : (s.hold h).cur = s.cur := rfl
@[simp] theorem State.hold_actor (s : State) (h : Held) : (s.hold h).actor = s.actor := rfl
@[simp] theorem State.hold_slots (s : State) (h : Held) : (s.hold h).slots = s.slots := rfl
@[simp] theorem State.hold_cores (s : State) (h : Held) : (s.hold h).cores = s.cores := rfl
@[simp] theorem State.hold_clusters (s : State) (h : Held) : (s.hold h).clusters = s.clusters := rfl
@[simp] theorem State.hold_dies (s : State) (h : Held) : (s.hold h).dies = s.dies := rfl
@[simp] theorem State.hold_parts (s : State) (h : Held) : (s.hold h).parts = s.parts := rfl
@[simp] theorem State.hold_segs (s : State) (h : Held) : (s.hold h).segs = s.segs := rfl
@[simp] theorem State.hold_scheds (s : State) (h : Held) : (s.hold h).scheds = s.scheds := rfl
@[simp] theorem State.hold_tickets (s : State) (h : Held) : (s.hold h).tickets = s.tickets := rfl
@[simp] theorem State.hold_nextTicket (s : State) (h : Held) : (s.hold h).nextTicket = s.nextTicket := rfl
@[simp] theorem State.hold_mem (s : State) (h : Held) : (s.hold h).mem = s.mem := rfl
@[simp] theorem State.hold_keyed (s : State) (h : Held) : (s.hold h).keyed = s.keyed := rfl
@[simp] theorem State.hold_under (s : State) (h : Held) : (s.hold h).under = s.under := rfl
@[simp] theorem State.hold_past (s : State) (h : Held) : (s.hold h).past = s.past := rfl
@[simp] theorem State.hold_stored (s : State) (h : Held) : (s.hold h).stored = s.stored := rfl
@[simp] theorem State.hold_strike (s : State) (h : Held) : (s.hold h).strike = s.strike := rfl
@[simp] theorem State.hold_held (s : State) (h : Held) : (s.hold h).pkg.held = s.pkg.held ++ [h] := rfl

/-- A granule that reaches a home which no commit holds is written there at once. -/
theorem State.homePut_unlocked {s : State} {g : Nat} (h : s.isLocked (.phys g) = false) (p : Fin 16) (key : Option (Fin 16)) (dlog : Bool)
    (x : Granule) : s.homePut p key dlog g x = s.homePutNow p key dlog g x := by
  simp [State.homePut, h]

/-- One that reaches a locked home waits there (R218). -/
theorem State.homePut_locked {s : State} {g : Nat} (h : s.isLocked (.phys g) = true) (p : Fin 16) (key : Option (Fin 16)) (dlog : Bool)
    (x : Granule) : s.homePut p key dlog g x = s.hold ⟨g, .write (BitVec.allOnes 32) x none, p, key, dlog, none, false⟩ := by
  simp [State.homePut, h]

/-! ### The stored form (08 R194) -/

/-- A unit is its granule, and a granule its unit (R194). -/
theorem unit36_ofUnit36 (u : BitVec 288) (p i : Bool) : unit36 (ofUnit36 u p i) = u := by
  apply BitVec.eq_of_getLsbD_eq
  intro k hk
  simp only [unit36, ofUnit36, BitVec.getLsbD_append, BitVec.getLsbD_extractLsb']
  by_cases h : k < 256
  · simp [h]
  · simp [h, show k - 256 < 32 by omega, show 256 + (k - 256) = k by omega]

theorem ofUnit36_unit36 (g : Granule) : ofUnit36 (unit36 g) g.poison g.inj = g := by
  obtain ⟨d, c, p, e⟩ := g
  simp only [unit36, ofUnit36]
  congr 1 <;> apply BitVec.eq_of_getLsbD_eq <;> intro i hi <;>
    simp only [BitVec.getLsbD_append, BitVec.getLsbD_extractLsb']
  · simp [hi]
  · simp [hi]

end Sys2Proof.Machine
end

