-- ==== Sys2Proof/Laws/PerInstr.lean ====
section
/-! SUPPORT. The round trip of the encoder and the decoder, one lemma per constructor of Instr. -/

namespace Sys2Proof

/-! ### Fields of an encoded word

The fields of a word are given by their values, and by their places: the lowest bit and the width of each. -/

/-- Every value fits the width of its place. -/
def Fits : List Nat → List (Nat × Nat) → Prop
  | v :: vs, p :: ps => v < 2 ^ p.2 ∧ Fits vs ps
  | _, _ => True

/-- Two ranges of bits do not meet. -/
def apartBits (l w lo k : Nat) : Bool := decide (l + w ≤ lo) || decide (lo + k ≤ l)

/-- The places are not empty and do not meet, the fixed bits are zero there, and all is within 32 bits. -/
def clean (F : Nat) : List (Nat × Nat) → Bool
  | [] => decide (F < 2 ^ 32)
  | p :: ps => decide (0 < p.2 ∧ p.1 + p.2 ≤ 32 ∧ fld F p.1 p.2 = 0) && ps.all (fun q => apartBits p.1 p.2 q.1 q.2) && clean F ps

/-- A range is that of one place, or meets none. -/
def asks (lo k : Nat) : List (Nat × Nat) → Bool
  | [] => true
  | p :: ps => (decide (p.1 = lo ∧ p.2 = k) || apartBits p.1 p.2 lo k) && asks lo k ps

/-- What stands in a range: the value of the field there, or the fixed bits. -/
def there (F lo k : Nat) : List Nat → List (Nat × Nat) → Nat
  | v :: vs, p :: ps => bif Nat.beq p.1 lo && Nat.beq p.2 k then v else there F lo k vs ps
  | _, _ => fld F lo k

/-- Values at their places. -/
def atPlaces (vs : List Nat) (ps : List (Nat × Nat)) : List (Nat × Nat) := List.zipWith (fun v p => (v, p.1)) vs ps

/-- A field that is added where there are zeros is what then stands there, and nothing else changes. -/
theorem fld_add {n v l w : Nat} (hz : fld n l w = 0) (hv : v < 2 ^ w) :
    fld (n + v * 2 ^ l) l w = v ∧ ∀ lo k, apartBits l w lo k = true → fld (n + v * 2 ^ l) lo k = fld n lo k := by
  unfold fld at *
  have e : (n + v * 2 ^ l) / 2 ^ l = n / 2 ^ l + v := Nat.add_mul_div_right _ _ (Nat.two_pow_pos l)
  have hm : (n / 2 ^ l + v) % 2 ^ w = v := by
    rw [← Nat.mod_add_mod, hz, Nat.zero_add, Nat.mod_eq_of_lt hv]
  refine ⟨by rw [e, hm], fun lo k h => ?_⟩
  simp only [apartBits, Bool.or_eq_true, decide_eq_true_eq] at h
  rcases h with h | h
  · obtain ⟨j, rfl⟩ : ∃ j, lo = l + (w + j) := ⟨lo - l - w, by omega⟩
    have hd : (n / 2 ^ l + v) / 2 ^ w = n / 2 ^ l / 2 ^ w := by
      have hw := Nat.two_pow_pos w
      have hq := Nat.div_add_mod (n / 2 ^ l) (2 ^ w)
      rw [hz, Nat.add_zero] at hq
      rw [← hq, Nat.mul_add_div hw, Nat.div_eq_of_lt hv, Nat.add_zero, Nat.mul_div_cancel_left _ hw]
    rw [Nat.pow_add, Nat.pow_add, ← Nat.div_div_eq_div_mul, ← Nat.div_div_eq_div_mul, e, hd, ← Nat.div_div_eq_div_mul,
      ← Nat.div_div_eq_div_mul]
  · obtain ⟨j, rfl⟩ : ∃ j, l = lo + (k + j) := ⟨l - lo - k, by omega⟩
    have e2 : n + v * 2 ^ (lo + (k + j)) = n + 2 ^ lo * (2 ^ k * (v * 2 ^ j)) := by
      rw [Nat.pow_add, Nat.pow_add]; ring
    rw [e2, Nat.add_mul_div_left _ _ (Nat.two_pow_pos lo), Nat.add_mul_mod_self_left]

/-- Adding a field leaves the later places clean. -/
theorem clean_add {v l w : Nat} : ∀ (ps : List (Nat × Nat)) (F : Nat), fld F l w = 0 → v < 2 ^ w → l + w ≤ 32 →
    ps.all (fun q => apartBits l w q.1 q.2) = true → clean F ps = true → clean (F + v * 2 ^ l) ps = true
  | [], F, hz, hv, hl, _, hc => by
    simp only [clean, decide_eq_true_eq] at hc ⊢
    by_contra hn
    have h := (fld_add hz hv).2 32 (F + v * 2 ^ l) (by simp [apartBits, hl])
    rw [fld, fld, Nat.div_eq_of_lt hc, Nat.zero_mod,
      Nat.mod_eq_of_lt (Nat.lt_of_le_of_lt (Nat.div_le_self _ _) Nat.lt_two_pow_self)] at h
    have := Nat.div_eq_zero_iff.mp h
    omega
  | p :: ps, F, hz, hv, hl, ha, hc => by
    simp only [clean, Bool.and_eq_true, decide_eq_true_eq, List.all_cons] at hc ha ⊢
    refine ⟨⟨⟨hc.1.1.1, hc.1.1.2.1, ?_⟩, hc.1.2⟩, clean_add ps F hz hv hl ha.2 hc.2⟩
    rw [(fld_add hz hv).2 _ _ ha.1]
    exact hc.1.1.2.2

/-- The fixed bits are within 32 bits. -/
theorem clean_lt : ∀ (ps : List (Nat × Nat)) (F : Nat), clean F ps = true → F < 2 ^ 32
  | [], _, hc => by simpa [clean] using hc
  | _ :: ps, F, hc => by
    simp only [clean, Bool.and_eq_true] at hc
    exact clean_lt ps F hc.2

/-- The number is within 32 bits. -/
theorem put_lt : ∀ (vs : List Nat) (ps : List (Nat × Nat)) (F : Nat), Fits vs ps → clean F ps = true → put F (atPlaces vs ps) < 2 ^ 32
  | [], ps, F, _, hc => by simpa [atPlaces, put] using clean_lt ps F hc
  | _ :: _, [], F, _, hc => by simpa [atPlaces, put] using clean_lt [] F hc
  | v :: vs, (l, w) :: ps, F, hf, hc => by
    simp only [clean, Bool.and_eq_true, decide_eq_true_eq] at hc
    exact put_lt vs ps (F + v * 2 ^ l) hf.2 (clean_add ps F hc.1.1.2.2 hf.1 hc.1.1.2.1 hc.1.2 hc.2)

/-- Where no field stands in a range, only the fixed bits count. -/
theorem there_congr {lo k : Nat} {F G : Nat} (h : fld F lo k = fld G lo k) : ∀ vs ps, there F lo k vs ps = there G lo k vs ps
  | [], _ => h
  | _ :: _, [] => h
  | _ :: vs, _ :: ps => by simp only [there, there_congr h vs ps]

/-- A range apart from all places is that of the fixed bits. -/
theorem there_apart {F l w : Nat} (hw : 0 < w) : ∀ (vs : List Nat) (ps : List (Nat × Nat)),
    ps.all (fun q => apartBits l w q.1 q.2) = true → there F l w vs ps = fld F l w
  | [], _, _ => rfl
  | _ :: _, [], _ => rfl
  | _ :: vs, p :: ps, h => by
    simp only [List.all_cons, Bool.and_eq_true, apartBits, Bool.or_eq_true, decide_eq_true_eq] at h
    have hn : (Nat.beq p.1 l && Nat.beq p.2 w) = false := by
      rw [Bool.eq_false_iff]
      intro e
      simp only [Bool.and_eq_true, Nat.beq_eq] at e
      omega
    simp only [there, hn, cond_false]
    exact there_apart hw vs ps (by simpa [apartBits] using h.2)

/-- The number that `put` makes, read range by range. -/
theorem fld_put : ∀ (vs : List Nat) (ps : List (Nat × Nat)) (F : Nat), Fits vs ps → clean F ps = true → ∀ lo k, asks lo k ps = true →
    fld (put F (atPlaces vs ps)) lo k = there F lo k vs ps
  | [], _, _, _, _, _, _, _ => rfl
  | _ :: _, [], _, _, _, _, _, _ => rfl
  | v :: vs, (l, w) :: ps, F, hf, hc, lo, k, hq => by
    simp only [clean, Bool.and_eq_true, decide_eq_true_eq] at hc
    simp only [asks, Bool.and_eq_true, Bool.or_eq_true, decide_eq_true_eq] at hq
    have hadd := fld_add hc.1.1.2.2 hf.1
    have step := fld_put vs ps (F + v * 2 ^ l) hf.2 (clean_add ps F hc.1.1.2.2 hf.1 hc.1.1.2.1 hc.1.2 hc.2) lo k hq.2
    refine Eq.trans step ?_
    by_cases he : l = lo ∧ w = k
    · obtain ⟨rfl, rfl⟩ := he
      simp only [there, Nat.beq_refl, Bool.and_self, cond_true]
      rw [there_apart hc.1.1.1 vs ps hc.1.2]
      exact hadd.1
    · have hn : (Nat.beq l lo && Nat.beq w k) = false := by
        rw [Bool.eq_false_iff]
        intro e
        simp only [Bool.and_eq_true, Nat.beq_eq] at e
        exact he e
      simp only [there, hn, cond_false]
      exact there_congr (hadd.2 lo k (hq.1.resolve_left he)) vs ps

/-! ### What the decoder takes from a word -/

/-- A Fin field. -/
theorem pick_of {w lo : Nat} (k : Nat) {n : Nat} [NeZero n] {x : Fin n} (h : fld w lo k = x.val) (hn : 2 ^ k = n) : pick n w lo = x := by
  apply Fin.ext
  show w / 2 ^ lo % n = x.val
  rw [fld, hn] at h
  exact h

/-- A bit. -/
theorem bit_of {w lo : Nat} {b : Bool} (h : fld w lo 1 = b.toNat) : bit w lo = b := by
  rw [fld, Nat.pow_one] at h
  unfold bit
  rw [h]
  cases b <;> rfl

/-- A BitVec field. -/
theorem bv_of {w lo k : Nat} {x : BitVec k} (h : fld w lo k = x.toNat) : BitVec.ofNat k (w / 2 ^ lo) = x := by
  apply BitVec.eq_of_toNat_eq
  rw [BitVec.toNat_ofNat]
  exact h

/-- Wait and post fields. -/
theorem tok_of {n : Nat} (t : Tok) (h2 : fld n 2 2 = t.wait.val) (h0 : fld n 0 2 = t.post.val) : tok n = t := by
  rw [tok, pick_of 2 h2 rfl, pick_of 2 h0 rfl]

/-- The tail of a per-lane word. -/
theorem vtail_of {n : Nat} (t : VTail) (h5 : fld n 5 4 = t.guard.val) (h4 : fld n 4 1 = t.sense.toNat) (h2 : fld n 2 2 = t.wait.val)
    (h0 : fld n 0 2 = t.post.val) : vtail n = t := by
  rw [vtail, pick_of 4 h5 rfl, bit_of h4, pick_of 2 h2 rfl, pick_of 2 h0 rfl]

/-- The class of a word chooses its decoder (R22). -/
theorem decode_at {w : IWord} {n : Nat} (h : w = .ofNat 32 n) (hn : n < 2 ^ 32) :
    (fld n 30 2 = 0 → decode w = decodeS n) ∧ (fld n 30 2 = 1 → decode w = decodeV n) ∧
      (fld n 30 2 = 2 → decode w = decodeM n) ∧ (fld n 30 2 = 3 → decode w = decodeC n) := by
  have e : w.toNat = n := by rw [h, BitVec.toNat_ofNat, Nat.mod_eq_of_lt hn]
  refine ⟨?_, ?_, ?_, ?_⟩ <;> intro h <;> rw [decode, e, h] <;> rfl

/-- A well-formed instruction passes the checks of R42. -/
theorem check_ok {i : Instr} (h : i.WellFormed = true) : check false false false i = .ok i := by
  simp only [Instr.WellFormed, Bool.and_eq_true] at h
  simp [check, h]

/-- Op6 0x28 and above is a family or nothing (R34). -/
theorem decodeS_family {n op : Nat} (h : fld n 24 6 = op) (ho : 0x28 ≤ op) : decodeS n = decodeFamily op n := by
  rw [decodeS, h]
  split <;> first | rfl | omega

/-- The word of an instruction, read range by range. -/
theorem word_of {i : Instr} (F : Nat) (vs : List Nat) (ps : List (Nat × Nat)) (he : encodeNat i = put F (atPlaces vs ps))
    (hf : Fits vs ps) (hc : clean F ps = true) :
    ∃ n, encode i = .ofNat 32 n ∧ n < 2 ^ 32 ∧ ∀ lo k, asks lo k ps = true → fld n lo k = there F lo k vs ps :=
  ⟨_, by rw [encode, he], put_lt vs ps F hf hc, fld_put vs ps F hf hc⟩

namespace Laws.RoundTrip

/-- The decoder reads the word that the encoder writes of a well-formed instruction word as that instruction. -/
def Statement (i : Instr) : Prop := i.isWord = true → i.WellFormed = true → decode (encode i) = .ok i

theorem illegal (w : BitVec 32) (r : Reason) : Statement (.illegal w r) := fun h => absurd h Bool.false_ne_true

theorem add (d : Fin 32) (a : Fin 32) (b : Fin 32) : Statement (.add d a b) := by
  intro _ hw
  obtain ⟨W, hW, hlt, H⟩ := word_of (i := (.add d a b)) 0x00000001 [d.val, a.val, b.val] [(19, 5), (14, 5), (9, 5)] rfl
    ⟨d.isLt, a.isLt, b.isLt, trivial⟩ (by decide)
  have q30_2 : fld W 30 2 = 0 := H 30 2 (by decide)
  rw [(decode_at hW hlt).1 q30_2]
  have q24_6 : fld W 24 6 = 0 := H 24 6 (by decide)
  rw [decodeS, q24_6]
  show decodeAlu W = _
  have q0_9 : fld W 0 9 = 1 := H 0 9 (by decide)
  rw [decodeAlu, q0_9]
  show check false false false (.add (pick 32 W 19) (pick 32 W 14) (pick 32 W 9)) = _
  have q19_5 : fld W 19 5 = d.val := H 19 5 (by decide)
  have q14_5 : fld W 14 5 = a.val := H 14 5 (by decide)
  have q9_5 : fld W 9 5 = b.val := H 9 5 (by decide)
  rw [pick_of 5 q19_5 rfl, pick_of 5 q14_5 rfl, pick_of 5 q9_5 rfl]
  exact check_ok hw

theorem sub (d : Fin 32) (a : Fin 32) (b : Fin 32) : Statement (.sub d a b) := by
  intro _ hw
  obtain ⟨W, hW, hlt, H⟩ := word_of (i := (.sub d a b)) 0x00000002 [d.val, a.val, b.val] [(19, 5), (14, 5), (9, 5)] rfl
    ⟨d.isLt, a.isLt, b.isLt, trivial⟩ (by decide)
  have q30_2 : fld W 30 2 = 0 := H 30 2 (by decide)
  rw [(decode_at hW hlt).1 q30_2]
  have q24_6 : fld W 24 6 = 0 := H 24 6 (by decide)
  rw [decodeS, q24_6]
  show decodeAlu W = _
  have q0_9 : fld W 0 9 = 2 := H 0 9 (by decide)
  rw [decodeAlu, q0_9]
  show check false false false (.sub (pick 32 W 19) (pick 32 W 14) (pick 32 W 9)) = _
  have q19_5 : fld W 19 5 = d.val := H 19 5 (by decide)
  have q14_5 : fld W 14 5 = a.val := H 14 5 (by decide)
  have q9_5 : fld W 9 5 = b.val := H 9 5 (by decide)
  rw [pick_of 5 q19_5 rfl, pick_of 5 q14_5 rfl, pick_of 5 q9_5 rfl]
  exact check_ok hw

theorem and (d : Fin 32) (a : Fin 32) (b : Fin 32) : Statement (.and d a b) := by
  intro _ hw
  obtain ⟨W, hW, hlt, H⟩ := word_of (i := (.and d a b)) 0x00000003 [d.val, a.val, b.val] [(19, 5), (14, 5), (9, 5)] rfl
    ⟨d.isLt, a.isLt, b.isLt, trivial⟩ (by decide)
  have q30_2 : fld W 30 2 = 0 := H 30 2 (by decide)
  rw [(decode_at hW hlt).1 q30_2]
  have q24_6 : fld W 24 6 = 0 := H 24 6 (by decide)
  rw [decodeS, q24_6]
  show decodeAlu W = _
  have q0_9 : fld W 0 9 = 3 := H 0 9 (by decide)
  rw [decodeAlu, q0_9]
  show check false false false (.and (pick 32 W 19) (pick 32 W 14) (pick 32 W 9)) = _
  have q19_5 : fld W 19 5 = d.val := H 19 5 (by decide)
  have q14_5 : fld W 14 5 = a.val := H 14 5 (by decide)
  have q9_5 : fld W 9 5 = b.val := H 9 5 (by decide)
  rw [pick_of 5 q19_5 rfl, pick_of 5 q14_5 rfl, pick_of 5 q9_5 rfl]
  exact check_ok hw

theorem or (d : Fin 32) (a : Fin 32) (b : Fin 32) : Statement (.or d a b) := by
  intro _ hw
  obtain ⟨W, hW, hlt, H⟩ := word_of (i := (.or d a b)) 0x00000004 [d.val, a.val, b.val] [(19, 5), (14, 5), (9, 5)] rfl
    ⟨d.isLt, a.isLt, b.isLt, trivial⟩ (by decide)
  have q30_2 : fld W 30 2 = 0 := H 30 2 (by decide)
  rw [(decode_at hW hlt).1 q30_2]
  have q24_6 : fld W 24 6 = 0 := H 24 6 (by decide)
  rw [decodeS, q24_6]
  show decodeAlu W = _
  have q0_9 : fld W 0 9 = 4 := H 0 9 (by decide)
  rw [decodeAlu, q0_9]
  show check false false false (.or (pick 32 W 19) (pick 32 W 14) (pick 32 W 9)) = _
  have q19_5 : fld W 19 5 = d.val := H 19 5 (by decide)
  have q14_5 : fld W 14 5 = a.val := H 14 5 (by decide)
  have q9_5 : fld W 9 5 = b.val := H 9 5 (by decide)
  rw [pick_of 5 q19_5 rfl, pick_of 5 q14_5 rfl, pick_of 5 q9_5 rfl]
  exact check_ok hw

theorem xor (d : Fin 32) (a : Fin 32) (b : Fin 32) : Statement (.xor d a b) := by
  intro _ hw
  obtain ⟨W, hW, hlt, H⟩ := word_of (i := (.xor d a b)) 0x00000005 [d.val, a.val, b.val] [(19, 5), (14, 5), (9, 5)] rfl
    ⟨d.isLt, a.isLt, b.isLt, trivial⟩ (by decide)
  have q30_2 : fld W 30 2 = 0 := H 30 2 (by decide)
  rw [(decode_at hW hlt).1 q30_2]
  have q24_6 : fld W 24 6 = 0 := H 24 6 (by decide)
  rw [decodeS, q24_6]
  show decodeAlu W = _
  have q0_9 : fld W 0 9 = 5 := H 0 9 (by decide)
  rw [decodeAlu, q0_9]
  show check false false false (.xor (pick 32 W 19) (pick 32 W 14) (pick 32 W 9)) = _
  have q19_5 : fld W 19 5 = d.val := H 19 5 (by decide)
  have q14_5 : fld W 14 5 = a.val := H 14 5 (by decide)
  have q9_5 : fld W 9 5 = b.val := H 9 5 (by decide)
  rw [pick_of 5 q19_5 rfl, pick_of 5 q14_5 rfl, pick_of 5 q9_5 rfl]
  exact check_ok hw

theorem andn (d : Fin 32) (a : Fin 32) (b : Fin 32) : Statement (.andn d a b) := by
  intro _ hw
  obtain ⟨W, hW, hlt, H⟩ := word_of (i := (.andn d a b)) 0x00000006 [d.val, a.val, b.val] [(19, 5), (14, 5), (9, 5)] rfl
    ⟨d.isLt, a.isLt, b.isLt, trivial⟩ (by decide)
  have q30_2 : fld W 30 2 = 0 := H 30 2 (by decide)
  rw [(decode_at hW hlt).1 q30_2]
  have q24_6 : fld W 24 6 = 0 := H 24 6 (by decide)
  rw [decodeS, q24_6]
  show decodeAlu W = _
  have q0_9 : fld W 0 9 = 6 := H 0 9 (by decide)
  rw [decodeAlu, q0_9]
  show check false false false (.andn (pick 32 W 19) (pick 32 W 14) (pick 32 W 9)) = _
  have q19_5 : fld W 19 5 = d.val := H 19 5 (by decide)
  have q14_5 : fld W 14 5 = a.val := H 14 5 (by decide)
  have q9_5 : fld W 9 5 = b.val := H 9 5 (by decide)
  rw [pick_of 5 q19_5 rfl, pick_of 5 q14_5 rfl, pick_of 5 q9_5 rfl]
  exact check_ok hw

theorem orn (d : Fin 32) (a : Fin 32) (b : Fin 32) : Statement (.orn d a b) := by
  intro _ hw
  obtain ⟨W, hW, hlt, H⟩ := word_of (i := (.orn d a b)) 0x00000007 [d.val, a.val, b.val] [(19, 5), (14, 5), (9, 5)] rfl
    ⟨d.isLt, a.isLt, b.isLt, trivial⟩ (by decide)
  have q30_2 : fld W 30 2 = 0 := H 30 2 (by decide)
  rw [(decode_at hW hlt).1 q30_2]
  have q24_6 : fld W 24 6 = 0 := H 24 6 (by decide)
  rw [decodeS, q24_6]
  show decodeAlu W = _
  have q0_9 : fld W 0 9 = 7 := H 0 9 (by decide)
  rw [decodeAlu, q0_9]
  show check false false false (.orn (pick 32 W 19) (pick 32 W 14) (pick 32 W 9)) = _
  have q19_5 : fld W 19 5 = d.val := H 19 5 (by decide)
  have q14_5 : fld W 14 5 = a.val := H 14 5 (by decide)
  have q9_5 : fld W 9 5 = b.val := H 9 5 (by decide)
  rw [pick_of 5 q19_5 rfl, pick_of 5 q14_5 rfl, pick_of 5 q9_5 rfl]
  exact check_ok hw

theorem sll (d : Fin 32) (a : Fin 32) (b : Fin 32) : Statement (.sll d a b) := by
  intro _ hw
  obtain ⟨W, hW, hlt, H⟩ := word_of (i := (.sll d a b)) 0x00000008 [d.val, a.val, b.val] [(19, 5), (14, 5), (9, 5)] rfl
    ⟨d.isLt, a.isLt, b.isLt, trivial⟩ (by decide)
  have q30_2 : fld W 30 2 = 0 := H 30 2 (by decide)
  rw [(decode_at hW hlt).1 q30_2]
  have q24_6 : fld W 24 6 = 0 := H 24 6 (by decide)
  rw [decodeS, q24_6]
  show decodeAlu W = _
  have q0_9 : fld W 0 9 = 8 := H 0 9 (by decide)
  rw [decodeAlu, q0_9]
  show check false false false (.sll (pick 32 W 19) (pick 32 W 14) (pick 32 W 9)) = _
  have q19_5 : fld W 19 5 = d.val := H 19 5 (by decide)
  have q14_5 : fld W 14 5 = a.val := H 14 5 (by decide)
  have q9_5 : fld W 9 5 = b.val := H 9 5 (by decide)
  rw [pick_of 5 q19_5 rfl, pick_of 5 q14_5 rfl, pick_of 5 q9_5 rfl]
  exact check_ok hw

theorem srl (d : Fin 32) (a : Fin 32) (b : Fin 32) : Statement (.srl d a b) := by
  intro _ hw
  obtain ⟨W, hW, hlt, H⟩ := word_of (i := (.srl d a b)) 0x00000009 [d.val, a.val, b.val] [(19, 5), (14, 5), (9, 5)] rfl
    ⟨d.isLt, a.isLt, b.isLt, trivial⟩ (by decide)
  have q30_2 : fld W 30 2 = 0 := H 30 2 (by decide)
  rw [(decode_at hW hlt).1 q30_2]
  have q24_6 : fld W 24 6 = 0 := H 24 6 (by decide)
  rw [decodeS, q24_6]
  show decodeAlu W = _
  have q0_9 : fld W 0 9 = 9 := H 0 9 (by decide)
  rw [decodeAlu, q0_9]
  show check false false false (.srl (pick 32 W 19) (pick 32 W 14) (pick 32 W 9)) = _
  have q19_5 : fld W 19 5 = d.val := H 19 5 (by decide)
  have q14_5 : fld W 14 5 = a.val := H 14 5 (by decide)
  have q9_5 : fld W 9 5 = b.val := H 9 5 (by decide)
  rw [pick_of 5 q19_5 rfl, pick_of 5 q14_5 rfl, pick_of 5 q9_5 rfl]
  exact check_ok hw

theorem sra (d : Fin 32) (a : Fin 32) (b : Fin 32) : Statement (.sra d a b) := by
  intro _ hw
  obtain ⟨W, hW, hlt, H⟩ := word_of (i := (.sra d a b)) 0x0000000A [d.val, a.val, b.val] [(19, 5), (14, 5), (9, 5)] rfl
    ⟨d.isLt, a.isLt, b.isLt, trivial⟩ (by decide)
  have q30_2 : fld W 30 2 = 0 := H 30 2 (by decide)
  rw [(decode_at hW hlt).1 q30_2]
  have q24_6 : fld W 24 6 = 0 := H 24 6 (by decide)
  rw [decodeS, q24_6]
  show decodeAlu W = _
  have q0_9 : fld W 0 9 = 10 := H 0 9 (by decide)
  rw [decodeAlu, q0_9]
  show check false false false (.sra (pick 32 W 19) (pick 32 W 14) (pick 32 W 9)) = _
  have q19_5 : fld W 19 5 = d.val := H 19 5 (by decide)
  have q14_5 : fld W 14 5 = a.val := H 14 5 (by decide)
  have q9_5 : fld W 9 5 = b.val := H 9 5 (by decide)
  rw [pick_of 5 q19_5 rfl, pick_of 5 q14_5 rfl, pick_of 5 q9_5 rfl]
  exact check_ok hw

theorem mul (d : Fin 32) (a : Fin 32) (b : Fin 32) : Statement (.mul d a b) := by
  intro _ hw
  obtain ⟨W, hW, hlt, H⟩ := word_of (i := (.mul d a b)) 0x0000000B [d.val, a.val, b.val] [(19, 5), (14, 5), (9, 5)] rfl
    ⟨d.isLt, a.isLt, b.isLt, trivial⟩ (by decide)
  have q30_2 : fld W 30 2 = 0 := H 30 2 (by decide)
  rw [(decode_at hW hlt).1 q30_2]
  have q24_6 : fld W 24 6 = 0 := H 24 6 (by decide)
  rw [decodeS, q24_6]
  show decodeAlu W = _
  have q0_9 : fld W 0 9 = 11 := H 0 9 (by decide)
  rw [decodeAlu, q0_9]
  show check false false false (.mul (pick 32 W 19) (pick 32 W 14) (pick 32 W 9)) = _
  have q19_5 : fld W 19 5 = d.val := H 19 5 (by decide)
  have q14_5 : fld W 14 5 = a.val := H 14 5 (by decide)
  have q9_5 : fld W 9 5 = b.val := H 9 5 (by decide)
  rw [pick_of 5 q19_5 rfl, pick_of 5 q14_5 rfl, pick_of 5 q9_5 rfl]
  exact check_ok hw

theorem mulh (d : Fin 32) (a : Fin 32) (b : Fin 32) : Statement (.mulh d a b) := by
  intro _ hw
  obtain ⟨W, hW, hlt, H⟩ := word_of (i := (.mulh d a b)) 0x0000000C [d.val, a.val, b.val] [(19, 5), (14, 5), (9, 5)] rfl
    ⟨d.isLt, a.isLt, b.isLt, trivial⟩ (by decide)
  have q30_2 : fld W 30 2 = 0 := H 30 2 (by decide)
  rw [(decode_at hW hlt).1 q30_2]
  have q24_6 : fld W 24 6 = 0 := H 24 6 (by decide)
  rw [decodeS, q24_6]
  show decodeAlu W = _
  have q0_9 : fld W 0 9 = 12 := H 0 9 (by decide)
  rw [decodeAlu, q0_9]
  show check false false false (.mulh (pick 32 W 19) (pick 32 W 14) (pick 32 W 9)) = _
  have q19_5 : fld W 19 5 = d.val := H 19 5 (by decide)
  have q14_5 : fld W 14 5 = a.val := H 14 5 (by decide)
  have q9_5 : fld W 9 5 = b.val := H 9 5 (by decide)
  rw [pick_of 5 q19_5 rfl, pick_of 5 q14_5 rfl, pick_of 5 q9_5 rfl]
  exact check_ok hw

theorem mulhu (d : Fin 32) (a : Fin 32) (b : Fin 32) : Statement (.mulhu d a b) := by
  intro _ hw
  obtain ⟨W, hW, hlt, H⟩ := word_of (i := (.mulhu d a b)) 0x0000000D [d.val, a.val, b.val] [(19, 5), (14, 5), (9, 5)] rfl
    ⟨d.isLt, a.isLt, b.isLt, trivial⟩ (by decide)
  have q30_2 : fld W 30 2 = 0 := H 30 2 (by decide)
  rw [(decode_at hW hlt).1 q30_2]
  have q24_6 : fld W 24 6 = 0 := H 24 6 (by decide)
  rw [decodeS, q24_6]
  show decodeAlu W = _
  have q0_9 : fld W 0 9 = 13 := H 0 9 (by decide)
  rw [decodeAlu, q0_9]
  show check false false false (.mulhu (pick 32 W 19) (pick 32 W 14) (pick 32 W 9)) = _
  have q19_5 : fld W 19 5 = d.val := H 19 5 (by decide)
  have q14_5 : fld W 14 5 = a.val := H 14 5 (by decide)
  have q9_5 : fld W 9 5 = b.val := H 9 5 (by decide)
  rw [pick_of 5 q19_5 rfl, pick_of 5 q14_5 rfl, pick_of 5 q9_5 rfl]
  exact check_ok hw

theorem div (d : Fin 32) (a : Fin 32) (b : Fin 32) : Statement (.div d a b) := by
  intro _ hw
  obtain ⟨W, hW, hlt, H⟩ := word_of (i := (.div d a b)) 0x0000000E [d.val, a.val, b.val] [(19, 5), (14, 5), (9, 5)] rfl
    ⟨d.isLt, a.isLt, b.isLt, trivial⟩ (by decide)
  have q30_2 : fld W 30 2 = 0 := H 30 2 (by decide)
  rw [(decode_at hW hlt).1 q30_2]
  have q24_6 : fld W 24 6 = 0 := H 24 6 (by decide)
  rw [decodeS, q24_6]
  show decodeAlu W = _
  have q0_9 : fld W 0 9 = 14 := H 0 9 (by decide)
  rw [decodeAlu, q0_9]
  show check false false false (.div (pick 32 W 19) (pick 32 W 14) (pick 32 W 9)) = _
  have q19_5 : fld W 19 5 = d.val := H 19 5 (by decide)
  have q14_5 : fld W 14 5 = a.val := H 14 5 (by decide)
  have q9_5 : fld W 9 5 = b.val := H 9 5 (by decide)
  rw [pick_of 5 q19_5 rfl, pick_of 5 q14_5 rfl, pick_of 5 q9_5 rfl]
  exact check_ok hw

theorem divu (d : Fin 32) (a : Fin 32) (b : Fin 32) : Statement (.divu d a b) := by
  intro _ hw
  obtain ⟨W, hW, hlt, H⟩ := word_of (i := (.divu d a b)) 0x0000010E [d.val, a.val, b.val] [(19, 5), (14, 5), (9, 5)] rfl
    ⟨d.isLt, a.isLt, b.isLt, trivial⟩ (by decide)
  have q30_2 : fld W 30 2 = 0 := H 30 2 (by decide)
  rw [(decode_at hW hlt).1 q30_2]
  have q24_6 : fld W 24 6 = 0 := H 24 6 (by decide)
  rw [decodeS, q24_6]
  show decodeAlu W = _
  have q0_9 : fld W 0 9 = 270 := H 0 9 (by decide)
  rw [decodeAlu, q0_9]
  show check false false false (.divu (pick 32 W 19) (pick 32 W 14) (pick 32 W 9)) = _
  have q19_5 : fld W 19 5 = d.val := H 19 5 (by decide)
  have q14_5 : fld W 14 5 = a.val := H 14 5 (by decide)
  have q9_5 : fld W 9 5 = b.val := H 9 5 (by decide)
  rw [pick_of 5 q19_5 rfl, pick_of 5 q14_5 rfl, pick_of 5 q9_5 rfl]
  exact check_ok hw

theorem rem (d : Fin 32) (a : Fin 32) (b : Fin 32) : Statement (.rem d a b) := by
  intro _ hw
  obtain ⟨W, hW, hlt, H⟩ := word_of (i := (.rem d a b)) 0x0000000F [d.val, a.val, b.val] [(19, 5), (14, 5), (9, 5)] rfl
    ⟨d.isLt, a.isLt, b.isLt, trivial⟩ (by decide)
  have q30_2 : fld W 30 2 = 0 := H 30 2 (by decide)
  rw [(decode_at hW hlt).1 q30_2]
  have q24_6 : fld W 24 6 = 0 := H 24 6 (by decide)
  rw [decodeS, q24_6]
  show decodeAlu W = _
  have q0_9 : fld W 0 9 = 15 := H 0 9 (by decide)
  rw [decodeAlu, q0_9]
  show check false false false (.rem (pick 32 W 19) (pick 32 W 14) (pick 32 W 9)) = _
  have q19_5 : fld W 19 5 = d.val := H 19 5 (by decide)
  have q14_5 : fld W 14 5 = a.val := H 14 5 (by decide)
  have q9_5 : fld W 9 5 = b.val := H 9 5 (by decide)
  rw [pick_of 5 q19_5 rfl, pick_of 5 q14_5 rfl, pick_of 5 q9_5 rfl]
  exact check_ok hw

theorem remu (d : Fin 32) (a : Fin 32) (b : Fin 32) : Statement (.remu d a b) := by
  intro _ hw
  obtain ⟨W, hW, hlt, H⟩ := word_of (i := (.remu d a b)) 0x0000010F [d.val, a.val, b.val] [(19, 5), (14, 5), (9, 5)] rfl
    ⟨d.isLt, a.isLt, b.isLt, trivial⟩ (by decide)
  have q30_2 : fld W 30 2 = 0 := H 30 2 (by decide)
  rw [(decode_at hW hlt).1 q30_2]
  have q24_6 : fld W 24 6 = 0 := H 24 6 (by decide)
  rw [decodeS, q24_6]
  show decodeAlu W = _
  have q0_9 : fld W 0 9 = 271 := H 0 9 (by decide)
  rw [decodeAlu, q0_9]
  show check false false false (.remu (pick 32 W 19) (pick 32 W 14) (pick 32 W 9)) = _
  have q19_5 : fld W 19 5 = d.val := H 19 5 (by decide)
  have q14_5 : fld W 14 5 = a.val := H 14 5 (by decide)
  have q9_5 : fld W 9 5 = b.val := H 9 5 (by decide)
  rw [pick_of 5 q19_5 rfl, pick_of 5 q14_5 rfl, pick_of 5 q9_5 rfl]
  exact check_ok hw

theorem slt (d : Fin 32) (a : Fin 32) (b : Fin 32) : Statement (.slt d a b) := by
  intro _ hw
  obtain ⟨W, hW, hlt, H⟩ := word_of (i := (.slt d a b)) 0x00000010 [d.val, a.val, b.val] [(19, 5), (14, 5), (9, 5)] rfl
    ⟨d.isLt, a.isLt, b.isLt, trivial⟩ (by decide)
  have q30_2 : fld W 30 2 = 0 := H 30 2 (by decide)
  rw [(decode_at hW hlt).1 q30_2]
  have q24_6 : fld W 24 6 = 0 := H 24 6 (by decide)
  rw [decodeS, q24_6]
  show decodeAlu W = _
  have q0_9 : fld W 0 9 = 16 := H 0 9 (by decide)
  rw [decodeAlu, q0_9]
  show check false false false (.slt (pick 32 W 19) (pick 32 W 14) (pick 32 W 9)) = _
  have q19_5 : fld W 19 5 = d.val := H 19 5 (by decide)
  have q14_5 : fld W 14 5 = a.val := H 14 5 (by decide)
  have q9_5 : fld W 9 5 = b.val := H 9 5 (by decide)
  rw [pick_of 5 q19_5 rfl, pick_of 5 q14_5 rfl, pick_of 5 q9_5 rfl]
  exact check_ok hw

theorem sltu (d : Fin 32) (a : Fin 32) (b : Fin 32) : Statement (.sltu d a b) := by
  intro _ hw
  obtain ⟨W, hW, hlt, H⟩ := word_of (i := (.sltu d a b)) 0x00000011 [d.val, a.val, b.val] [(19, 5), (14, 5), (9, 5)] rfl
    ⟨d.isLt, a.isLt, b.isLt, trivial⟩ (by decide)
  have q30_2 : fld W 30 2 = 0 := H 30 2 (by decide)
  rw [(decode_at hW hlt).1 q30_2]
  have q24_6 : fld W 24 6 = 0 := H 24 6 (by decide)
  rw [decodeS, q24_6]
  show decodeAlu W = _
  have q0_9 : fld W 0 9 = 17 := H 0 9 (by decide)
  rw [decodeAlu, q0_9]
  show check false false false (.sltu (pick 32 W 19) (pick 32 W 14) (pick 32 W 9)) = _
  have q19_5 : fld W 19 5 = d.val := H 19 5 (by decide)
  have q14_5 : fld W 14 5 = a.val := H 14 5 (by decide)
  have q9_5 : fld W 9 5 = b.val := H 9 5 (by decide)
  rw [pick_of 5 q19_5 rfl, pick_of 5 q14_5 rfl, pick_of 5 q9_5 rfl]
  exact check_ok hw

theorem min (d : Fin 32) (a : Fin 32) (b : Fin 32) : Statement (.min d a b) := by
  intro _ hw
  obtain ⟨W, hW, hlt, H⟩ := word_of (i := (.min d a b)) 0x00000012 [d.val, a.val, b.val] [(19, 5), (14, 5), (9, 5)] rfl
    ⟨d.isLt, a.isLt, b.isLt, trivial⟩ (by decide)
  have q30_2 : fld W 30 2 = 0 := H 30 2 (by decide)
  rw [(decode_at hW hlt).1 q30_2]
  have q24_6 : fld W 24 6 = 0 := H 24 6 (by decide)
  rw [decodeS, q24_6]
  show decodeAlu W = _
  have q0_9 : fld W 0 9 = 18 := H 0 9 (by decide)
  rw [decodeAlu, q0_9]
  show check false false false (.min (pick 32 W 19) (pick 32 W 14) (pick 32 W 9)) = _
  have q19_5 : fld W 19 5 = d.val := H 19 5 (by decide)
  have q14_5 : fld W 14 5 = a.val := H 14 5 (by decide)
  have q9_5 : fld W 9 5 = b.val := H 9 5 (by decide)
  rw [pick_of 5 q19_5 rfl, pick_of 5 q14_5 rfl, pick_of 5 q9_5 rfl]
  exact check_ok hw

theorem max (d : Fin 32) (a : Fin 32) (b : Fin 32) : Statement (.max d a b) := by
  intro _ hw
  obtain ⟨W, hW, hlt, H⟩ := word_of (i := (.max d a b)) 0x00000013 [d.val, a.val, b.val] [(19, 5), (14, 5), (9, 5)] rfl
    ⟨d.isLt, a.isLt, b.isLt, trivial⟩ (by decide)
  have q30_2 : fld W 30 2 = 0 := H 30 2 (by decide)
  rw [(decode_at hW hlt).1 q30_2]
  have q24_6 : fld W 24 6 = 0 := H 24 6 (by decide)
  rw [decodeS, q24_6]
  show decodeAlu W = _
  have q0_9 : fld W 0 9 = 19 := H 0 9 (by decide)
  rw [decodeAlu, q0_9]
  show check false false false (.max (pick 32 W 19) (pick 32 W 14) (pick 32 W 9)) = _
  have q19_5 : fld W 19 5 = d.val := H 19 5 (by decide)
  have q14_5 : fld W 14 5 = a.val := H 14 5 (by decide)
  have q9_5 : fld W 9 5 = b.val := H 9 5 (by decide)
  rw [pick_of 5 q19_5 rfl, pick_of 5 q14_5 rfl, pick_of 5 q9_5 rfl]
  exact check_ok hw

theorem minu (d : Fin 32) (a : Fin 32) (b : Fin 32) : Statement (.minu d a b) := by
  intro _ hw
  obtain ⟨W, hW, hlt, H⟩ := word_of (i := (.minu d a b)) 0x00000014 [d.val, a.val, b.val] [(19, 5), (14, 5), (9, 5)] rfl
    ⟨d.isLt, a.isLt, b.isLt, trivial⟩ (by decide)
  have q30_2 : fld W 30 2 = 0 := H 30 2 (by decide)
  rw [(decode_at hW hlt).1 q30_2]
  have q24_6 : fld W 24 6 = 0 := H 24 6 (by decide)
  rw [decodeS, q24_6]
  show decodeAlu W = _
  have q0_9 : fld W 0 9 = 20 := H 0 9 (by decide)
  rw [decodeAlu, q0_9]
  show check false false false (.minu (pick 32 W 19) (pick 32 W 14) (pick 32 W 9)) = _
  have q19_5 : fld W 19 5 = d.val := H 19 5 (by decide)
  have q14_5 : fld W 14 5 = a.val := H 14 5 (by decide)
  have q9_5 : fld W 9 5 = b.val := H 9 5 (by decide)
  rw [pick_of 5 q19_5 rfl, pick_of 5 q14_5 rfl, pick_of 5 q9_5 rfl]
  exact check_ok hw

theorem maxu (d : Fin 32) (a : Fin 32) (b : Fin 32) : Statement (.maxu d a b) := by
  intro _ hw
  obtain ⟨W, hW, hlt, H⟩ := word_of (i := (.maxu d a b)) 0x00000015 [d.val, a.val, b.val] [(19, 5), (14, 5), (9, 5)] rfl
    ⟨d.isLt, a.isLt, b.isLt, trivial⟩ (by decide)
  have q30_2 : fld W 30 2 = 0 := H 30 2 (by decide)
  rw [(decode_at hW hlt).1 q30_2]
  have q24_6 : fld W 24 6 = 0 := H 24 6 (by decide)
  rw [decodeS, q24_6]
  show decodeAlu W = _
  have q0_9 : fld W 0 9 = 21 := H 0 9 (by decide)
  rw [decodeAlu, q0_9]
  show check false false false (.maxu (pick 32 W 19) (pick 32 W 14) (pick 32 W 9)) = _
  have q19_5 : fld W 19 5 = d.val := H 19 5 (by decide)
  have q14_5 : fld W 14 5 = a.val := H 14 5 (by decide)
  have q9_5 : fld W 9 5 = b.val := H 9 5 (by decide)
  rw [pick_of 5 q19_5 rfl, pick_of 5 q14_5 rfl, pick_of 5 q9_5 rfl]
  exact check_ok hw

theorem clz (d : Fin 32) (a : Fin 32) : Statement (.clz d a) := by
  intro _ hw
  obtain ⟨W, hW, hlt, H⟩ := word_of (i := (.clz d a)) 0x00000016 [d.val, a.val] [(19, 5), (14, 5)] rfl
    ⟨d.isLt, a.isLt, trivial⟩ (by decide)
  have q30_2 : fld W 30 2 = 0 := H 30 2 (by decide)
  rw [(decode_at hW hlt).1 q30_2]
  have q24_6 : fld W 24 6 = 0 := H 24 6 (by decide)
  rw [decodeS, q24_6]
  show decodeAlu W = _
  have q0_9 : fld W 0 9 = 22 := H 0 9 (by decide)
  rw [decodeAlu, q0_9]
  show check false false (fld W 9 5 != 0) (.clz (pick 32 W 19) (pick 32 W 14)) = _
  have q9_5 : fld W 9 5 = 0 := H 9 5 (by decide)
  rw [q9_5]
  have q19_5 : fld W 19 5 = d.val := H 19 5 (by decide)
  have q14_5 : fld W 14 5 = a.val := H 14 5 (by decide)
  rw [pick_of 5 q19_5 rfl, pick_of 5 q14_5 rfl]
  exact check_ok hw

theorem ctz (d : Fin 32) (a : Fin 32) : Statement (.ctz d a) := by
  intro _ hw
  obtain ⟨W, hW, hlt, H⟩ := word_of (i := (.ctz d a)) 0x00000017 [d.val, a.val] [(19, 5), (14, 5)] rfl
    ⟨d.isLt, a.isLt, trivial⟩ (by decide)
  have q30_2 : fld W 30 2 = 0 := H 30 2 (by decide)
  rw [(decode_at hW hlt).1 q30_2]
  have q24_6 : fld W 24 6 = 0 := H 24 6 (by decide)
  rw [decodeS, q24_6]
  show decodeAlu W = _
  have q0_9 : fld W 0 9 = 23 := H 0 9 (by decide)
  rw [decodeAlu, q0_9]
  show check false false (fld W 9 5 != 0) (.ctz (pick 32 W 19) (pick 32 W 14)) = _
  have q9_5 : fld W 9 5 = 0 := H 9 5 (by decide)
  rw [q9_5]
  have q19_5 : fld W 19 5 = d.val := H 19 5 (by decide)
  have q14_5 : fld W 14 5 = a.val := H 14 5 (by decide)
  rw [pick_of 5 q19_5 rfl, pick_of 5 q14_5 rfl]
  exact check_ok hw

theorem popc (d : Fin 32) (a : Fin 32) : Statement (.popc d a) := by
  intro _ hw
  obtain ⟨W, hW, hlt, H⟩ := word_of (i := (.popc d a)) 0x00000018 [d.val, a.val] [(19, 5), (14, 5)] rfl
    ⟨d.isLt, a.isLt, trivial⟩ (by decide)
  have q30_2 : fld W 30 2 = 0 := H 30 2 (by decide)
  rw [(decode_at hW hlt).1 q30_2]
  have q24_6 : fld W 24 6 = 0 := H 24 6 (by decide)
  rw [decodeS, q24_6]
  show decodeAlu W = _
  have q0_9 : fld W 0 9 = 24 := H 0 9 (by decide)
  rw [decodeAlu, q0_9]
  show check false false (fld W 9 5 != 0) (.popc (pick 32 W 19) (pick 32 W 14)) = _
  have q9_5 : fld W 9 5 = 0 := H 9 5 (by decide)
  rw [q9_5]
  have q19_5 : fld W 19 5 = d.val := H 19 5 (by decide)
  have q14_5 : fld W 14 5 = a.val := H 14 5 (by decide)
  rw [pick_of 5 q19_5 rfl, pick_of 5 q14_5 rfl]
  exact check_ok hw

theorem rol (d : Fin 32) (a : Fin 32) (b : Fin 32) : Statement (.rol d a b) := by
  intro _ hw
  obtain ⟨W, hW, hlt, H⟩ := word_of (i := (.rol d a b)) 0x00000019 [d.val, a.val, b.val] [(19, 5), (14, 5), (9, 5)] rfl
    ⟨d.isLt, a.isLt, b.isLt, trivial⟩ (by decide)
  have q30_2 : fld W 30 2 = 0 := H 30 2 (by decide)
  rw [(decode_at hW hlt).1 q30_2]
  have q24_6 : fld W 24 6 = 0 := H 24 6 (by decide)
  rw [decodeS, q24_6]
  show decodeAlu W = _
  have q0_9 : fld W 0 9 = 25 := H 0 9 (by decide)
  rw [decodeAlu, q0_9]
  show check false false false (.rol (pick 32 W 19) (pick 32 W 14) (pick 32 W 9)) = _
  have q19_5 : fld W 19 5 = d.val := H 19 5 (by decide)
  have q14_5 : fld W 14 5 = a.val := H 14 5 (by decide)
  have q9_5 : fld W 9 5 = b.val := H 9 5 (by decide)
  rw [pick_of 5 q19_5 rfl, pick_of 5 q14_5 rfl, pick_of 5 q9_5 rfl]
  exact check_ok hw

theorem ror (d : Fin 32) (a : Fin 32) (b : Fin 32) : Statement (.ror d a b) := by
  intro _ hw
  obtain ⟨W, hW, hlt, H⟩ := word_of (i := (.ror d a b)) 0x0000001A [d.val, a.val, b.val] [(19, 5), (14, 5), (9, 5)] rfl
    ⟨d.isLt, a.isLt, b.isLt, trivial⟩ (by decide)
  have q30_2 : fld W 30 2 = 0 := H 30 2 (by decide)
  rw [(decode_at hW hlt).1 q30_2]
  have q24_6 : fld W 24 6 = 0 := H 24 6 (by decide)
  rw [decodeS, q24_6]
  show decodeAlu W = _
  have q0_9 : fld W 0 9 = 26 := H 0 9 (by decide)
  rw [decodeAlu, q0_9]
  show check false false false (.ror (pick 32 W 19) (pick 32 W 14) (pick 32 W 9)) = _
  have q19_5 : fld W 19 5 = d.val := H 19 5 (by decide)
  have q14_5 : fld W 14 5 = a.val := H 14 5 (by decide)
  have q9_5 : fld W 9 5 = b.val := H 9 5 (by decide)
  rw [pick_of 5 q19_5 rfl, pick_of 5 q14_5 rfl, pick_of 5 q9_5 rfl]
  exact check_ok hw

theorem sext (d : Fin 32) (a : Fin 32) (b : Fin 32) : Statement (.sext d a b) := by
  intro _ hw
  obtain ⟨W, hW, hlt, H⟩ := word_of (i := (.sext d a b)) 0x0000001B [d.val, a.val, b.val] [(19, 5), (14, 5), (9, 5)] rfl
    ⟨d.isLt, a.isLt, b.isLt, trivial⟩ (by decide)
  have q30_2 : fld W 30 2 = 0 := H 30 2 (by decide)
  rw [(decode_at hW hlt).1 q30_2]
  have q24_6 : fld W 24 6 = 0 := H 24 6 (by decide)
  rw [decodeS, q24_6]
  show decodeAlu W = _
  have q0_9 : fld W 0 9 = 27 := H 0 9 (by decide)
  rw [decodeAlu, q0_9]
  show check false false false (.sext (pick 32 W 19) (pick 32 W 14) (pick 32 W 9)) = _
  have q19_5 : fld W 19 5 = d.val := H 19 5 (by decide)
  have q14_5 : fld W 14 5 = a.val := H 14 5 (by decide)
  have q9_5 : fld W 9 5 = b.val := H 9 5 (by decide)
  rw [pick_of 5 q19_5 rfl, pick_of 5 q14_5 rfl, pick_of 5 q9_5 rfl]
  exact check_ok hw

theorem zext (d : Fin 32) (a : Fin 32) (b : Fin 32) : Statement (.zext d a b) := by
  intro _ hw
  obtain ⟨W, hW, hlt, H⟩ := word_of (i := (.zext d a b)) 0x0000001C [d.val, a.val, b.val] [(19, 5), (14, 5), (9, 5)] rfl
    ⟨d.isLt, a.isLt, b.isLt, trivial⟩ (by decide)
  have q30_2 : fld W 30 2 = 0 := H 30 2 (by decide)
  rw [(decode_at hW hlt).1 q30_2]
  have q24_6 : fld W 24 6 = 0 := H 24 6 (by decide)
  rw [decodeS, q24_6]
  show decodeAlu W = _
  have q0_9 : fld W 0 9 = 28 := H 0 9 (by decide)
  rw [decodeAlu, q0_9]
  show check false false false (.zext (pick 32 W 19) (pick 32 W 14) (pick 32 W 9)) = _
  have q19_5 : fld W 19 5 = d.val := H 19 5 (by decide)
  have q14_5 : fld W 14 5 = a.val := H 14 5 (by decide)
  have q9_5 : fld W 9 5 = b.val := H 9 5 (by decide)
  rw [pick_of 5 q19_5 rfl, pick_of 5 q14_5 rfl, pick_of 5 q9_5 rfl]
  exact check_ok hw

theorem bext (d : Fin 32) (a : Fin 32) (b : Fin 32) : Statement (.bext d a b) := by
  intro _ hw
  obtain ⟨W, hW, hlt, H⟩ := word_of (i := (.bext d a b)) 0x0000001D [d.val, a.val, b.val] [(19, 5), (14, 5), (9, 5)] rfl
    ⟨d.isLt, a.isLt, b.isLt, trivial⟩ (by decide)
  have q30_2 : fld W 30 2 = 0 := H 30 2 (by decide)
  rw [(decode_at hW hlt).1 q30_2]
  have q24_6 : fld W 24 6 = 0 := H 24 6 (by decide)
  rw [decodeS, q24_6]
  show decodeAlu W = _
  have q0_9 : fld W 0 9 = 29 := H 0 9 (by decide)
  rw [decodeAlu, q0_9]
  show check false false false (.bext (pick 32 W 19) (pick 32 W 14) (pick 32 W 9)) = _
  have q19_5 : fld W 19 5 = d.val := H 19 5 (by decide)
  have q14_5 : fld W 14 5 = a.val := H 14 5 (by decide)
  have q9_5 : fld W 9 5 = b.val := H 9 5 (by decide)
  rw [pick_of 5 q19_5 rfl, pick_of 5 q14_5 rfl, pick_of 5 q9_5 rfl]
  exact check_ok hw

theorem bins (d : Fin 32) (a : Fin 32) (b : Fin 32) : Statement (.bins d a b) := by
  intro _ hw
  obtain ⟨W, hW, hlt, H⟩ := word_of (i := (.bins d a b)) 0x0000001E [d.val, a.val, b.val] [(19, 5), (14, 5), (9, 5)] rfl
    ⟨d.isLt, a.isLt, b.isLt, trivial⟩ (by decide)
  have q30_2 : fld W 30 2 = 0 := H 30 2 (by decide)
  rw [(decode_at hW hlt).1 q30_2]
  have q24_6 : fld W 24 6 = 0 := H 24 6 (by decide)
  rw [decodeS, q24_6]
  show decodeAlu W = _
  have q0_9 : fld W 0 9 = 30 := H 0 9 (by decide)
  rw [decodeAlu, q0_9]
  show check false false false (.bins (pick 32 W 19) (pick 32 W 14) (pick 32 W 9)) = _
  have q19_5 : fld W 19 5 = d.val := H 19 5 (by decide)
  have q14_5 : fld W 14 5 = a.val := H 14 5 (by decide)
  have q9_5 : fld W 9 5 = b.val := H 9 5 (by decide)
  rw [pick_of 5 q19_5 rfl, pick_of 5 q14_5 rfl, pick_of 5 q9_5 rfl]
  exact check_ok hw

theorem addi (d : Fin 32) (a : Fin 32) (i : BitVec 14) : Statement (.addi d a i) := by
  intro _ hw
  obtain ⟨W, hW, hlt, H⟩ := word_of (i := (.addi d a i)) 0x01000000 [d.val, a.val, i.toNat] [(19, 5), (14, 5), (0, 14)] rfl
    ⟨d.isLt, a.isLt, i.isLt, trivial⟩ (by decide)
  have q30_2 : fld W 30 2 = 0 := H 30 2 (by decide)
  rw [(decode_at hW hlt).1 q30_2]
  have q24_6 : fld W 24 6 = 1 := H 24 6 (by decide)
  rw [decodeS, q24_6]
  show check false false false (.addi (pick 32 W 19) (pick 32 W 14) (.ofNat 14 (W / 2^0))) = _
  have q19_5 : fld W 19 5 = d.val := H 19 5 (by decide)
  have q14_5 : fld W 14 5 = a.val := H 14 5 (by decide)
  have q0_14 : fld W 0 14 = i.toNat := H 0 14 (by decide)
  rw [pick_of 5 q19_5 rfl, pick_of 5 q14_5 rfl, bv_of q0_14]
  exact check_ok hw

theorem andi (d : Fin 32) (a : Fin 32) (i : BitVec 14) : Statement (.andi d a i) := by
  intro _ hw
  obtain ⟨W, hW, hlt, H⟩ := word_of (i := (.andi d a i)) 0x02000000 [d.val, a.val, i.toNat] [(19, 5), (14, 5), (0, 14)] rfl
    ⟨d.isLt, a.isLt, i.isLt, trivial⟩ (by decide)
  have q30_2 : fld W 30 2 = 0 := H 30 2 (by decide)
  rw [(decode_at hW hlt).1 q30_2]
  have q24_6 : fld W 24 6 = 2 := H 24 6 (by decide)
  rw [decodeS, q24_6]
  show check false false false (.andi (pick 32 W 19) (pick 32 W 14) (.ofNat 14 (W / 2^0))) = _
  have q19_5 : fld W 19 5 = d.val := H 19 5 (by decide)
  have q14_5 : fld W 14 5 = a.val := H 14 5 (by decide)
  have q0_14 : fld W 0 14 = i.toNat := H 0 14 (by decide)
  rw [pick_of 5 q19_5 rfl, pick_of 5 q14_5 rfl, bv_of q0_14]
  exact check_ok hw

theorem ori (d : Fin 32) (a : Fin 32) (i : BitVec 14) : Statement (.ori d a i) := by
  intro _ hw
  obtain ⟨W, hW, hlt, H⟩ := word_of (i := (.ori d a i)) 0x03000000 [d.val, a.val, i.toNat] [(19, 5), (14, 5), (0, 14)] rfl
    ⟨d.isLt, a.isLt, i.isLt, trivial⟩ (by decide)
  have q30_2 : fld W 30 2 = 0 := H 30 2 (by decide)
  rw [(decode_at hW hlt).1 q30_2]
  have q24_6 : fld W 24 6 = 3 := H 24 6 (by decide)
  rw [decodeS, q24_6]
  show check false false false (.ori (pick 32 W 19) (pick 32 W 14) (.ofNat 14 (W / 2^0))) = _
  have q19_5 : fld W 19 5 = d.val := H 19 5 (by decide)
  have q14_5 : fld W 14 5 = a.val := H 14 5 (by decide)
  have q0_14 : fld W 0 14 = i.toNat := H 0 14 (by decide)
  rw [pick_of 5 q19_5 rfl, pick_of 5 q14_5 rfl, bv_of q0_14]
  exact check_ok hw

theorem xori (d : Fin 32) (a : Fin 32) (i : BitVec 14) : Statement (.xori d a i) := by
  intro _ hw
  obtain ⟨W, hW, hlt, H⟩ := word_of (i := (.xori d a i)) 0x04000000 [d.val, a.val, i.toNat] [(19, 5), (14, 5), (0, 14)] rfl
    ⟨d.isLt, a.isLt, i.isLt, trivial⟩ (by decide)
  have q30_2 : fld W 30 2 = 0 := H 30 2 (by decide)
  rw [(decode_at hW hlt).1 q30_2]
  have q24_6 : fld W 24 6 = 4 := H 24 6 (by decide)
  rw [decodeS, q24_6]
  show check false false false (.xori (pick 32 W 19) (pick 32 W 14) (.ofNat 14 (W / 2^0))) = _
  have q19_5 : fld W 19 5 = d.val := H 19 5 (by decide)
  have q14_5 : fld W 14 5 = a.val := H 14 5 (by decide)
  have q0_14 : fld W 0 14 = i.toNat := H 0 14 (by decide)
  rw [pick_of 5 q19_5 rfl, pick_of 5 q14_5 rfl, bv_of q0_14]
  exact check_ok hw

theorem slti (d : Fin 32) (a : Fin 32) (i : BitVec 14) : Statement (.slti d a i) := by
  intro _ hw
  obtain ⟨W, hW, hlt, H⟩ := word_of (i := (.slti d a i)) 0x05000000 [d.val, a.val, i.toNat] [(19, 5), (14, 5), (0, 14)] rfl
    ⟨d.isLt, a.isLt, i.isLt, trivial⟩ (by decide)
  have q30_2 : fld W 30 2 = 0 := H 30 2 (by decide)
  rw [(decode_at hW hlt).1 q30_2]
  have q24_6 : fld W 24 6 = 5 := H 24 6 (by decide)
  rw [decodeS, q24_6]
  show check false false false (.slti (pick 32 W 19) (pick 32 W 14) (.ofNat 14 (W / 2^0))) = _
  have q19_5 : fld W 19 5 = d.val := H 19 5 (by decide)
  have q14_5 : fld W 14 5 = a.val := H 14 5 (by decide)
  have q0_14 : fld W 0 14 = i.toNat := H 0 14 (by decide)
  rw [pick_of 5 q19_5 rfl, pick_of 5 q14_5 rfl, bv_of q0_14]
  exact check_ok hw

theorem sltiu (d : Fin 32) (a : Fin 32) (i : BitVec 14) : Statement (.sltiu d a i) := by
  intro _ hw
  obtain ⟨W, hW, hlt, H⟩ := word_of (i := (.sltiu d a i)) 0x06000000 [d.val, a.val, i.toNat] [(19, 5), (14, 5), (0, 14)] rfl
    ⟨d.isLt, a.isLt, i.isLt, trivial⟩ (by decide)
  have q30_2 : fld W 30 2 = 0 := H 30 2 (by decide)
  rw [(decode_at hW hlt).1 q30_2]
  have q24_6 : fld W 24 6 = 6 := H 24 6 (by decide)
  rw [decodeS, q24_6]
  show check false false false (.sltiu (pick 32 W 19) (pick 32 W 14) (.ofNat 14 (W / 2^0))) = _
  have q19_5 : fld W 19 5 = d.val := H 19 5 (by decide)
  have q14_5 : fld W 14 5 = a.val := H 14 5 (by decide)
  have q0_14 : fld W 0 14 = i.toNat := H 0 14 (by decide)
  rw [pick_of 5 q19_5 rfl, pick_of 5 q14_5 rfl, bv_of q0_14]
  exact check_ok hw

theorem muli (d : Fin 32) (a : Fin 32) (i : BitVec 14) : Statement (.muli d a i) := by
  intro _ hw
  obtain ⟨W, hW, hlt, H⟩ := word_of (i := (.muli d a i)) 0x0A000000 [d.val, a.val, i.toNat] [(19, 5), (14, 5), (0, 14)] rfl
    ⟨d.isLt, a.isLt, i.isLt, trivial⟩ (by decide)
  have q30_2 : fld W 30 2 = 0 := H 30 2 (by decide)
  rw [(decode_at hW hlt).1 q30_2]
  have q24_6 : fld W 24 6 = 10 := H 24 6 (by decide)
  rw [decodeS, q24_6]
  show check false false false (.muli (pick 32 W 19) (pick 32 W 14) (.ofNat 14 (W / 2^0))) = _
  have q19_5 : fld W 19 5 = d.val := H 19 5 (by decide)
  have q14_5 : fld W 14 5 = a.val := H 14 5 (by decide)
  have q0_14 : fld W 0 14 = i.toNat := H 0 14 (by decide)
  rw [pick_of 5 q19_5 rfl, pick_of 5 q14_5 rfl, bv_of q0_14]
  exact check_ok hw

theorem slli (d : Fin 32) (a : Fin 32) (n : Fin 64) : Statement (.slli d a n) := by
  intro _ hw
  obtain ⟨W, hW, hlt, H⟩ := word_of (i := (.slli d a n)) 0x07000000 [d.val, a.val, n.val] [(19, 5), (14, 5), (0, 6)] rfl
    ⟨d.isLt, a.isLt, n.isLt, trivial⟩ (by decide)
  have q30_2 : fld W 30 2 = 0 := H 30 2 (by decide)
  rw [(decode_at hW hlt).1 q30_2]
  have q24_6 : fld W 24 6 = 7 := H 24 6 (by decide)
  rw [decodeS, q24_6]
  have q12_2 : fld W 12 2 = 0 := H 12 2 (by decide)
  simp only []
  rw [q12_2]
  show check false false (fld W 6 6 != 0) (.slli (pick 32 W 19) (pick 32 W 14) (pick 64 W 0)) = _
  have q6_6 : fld W 6 6 = 0 := H 6 6 (by decide)
  rw [q6_6]
  have q19_5 : fld W 19 5 = d.val := H 19 5 (by decide)
  have q14_5 : fld W 14 5 = a.val := H 14 5 (by decide)
  have q0_6 : fld W 0 6 = n.val := H 0 6 (by decide)
  rw [pick_of 5 q19_5 rfl, pick_of 5 q14_5 rfl, pick_of 6 q0_6 rfl]
  exact check_ok hw

theorem srli (d : Fin 32) (a : Fin 32) (n : Fin 64) : Statement (.srli d a n) := by
  intro _ hw
  obtain ⟨W, hW, hlt, H⟩ := word_of (i := (.srli d a n)) 0x07001000 [d.val, a.val, n.val] [(19, 5), (14, 5), (0, 6)] rfl
    ⟨d.isLt, a.isLt, n.isLt, trivial⟩ (by decide)
  have q30_2 : fld W 30 2 = 0 := H 30 2 (by decide)
  rw [(decode_at hW hlt).1 q30_2]
  have q24_6 : fld W 24 6 = 7 := H 24 6 (by decide)
  rw [decodeS, q24_6]
  have q12_2 : fld W 12 2 = 1 := H 12 2 (by decide)
  simp only []
  rw [q12_2]
  show check false false (fld W 6 6 != 0) (.srli (pick 32 W 19) (pick 32 W 14) (pick 64 W 0)) = _
  have q6_6 : fld W 6 6 = 0 := H 6 6 (by decide)
  rw [q6_6]
  have q19_5 : fld W 19 5 = d.val := H 19 5 (by decide)
  have q14_5 : fld W 14 5 = a.val := H 14 5 (by decide)
  have q0_6 : fld W 0 6 = n.val := H 0 6 (by decide)
  rw [pick_of 5 q19_5 rfl, pick_of 5 q14_5 rfl, pick_of 6 q0_6 rfl]
  exact check_ok hw

theorem srai (d : Fin 32) (a : Fin 32) (n : Fin 64) : Statement (.srai d a n) := by
  intro _ hw
  obtain ⟨W, hW, hlt, H⟩ := word_of (i := (.srai d a n)) 0x07002000 [d.val, a.val, n.val] [(19, 5), (14, 5), (0, 6)] rfl
    ⟨d.isLt, a.isLt, n.isLt, trivial⟩ (by decide)
  have q30_2 : fld W 30 2 = 0 := H 30 2 (by decide)
  rw [(decode_at hW hlt).1 q30_2]
  have q24_6 : fld W 24 6 = 7 := H 24 6 (by decide)
  rw [decodeS, q24_6]
  have q12_2 : fld W 12 2 = 2 := H 12 2 (by decide)
  simp only []
  rw [q12_2]
  show check false false (fld W 6 6 != 0) (.srai (pick 32 W 19) (pick 32 W 14) (pick 64 W 0)) = _
  have q6_6 : fld W 6 6 = 0 := H 6 6 (by decide)
  rw [q6_6]
  have q19_5 : fld W 19 5 = d.val := H 19 5 (by decide)
  have q14_5 : fld W 14 5 = a.val := H 14 5 (by decide)
  have q0_6 : fld W 0 6 = n.val := H 0 6 (by decide)
  rw [pick_of 5 q19_5 rfl, pick_of 5 q14_5 rfl, pick_of 6 q0_6 rfl]
  exact check_ok hw

theorem roli (d : Fin 32) (a : Fin 32) (n : Fin 64) : Statement (.roli d a n) := by
  intro _ hw
  obtain ⟨W, hW, hlt, H⟩ := word_of (i := (.roli d a n)) 0x07003000 [d.val, a.val, n.val] [(19, 5), (14, 5), (0, 6)] rfl
    ⟨d.isLt, a.isLt, n.isLt, trivial⟩ (by decide)
  have q30_2 : fld W 30 2 = 0 := H 30 2 (by decide)
  rw [(decode_at hW hlt).1 q30_2]
  have q24_6 : fld W 24 6 = 7 := H 24 6 (by decide)
  rw [decodeS, q24_6]
  have q12_2 : fld W 12 2 = 3 := H 12 2 (by decide)
  simp only []
  rw [q12_2]
  show check false false (fld W 6 6 != 0) (.roli (pick 32 W 19) (pick 32 W 14) (pick 64 W 0)) = _
  have q6_6 : fld W 6 6 = 0 := H 6 6 (by decide)
  rw [q6_6]
  have q19_5 : fld W 19 5 = d.val := H 19 5 (by decide)
  have q14_5 : fld W 14 5 = a.val := H 14 5 (by decide)
  have q0_6 : fld W 0 6 = n.val := H 0 6 (by decide)
  rw [pick_of 5 q19_5 rfl, pick_of 5 q14_5 rfl, pick_of 6 q0_6 rfl]
  exact check_ok hw

theorem bexti (d : Fin 32) (a : Fin 32) (l : Fin 64) (p : Fin 64) : Statement (.bexti d a l p) := by
  intro _ hw
  obtain ⟨W, hW, hlt, H⟩ := word_of (i := (.bexti d a l p)) 0x0B000000 [d.val, a.val, l.val, p.val] [(19, 5), (14, 5), (6, 6), (0, 6)] rfl
    ⟨d.isLt, a.isLt, l.isLt, p.isLt, trivial⟩ (by decide)
  have q30_2 : fld W 30 2 = 0 := H 30 2 (by decide)
  rw [(decode_at hW hlt).1 q30_2]
  have q24_6 : fld W 24 6 = 11 := H 24 6 (by decide)
  rw [decodeS, q24_6]
  show check false false (fld W 12 2 != 0) (.bexti (pick 32 W 19) (pick 32 W 14) (pick 64 W 6) (pick 64 W 0)) = _
  have q12_2 : fld W 12 2 = 0 := H 12 2 (by decide)
  rw [q12_2]
  have q19_5 : fld W 19 5 = d.val := H 19 5 (by decide)
  have q14_5 : fld W 14 5 = a.val := H 14 5 (by decide)
  have q6_6 : fld W 6 6 = l.val := H 6 6 (by decide)
  have q0_6 : fld W 0 6 = p.val := H 0 6 (by decide)
  rw [pick_of 5 q19_5 rfl, pick_of 5 q14_5 rfl, pick_of 6 q6_6 rfl, pick_of 6 q0_6 rfl]
  exact check_ok hw

theorem binsi (d : Fin 32) (a : Fin 32) (l : Fin 64) (p : Fin 64) : Statement (.binsi d a l p) := by
  intro _ hw
  obtain ⟨W, hW, hlt, H⟩ := word_of (i := (.binsi d a l p)) 0x0C000000 [d.val, a.val, l.val, p.val] [(19, 5), (14, 5), (6, 6), (0, 6)] rfl
    ⟨d.isLt, a.isLt, l.isLt, p.isLt, trivial⟩ (by decide)
  have q30_2 : fld W 30 2 = 0 := H 30 2 (by decide)
  rw [(decode_at hW hlt).1 q30_2]
  have q24_6 : fld W 24 6 = 12 := H 24 6 (by decide)
  rw [decodeS, q24_6]
  show check false false (fld W 12 2 != 0) (.binsi (pick 32 W 19) (pick 32 W 14) (pick 64 W 6) (pick 64 W 0)) = _
  have q12_2 : fld W 12 2 = 0 := H 12 2 (by decide)
  rw [q12_2]
  have q19_5 : fld W 19 5 = d.val := H 19 5 (by decide)
  have q14_5 : fld W 14 5 = a.val := H 14 5 (by decide)
  have q6_6 : fld W 6 6 = l.val := H 6 6 (by decide)
  have q0_6 : fld W 0 6 = p.val := H 0 6 (by decide)
  rw [pick_of 5 q19_5 rfl, pick_of 5 q14_5 rfl, pick_of 6 q6_6 rfl, pick_of 6 q0_6 rfl]
  exact check_ok hw

theorem lui (d : Fin 32) (i : BitVec 19) : Statement (.lui d i) := by
  intro _ hw
  obtain ⟨W, hW, hlt, H⟩ := word_of (i := (.lui d i)) 0x08000000 [d.val, i.toNat] [(19, 5), (0, 19)] rfl
    ⟨d.isLt, i.isLt, trivial⟩ (by decide)
  have q30_2 : fld W 30 2 = 0 := H 30 2 (by decide)
  rw [(decode_at hW hlt).1 q30_2]
  have q24_6 : fld W 24 6 = 8 := H 24 6 (by decide)
  rw [decodeS, q24_6]
  show check false false false (.lui (pick 32 W 19) (.ofNat 19 (W / 2^0))) = _
  have q19_5 : fld W 19 5 = d.val := H 19 5 (by decide)
  have q0_19 : fld W 0 19 = i.toNat := H 0 19 (by decide)
  rw [pick_of 5 q19_5 rfl, bv_of q0_19]
  exact check_ok hw

theorem auipc (d : Fin 32) (i : BitVec 19) : Statement (.auipc d i) := by
  intro _ hw
  obtain ⟨W, hW, hlt, H⟩ := word_of (i := (.auipc d i)) 0x09000000 [d.val, i.toNat] [(19, 5), (0, 19)] rfl
    ⟨d.isLt, i.isLt, trivial⟩ (by decide)
  have q30_2 : fld W 30 2 = 0 := H 30 2 (by decide)
  rw [(decode_at hW hlt).1 q30_2]
  have q24_6 : fld W 24 6 = 9 := H 24 6 (by decide)
  rw [decodeS, q24_6]
  show check false false false (.auipc (pick 32 W 19) (.ofNat 19 (W / 2^0))) = _
  have q19_5 : fld W 19 5 = d.val := H 19 5 (by decide)
  have q0_19 : fld W 0 19 = i.toNat := H 0 19 (by decide)
  rw [pick_of 5 q19_5 rfl, bv_of q0_19]
  exact check_ok hw

theorem beq (a : Fin 32) (b : Fin 32) (o : BitVec 14) : Statement (.beq a b o) := by
  intro _ hw
  obtain ⟨W, hW, hlt, H⟩ := word_of (i := (.beq a b o)) 0x10000000 [a.val, b.val, o.toNat] [(19, 5), (14, 5), (0, 14)] rfl
    ⟨a.isLt, b.isLt, o.isLt, trivial⟩ (by decide)
  have q30_2 : fld W 30 2 = 0 := H 30 2 (by decide)
  rw [(decode_at hW hlt).1 q30_2]
  have q24_6 : fld W 24 6 = 16 := H 24 6 (by decide)
  rw [decodeS, q24_6]
  show check false false false (.beq (pick 32 W 19) (pick 32 W 14) (.ofNat 14 (W / 2^0))) = _
  have q19_5 : fld W 19 5 = a.val := H 19 5 (by decide)
  have q14_5 : fld W 14 5 = b.val := H 14 5 (by decide)
  have q0_14 : fld W 0 14 = o.toNat := H 0 14 (by decide)
  rw [pick_of 5 q19_5 rfl, pick_of 5 q14_5 rfl, bv_of q0_14]
  exact check_ok hw

theorem bne (a : Fin 32) (b : Fin 32) (o : BitVec 14) : Statement (.bne a b o) := by
  intro _ hw
  obtain ⟨W, hW, hlt, H⟩ := word_of (i := (.bne a b o)) 0x11000000 [a.val, b.val, o.toNat] [(19, 5), (14, 5), (0, 14)] rfl
    ⟨a.isLt, b.isLt, o.isLt, trivial⟩ (by decide)
  have q30_2 : fld W 30 2 = 0 := H 30 2 (by decide)
  rw [(decode_at hW hlt).1 q30_2]
  have q24_6 : fld W 24 6 = 17 := H 24 6 (by decide)
  rw [decodeS, q24_6]
  show check false false false (.bne (pick 32 W 19) (pick 32 W 14) (.ofNat 14 (W / 2^0))) = _
  have q19_5 : fld W 19 5 = a.val := H 19 5 (by decide)
  have q14_5 : fld W 14 5 = b.val := H 14 5 (by decide)
  have q0_14 : fld W 0 14 = o.toNat := H 0 14 (by decide)
  rw [pick_of 5 q19_5 rfl, pick_of 5 q14_5 rfl, bv_of q0_14]
  exact check_ok hw

theorem blt (a : Fin 32) (b : Fin 32) (o : BitVec 14) : Statement (.blt a b o) := by
  intro _ hw
  obtain ⟨W, hW, hlt, H⟩ := word_of (i := (.blt a b o)) 0x12000000 [a.val, b.val, o.toNat] [(19, 5), (14, 5), (0, 14)] rfl
    ⟨a.isLt, b.isLt, o.isLt, trivial⟩ (by decide)
  have q30_2 : fld W 30 2 = 0 := H 30 2 (by decide)
  rw [(decode_at hW hlt).1 q30_2]
  have q24_6 : fld W 24 6 = 18 := H 24 6 (by decide)
  rw [decodeS, q24_6]
  show check false false false (.blt (pick 32 W 19) (pick 32 W 14) (.ofNat 14 (W / 2^0))) = _
  have q19_5 : fld W 19 5 = a.val := H 19 5 (by decide)
  have q14_5 : fld W 14 5 = b.val := H 14 5 (by decide)
  have q0_14 : fld W 0 14 = o.toNat := H 0 14 (by decide)
  rw [pick_of 5 q19_5 rfl, pick_of 5 q14_5 rfl, bv_of q0_14]
  exact check_ok hw

theorem bge (a : Fin 32) (b : Fin 32) (o : BitVec 14) : Statement (.bge a b o) := by
  intro _ hw
  obtain ⟨W, hW, hlt, H⟩ := word_of (i := (.bge a b o)) 0x13000000 [a.val, b.val, o.toNat] [(19, 5), (14, 5), (0, 14)] rfl
    ⟨a.isLt, b.isLt, o.isLt, trivial⟩ (by decide)
  have q30_2 : fld W 30 2 = 0 := H 30 2 (by decide)
  rw [(decode_at hW hlt).1 q30_2]
  have q24_6 : fld W 24 6 = 19 := H 24 6 (by decide)
  rw [decodeS, q24_6]
  show check false false false (.bge (pick 32 W 19) (pick 32 W 14) (.ofNat 14 (W / 2^0))) = _
  have q19_5 : fld W 19 5 = a.val := H 19 5 (by decide)
  have q14_5 : fld W 14 5 = b.val := H 14 5 (by decide)
  have q0_14 : fld W 0 14 = o.toNat := H 0 14 (by decide)
  rw [pick_of 5 q19_5 rfl, pick_of 5 q14_5 rfl, bv_of q0_14]
  exact check_ok hw

theorem bltu (a : Fin 32) (b : Fin 32) (o : BitVec 14) : Statement (.bltu a b o) := by
  intro _ hw
  obtain ⟨W, hW, hlt, H⟩ := word_of (i := (.bltu a b o)) 0x14000000 [a.val, b.val, o.toNat] [(19, 5), (14, 5), (0, 14)] rfl
    ⟨a.isLt, b.isLt, o.isLt, trivial⟩ (by decide)
  have q30_2 : fld W 30 2 = 0 := H 30 2 (by decide)
  rw [(decode_at hW hlt).1 q30_2]
  have q24_6 : fld W 24 6 = 20 := H 24 6 (by decide)
  rw [decodeS, q24_6]
  show check false false false (.bltu (pick 32 W 19) (pick 32 W 14) (.ofNat 14 (W / 2^0))) = _
  have q19_5 : fld W 19 5 = a.val := H 19 5 (by decide)
  have q14_5 : fld W 14 5 = b.val := H 14 5 (by decide)
  have q0_14 : fld W 0 14 = o.toNat := H 0 14 (by decide)
  rw [pick_of 5 q19_5 rfl, pick_of 5 q14_5 rfl, bv_of q0_14]
  exact check_ok hw

theorem bgeu (a : Fin 32) (b : Fin 32) (o : BitVec 14) : Statement (.bgeu a b o) := by
  intro _ hw
  obtain ⟨W, hW, hlt, H⟩ := word_of (i := (.bgeu a b o)) 0x15000000 [a.val, b.val, o.toNat] [(19, 5), (14, 5), (0, 14)] rfl
    ⟨a.isLt, b.isLt, o.isLt, trivial⟩ (by decide)
  have q30_2 : fld W 30 2 = 0 := H 30 2 (by decide)
  rw [(decode_at hW hlt).1 q30_2]
  have q24_6 : fld W 24 6 = 21 := H 24 6 (by decide)
  rw [decodeS, q24_6]
  show check false false false (.bgeu (pick 32 W 19) (pick 32 W 14) (.ofNat 14 (W / 2^0))) = _
  have q19_5 : fld W 19 5 = a.val := H 19 5 (by decide)
  have q14_5 : fld W 14 5 = b.val := H 14 5 (by decide)
  have q0_14 : fld W 0 14 = o.toNat := H 0 14 (by decide)
  rw [pick_of 5 q19_5 rfl, pick_of 5 q14_5 rfl, bv_of q0_14]
  exact check_ok hw

theorem bbs (a : Fin 32) (i : Fin 64) (o : BitVec 13) : Statement (.bbs a i o) := by
  intro _ hw
  obtain ⟨W, hW, hlt, H⟩ := word_of (i := (.bbs a i o)) 0x16000000 [a.val, i.val, o.toNat] [(19, 5), (13, 6), (0, 13)] rfl
    ⟨a.isLt, i.isLt, o.isLt, trivial⟩ (by decide)
  have q30_2 : fld W 30 2 = 0 := H 30 2 (by decide)
  rw [(decode_at hW hlt).1 q30_2]
  have q24_6 : fld W 24 6 = 22 := H 24 6 (by decide)
  rw [decodeS, q24_6]
  show check false false false (.bbs (pick 32 W 19) (pick 64 W 13) (.ofNat 13 (W / 2^0))) = _
  have q19_5 : fld W 19 5 = a.val := H 19 5 (by decide)
  have q13_6 : fld W 13 6 = i.val := H 13 6 (by decide)
  have q0_13 : fld W 0 13 = o.toNat := H 0 13 (by decide)
  rw [pick_of 5 q19_5 rfl, pick_of 6 q13_6 rfl, bv_of q0_13]
  exact check_ok hw

theorem bbc (a : Fin 32) (i : Fin 64) (o : BitVec 13) : Statement (.bbc a i o) := by
  intro _ hw
  obtain ⟨W, hW, hlt, H⟩ := word_of (i := (.bbc a i o)) 0x17000000 [a.val, i.val, o.toNat] [(19, 5), (13, 6), (0, 13)] rfl
    ⟨a.isLt, i.isLt, o.isLt, trivial⟩ (by decide)
  have q30_2 : fld W 30 2 = 0 := H 30 2 (by decide)
  rw [(decode_at hW hlt).1 q30_2]
  have q24_6 : fld W 24 6 = 23 := H 24 6 (by decide)
  rw [decodeS, q24_6]
  show check false false false (.bbc (pick 32 W 19) (pick 64 W 13) (.ofNat 13 (W / 2^0))) = _
  have q19_5 : fld W 19 5 = a.val := H 19 5 (by decide)
  have q13_6 : fld W 13 6 = i.val := H 13 6 (by decide)
  have q0_13 : fld W 0 13 = o.toNat := H 0 13 (by decide)
  rw [pick_of 5 q19_5 rfl, pick_of 6 q13_6 rfl, bv_of q0_13]
  exact check_ok hw

theorem j (o : BitVec 24) : Statement (.j o) := by
  intro _ hw
  obtain ⟨W, hW, hlt, H⟩ := word_of (i := (.j o)) 0x18000000 [o.toNat] [(0, 24)] rfl
    ⟨o.isLt, trivial⟩ (by decide)
  have q30_2 : fld W 30 2 = 0 := H 30 2 (by decide)
  rw [(decode_at hW hlt).1 q30_2]
  have q24_6 : fld W 24 6 = 24 := H 24 6 (by decide)
  rw [decodeS, q24_6]
  show check false false false (.j (.ofNat 24 (W / 2^0))) = _
  have q0_24 : fld W 0 24 = o.toNat := H 0 24 (by decide)
  rw [bv_of q0_24]
  exact check_ok hw

theorem jal (o : BitVec 24) : Statement (.jal o) := by
  intro _ hw
  obtain ⟨W, hW, hlt, H⟩ := word_of (i := (.jal o)) 0x19000000 [o.toNat] [(0, 24)] rfl
    ⟨o.isLt, trivial⟩ (by decide)
  have q30_2 : fld W 30 2 = 0 := H 30 2 (by decide)
  rw [(decode_at hW hlt).1 q30_2]
  have q24_6 : fld W 24 6 = 25 := H 24 6 (by decide)
  rw [decodeS, q24_6]
  show check false false false (.jal (.ofNat 24 (W / 2^0))) = _
  have q0_24 : fld W 0 24 = o.toNat := H 0 24 (by decide)
  rw [bv_of q0_24]
  exact check_ok hw

theorem jalr (d : Fin 32) (a : Fin 32) (i : BitVec 14) : Statement (.jalr d a i) := by
  intro _ hw
  obtain ⟨W, hW, hlt, H⟩ := word_of (i := (.jalr d a i)) 0x1A000000 [d.val, a.val, i.toNat] [(19, 5), (14, 5), (0, 14)] rfl
    ⟨d.isLt, a.isLt, i.isLt, trivial⟩ (by decide)
  have q30_2 : fld W 30 2 = 0 := H 30 2 (by decide)
  rw [(decode_at hW hlt).1 q30_2]
  have q24_6 : fld W 24 6 = 26 := H 24 6 (by decide)
  rw [decodeS, q24_6]
  show check false false false (.jalr (pick 32 W 19) (pick 32 W 14) (.ofNat 14 (W / 2^0))) = _
  have q19_5 : fld W 19 5 = d.val := H 19 5 (by decide)
  have q14_5 : fld W 14 5 = a.val := H 14 5 (by decide)
  have q0_14 : fld W 0 14 = i.toNat := H 0 14 (by decide)
  rw [pick_of 5 q19_5 rfl, pick_of 5 q14_5 rfl, bv_of q0_14]
  exact check_ok hw

theorem brloop (a : Fin 32) (o : BitVec 14) : Statement (.brloop a o) := by
  intro _ hw
  obtain ⟨W, hW, hlt, H⟩ := word_of (i := (.brloop a o)) 0x1B000000 [a.val, o.toNat] [(19, 5), (0, 14)] rfl
    ⟨a.isLt, o.isLt, trivial⟩ (by decide)
  have q30_2 : fld W 30 2 = 0 := H 30 2 (by decide)
  rw [(decode_at hW hlt).1 q30_2]
  have q24_6 : fld W 24 6 = 27 := H 24 6 (by decide)
  rw [decodeS, q24_6]
  show check false false (fld W 14 5 != 0) (.brloop (pick 32 W 19) (.ofNat 14 (W / 2^0))) = _
  have q14_5 : fld W 14 5 = 0 := H 14 5 (by decide)
  rw [q14_5]
  have q19_5 : fld W 19 5 = a.val := H 19 5 (by decide)
  have q0_14 : fld W 0 14 = o.toNat := H 0 14 (by decide)
  rw [pick_of 5 q19_5 rfl, bv_of q0_14]
  exact check_ok hw

theorem fadd (d : Fin 32) (a : Fin 32) (b : Fin 32) : Statement (.fadd d a b) := by
  intro _ hw
  obtain ⟨W, hW, hlt, H⟩ := word_of (i := (.fadd d a b)) 0x0F000001 [d.val, a.val, b.val] [(19, 5), (14, 5), (9, 5)] rfl
    ⟨d.isLt, a.isLt, b.isLt, trivial⟩ (by decide)
  have q30_2 : fld W 30 2 = 0 := H 30 2 (by decide)
  rw [(decode_at hW hlt).1 q30_2]
  have q24_6 : fld W 24 6 = 15 := H 24 6 (by decide)
  rw [decodeS, q24_6]
  show decodeFp W = _
  have q0_5 : fld W 0 5 = 1 := H 0 5 (by decide)
  rw [decodeFp, q0_5]
  show check (fld W 5 4 != 0) false false (.fadd (pick 32 W 19) (pick 32 W 14) (pick 32 W 9)) = _
  have q5_4 : fld W 5 4 = 0 := H 5 4 (by decide)
  rw [q5_4]
  have q19_5 : fld W 19 5 = d.val := H 19 5 (by decide)
  have q14_5 : fld W 14 5 = a.val := H 14 5 (by decide)
  have q9_5 : fld W 9 5 = b.val := H 9 5 (by decide)
  rw [pick_of 5 q19_5 rfl, pick_of 5 q14_5 rfl, pick_of 5 q9_5 rfl]
  exact check_ok hw

theorem fsub (d : Fin 32) (a : Fin 32) (b : Fin 32) : Statement (.fsub d a b) := by
  intro _ hw
  obtain ⟨W, hW, hlt, H⟩ := word_of (i := (.fsub d a b)) 0x0F000002 [d.val, a.val, b.val] [(19, 5), (14, 5), (9, 5)] rfl
    ⟨d.isLt, a.isLt, b.isLt, trivial⟩ (by decide)
  have q30_2 : fld W 30 2 = 0 := H 30 2 (by decide)
  rw [(decode_at hW hlt).1 q30_2]
  have q24_6 : fld W 24 6 = 15 := H 24 6 (by decide)
  rw [decodeS, q24_6]
  show decodeFp W = _
  have q0_5 : fld W 0 5 = 2 := H 0 5 (by decide)
  rw [decodeFp, q0_5]
  show check (fld W 5 4 != 0) false false (.fsub (pick 32 W 19) (pick 32 W 14) (pick 32 W 9)) = _
  have q5_4 : fld W 5 4 = 0 := H 5 4 (by decide)
  rw [q5_4]
  have q19_5 : fld W 19 5 = d.val := H 19 5 (by decide)
  have q14_5 : fld W 14 5 = a.val := H 14 5 (by decide)
  have q9_5 : fld W 9 5 = b.val := H 9 5 (by decide)
  rw [pick_of 5 q19_5 rfl, pick_of 5 q14_5 rfl, pick_of 5 q9_5 rfl]
  exact check_ok hw

theorem fmul (d : Fin 32) (a : Fin 32) (b : Fin 32) : Statement (.fmul d a b) := by
  intro _ hw
  obtain ⟨W, hW, hlt, H⟩ := word_of (i := (.fmul d a b)) 0x0F000003 [d.val, a.val, b.val] [(19, 5), (14, 5), (9, 5)] rfl
    ⟨d.isLt, a.isLt, b.isLt, trivial⟩ (by decide)
  have q30_2 : fld W 30 2 = 0 := H 30 2 (by decide)
  rw [(decode_at hW hlt).1 q30_2]
  have q24_6 : fld W 24 6 = 15 := H 24 6 (by decide)
  rw [decodeS, q24_6]
  show decodeFp W = _
  have q0_5 : fld W 0 5 = 3 := H 0 5 (by decide)
  rw [decodeFp, q0_5]
  show check (fld W 5 4 != 0) false false (.fmul (pick 32 W 19) (pick 32 W 14) (pick 32 W 9)) = _
  have q5_4 : fld W 5 4 = 0 := H 5 4 (by decide)
  rw [q5_4]
  have q19_5 : fld W 19 5 = d.val := H 19 5 (by decide)
  have q14_5 : fld W 14 5 = a.val := H 14 5 (by decide)
  have q9_5 : fld W 9 5 = b.val := H 9 5 (by decide)
  rw [pick_of 5 q19_5 rfl, pick_of 5 q14_5 rfl, pick_of 5 q9_5 rfl]
  exact check_ok hw

theorem ffma (d : Fin 32) (a : Fin 32) (b : Fin 32) : Statement (.ffma d a b) := by
  intro _ hw
  obtain ⟨W, hW, hlt, H⟩ := word_of (i := (.ffma d a b)) 0x0F000004 [d.val, a.val, b.val] [(19, 5), (14, 5), (9, 5)] rfl
    ⟨d.isLt, a.isLt, b.isLt, trivial⟩ (by decide)
  have q30_2 : fld W 30 2 = 0 := H 30 2 (by decide)
  rw [(decode_at hW hlt).1 q30_2]
  have q24_6 : fld W 24 6 = 15 := H 24 6 (by decide)
  rw [decodeS, q24_6]
  show decodeFp W = _
  have q0_5 : fld W 0 5 = 4 := H 0 5 (by decide)
  rw [decodeFp, q0_5]
  show check (fld W 5 4 != 0) false false (.ffma (pick 32 W 19) (pick 32 W 14) (pick 32 W 9)) = _
  have q5_4 : fld W 5 4 = 0 := H 5 4 (by decide)
  rw [q5_4]
  have q19_5 : fld W 19 5 = d.val := H 19 5 (by decide)
  have q14_5 : fld W 14 5 = a.val := H 14 5 (by decide)
  have q9_5 : fld W 9 5 = b.val := H 9 5 (by decide)
  rw [pick_of 5 q19_5 rfl, pick_of 5 q14_5 rfl, pick_of 5 q9_5 rfl]
  exact check_ok hw

theorem fmin (d : Fin 32) (a : Fin 32) (b : Fin 32) : Statement (.fmin d a b) := by
  intro _ hw
  obtain ⟨W, hW, hlt, H⟩ := word_of (i := (.fmin d a b)) 0x0F000005 [d.val, a.val, b.val] [(19, 5), (14, 5), (9, 5)] rfl
    ⟨d.isLt, a.isLt, b.isLt, trivial⟩ (by decide)
  have q30_2 : fld W 30 2 = 0 := H 30 2 (by decide)
  rw [(decode_at hW hlt).1 q30_2]
  have q24_6 : fld W 24 6 = 15 := H 24 6 (by decide)
  rw [decodeS, q24_6]
  show decodeFp W = _
  have q0_5 : fld W 0 5 = 5 := H 0 5 (by decide)
  rw [decodeFp, q0_5]
  show check (fld W 5 4 != 0) false false (.fmin (pick 32 W 19) (pick 32 W 14) (pick 32 W 9)) = _
  have q5_4 : fld W 5 4 = 0 := H 5 4 (by decide)
  rw [q5_4]
  have q19_5 : fld W 19 5 = d.val := H 19 5 (by decide)
  have q14_5 : fld W 14 5 = a.val := H 14 5 (by decide)
  have q9_5 : fld W 9 5 = b.val := H 9 5 (by decide)
  rw [pick_of 5 q19_5 rfl, pick_of 5 q14_5 rfl, pick_of 5 q9_5 rfl]
  exact check_ok hw

theorem fmax (d : Fin 32) (a : Fin 32) (b : Fin 32) : Statement (.fmax d a b) := by
  intro _ hw
  obtain ⟨W, hW, hlt, H⟩ := word_of (i := (.fmax d a b)) 0x0F000006 [d.val, a.val, b.val] [(19, 5), (14, 5), (9, 5)] rfl
    ⟨d.isLt, a.isLt, b.isLt, trivial⟩ (by decide)
  have q30_2 : fld W 30 2 = 0 := H 30 2 (by decide)
  rw [(decode_at hW hlt).1 q30_2]
  have q24_6 : fld W 24 6 = 15 := H 24 6 (by decide)
  rw [decodeS, q24_6]
  show decodeFp W = _
  have q0_5 : fld W 0 5 = 6 := H 0 5 (by decide)
  rw [decodeFp, q0_5]
  show check (fld W 5 4 != 0) false false (.fmax (pick 32 W 19) (pick 32 W 14) (pick 32 W 9)) = _
  have q5_4 : fld W 5 4 = 0 := H 5 4 (by decide)
  rw [q5_4]
  have q19_5 : fld W 19 5 = d.val := H 19 5 (by decide)
  have q14_5 : fld W 14 5 = a.val := H 14 5 (by decide)
  have q9_5 : fld W 9 5 = b.val := H 9 5 (by decide)
  rw [pick_of 5 q19_5 rfl, pick_of 5 q14_5 rfl, pick_of 5 q9_5 rfl]
  exact check_ok hw

theorem fcmp (d : Fin 32) (a : Fin 32) (b : Fin 32) (p : Fin 8) : Statement (.fcmp d a b p) := by
  intro _ hw
  obtain ⟨W, hW, hlt, H⟩ := word_of (i := (.fcmp d a b p)) 0x0F000007 [d.val, a.val, b.val, p.val] [(19, 5), (14, 5), (9, 5), (6, 3)] rfl
    ⟨d.isLt, a.isLt, b.isLt, p.isLt, trivial⟩ (by decide)
  have q30_2 : fld W 30 2 = 0 := H 30 2 (by decide)
  rw [(decode_at hW hlt).1 q30_2]
  have q24_6 : fld W 24 6 = 15 := H 24 6 (by decide)
  rw [decodeS, q24_6]
  show decodeFp W = _
  have q0_5 : fld W 0 5 = 7 := H 0 5 (by decide)
  rw [decodeFp, q0_5]
  show check false false (fld W 5 1 != 0) (.fcmp (pick 32 W 19) (pick 32 W 14) (pick 32 W 9) (pick 8 W 6)) = _
  have q5_1 : fld W 5 1 = 0 := H 5 1 (by decide)
  rw [q5_1]
  have q19_5 : fld W 19 5 = d.val := H 19 5 (by decide)
  have q14_5 : fld W 14 5 = a.val := H 14 5 (by decide)
  have q9_5 : fld W 9 5 = b.val := H 9 5 (by decide)
  have q6_3 : fld W 6 3 = p.val := H 6 3 (by decide)
  rw [pick_of 5 q19_5 rfl, pick_of 5 q14_5 rfl, pick_of 5 q9_5 rfl, pick_of 3 q6_3 rfl]
  exact check_ok hw

theorem fcvt (d : Fin 32) (a : Fin 32) (k : Fin 16) : Statement (.fcvt d a k) := by
  intro _ hw
  obtain ⟨W, hW, hlt, H⟩ := word_of (i := (.fcvt d a k)) 0x0F000008 [d.val, a.val, k.val] [(19, 5), (14, 5), (5, 4)] rfl
    ⟨d.isLt, a.isLt, k.isLt, trivial⟩ (by decide)
  have q30_2 : fld W 30 2 = 0 := H 30 2 (by decide)
  rw [(decode_at hW hlt).1 q30_2]
  have q24_6 : fld W 24 6 = 15 := H 24 6 (by decide)
  rw [decodeS, q24_6]
  show decodeFp W = _
  have q0_5 : fld W 0 5 = 8 := H 0 5 (by decide)
  rw [decodeFp, q0_5]
  show check false false (fld W 9 5 != 0) (.fcvt (pick 32 W 19) (pick 32 W 14) (pick 16 W 5)) = _
  have q9_5 : fld W 9 5 = 0 := H 9 5 (by decide)
  rw [q9_5]
  have q19_5 : fld W 19 5 = d.val := H 19 5 (by decide)
  have q14_5 : fld W 14 5 = a.val := H 14 5 (by decide)
  have q5_4 : fld W 5 4 = k.val := H 5 4 (by decide)
  rw [pick_of 5 q19_5 rfl, pick_of 5 q14_5 rfl, pick_of 4 q5_4 rfl]
  exact check_ok hw

theorem ld (d : Fin 32) (a : Fin 32) (s : Fin 4) (z : Bool) (i : BitVec 11) : Statement (.ld d a s z i) := by
  intro _ hw
  obtain ⟨W, hW, hlt, H⟩ := word_of (i := (.ld d a s z i)) 0x20000000 [d.val, a.val, s.val, z.toNat, i.toNat] [(19, 5), (14, 5), (12, 2), (11, 1), (0, 11)] rfl
    ⟨d.isLt, a.isLt, s.isLt, Bool.toNat_lt z, i.isLt, trivial⟩ (by decide)
  have q30_2 : fld W 30 2 = 0 := H 30 2 (by decide)
  rw [(decode_at hW hlt).1 q30_2]
  have q24_6 : fld W 24 6 = 32 := H 24 6 (by decide)
  rw [decodeS, q24_6]
  show check false false false (.ld (pick 32 W 19) (pick 32 W 14) (pick 4 W 12) (bit W 11) (.ofNat 11 (W / 2^0))) = _
  have q19_5 : fld W 19 5 = d.val := H 19 5 (by decide)
  have q14_5 : fld W 14 5 = a.val := H 14 5 (by decide)
  have q12_2 : fld W 12 2 = s.val := H 12 2 (by decide)
  have q11_1 : fld W 11 1 = z.toNat := H 11 1 (by decide)
  have q0_11 : fld W 0 11 = i.toNat := H 0 11 (by decide)
  rw [pick_of 5 q19_5 rfl, pick_of 5 q14_5 rfl, pick_of 2 q12_2 rfl, bit_of q11_1, bv_of q0_11]
  exact check_ok hw

theorem st (t : Fin 32) (a : Fin 32) (s : Fin 4) (i : BitVec 11) : Statement (.st t a s i) := by
  intro _ hw
  obtain ⟨W, hW, hlt, H⟩ := word_of (i := (.st t a s i)) 0x21000000 [t.val, a.val, s.val, i.toNat] [(19, 5), (14, 5), (12, 2), (0, 11)] rfl
    ⟨t.isLt, a.isLt, s.isLt, i.isLt, trivial⟩ (by decide)
  have q30_2 : fld W 30 2 = 0 := H 30 2 (by decide)
  rw [(decode_at hW hlt).1 q30_2]
  have q24_6 : fld W 24 6 = 33 := H 24 6 (by decide)
  rw [decodeS, q24_6]
  show check false false (fld W 11 1 != 0) (.st (pick 32 W 19) (pick 32 W 14) (pick 4 W 12) (.ofNat 11 (W / 2^0))) = _
  have q11_1 : fld W 11 1 = 0 := H 11 1 (by decide)
  rw [q11_1]
  have q19_5 : fld W 19 5 = t.val := H 19 5 (by decide)
  have q14_5 : fld W 14 5 = a.val := H 14 5 (by decide)
  have q12_2 : fld W 12 2 = s.val := H 12 2 (by decide)
  have q0_11 : fld W 0 11 = i.toNat := H 0 11 (by decide)
  rw [pick_of 5 q19_5 rfl, pick_of 5 q14_5 rfl, pick_of 2 q12_2 rfl, bv_of q0_11]
  exact check_ok hw

theorem ldS (d : Fin 32) (a : Fin 32) (s : Fin 4) (z : Bool) (o : Fin 4) (i : BitVec 9) : Statement (.ldS d a s z o i) := by
  intro _ hw
  obtain ⟨W, hW, hlt, H⟩ := word_of (i := (.ldS d a s z o i)) 0x22000000 [d.val, a.val, s.val, z.toNat, o.val, i.toNat] [(19, 5), (14, 5), (12, 2), (11, 1), (9, 2), (0, 9)] rfl
    ⟨d.isLt, a.isLt, s.isLt, Bool.toNat_lt z, o.isLt, i.isLt, trivial⟩ (by decide)
  have q30_2 : fld W 30 2 = 0 := H 30 2 (by decide)
  rw [(decode_at hW hlt).1 q30_2]
  have q24_6 : fld W 24 6 = 34 := H 24 6 (by decide)
  rw [decodeS, q24_6]
  show check false false false (.ldS (pick 32 W 19) (pick 32 W 14) (pick 4 W 12) (bit W 11) (pick 4 W 9) (.ofNat 9 (W / 2^0))) = _
  have q19_5 : fld W 19 5 = d.val := H 19 5 (by decide)
  have q14_5 : fld W 14 5 = a.val := H 14 5 (by decide)
  have q12_2 : fld W 12 2 = s.val := H 12 2 (by decide)
  have q11_1 : fld W 11 1 = z.toNat := H 11 1 (by decide)
  have q9_2 : fld W 9 2 = o.val := H 9 2 (by decide)
  have q0_9 : fld W 0 9 = i.toNat := H 0 9 (by decide)
  rw [pick_of 5 q19_5 rfl, pick_of 5 q14_5 rfl, pick_of 2 q12_2 rfl, bit_of q11_1, pick_of 2 q9_2 rfl, bv_of q0_9]
  exact check_ok hw

theorem stS (t : Fin 32) (a : Fin 32) (s : Fin 4) (o : Fin 4) (i : BitVec 9) : Statement (.stS t a s o i) := by
  intro _ hw
  obtain ⟨W, hW, hlt, H⟩ := word_of (i := (.stS t a s o i)) 0x23000000 [t.val, a.val, s.val, o.val, i.toNat] [(19, 5), (14, 5), (12, 2), (9, 2), (0, 9)] rfl
    ⟨t.isLt, a.isLt, s.isLt, o.isLt, i.isLt, trivial⟩ (by decide)
  have q30_2 : fld W 30 2 = 0 := H 30 2 (by decide)
  rw [(decode_at hW hlt).1 q30_2]
  have q24_6 : fld W 24 6 = 35 := H 24 6 (by decide)
  rw [decodeS, q24_6]
  show check false false (fld W 11 1 != 0) (.stS (pick 32 W 19) (pick 32 W 14) (pick 4 W 12) (pick 4 W 9) (.ofNat 9 (W / 2^0))) = _
  have q11_1 : fld W 11 1 = 0 := H 11 1 (by decide)
  rw [q11_1]
  have q19_5 : fld W 19 5 = t.val := H 19 5 (by decide)
  have q14_5 : fld W 14 5 = a.val := H 14 5 (by decide)
  have q12_2 : fld W 12 2 = s.val := H 12 2 (by decide)
  have q9_2 : fld W 9 2 = o.val := H 9 2 (by decide)
  have q0_9 : fld W 0 9 = i.toNat := H 0 9 (by decide)
  rw [pick_of 5 q19_5 rfl, pick_of 5 q14_5 rfl, pick_of 2 q12_2 rfl, pick_of 2 q9_2 rfl, bv_of q0_9]
  exact check_ok hw

theorem atom (d : Fin 32) (a : Fin 32) (b : Fin 32) (s : Fin 8) (o : Fin 4) (p : Fin 16) : Statement (.atom d a b s o p) := by
  intro _ hw
  obtain ⟨W, hW, hlt, H⟩ := word_of (i := (.atom d a b s o p)) 0x24000000 [d.val, a.val, b.val, s.val, o.val, p.val] [(19, 5), (14, 5), (9, 5), (6, 3), (4, 2), (0, 4)] rfl
    ⟨d.isLt, a.isLt, b.isLt, s.isLt, o.isLt, p.isLt, trivial⟩ (by decide)
  have q30_2 : fld W 30 2 = 0 := H 30 2 (by decide)
  rw [(decode_at hW hlt).1 q30_2]
  have q24_6 : fld W 24 6 = 36 := H 24 6 (by decide)
  rw [decodeS, q24_6]
  show check false false false (.atom (pick 32 W 19) (pick 32 W 14) (pick 32 W 9) (pick 8 W 6) (pick 4 W 4) (pick 16 W 0)) = _
  have q19_5 : fld W 19 5 = d.val := H 19 5 (by decide)
  have q14_5 : fld W 14 5 = a.val := H 14 5 (by decide)
  have q9_5 : fld W 9 5 = b.val := H 9 5 (by decide)
  have q6_3 : fld W 6 3 = s.val := H 6 3 (by decide)
  have q4_2 : fld W 4 2 = o.val := H 4 2 (by decide)
  have q0_4 : fld W 0 4 = p.val := H 0 4 (by decide)
  rw [pick_of 5 q19_5 rfl, pick_of 5 q14_5 rfl, pick_of 5 q9_5 rfl, pick_of 3 q6_3 rfl, pick_of 2 q4_2 rfl, pick_of 4 q0_4 rfl]
  exact check_ok hw

theorem cas (d : Fin 32) (a : Fin 32) (b : Fin 32) (s : Fin 8) (o : Fin 4) : Statement (.cas d a b s o) := by
  intro _ hw
  obtain ⟨W, hW, hlt, H⟩ := word_of (i := (.cas d a b s o)) 0x25000000 [d.val, a.val, b.val, s.val, o.val] [(19, 5), (14, 5), (9, 5), (6, 3), (4, 2)] rfl
    ⟨d.isLt, a.isLt, b.isLt, s.isLt, o.isLt, trivial⟩ (by decide)
  have q30_2 : fld W 30 2 = 0 := H 30 2 (by decide)
  rw [(decode_at hW hlt).1 q30_2]
  have q24_6 : fld W 24 6 = 37 := H 24 6 (by decide)
  rw [decodeS, q24_6]
  show check false false (fld W 0 4 != 0) (.cas (pick 32 W 19) (pick 32 W 14) (pick 32 W 9) (pick 8 W 6) (pick 4 W 4)) = _
  have q0_4 : fld W 0 4 = 0 := H 0 4 (by decide)
  rw [q0_4]
  have q19_5 : fld W 19 5 = d.val := H 19 5 (by decide)
  have q14_5 : fld W 14 5 = a.val := H 14 5 (by decide)
  have q9_5 : fld W 9 5 = b.val := H 9 5 (by decide)
  have q6_3 : fld W 6 3 = s.val := H 6 3 (by decide)
  have q4_2 : fld W 4 2 = o.val := H 4 2 (by decide)
  rw [pick_of 5 q19_5 rfl, pick_of 5 q14_5 rfl, pick_of 5 q9_5 rfl, pick_of 3 q6_3 rfl, pick_of 2 q4_2 rfl]
  exact check_ok hw

theorem mark : Statement .mark := by
  intro _ hw
  obtain ⟨W, hW, hlt, H⟩ := word_of (i := .mark) 0x26000000 [] [] rfl
    trivial (by decide)
  have q30_2 : fld W 30 2 = 0 := H 30 2 (by decide)
  rw [(decode_at hW hlt).1 q30_2]
  have q24_6 : fld W 24 6 = 38 := H 24 6 (by decide)
  rw [decodeS, q24_6]
  have q4_2 : fld W 4 2 = 0 := H 4 2 (by decide)
  simp only []
  rw [q4_2]
  show check (fld W 6 3 != 0) false (fld W 0 4 != 0 || fld W 9 15 != 0) .mark = _
  have q6_3 : fld W 6 3 = 0 := H 6 3 (by decide)
  have q0_4 : fld W 0 4 = 0 := H 0 4 (by decide)
  have q9_15 : fld W 9 15 = 0 := H 9 15 (by decide)
  rw [q6_3, q0_4, q9_15]
  exact check_ok hw

theorem fenceRel (s : Fin 8) : Statement (.fenceRel s) := by
  intro _ hw
  obtain ⟨W, hW, hlt, H⟩ := word_of (i := (.fenceRel s)) 0x26000010 [s.val] [(6, 3)] rfl
    ⟨s.isLt, trivial⟩ (by decide)
  have q30_2 : fld W 30 2 = 0 := H 30 2 (by decide)
  rw [(decode_at hW hlt).1 q30_2]
  have q24_6 : fld W 24 6 = 38 := H 24 6 (by decide)
  rw [decodeS, q24_6]
  have q4_2 : fld W 4 2 = 1 := H 4 2 (by decide)
  simp only []
  rw [q4_2]
  show check false false (fld W 0 4 != 0 || fld W 9 15 != 0) (.fenceRel (pick 8 W 6)) = _
  have q0_4 : fld W 0 4 = 0 := H 0 4 (by decide)
  have q9_15 : fld W 9 15 = 0 := H 9 15 (by decide)
  rw [q0_4, q9_15]
  have q6_3 : fld W 6 3 = s.val := H 6 3 (by decide)
  rw [pick_of 3 q6_3 rfl]
  exact check_ok hw

theorem fenceAcq (s : Fin 8) : Statement (.fenceAcq s) := by
  intro _ hw
  obtain ⟨W, hW, hlt, H⟩ := word_of (i := (.fenceAcq s)) 0x26000020 [s.val] [(6, 3)] rfl
    ⟨s.isLt, trivial⟩ (by decide)
  have q30_2 : fld W 30 2 = 0 := H 30 2 (by decide)
  rw [(decode_at hW hlt).1 q30_2]
  have q24_6 : fld W 24 6 = 38 := H 24 6 (by decide)
  rw [decodeS, q24_6]
  have q4_2 : fld W 4 2 = 2 := H 4 2 (by decide)
  simp only []
  rw [q4_2]
  show check false false (fld W 0 4 != 0 || fld W 9 15 != 0) (.fenceAcq (pick 8 W 6)) = _
  have q0_4 : fld W 0 4 = 0 := H 0 4 (by decide)
  have q9_15 : fld W 9 15 = 0 := H 9 15 (by decide)
  rw [q0_4, q9_15]
  have q6_3 : fld W 6 3 = s.val := H 6 3 (by decide)
  rw [pick_of 3 q6_3 rfl]
  exact check_ok hw

theorem fenceAr (s : Fin 8) : Statement (.fenceAr s) := by
  intro _ hw
  obtain ⟨W, hW, hlt, H⟩ := word_of (i := (.fenceAr s)) 0x26000030 [s.val] [(6, 3)] rfl
    ⟨s.isLt, trivial⟩ (by decide)
  have q30_2 : fld W 30 2 = 0 := H 30 2 (by decide)
  rw [(decode_at hW hlt).1 q30_2]
  have q24_6 : fld W 24 6 = 38 := H 24 6 (by decide)
  rw [decodeS, q24_6]
  have q4_2 : fld W 4 2 = 3 := H 4 2 (by decide)
  simp only []
  rw [q4_2]
  show check false false (fld W 0 4 != 0 || fld W 9 15 != 0) (.fenceAr (pick 8 W 6)) = _
  have q0_4 : fld W 0 4 = 0 := H 0 4 (by decide)
  have q9_15 : fld W 9 15 = 0 := H 9 15 (by decide)
  rw [q0_4, q9_15]
  have q6_3 : fld W 6 3 = s.val := H 6 3 (by decide)
  rw [pick_of 3 q6_3 rfl]
  exact check_ok hw

theorem lblk (d : Fin 32) (a : Fin 32) (h : Fin 16) (n : Fin 64) : Statement (.lblk d a h n) := by
  intro _ hw
  obtain ⟨W, hW, hlt, H⟩ := word_of (i := (.lblk d a h n)) 0x27000000 [d.val, a.val, h.val, n.val] [(19, 5), (14, 5), (10, 4), (4, 6)] rfl
    ⟨d.isLt, a.isLt, h.isLt, n.isLt, trivial⟩ (by decide)
  have q30_2 : fld W 30 2 = 0 := H 30 2 (by decide)
  rw [(decode_at hW hlt).1 q30_2]
  have q24_6 : fld W 24 6 = 39 := H 24 6 (by decide)
  rw [decodeS, q24_6]
  have q0_1 : fld W 0 1 = 0 := H 0 1 (by decide)
  have hbit : bit W 0 = false := bit_of (b := false) q0_1
  show (if bit W 0 then check false false (fld W 1 9 != 0 || fld W 14 5 != 0) (.lblkRel (pick 32 W 19) (pick 16 W 10)) else check false false (fld W 1 3 != 0) (.lblk (pick 32 W 19) (pick 32 W 14) (pick 16 W 10) (pick 64 W 4))) = _
  rw [hbit]
  show check false false (fld W 1 3 != 0) (.lblk (pick 32 W 19) (pick 32 W 14) (pick 16 W 10) (pick 64 W 4)) = _
  have q1_3 : fld W 1 3 = 0 := H 1 3 (by decide)
  rw [q1_3]
  have q19_5 : fld W 19 5 = d.val := H 19 5 (by decide)
  have q14_5 : fld W 14 5 = a.val := H 14 5 (by decide)
  have q10_4 : fld W 10 4 = h.val := H 10 4 (by decide)
  have q4_6 : fld W 4 6 = n.val := H 4 6 (by decide)
  rw [pick_of 5 q19_5 rfl, pick_of 5 q14_5 rfl, pick_of 4 q10_4 rfl, pick_of 6 q4_6 rfl]
  exact check_ok hw

theorem lblkRel (d : Fin 32) (h : Fin 16) : Statement (.lblkRel d h) := by
  intro _ hw
  obtain ⟨W, hW, hlt, H⟩ := word_of (i := (.lblkRel d h)) 0x27000001 [d.val, h.val] [(19, 5), (10, 4)] rfl
    ⟨d.isLt, h.isLt, trivial⟩ (by decide)
  have q30_2 : fld W 30 2 = 0 := H 30 2 (by decide)
  rw [(decode_at hW hlt).1 q30_2]
  have q24_6 : fld W 24 6 = 39 := H 24 6 (by decide)
  rw [decodeS, q24_6]
  have q0_1 : fld W 0 1 = 1 := H 0 1 (by decide)
  have hbit : bit W 0 = true := bit_of (b := true) q0_1
  show (if bit W 0 then check false false (fld W 1 9 != 0 || fld W 14 5 != 0) (.lblkRel (pick 32 W 19) (pick 16 W 10)) else check false false (fld W 1 3 != 0) (.lblk (pick 32 W 19) (pick 32 W 14) (pick 16 W 10) (pick 64 W 4))) = _
  rw [hbit]
  show check false false (fld W 1 9 != 0 || fld W 14 5 != 0) (.lblkRel (pick 32 W 19) (pick 16 W 10)) = _
  have q1_9 : fld W 1 9 = 0 := H 1 9 (by decide)
  have q14_5 : fld W 14 5 = 0 := H 14 5 (by decide)
  rw [q1_9, q14_5]
  have q19_5 : fld W 19 5 = d.val := H 19 5 (by decide)
  have q10_4 : fld W 10 4 = h.val := H 10 4 (by decide)
  rw [pick_of 5 q19_5 rfl, pick_of 4 q10_4 rfl]
  exact check_ok hw

theorem blkwait (d : Fin 32) (h : Fin 16) : Statement (.blkwait d h) := by
  intro _ hw
  obtain ⟨W, hW, hlt, H⟩ := word_of (i := (.blkwait d h)) 0x28000001 [d.val, h.val] [(19, 5), (14, 4)] rfl
    ⟨d.isLt, h.isLt, trivial⟩ (by decide)
  have q30_2 : fld W 30 2 = 0 := H 30 2 (by decide)
  rw [(decode_at hW hlt).1 q30_2]
  have q24_6 : fld W 24 6 = 40 := H 24 6 (by decide)
  have q0_5 : fld W 0 5 = 1 := H 0 5 (by decide)
  rw [decodeS_family q24_6 (by decide)]
  show decodeBlk W = _
  rw [decodeBlk, q0_5]
  show check false (fld W 5 4 != 0) (fld W 9 5 != 0 || fld W 18 1 != 0) (.blkwait (pick 32 W 19) (pick 16 W 14)) = _
  have q5_4 : fld W 5 4 = 0 := H 5 4 (by decide)
  have q9_5 : fld W 9 5 = 0 := H 9 5 (by decide)
  have q18_1 : fld W 18 1 = 0 := H 18 1 (by decide)
  rw [q5_4, q9_5, q18_1]
  have q19_5 : fld W 19 5 = d.val := H 19 5 (by decide)
  have q14_4 : fld W 14 4 = h.val := H 14 4 (by decide)
  rw [pick_of 5 q19_5 rfl, pick_of 4 q14_4 rfl]
  exact check_ok hw

theorem pspace (d : Fin 32) (a : Fin 32) : Statement (.pspace d a) := by
  intro _ hw
  obtain ⟨W, hW, hlt, H⟩ := word_of (i := (.pspace d a)) 0x29000001 [d.val, a.val] [(19, 5), (14, 5)] rfl
    ⟨d.isLt, a.isLt, trivial⟩ (by decide)
  have q30_2 : fld W 30 2 = 0 := H 30 2 (by decide)
  rw [(decode_at hW hlt).1 q30_2]
  have q24_6 : fld W 24 6 = 41 := H 24 6 (by decide)
  have q0_5 : fld W 0 5 = 1 := H 0 5 (by decide)
  rw [decodeS_family q24_6 (by decide)]
  show decodePtrInfo W = _
  rw [decodePtrInfo, q0_5]
  show check false (fld W 5 4 != 0) (fld W 9 5 != 0) (.pspace (pick 32 W 19) (pick 32 W 14)) = _
  have q5_4 : fld W 5 4 = 0 := H 5 4 (by decide)
  have q9_5 : fld W 9 5 = 0 := H 9 5 (by decide)
  rw [q5_4, q9_5]
  have q19_5 : fld W 19 5 = d.val := H 19 5 (by decide)
  have q14_5 : fld W 14 5 = a.val := H 14 5 (by decide)
  rw [pick_of 5 q19_5 rfl, pick_of 5 q14_5 rfl]
  exact check_ok hw

theorem pcast (d : Fin 32) (a : Fin 32) (b : Fin 32) : Statement (.pcast d a b) := by
  intro _ hw
  obtain ⟨W, hW, hlt, H⟩ := word_of (i := (.pcast d a b)) 0x29000002 [d.val, a.val, b.val] [(19, 5), (14, 5), (9, 5)] rfl
    ⟨d.isLt, a.isLt, b.isLt, trivial⟩ (by decide)
  have q30_2 : fld W 30 2 = 0 := H 30 2 (by decide)
  rw [(decode_at hW hlt).1 q30_2]
  have q24_6 : fld W 24 6 = 41 := H 24 6 (by decide)
  have q0_5 : fld W 0 5 = 2 := H 0 5 (by decide)
  rw [decodeS_family q24_6 (by decide)]
  show decodePtrInfo W = _
  rw [decodePtrInfo, q0_5]
  show check false (fld W 5 4 != 0) false (.pcast (pick 32 W 19) (pick 32 W 14) (pick 32 W 9)) = _
  have q5_4 : fld W 5 4 = 0 := H 5 4 (by decide)
  rw [q5_4]
  have q19_5 : fld W 19 5 = d.val := H 19 5 (by decide)
  have q14_5 : fld W 14 5 = a.val := H 14 5 (by decide)
  have q9_5 : fld W 9 5 = b.val := H 9 5 (by decide)
  rw [pick_of 5 q19_5 rfl, pick_of 5 q14_5 rfl, pick_of 5 q9_5 rfl]
  exact check_ok hw

theorem txb (d : Fin 32) : Statement (.txb d) := by
  intro _ hw
  obtain ⟨W, hW, hlt, H⟩ := word_of (i := (.txb d)) 0x2A000001 [d.val] [(19, 5)] rfl
    ⟨d.isLt, trivial⟩ (by decide)
  have q30_2 : fld W 30 2 = 0 := H 30 2 (by decide)
  rw [(decode_at hW hlt).1 q30_2]
  have q24_6 : fld W 24 6 = 42 := H 24 6 (by decide)
  have q0_5 : fld W 0 5 = 1 := H 0 5 (by decide)
  rw [decodeS_family q24_6 (by decide)]
  show decodeTx W = _
  rw [decodeTx, q0_5]
  show check false (fld W 5 4 != 0) (fld W 9 10 != 0) (.txb (pick 32 W 19)) = _
  have q5_4 : fld W 5 4 = 0 := H 5 4 (by decide)
  have q9_10 : fld W 9 10 = 0 := H 9 10 (by decide)
  rw [q5_4, q9_10]
  have q19_5 : fld W 19 5 = d.val := H 19 5 (by decide)
  rw [pick_of 5 q19_5 rfl]
  exact check_ok hw

theorem txe (d : Fin 32) : Statement (.txe d) := by
  intro _ hw
  obtain ⟨W, hW, hlt, H⟩ := word_of (i := (.txe d)) 0x2A000002 [d.val] [(19, 5)] rfl
    ⟨d.isLt, trivial⟩ (by decide)
  have q30_2 : fld W 30 2 = 0 := H 30 2 (by decide)
  rw [(decode_at hW hlt).1 q30_2]
  have q24_6 : fld W 24 6 = 42 := H 24 6 (by decide)
  have q0_5 : fld W 0 5 = 2 := H 0 5 (by decide)
  rw [decodeS_family q24_6 (by decide)]
  show decodeTx W = _
  rw [decodeTx, q0_5]
  show check false (fld W 5 4 != 0) (fld W 9 10 != 0) (.txe (pick 32 W 19)) = _
  have q5_4 : fld W 5 4 = 0 := H 5 4 (by decide)
  have q9_10 : fld W 9 10 = 0 := H 9 10 (by decide)
  rw [q5_4, q9_10]
  have q19_5 : fld W 19 5 = d.val := H 19 5 (by decide)
  rw [pick_of 5 q19_5 rfl]
  exact check_ok hw

theorem txa (a : Fin 32) : Statement (.txa a) := by
  intro _ hw
  obtain ⟨W, hW, hlt, H⟩ := word_of (i := (.txa a)) 0x2A000003 [a.val] [(14, 5)] rfl
    ⟨a.isLt, trivial⟩ (by decide)
  have q30_2 : fld W 30 2 = 0 := H 30 2 (by decide)
  rw [(decode_at hW hlt).1 q30_2]
  have q24_6 : fld W 24 6 = 42 := H 24 6 (by decide)
  have q0_5 : fld W 0 5 = 3 := H 0 5 (by decide)
  rw [decodeS_family q24_6 (by decide)]
  show decodeTx W = _
  rw [decodeTx, q0_5]
  show check false (fld W 5 4 != 0) (fld W 9 5 != 0 || fld W 19 5 != 0) (.txa (pick 32 W 14)) = _
  have q5_4 : fld W 5 4 = 0 := H 5 4 (by decide)
  have q9_5 : fld W 9 5 = 0 := H 9 5 (by decide)
  have q19_5 : fld W 19 5 = 0 := H 19 5 (by decide)
  rw [q5_4, q9_5, q19_5]
  have q14_5 : fld W 14 5 = a.val := H 14 5 (by decide)
  rw [pick_of 5 q14_5 rfl]
  exact check_ok hw

theorem pgalloc (d : Fin 32) : Statement (.pgalloc d) := by
  intro _ hw
  obtain ⟨W, hW, hlt, H⟩ := word_of (i := (.pgalloc d)) 0x2B000001 [d.val] [(19, 5)] rfl
    ⟨d.isLt, trivial⟩ (by decide)
  have q30_2 : fld W 30 2 = 0 := H 30 2 (by decide)
  rw [(decode_at hW hlt).1 q30_2]
  have q24_6 : fld W 24 6 = 43 := H 24 6 (by decide)
  have q0_5 : fld W 0 5 = 1 := H 0 5 (by decide)
  rw [decodeS_family q24_6 (by decide)]
  show decodePg W = _
  rw [decodePg, q0_5]
  have q5_1 : fld W 5 1 = 0 := H 5 1 (by decide)
  have hbit : bit W 5 = false := bit_of (b := false) q5_1
  show (if bit W 5 then check false (fld W 6 3 != 0) (fld W 9 10 != 0) (.pgallocNb (pick 32 W 19)) else check false (fld W 6 3 != 0) (fld W 9 10 != 0) (.pgalloc (pick 32 W 19))) = _
  rw [hbit]
  show check false (fld W 6 3 != 0) (fld W 9 10 != 0) (.pgalloc (pick 32 W 19)) = _
  have q6_3 : fld W 6 3 = 0 := H 6 3 (by decide)
  have q9_10 : fld W 9 10 = 0 := H 9 10 (by decide)
  rw [q6_3, q9_10]
  have q19_5 : fld W 19 5 = d.val := H 19 5 (by decide)
  rw [pick_of 5 q19_5 rfl]
  exact check_ok hw

theorem pgallocNb (d : Fin 32) : Statement (.pgallocNb d) := by
  intro _ hw
  obtain ⟨W, hW, hlt, H⟩ := word_of (i := (.pgallocNb d)) 0x2B000021 [d.val] [(19, 5)] rfl
    ⟨d.isLt, trivial⟩ (by decide)
  have q30_2 : fld W 30 2 = 0 := H 30 2 (by decide)
  rw [(decode_at hW hlt).1 q30_2]
  have q24_6 : fld W 24 6 = 43 := H 24 6 (by decide)
  have q0_5 : fld W 0 5 = 1 := H 0 5 (by decide)
  rw [decodeS_family q24_6 (by decide)]
  show decodePg W = _
  rw [decodePg, q0_5]
  have q5_1 : fld W 5 1 = 1 := H 5 1 (by decide)
  have hbit : bit W 5 = true := bit_of (b := true) q5_1
  show (if bit W 5 then check false (fld W 6 3 != 0) (fld W 9 10 != 0) (.pgallocNb (pick 32 W 19)) else check false (fld W 6 3 != 0) (fld W 9 10 != 0) (.pgalloc (pick 32 W 19))) = _
  rw [hbit]
  show check false (fld W 6 3 != 0) (fld W 9 10 != 0) (.pgallocNb (pick 32 W 19)) = _
  have q6_3 : fld W 6 3 = 0 := H 6 3 (by decide)
  have q9_10 : fld W 9 10 = 0 := H 9 10 (by decide)
  rw [q6_3, q9_10]
  have q19_5 : fld W 19 5 = d.val := H 19 5 (by decide)
  rw [pick_of 5 q19_5 rfl]
  exact check_ok hw

theorem pgfree (d : Fin 32) (a : Fin 32) : Statement (.pgfree d a) := by
  intro _ hw
  obtain ⟨W, hW, hlt, H⟩ := word_of (i := (.pgfree d a)) 0x2B000002 [d.val, a.val] [(19, 5), (14, 5)] rfl
    ⟨d.isLt, a.isLt, trivial⟩ (by decide)
  have q30_2 : fld W 30 2 = 0 := H 30 2 (by decide)
  rw [(decode_at hW hlt).1 q30_2]
  have q24_6 : fld W 24 6 = 43 := H 24 6 (by decide)
  have q0_5 : fld W 0 5 = 2 := H 0 5 (by decide)
  rw [decodeS_family q24_6 (by decide)]
  show decodePg W = _
  rw [decodePg, q0_5]
  show check false (fld W 5 4 != 0) (fld W 9 5 != 0) (.pgfree (pick 32 W 19) (pick 32 W 14)) = _
  have q5_4 : fld W 5 4 = 0 := H 5 4 (by decide)
  have q9_5 : fld W 9 5 = 0 := H 9 5 (by decide)
  rw [q5_4, q9_5]
  have q19_5 : fld W 19 5 = d.val := H 19 5 (by decide)
  have q14_5 : fld W 14 5 = a.val := H 14 5 (by decide)
  rw [pick_of 5 q19_5 rfl, pick_of 5 q14_5 rfl]
  exact check_ok hw

theorem sgnew (d : Fin 32) (a : Fin 32) : Statement (.sgnew d a) := by
  intro _ hw
  obtain ⟨W, hW, hlt, H⟩ := word_of (i := (.sgnew d a)) 0x2C000001 [d.val, a.val] [(19, 5), (14, 5)] rfl
    ⟨d.isLt, a.isLt, trivial⟩ (by decide)
  have q30_2 : fld W 30 2 = 0 := H 30 2 (by decide)
  rw [(decode_at hW hlt).1 q30_2]
  have q24_6 : fld W 24 6 = 44 := H 24 6 (by decide)
  have q0_5 : fld W 0 5 = 1 := H 0 5 (by decide)
  rw [decodeS_family q24_6 (by decide)]
  show decodeSeg W = _
  rw [decodeSeg, q0_5]
  have q5_1 : fld W 5 1 = 0 := H 5 1 (by decide)
  have hbit : bit W 5 = false := bit_of (b := false) q5_1
  show (if bit W 5 then check false (fld W 6 3 != 0) (fld W 9 5 != 0) (.sgnewCl (pick 32 W 19) (pick 32 W 14)) else check false (fld W 6 3 != 0) (fld W 9 5 != 0) (.sgnew (pick 32 W 19) (pick 32 W 14))) = _
  rw [hbit]
  show check false (fld W 6 3 != 0) (fld W 9 5 != 0) (.sgnew (pick 32 W 19) (pick 32 W 14)) = _
  have q6_3 : fld W 6 3 = 0 := H 6 3 (by decide)
  have q9_5 : fld W 9 5 = 0 := H 9 5 (by decide)
  rw [q6_3, q9_5]
  have q19_5 : fld W 19 5 = d.val := H 19 5 (by decide)
  have q14_5 : fld W 14 5 = a.val := H 14 5 (by decide)
  rw [pick_of 5 q19_5 rfl, pick_of 5 q14_5 rfl]
  exact check_ok hw

theorem sgnewCl (d : Fin 32) (a : Fin 32) : Statement (.sgnewCl d a) := by
  intro _ hw
  obtain ⟨W, hW, hlt, H⟩ := word_of (i := (.sgnewCl d a)) 0x2C000021 [d.val, a.val] [(19, 5), (14, 5)] rfl
    ⟨d.isLt, a.isLt, trivial⟩ (by decide)
  have q30_2 : fld W 30 2 = 0 := H 30 2 (by decide)
  rw [(decode_at hW hlt).1 q30_2]
  have q24_6 : fld W 24 6 = 44 := H 24 6 (by decide)
  have q0_5 : fld W 0 5 = 1 := H 0 5 (by decide)
  rw [decodeS_family q24_6 (by decide)]
  show decodeSeg W = _
  rw [decodeSeg, q0_5]
  have q5_1 : fld W 5 1 = 1 := H 5 1 (by decide)
  have hbit : bit W 5 = true := bit_of (b := true) q5_1
  show (if bit W 5 then check false (fld W 6 3 != 0) (fld W 9 5 != 0) (.sgnewCl (pick 32 W 19) (pick 32 W 14)) else check false (fld W 6 3 != 0) (fld W 9 5 != 0) (.sgnew (pick 32 W 19) (pick 32 W 14))) = _
  rw [hbit]
  show check false (fld W 6 3 != 0) (fld W 9 5 != 0) (.sgnewCl (pick 32 W 19) (pick 32 W 14)) = _
  have q6_3 : fld W 6 3 = 0 := H 6 3 (by decide)
  have q9_5 : fld W 9 5 = 0 := H 9 5 (by decide)
  rw [q6_3, q9_5]
  have q19_5 : fld W 19 5 = d.val := H 19 5 (by decide)
  have q14_5 : fld W 14 5 = a.val := H 14 5 (by decide)
  rw [pick_of 5 q19_5 rfl, pick_of 5 q14_5 rfl]
  exact check_ok hw

theorem sgfree (d : Fin 32) (a : Fin 32) : Statement (.sgfree d a) := by
  intro _ hw
  obtain ⟨W, hW, hlt, H⟩ := word_of (i := (.sgfree d a)) 0x2C000002 [d.val, a.val] [(19, 5), (14, 5)] rfl
    ⟨d.isLt, a.isLt, trivial⟩ (by decide)
  have q30_2 : fld W 30 2 = 0 := H 30 2 (by decide)
  rw [(decode_at hW hlt).1 q30_2]
  have q24_6 : fld W 24 6 = 44 := H 24 6 (by decide)
  have q0_5 : fld W 0 5 = 2 := H 0 5 (by decide)
  rw [decodeS_family q24_6 (by decide)]
  show decodeSeg W = _
  rw [decodeSeg, q0_5]
  show check false (fld W 5 4 != 0) (fld W 9 5 != 0) (.sgfree (pick 32 W 19) (pick 32 W 14)) = _
  have q5_4 : fld W 5 4 = 0 := H 5 4 (by decide)
  have q9_5 : fld W 9 5 = 0 := H 9 5 (by decide)
  rw [q5_4, q9_5]
  have q19_5 : fld W 19 5 = d.val := H 19 5 (by decide)
  have q14_5 : fld W 14 5 = a.val := H 14 5 (by decide)
  rw [pick_of 5 q19_5 rfl, pick_of 5 q14_5 rfl]
  exact check_ok hw

theorem sgpin (d : Fin 32) (a : Fin 32) : Statement (.sgpin d a) := by
  intro _ hw
  obtain ⟨W, hW, hlt, H⟩ := word_of (i := (.sgpin d a)) 0x2C000003 [d.val, a.val] [(19, 5), (14, 5)] rfl
    ⟨d.isLt, a.isLt, trivial⟩ (by decide)
  have q30_2 : fld W 30 2 = 0 := H 30 2 (by decide)
  rw [(decode_at hW hlt).1 q30_2]
  have q24_6 : fld W 24 6 = 44 := H 24 6 (by decide)
  have q0_5 : fld W 0 5 = 3 := H 0 5 (by decide)
  rw [decodeS_family q24_6 (by decide)]
  show decodeSeg W = _
  rw [decodeSeg, q0_5]
  show check false (fld W 5 4 != 0) (fld W 9 5 != 0) (.sgpin (pick 32 W 19) (pick 32 W 14)) = _
  have q5_4 : fld W 5 4 = 0 := H 5 4 (by decide)
  have q9_5 : fld W 9 5 = 0 := H 9 5 (by decide)
  rw [q5_4, q9_5]
  have q19_5 : fld W 19 5 = d.val := H 19 5 (by decide)
  have q14_5 : fld W 14 5 = a.val := H 14 5 (by decide)
  rw [pick_of 5 q19_5 rfl, pick_of 5 q14_5 rfl]
  exact check_ok hw

theorem sgunpin (d : Fin 32) (a : Fin 32) : Statement (.sgunpin d a) := by
  intro _ hw
  obtain ⟨W, hW, hlt, H⟩ := word_of (i := (.sgunpin d a)) 0x2C000004 [d.val, a.val] [(19, 5), (14, 5)] rfl
    ⟨d.isLt, a.isLt, trivial⟩ (by decide)
  have q30_2 : fld W 30 2 = 0 := H 30 2 (by decide)
  rw [(decode_at hW hlt).1 q30_2]
  have q24_6 : fld W 24 6 = 44 := H 24 6 (by decide)
  have q0_5 : fld W 0 5 = 4 := H 0 5 (by decide)
  rw [decodeS_family q24_6 (by decide)]
  show decodeSeg W = _
  rw [decodeSeg, q0_5]
  show check false (fld W 5 4 != 0) (fld W 9 5 != 0) (.sgunpin (pick 32 W 19) (pick 32 W 14)) = _
  have q5_4 : fld W 5 4 = 0 := H 5 4 (by decide)
  have q9_5 : fld W 9 5 = 0 := H 9 5 (by decide)
  rw [q5_4, q9_5]
  have q19_5 : fld W 19 5 = d.val := H 19 5 (by decide)
  have q14_5 : fld W 14 5 = a.val := H 14 5 (by decide)
  rw [pick_of 5 q19_5 rfl, pick_of 5 q14_5 rfl]
  exact check_ok hw

theorem sgpref (d : Fin 32) (a : Fin 32) : Statement (.sgpref d a) := by
  intro _ hw
  obtain ⟨W, hW, hlt, H⟩ := word_of (i := (.sgpref d a)) 0x2C000005 [d.val, a.val] [(19, 5), (14, 5)] rfl
    ⟨d.isLt, a.isLt, trivial⟩ (by decide)
  have q30_2 : fld W 30 2 = 0 := H 30 2 (by decide)
  rw [(decode_at hW hlt).1 q30_2]
  have q24_6 : fld W 24 6 = 44 := H 24 6 (by decide)
  have q0_5 : fld W 0 5 = 5 := H 0 5 (by decide)
  rw [decodeS_family q24_6 (by decide)]
  show decodeSeg W = _
  rw [decodeSeg, q0_5]
  show check false (fld W 5 4 != 0) (fld W 9 5 != 0) (.sgpref (pick 32 W 19) (pick 32 W 14)) = _
  have q5_4 : fld W 5 4 = 0 := H 5 4 (by decide)
  have q9_5 : fld W 9 5 = 0 := H 9 5 (by decide)
  rw [q5_4, q9_5]
  have q19_5 : fld W 19 5 = d.val := H 19 5 (by decide)
  have q14_5 : fld W 14 5 = a.val := H 14 5 (by decide)
  rw [pick_of 5 q19_5 rfl, pick_of 5 q14_5 rfl]
  exact check_ok hw

theorem sginfo (d : Fin 32) (a : Fin 32) : Statement (.sginfo d a) := by
  intro _ hw
  obtain ⟨W, hW, hlt, H⟩ := word_of (i := (.sginfo d a)) 0x2C000006 [d.val, a.val] [(19, 5), (14, 5)] rfl
    ⟨d.isLt, a.isLt, trivial⟩ (by decide)
  have q30_2 : fld W 30 2 = 0 := H 30 2 (by decide)
  rw [(decode_at hW hlt).1 q30_2]
  have q24_6 : fld W 24 6 = 44 := H 24 6 (by decide)
  have q0_5 : fld W 0 5 = 6 := H 0 5 (by decide)
  rw [decodeS_family q24_6 (by decide)]
  show decodeSeg W = _
  rw [decodeSeg, q0_5]
  show check false (fld W 5 4 != 0) (fld W 9 5 != 0) (.sginfo (pick 32 W 19) (pick 32 W 14)) = _
  have q5_4 : fld W 5 4 = 0 := H 5 4 (by decide)
  have q9_5 : fld W 9 5 = 0 := H 9 5 (by decide)
  rw [q5_4, q9_5]
  have q19_5 : fld W 19 5 = d.val := H 19 5 (by decide)
  have q14_5 : fld W 14 5 = a.val := H 14 5 (by decide)
  rw [pick_of 5 q19_5 rfl, pick_of 5 q14_5 rfl]
  exact check_ok hw

theorem sgquota (d : Fin 32) (a : Fin 32) : Statement (.sgquota d a) := by
  intro _ hw
  obtain ⟨W, hW, hlt, H⟩ := word_of (i := (.sgquota d a)) 0x2C000007 [d.val, a.val] [(19, 5), (14, 5)] rfl
    ⟨d.isLt, a.isLt, trivial⟩ (by decide)
  have q30_2 : fld W 30 2 = 0 := H 30 2 (by decide)
  rw [(decode_at hW hlt).1 q30_2]
  have q24_6 : fld W 24 6 = 44 := H 24 6 (by decide)
  have q0_5 : fld W 0 5 = 7 := H 0 5 (by decide)
  rw [decodeS_family q24_6 (by decide)]
  show decodeSeg W = _
  rw [decodeSeg, q0_5]
  show check false (fld W 5 4 != 0) (fld W 9 5 != 0) (.sgquota (pick 32 W 19) (pick 32 W 14)) = _
  have q5_4 : fld W 5 4 = 0 := H 5 4 (by decide)
  have q9_5 : fld W 9 5 = 0 := H 9 5 (by decide)
  rw [q5_4, q9_5]
  have q19_5 : fld W 19 5 = d.val := H 19 5 (by decide)
  have q14_5 : fld W 14 5 = a.val := H 14 5 (by decide)
  rw [pick_of 5 q19_5 rfl, pick_of 5 q14_5 rfl]
  exact check_ok hw

theorem sgsched (d : Fin 32) (a : Fin 32) (b : Fin 32) : Statement (.sgsched d a b) := by
  intro _ hw
  obtain ⟨W, hW, hlt, H⟩ := word_of (i := (.sgsched d a b)) 0x2C000008 [d.val, a.val, b.val] [(19, 5), (14, 5), (9, 5)] rfl
    ⟨d.isLt, a.isLt, b.isLt, trivial⟩ (by decide)
  have q30_2 : fld W 30 2 = 0 := H 30 2 (by decide)
  rw [(decode_at hW hlt).1 q30_2]
  have q24_6 : fld W 24 6 = 44 := H 24 6 (by decide)
  have q0_5 : fld W 0 5 = 8 := H 0 5 (by decide)
  rw [decodeS_family q24_6 (by decide)]
  show decodeSeg W = _
  rw [decodeSeg, q0_5]
  show check false (fld W 5 4 != 0) false (.sgsched (pick 32 W 19) (pick 32 W 14) (pick 32 W 9)) = _
  have q5_4 : fld W 5 4 = 0 := H 5 4 (by decide)
  rw [q5_4]
  have q19_5 : fld W 19 5 = d.val := H 19 5 (by decide)
  have q14_5 : fld W 14 5 = a.val := H 14 5 (by decide)
  have q9_5 : fld W 9 5 = b.val := H 9 5 (by decide)
  rw [pick_of 5 q19_5 rfl, pick_of 5 q14_5 rfl, pick_of 5 q9_5 rfl]
  exact check_ok hw

theorem spawn (d : Fin 32) (a : Fin 32) : Statement (.spawn d a) := by
  intro _ hw
  obtain ⟨W, hW, hlt, H⟩ := word_of (i := (.spawn d a)) 0x30000001 [d.val, a.val] [(19, 5), (14, 5)] rfl
    ⟨d.isLt, a.isLt, trivial⟩ (by decide)
  have q30_2 : fld W 30 2 = 0 := H 30 2 (by decide)
  rw [(decode_at hW hlt).1 q30_2]
  have q24_6 : fld W 24 6 = 48 := H 24 6 (by decide)
  have q0_5 : fld W 0 5 = 1 := H 0 5 (by decide)
  rw [decodeS_family q24_6 (by decide)]
  show decodeTask W = _
  rw [decodeTask, q0_5]
  show check false (fld W 5 4 != 0) (fld W 9 5 != 0) (.spawn (pick 32 W 19) (pick 32 W 14)) = _
  have q5_4 : fld W 5 4 = 0 := H 5 4 (by decide)
  have q9_5 : fld W 9 5 = 0 := H 9 5 (by decide)
  rw [q5_4, q9_5]
  have q19_5 : fld W 19 5 = d.val := H 19 5 (by decide)
  have q14_5 : fld W 14 5 = a.val := H 14 5 (by decide)
  rw [pick_of 5 q19_5 rfl, pick_of 5 q14_5 rfl]
  exact check_ok hw

theorem tend : Statement .tend := by
  intro _ hw
  obtain ⟨W, hW, hlt, H⟩ := word_of (i := .tend) 0x30000002 [] [] rfl
    trivial (by decide)
  have q30_2 : fld W 30 2 = 0 := H 30 2 (by decide)
  rw [(decode_at hW hlt).1 q30_2]
  have q24_6 : fld W 24 6 = 48 := H 24 6 (by decide)
  have q0_5 : fld W 0 5 = 2 := H 0 5 (by decide)
  rw [decodeS_family q24_6 (by decide)]
  show decodeTask W = _
  rw [decodeTask, q0_5]
  show check false (fld W 5 4 != 0) (fld W 9 15 != 0) (.tend) = _
  have q5_4 : fld W 5 4 = 0 := H 5 4 (by decide)
  have q9_15 : fld W 9 15 = 0 := H 9 15 (by decide)
  rw [q5_4, q9_15]
  exact check_ok hw

theorem yield : Statement .yield := by
  intro _ hw
  obtain ⟨W, hW, hlt, H⟩ := word_of (i := .yield) 0x30000003 [] [] rfl
    trivial (by decide)
  have q30_2 : fld W 30 2 = 0 := H 30 2 (by decide)
  rw [(decode_at hW hlt).1 q30_2]
  have q24_6 : fld W 24 6 = 48 := H 24 6 (by decide)
  have q0_5 : fld W 0 5 = 3 := H 0 5 (by decide)
  rw [decodeS_family q24_6 (by decide)]
  show decodeTask W = _
  rw [decodeTask, q0_5]
  show check false (fld W 5 4 != 0) (fld W 9 15 != 0) (.yield) = _
  have q5_4 : fld W 5 4 = 0 := H 5 4 (by decide)
  have q9_15 : fld W 9 15 = 0 := H 9 15 (by decide)
  rw [q5_4, q9_15]
  exact check_ok hw

theorem await (d : Fin 32) (a : Fin 32) (b : Fin 32) : Statement (.await d a b) := by
  intro _ hw
  obtain ⟨W, hW, hlt, H⟩ := word_of (i := (.await d a b)) 0x30000004 [d.val, a.val, b.val] [(19, 5), (14, 5), (9, 5)] rfl
    ⟨d.isLt, a.isLt, b.isLt, trivial⟩ (by decide)
  have q30_2 : fld W 30 2 = 0 := H 30 2 (by decide)
  rw [(decode_at hW hlt).1 q30_2]
  have q24_6 : fld W 24 6 = 48 := H 24 6 (by decide)
  have q0_5 : fld W 0 5 = 4 := H 0 5 (by decide)
  rw [decodeS_family q24_6 (by decide)]
  show decodeTask W = _
  rw [decodeTask, q0_5]
  show check false (fld W 5 4 != 0) false (.await (pick 32 W 19) (pick 32 W 14) (pick 32 W 9)) = _
  have q5_4 : fld W 5 4 = 0 := H 5 4 (by decide)
  rw [q5_4]
  have q19_5 : fld W 19 5 = d.val := H 19 5 (by decide)
  have q14_5 : fld W 14 5 = a.val := H 14 5 (by decide)
  have q9_5 : fld W 9 5 = b.val := H 9 5 (by decide)
  rw [pick_of 5 q19_5 rfl, pick_of 5 q14_5 rfl, pick_of 5 q9_5 rfl]
  exact check_ok hw

theorem domjoin (d : Fin 32) (a : Fin 32) (l : Fin 8) : Statement (.domjoin d a l) := by
  intro _ hw
  obtain ⟨W, hW, hlt, H⟩ := word_of (i := (.domjoin d a l)) 0x31000001 [d.val, a.val, l.val] [(19, 5), (14, 5), (5, 3)] rfl
    ⟨d.isLt, a.isLt, l.isLt, trivial⟩ (by decide)
  have q30_2 : fld W 30 2 = 0 := H 30 2 (by decide)
  rw [(decode_at hW hlt).1 q30_2]
  have q24_6 : fld W 24 6 = 49 := H 24 6 (by decide)
  have q0_5 : fld W 0 5 = 1 := H 0 5 (by decide)
  rw [decodeS_family q24_6 (by decide)]
  show decodeDom W = _
  rw [decodeDom, q0_5]
  show check false (fld W 8 1 != 0) (fld W 9 5 != 0) (.domjoin (pick 32 W 19) (pick 32 W 14) (pick 8 W 5)) = _
  have q8_1 : fld W 8 1 = 0 := H 8 1 (by decide)
  have q9_5 : fld W 9 5 = 0 := H 9 5 (by decide)
  rw [q8_1, q9_5]
  have q19_5 : fld W 19 5 = d.val := H 19 5 (by decide)
  have q14_5 : fld W 14 5 = a.val := H 14 5 (by decide)
  have q5_3 : fld W 5 3 = l.val := H 5 3 (by decide)
  rw [pick_of 5 q19_5 rfl, pick_of 5 q14_5 rfl, pick_of 3 q5_3 rfl]
  exact check_ok hw

theorem domleave (d : Fin 32) (l : Fin 8) : Statement (.domleave d l) := by
  intro _ hw
  obtain ⟨W, hW, hlt, H⟩ := word_of (i := (.domleave d l)) 0x31000002 [d.val, l.val] [(19, 5), (5, 3)] rfl
    ⟨d.isLt, l.isLt, trivial⟩ (by decide)
  have q30_2 : fld W 30 2 = 0 := H 30 2 (by decide)
  rw [(decode_at hW hlt).1 q30_2]
  have q24_6 : fld W 24 6 = 49 := H 24 6 (by decide)
  have q0_5 : fld W 0 5 = 2 := H 0 5 (by decide)
  rw [decodeS_family q24_6 (by decide)]
  show decodeDom W = _
  rw [decodeDom, q0_5]
  show check false (fld W 8 1 != 0) (fld W 9 10 != 0) (.domleave (pick 32 W 19) (pick 8 W 5)) = _
  have q8_1 : fld W 8 1 = 0 := H 8 1 (by decide)
  have q9_10 : fld W 9 10 = 0 := H 9 10 (by decide)
  rw [q8_1, q9_10]
  have q19_5 : fld W 19 5 = d.val := H 19 5 (by decide)
  have q5_3 : fld W 5 3 = l.val := H 5 3 (by decide)
  rw [pick_of 5 q19_5 rfl, pick_of 3 q5_3 rfl]
  exact check_ok hw

theorem bardecl (d : Fin 32) (a : Fin 32) (l : Fin 8) : Statement (.bardecl d a l) := by
  intro _ hw
  obtain ⟨W, hW, hlt, H⟩ := word_of (i := (.bardecl d a l)) 0x31000003 [d.val, a.val, l.val] [(19, 5), (14, 5), (5, 3)] rfl
    ⟨d.isLt, a.isLt, l.isLt, trivial⟩ (by decide)
  have q30_2 : fld W 30 2 = 0 := H 30 2 (by decide)
  rw [(decode_at hW hlt).1 q30_2]
  have q24_6 : fld W 24 6 = 49 := H 24 6 (by decide)
  have q0_5 : fld W 0 5 = 3 := H 0 5 (by decide)
  rw [decodeS_family q24_6 (by decide)]
  show decodeDom W = _
  rw [decodeDom, q0_5]
  show check false (fld W 8 1 != 0) (fld W 9 5 != 0) (.bardecl (pick 32 W 19) (pick 32 W 14) (pick 8 W 5)) = _
  have q8_1 : fld W 8 1 = 0 := H 8 1 (by decide)
  have q9_5 : fld W 9 5 = 0 := H 9 5 (by decide)
  rw [q8_1, q9_5]
  have q19_5 : fld W 19 5 = d.val := H 19 5 (by decide)
  have q14_5 : fld W 14 5 = a.val := H 14 5 (by decide)
  have q5_3 : fld W 5 3 = l.val := H 5 3 (by decide)
  rw [pick_of 5 q19_5 rfl, pick_of 5 q14_5 rfl, pick_of 3 q5_3 rfl]
  exact check_ok hw

theorem bararr (d : Fin 32) (l : Fin 8) : Statement (.bararr d l) := by
  intro _ hw
  obtain ⟨W, hW, hlt, H⟩ := word_of (i := (.bararr d l)) 0x31000004 [d.val, l.val] [(19, 5), (5, 3)] rfl
    ⟨d.isLt, l.isLt, trivial⟩ (by decide)
  have q30_2 : fld W 30 2 = 0 := H 30 2 (by decide)
  rw [(decode_at hW hlt).1 q30_2]
  have q24_6 : fld W 24 6 = 49 := H 24 6 (by decide)
  have q0_5 : fld W 0 5 = 4 := H 0 5 (by decide)
  rw [decodeS_family q24_6 (by decide)]
  show decodeDom W = _
  rw [decodeDom, q0_5]
  show check false (fld W 8 1 != 0) (fld W 9 10 != 0) (.bararr (pick 32 W 19) (pick 8 W 5)) = _
  have q8_1 : fld W 8 1 = 0 := H 8 1 (by decide)
  have q9_10 : fld W 9 10 = 0 := H 9 10 (by decide)
  rw [q8_1, q9_10]
  have q19_5 : fld W 19 5 = d.val := H 19 5 (by decide)
  have q5_3 : fld W 5 3 = l.val := H 5 3 (by decide)
  rw [pick_of 5 q19_5 rfl, pick_of 3 q5_3 rfl]
  exact check_ok hw

theorem barwait (d : Fin 32) (l : Fin 8) : Statement (.barwait d l) := by
  intro _ hw
  obtain ⟨W, hW, hlt, H⟩ := word_of (i := (.barwait d l)) 0x31000005 [d.val, l.val] [(19, 5), (5, 3)] rfl
    ⟨d.isLt, l.isLt, trivial⟩ (by decide)
  have q30_2 : fld W 30 2 = 0 := H 30 2 (by decide)
  rw [(decode_at hW hlt).1 q30_2]
  have q24_6 : fld W 24 6 = 49 := H 24 6 (by decide)
  have q0_5 : fld W 0 5 = 5 := H 0 5 (by decide)
  rw [decodeS_family q24_6 (by decide)]
  show decodeDom W = _
  rw [decodeDom, q0_5]
  show check false (fld W 8 1 != 0) (fld W 9 10 != 0) (.barwait (pick 32 W 19) (pick 8 W 5)) = _
  have q8_1 : fld W 8 1 = 0 := H 8 1 (by decide)
  have q9_10 : fld W 9 10 = 0 := H 9 10 (by decide)
  rw [q8_1, q9_10]
  have q19_5 : fld W 19 5 = d.val := H 19 5 (by decide)
  have q5_3 : fld W 5 3 = l.val := H 5 3 (by decide)
  rw [pick_of 5 q19_5 rfl, pick_of 3 q5_3 rfl]
  exact check_ok hw

theorem scnew (d : Fin 32) (a : Fin 32) : Statement (.scnew d a) := by
  intro _ hw
  obtain ⟨W, hW, hlt, H⟩ := word_of (i := (.scnew d a)) 0x32000001 [d.val, a.val] [(19, 5), (14, 5)] rfl
    ⟨d.isLt, a.isLt, trivial⟩ (by decide)
  have q30_2 : fld W 30 2 = 0 := H 30 2 (by decide)
  rw [(decode_at hW hlt).1 q30_2]
  have q24_6 : fld W 24 6 = 50 := H 24 6 (by decide)
  have q0_5 : fld W 0 5 = 1 := H 0 5 (by decide)
  rw [decodeS_family q24_6 (by decide)]
  show decodeScope W = _
  rw [decodeScope, q0_5]
  show check false (fld W 5 4 != 0) (fld W 9 5 != 0) (.scnew (pick 32 W 19) (pick 32 W 14)) = _
  have q5_4 : fld W 5 4 = 0 := H 5 4 (by decide)
  have q9_5 : fld W 9 5 = 0 := H 9 5 (by decide)
  rw [q5_4, q9_5]
  have q19_5 : fld W 19 5 = d.val := H 19 5 (by decide)
  have q14_5 : fld W 14 5 = a.val := H 14 5 (by decide)
  rw [pick_of 5 q19_5 rfl, pick_of 5 q14_5 rfl]
  exact check_ok hw

theorem cancel (d : Fin 32) (a : Fin 32) : Statement (.cancel d a) := by
  intro _ hw
  obtain ⟨W, hW, hlt, H⟩ := word_of (i := (.cancel d a)) 0x32000002 [d.val, a.val] [(19, 5), (14, 5)] rfl
    ⟨d.isLt, a.isLt, trivial⟩ (by decide)
  have q30_2 : fld W 30 2 = 0 := H 30 2 (by decide)
  rw [(decode_at hW hlt).1 q30_2]
  have q24_6 : fld W 24 6 = 50 := H 24 6 (by decide)
  have q0_5 : fld W 0 5 = 2 := H 0 5 (by decide)
  rw [decodeS_family q24_6 (by decide)]
  show decodeScope W = _
  rw [decodeScope, q0_5]
  show check false (fld W 5 4 != 0) (fld W 9 5 != 0) (.cancel (pick 32 W 19) (pick 32 W 14)) = _
  have q5_4 : fld W 5 4 = 0 := H 5 4 (by decide)
  have q9_5 : fld W 9 5 = 0 := H 9 5 (by decide)
  rw [q5_4, q9_5]
  have q19_5 : fld W 19 5 = d.val := H 19 5 (by decide)
  have q14_5 : fld W 14 5 = a.val := H 14 5 (by decide)
  rw [pick_of 5 q19_5 rfl, pick_of 5 q14_5 rfl]
  exact check_ok hw

theorem cancelwait (d : Fin 32) (a : Fin 32) : Statement (.cancelwait d a) := by
  intro _ hw
  obtain ⟨W, hW, hlt, H⟩ := word_of (i := (.cancelwait d a)) 0x32000003 [d.val, a.val] [(19, 5), (14, 5)] rfl
    ⟨d.isLt, a.isLt, trivial⟩ (by decide)
  have q30_2 : fld W 30 2 = 0 := H 30 2 (by decide)
  rw [(decode_at hW hlt).1 q30_2]
  have q24_6 : fld W 24 6 = 50 := H 24 6 (by decide)
  have q0_5 : fld W 0 5 = 3 := H 0 5 (by decide)
  rw [decodeS_family q24_6 (by decide)]
  show decodeScope W = _
  rw [decodeScope, q0_5]
  show check false (fld W 5 4 != 0) (fld W 9 5 != 0) (.cancelwait (pick 32 W 19) (pick 32 W 14)) = _
  have q5_4 : fld W 5 4 = 0 := H 5 4 (by decide)
  have q9_5 : fld W 9 5 = 0 := H 9 5 (by decide)
  rw [q5_4, q9_5]
  have q19_5 : fld W 19 5 = d.val := H 19 5 (by decide)
  have q14_5 : fld W 14 5 = a.val := H 14 5 (by decide)
  rw [pick_of 5 q19_5 rfl, pick_of 5 q14_5 rfl]
  exact check_ok hw

theorem grun (d : Fin 32) (a : Fin 32) : Statement (.grun d a) := by
  intro _ hw
  obtain ⟨W, hW, hlt, H⟩ := word_of (i := (.grun d a)) 0x33000001 [d.val, a.val] [(19, 5), (14, 5)] rfl
    ⟨d.isLt, a.isLt, trivial⟩ (by decide)
  have q30_2 : fld W 30 2 = 0 := H 30 2 (by decide)
  rw [(decode_at hW hlt).1 q30_2]
  have q24_6 : fld W 24 6 = 51 := H 24 6 (by decide)
  have q0_5 : fld W 0 5 = 1 := H 0 5 (by decide)
  rw [decodeS_family q24_6 (by decide)]
  show decodeGraph W = _
  rw [decodeGraph, q0_5]
  show check false (fld W 5 4 != 0) (fld W 9 5 != 0) (.grun (pick 32 W 19) (pick 32 W 14)) = _
  have q5_4 : fld W 5 4 = 0 := H 5 4 (by decide)
  have q9_5 : fld W 9 5 = 0 := H 9 5 (by decide)
  rw [q5_4, q9_5]
  have q19_5 : fld W 19 5 = d.val := H 19 5 (by decide)
  have q14_5 : fld W 14 5 = a.val := H 14 5 (by decide)
  rw [pick_of 5 q19_5 rfl, pick_of 5 q14_5 rfl]
  exact check_ok hw

theorem tkpost (e : Fin 4) : Statement (.tkpost e) := by
  intro _ hw
  obtain ⟨W, hW, hlt, H⟩ := word_of (i := (.tkpost e)) 0x34000001 [e.val] [(5, 2)] rfl
    ⟨e.isLt, trivial⟩ (by decide)
  have q30_2 : fld W 30 2 = 0 := H 30 2 (by decide)
  rw [(decode_at hW hlt).1 q30_2]
  have q24_6 : fld W 24 6 = 52 := H 24 6 (by decide)
  have q0_5 : fld W 0 5 = 1 := H 0 5 (by decide)
  rw [decodeS_family q24_6 (by decide)]
  show decodeEng W = _
  rw [decodeEng, q0_5]
  show check false (fld W 7 2 != 0) (fld W 9 15 != 0) (.tkpost (pick 4 W 5)) = _
  have q7_2 : fld W 7 2 = 0 := H 7 2 (by decide)
  have q9_15 : fld W 9 15 = 0 := H 9 15 (by decide)
  rw [q7_2, q9_15]
  have q5_2 : fld W 5 2 = e.val := H 5 2 (by decide)
  rw [pick_of 2 q5_2 rfl]
  exact check_ok hw

theorem tkwait (e : Fin 4) : Statement (.tkwait e) := by
  intro _ hw
  obtain ⟨W, hW, hlt, H⟩ := word_of (i := (.tkwait e)) 0x34000002 [e.val] [(5, 2)] rfl
    ⟨e.isLt, trivial⟩ (by decide)
  have q30_2 : fld W 30 2 = 0 := H 30 2 (by decide)
  rw [(decode_at hW hlt).1 q30_2]
  have q24_6 : fld W 24 6 = 52 := H 24 6 (by decide)
  have q0_5 : fld W 0 5 = 2 := H 0 5 (by decide)
  rw [decodeS_family q24_6 (by decide)]
  show decodeEng W = _
  rw [decodeEng, q0_5]
  show check false (fld W 7 2 != 0) (fld W 9 15 != 0) (.tkwait (pick 4 W 5)) = _
  have q7_2 : fld W 7 2 = 0 := H 7 2 (by decide)
  have q9_15 : fld W 9 15 = 0 := H 9 15 (by decide)
  rw [q7_2, q9_15]
  have q5_2 : fld W 5 2 = e.val := H 5 2 (by decide)
  rw [pick_of 2 q5_2 rfl]
  exact check_ok hw

theorem qpush (a : Fin 32) : Statement (.qpush a) := by
  intro _ hw
  obtain ⟨W, hW, hlt, H⟩ := word_of (i := (.qpush a)) 0x34000003 [a.val] [(14, 5)] rfl
    ⟨a.isLt, trivial⟩ (by decide)
  have q30_2 : fld W 30 2 = 0 := H 30 2 (by decide)
  rw [(decode_at hW hlt).1 q30_2]
  have q24_6 : fld W 24 6 = 52 := H 24 6 (by decide)
  have q0_5 : fld W 0 5 = 3 := H 0 5 (by decide)
  rw [decodeS_family q24_6 (by decide)]
  show decodeEng W = _
  rw [decodeEng, q0_5]
  show check false (fld W 5 4 != 0) (fld W 9 5 != 0 || fld W 19 5 != 0) (.qpush (pick 32 W 14)) = _
  have q5_4 : fld W 5 4 = 0 := H 5 4 (by decide)
  have q9_5 : fld W 9 5 = 0 := H 9 5 (by decide)
  have q19_5 : fld W 19 5 = 0 := H 19 5 (by decide)
  rw [q5_4, q9_5, q19_5]
  have q14_5 : fld W 14 5 = a.val := H 14 5 (by decide)
  rw [pick_of 5 q14_5 rfl]
  exact check_ok hw

theorem qpop (d : Fin 32) : Statement (.qpop d) := by
  intro _ hw
  obtain ⟨W, hW, hlt, H⟩ := word_of (i := (.qpop d)) 0x34000004 [d.val] [(19, 5)] rfl
    ⟨d.isLt, trivial⟩ (by decide)
  have q30_2 : fld W 30 2 = 0 := H 30 2 (by decide)
  rw [(decode_at hW hlt).1 q30_2]
  have q24_6 : fld W 24 6 = 52 := H 24 6 (by decide)
  have q0_5 : fld W 0 5 = 4 := H 0 5 (by decide)
  rw [decodeS_family q24_6 (by decide)]
  show decodeEng W = _
  rw [decodeEng, q0_5]
  show check false (fld W 5 4 != 0) (fld W 9 10 != 0) (.qpop (pick 32 W 19)) = _
  have q5_4 : fld W 5 4 = 0 := H 5 4 (by decide)
  have q9_10 : fld W 9 10 = 0 := H 9 10 (by decide)
  rw [q5_4, q9_10]
  have q19_5 : fld W 19 5 = d.val := H 19 5 (by decide)
  rw [pick_of 5 q19_5 rfl]
  exact check_ok hw

theorem fmtq (a : Fin 32) : Statement (.fmtq a) := by
  intro _ hw
  obtain ⟨W, hW, hlt, H⟩ := word_of (i := (.fmtq a)) 0x34000005 [a.val] [(14, 5)] rfl
    ⟨a.isLt, trivial⟩ (by decide)
  have q30_2 : fld W 30 2 = 0 := H 30 2 (by decide)
  rw [(decode_at hW hlt).1 q30_2]
  have q24_6 : fld W 24 6 = 52 := H 24 6 (by decide)
  have q0_5 : fld W 0 5 = 5 := H 0 5 (by decide)
  rw [decodeS_family q24_6 (by decide)]
  show decodeEng W = _
  rw [decodeEng, q0_5]
  show check false (fld W 5 4 != 0) (fld W 9 5 != 0 || fld W 19 5 != 0) (.fmtq (pick 32 W 14)) = _
  have q5_4 : fld W 5 4 = 0 := H 5 4 (by decide)
  have q9_5 : fld W 9 5 = 0 := H 9 5 (by decide)
  have q19_5 : fld W 19 5 = 0 := H 19 5 (by decide)
  rw [q5_4, q9_5, q19_5]
  have q14_5 : fld W 14 5 = a.val := H 14 5 (by decide)
  rw [pick_of 5 q14_5 rfl]
  exact check_ok hw

theorem mlease : Statement .mlease := by
  intro _ hw
  obtain ⟨W, hW, hlt, H⟩ := word_of (i := .mlease) 0x34000006 [] [] rfl
    trivial (by decide)
  have q30_2 : fld W 30 2 = 0 := H 30 2 (by decide)
  rw [(decode_at hW hlt).1 q30_2]
  have q24_6 : fld W 24 6 = 52 := H 24 6 (by decide)
  have q0_5 : fld W 0 5 = 6 := H 0 5 (by decide)
  rw [decodeS_family q24_6 (by decide)]
  show decodeEng W = _
  rw [decodeEng, q0_5]
  have q5_1 : fld W 5 1 = 0 := H 5 1 (by decide)
  have hbit : bit W 5 = false := bit_of (b := false) q5_1
  show (if bit W 5 then check false (fld W 6 3 != 0) (fld W 9 5 != 0) (.mleaseG (pick 32 W 19) (pick 32 W 14)) else check false (fld W 6 3 != 0) (fld W 9 15 != 0) (.mlease)) = _
  rw [hbit]
  show check false (fld W 6 3 != 0) (fld W 9 15 != 0) (.mlease) = _
  have q6_3 : fld W 6 3 = 0 := H 6 3 (by decide)
  have q9_15 : fld W 9 15 = 0 := H 9 15 (by decide)
  rw [q6_3, q9_15]
  exact check_ok hw

theorem mleaseG (d : Fin 32) (a : Fin 32) : Statement (.mleaseG d a) := by
  intro _ hw
  obtain ⟨W, hW, hlt, H⟩ := word_of (i := (.mleaseG d a)) 0x34000026 [d.val, a.val] [(19, 5), (14, 5)] rfl
    ⟨d.isLt, a.isLt, trivial⟩ (by decide)
  have q30_2 : fld W 30 2 = 0 := H 30 2 (by decide)
  rw [(decode_at hW hlt).1 q30_2]
  have q24_6 : fld W 24 6 = 52 := H 24 6 (by decide)
  have q0_5 : fld W 0 5 = 6 := H 0 5 (by decide)
  rw [decodeS_family q24_6 (by decide)]
  show decodeEng W = _
  rw [decodeEng, q0_5]
  have q5_1 : fld W 5 1 = 1 := H 5 1 (by decide)
  have hbit : bit W 5 = true := bit_of (b := true) q5_1
  show (if bit W 5 then check false (fld W 6 3 != 0) (fld W 9 5 != 0) (.mleaseG (pick 32 W 19) (pick 32 W 14)) else check false (fld W 6 3 != 0) (fld W 9 15 != 0) (.mlease)) = _
  rw [hbit]
  show check false (fld W 6 3 != 0) (fld W 9 5 != 0) (.mleaseG (pick 32 W 19) (pick 32 W 14)) = _
  have q6_3 : fld W 6 3 = 0 := H 6 3 (by decide)
  have q9_5 : fld W 9 5 = 0 := H 9 5 (by decide)
  rw [q6_3, q9_5]
  have q19_5 : fld W 19 5 = d.val := H 19 5 (by decide)
  have q14_5 : fld W 14 5 = a.val := H 14 5 (by decide)
  rw [pick_of 5 q19_5 rfl, pick_of 5 q14_5 rfl]
  exact check_ok hw

theorem mrelease : Statement .mrelease := by
  intro _ hw
  obtain ⟨W, hW, hlt, H⟩ := word_of (i := .mrelease) 0x34000007 [] [] rfl
    trivial (by decide)
  have q30_2 : fld W 30 2 = 0 := H 30 2 (by decide)
  rw [(decode_at hW hlt).1 q30_2]
  have q24_6 : fld W 24 6 = 52 := H 24 6 (by decide)
  have q0_5 : fld W 0 5 = 7 := H 0 5 (by decide)
  rw [decodeS_family q24_6 (by decide)]
  show decodeEng W = _
  rw [decodeEng, q0_5]
  show check false (fld W 5 4 != 0) (fld W 9 15 != 0) (.mrelease) = _
  have q5_4 : fld W 5 4 = 0 := H 5 4 (by decide)
  have q9_15 : fld W 9 15 = 0 := H 9 15 (by decide)
  rw [q5_4, q9_15]
  exact check_ok hw

theorem chwait (d : Fin 32) (a : Fin 32) (h : Fin 8) : Statement (.chwait d a h) := by
  intro _ hw
  obtain ⟨W, hW, hlt, H⟩ := word_of (i := (.chwait d a h)) 0x34000008 [d.val, a.val, h.val] [(19, 5), (14, 5), (5, 3)] rfl
    ⟨d.isLt, a.isLt, h.isLt, trivial⟩ (by decide)
  have q30_2 : fld W 30 2 = 0 := H 30 2 (by decide)
  rw [(decode_at hW hlt).1 q30_2]
  have q24_6 : fld W 24 6 = 52 := H 24 6 (by decide)
  have q0_5 : fld W 0 5 = 8 := H 0 5 (by decide)
  rw [decodeS_family q24_6 (by decide)]
  show decodeEng W = _
  rw [decodeEng, q0_5]
  show check false (fld W 8 1 != 0) (fld W 9 5 != 0) (.chwait (pick 32 W 19) (pick 32 W 14) (pick 8 W 5)) = _
  have q8_1 : fld W 8 1 = 0 := H 8 1 (by decide)
  have q9_5 : fld W 9 5 = 0 := H 9 5 (by decide)
  rw [q8_1, q9_5]
  have q19_5 : fld W 19 5 = d.val := H 19 5 (by decide)
  have q14_5 : fld W 14 5 = a.val := H 14 5 (by decide)
  have q5_3 : fld W 5 3 = h.val := H 5 3 (by decide)
  rw [pick_of 5 q19_5 rfl, pick_of 5 q14_5 rfl, pick_of 3 q5_3 rfl]
  exact check_ok hw

theorem chid (d : Fin 32) (h : Fin 8) : Statement (.chid d h) := by
  intro _ hw
  obtain ⟨W, hW, hlt, H⟩ := word_of (i := (.chid d h)) 0x34000009 [d.val, h.val] [(19, 5), (5, 3)] rfl
    ⟨d.isLt, h.isLt, trivial⟩ (by decide)
  have q30_2 : fld W 30 2 = 0 := H 30 2 (by decide)
  rw [(decode_at hW hlt).1 q30_2]
  have q24_6 : fld W 24 6 = 52 := H 24 6 (by decide)
  have q0_5 : fld W 0 5 = 9 := H 0 5 (by decide)
  rw [decodeS_family q24_6 (by decide)]
  show decodeEng W = _
  rw [decodeEng, q0_5]
  show check false (fld W 8 1 != 0) (fld W 9 10 != 0) (.chid (pick 32 W 19) (pick 8 W 5)) = _
  have q8_1 : fld W 8 1 = 0 := H 8 1 (by decide)
  have q9_10 : fld W 9 10 = 0 := H 9 10 (by decide)
  rw [q8_1, q9_10]
  have q19_5 : fld W 19 5 = d.val := H 19 5 (by decide)
  have q5_3 : fld W 5 3 = h.val := H 5 3 (by decide)
  rw [pick_of 5 q19_5 rfl, pick_of 3 q5_3 rfl]
  exact check_ok hw

theorem tdset (d : Fin 32) (a : Fin 32) (n : Fin 16) : Statement (.tdset d a n) := by
  intro _ hw
  obtain ⟨W, hW, hlt, H⟩ := word_of (i := (.tdset d a n)) 0x35000001 [d.val, a.val, n.val] [(19, 5), (14, 5), (5, 4)] rfl
    ⟨d.isLt, a.isLt, n.isLt, trivial⟩ (by decide)
  have q30_2 : fld W 30 2 = 0 := H 30 2 (by decide)
  rw [(decode_at hW hlt).1 q30_2]
  have q24_6 : fld W 24 6 = 53 := H 24 6 (by decide)
  have q0_5 : fld W 0 5 = 1 := H 0 5 (by decide)
  rw [decodeS_family q24_6 (by decide)]
  show decodeDesc W = _
  rw [decodeDesc, q0_5]
  show check false false (fld W 9 5 != 0) (.tdset (pick 32 W 19) (pick 32 W 14) (pick 16 W 5)) = _
  have q9_5 : fld W 9 5 = 0 := H 9 5 (by decide)
  rw [q9_5]
  have q19_5 : fld W 19 5 = d.val := H 19 5 (by decide)
  have q14_5 : fld W 14 5 = a.val := H 14 5 (by decide)
  have q5_4 : fld W 5 4 = n.val := H 5 4 (by decide)
  rw [pick_of 5 q19_5 rfl, pick_of 5 q14_5 rfl, pick_of 4 q5_4 rfl]
  exact check_ok hw

theorem cdset (d : Fin 32) (a : Fin 32) (n : Fin 16) : Statement (.cdset d a n) := by
  intro _ hw
  obtain ⟨W, hW, hlt, H⟩ := word_of (i := (.cdset d a n)) 0x35000002 [d.val, a.val, n.val] [(19, 5), (14, 5), (5, 4)] rfl
    ⟨d.isLt, a.isLt, n.isLt, trivial⟩ (by decide)
  have q30_2 : fld W 30 2 = 0 := H 30 2 (by decide)
  rw [(decode_at hW hlt).1 q30_2]
  have q24_6 : fld W 24 6 = 53 := H 24 6 (by decide)
  have q0_5 : fld W 0 5 = 2 := H 0 5 (by decide)
  rw [decodeS_family q24_6 (by decide)]
  show decodeDesc W = _
  rw [decodeDesc, q0_5]
  show check false false (fld W 9 5 != 0) (.cdset (pick 32 W 19) (pick 32 W 14) (pick 16 W 5)) = _
  have q9_5 : fld W 9 5 = 0 := H 9 5 (by decide)
  rw [q9_5]
  have q19_5 : fld W 19 5 = d.val := H 19 5 (by decide)
  have q14_5 : fld W 14 5 = a.val := H 14 5 (by decide)
  have q5_4 : fld W 5 4 = n.val := H 5 4 (by decide)
  rw [pick_of 5 q19_5 rfl, pick_of 5 q14_5 rfl, pick_of 4 q5_4 rfl]
  exact check_ok hw

theorem agset (d : Fin 32) (a : Fin 32) (n : Fin 8) : Statement (.agset d a n) := by
  intro _ hw
  obtain ⟨W, hW, hlt, H⟩ := word_of (i := (.agset d a n)) 0x35000003 [d.val, a.val, n.val] [(19, 5), (14, 5), (5, 3)] rfl
    ⟨d.isLt, a.isLt, n.isLt, trivial⟩ (by decide)
  have q30_2 : fld W 30 2 = 0 := H 30 2 (by decide)
  rw [(decode_at hW hlt).1 q30_2]
  have q24_6 : fld W 24 6 = 53 := H 24 6 (by decide)
  have q0_5 : fld W 0 5 = 3 := H 0 5 (by decide)
  rw [decodeS_family q24_6 (by decide)]
  show decodeDesc W = _
  rw [decodeDesc, q0_5]
  show check false (fld W 8 1 != 0) (fld W 9 5 != 0) (.agset (pick 32 W 19) (pick 32 W 14) (pick 8 W 5)) = _
  have q8_1 : fld W 8 1 = 0 := H 8 1 (by decide)
  have q9_5 : fld W 9 5 = 0 := H 9 5 (by decide)
  rw [q8_1, q9_5]
  have q19_5 : fld W 19 5 = d.val := H 19 5 (by decide)
  have q14_5 : fld W 14 5 = a.val := H 14 5 (by decide)
  have q5_3 : fld W 5 3 = n.val := H 5 3 (by decide)
  rw [pick_of 5 q19_5 rfl, pick_of 5 q14_5 rfl, pick_of 3 q5_3 rfl]
  exact check_ok hw

theorem portbind (d : Fin 32) (a : Fin 32) (p : Fin 4) : Statement (.portbind d a p) := by
  intro _ hw
  obtain ⟨W, hW, hlt, H⟩ := word_of (i := (.portbind d a p)) 0x35000004 [d.val, a.val, p.val] [(19, 5), (14, 5), (5, 2)] rfl
    ⟨d.isLt, a.isLt, p.isLt, trivial⟩ (by decide)
  have q30_2 : fld W 30 2 = 0 := H 30 2 (by decide)
  rw [(decode_at hW hlt).1 q30_2]
  have q24_6 : fld W 24 6 = 53 := H 24 6 (by decide)
  have q0_5 : fld W 0 5 = 4 := H 0 5 (by decide)
  rw [decodeS_family q24_6 (by decide)]
  show decodeDesc W = _
  rw [decodeDesc, q0_5]
  show check false (fld W 7 2 != 0) (fld W 9 5 != 0) (.portbind (pick 32 W 19) (pick 32 W 14) (pick 4 W 5)) = _
  have q7_2 : fld W 7 2 = 0 := H 7 2 (by decide)
  have q9_5 : fld W 9 5 = 0 := H 9 5 (by decide)
  rw [q7_2, q9_5]
  have q19_5 : fld W 19 5 = d.val := H 19 5 (by decide)
  have q14_5 : fld W 14 5 = a.val := H 14 5 (by decide)
  have q5_2 : fld W 5 2 = p.val := H 5 2 (by decide)
  rw [pick_of 5 q19_5 rfl, pick_of 5 q14_5 rfl, pick_of 2 q5_2 rfl]
  exact check_ok hw

theorem trap (i : BitVec 10) : Statement (.trap i) := by
  intro _ hw
  obtain ⟨W, hW, hlt, H⟩ := word_of (i := (.trap i)) 0x38000001 [i.toNat] [(9, 10)] rfl
    ⟨i.isLt, trivial⟩ (by decide)
  have q30_2 : fld W 30 2 = 0 := H 30 2 (by decide)
  rw [(decode_at hW hlt).1 q30_2]
  have q24_6 : fld W 24 6 = 56 := H 24 6 (by decide)
  have q0_5 : fld W 0 5 = 1 := H 0 5 (by decide)
  rw [decodeS_family q24_6 (by decide)]
  show decodeSys W = _
  rw [decodeSys, q0_5]
  show check false (fld W 5 4 != 0) (fld W 19 5 != 0) (.trap (.ofNat 10 (W / 2^9))) = _
  have q5_4 : fld W 5 4 = 0 := H 5 4 (by decide)
  have q19_5 : fld W 19 5 = 0 := H 19 5 (by decide)
  rw [q5_4, q19_5]
  have q9_10 : fld W 9 10 = i.toNat := H 9 10 (by decide)
  rw [bv_of q9_10]
  exact check_ok hw

theorem tret (k : Bool) (r : Bool) : Statement (.tret k r) := by
  intro _ hw
  obtain ⟨W, hW, hlt, H⟩ := word_of (i := (.tret k r)) 0x38000002 [k.toNat, r.toNat] [(10, 1), (9, 1)] rfl
    ⟨Bool.toNat_lt k, Bool.toNat_lt r, trivial⟩ (by decide)
  have q30_2 : fld W 30 2 = 0 := H 30 2 (by decide)
  rw [(decode_at hW hlt).1 q30_2]
  have q24_6 : fld W 24 6 = 56 := H 24 6 (by decide)
  have q0_5 : fld W 0 5 = 2 := H 0 5 (by decide)
  rw [decodeS_family q24_6 (by decide)]
  show decodeSys W = _
  rw [decodeSys, q0_5]
  show check false (fld W 5 4 != 0) (fld W 11 13 != 0) (.tret (bit W 10) (bit W 9)) = _
  have q5_4 : fld W 5 4 = 0 := H 5 4 (by decide)
  have q11_13 : fld W 11 13 = 0 := H 11 13 (by decide)
  rw [q5_4, q11_13]
  have q10_1 : fld W 10 1 = k.toNat := H 10 1 (by decide)
  have q9_1 : fld W 9 1 = r.toNat := H 9 1 (by decide)
  rw [bit_of q10_1, bit_of q9_1]
  exact check_ok hw

theorem srd (d : Fin 32) (n : Fin 1024) (m : Fin 4) : Statement (.srd d n m) := by
  intro _ hw
  obtain ⟨W, hW, hlt, H⟩ := word_of (i := (.srd d n m)) 0x38000003 [d.val, n.val, m.val] [(19, 5), (9, 10), (5, 2)] rfl
    ⟨d.isLt, n.isLt, m.isLt, trivial⟩ (by decide)
  have q30_2 : fld W 30 2 = 0 := H 30 2 (by decide)
  rw [(decode_at hW hlt).1 q30_2]
  have q24_6 : fld W 24 6 = 56 := H 24 6 (by decide)
  have q0_5 : fld W 0 5 = 3 := H 0 5 (by decide)
  rw [decodeS_family q24_6 (by decide)]
  show decodeSys W = _
  rw [decodeSys, q0_5]
  show check false false (fld W 7 2 != 0) (.srd (pick 32 W 19) (pick 1024 W 9) (pick 4 W 5)) = _
  have q7_2 : fld W 7 2 = 0 := H 7 2 (by decide)
  rw [q7_2]
  have q19_5 : fld W 19 5 = d.val := H 19 5 (by decide)
  have q9_10 : fld W 9 10 = n.val := H 9 10 (by decide)
  have q5_2 : fld W 5 2 = m.val := H 5 2 (by decide)
  rw [pick_of 5 q19_5 rfl, pick_of 10 q9_10 rfl, pick_of 2 q5_2 rfl]
  exact check_ok hw

theorem swr (t : Fin 32) (n : Fin 1024) (m : Fin 4) : Statement (.swr t n m) := by
  intro _ hw
  obtain ⟨W, hW, hlt, H⟩ := word_of (i := (.swr t n m)) 0x38000004 [t.val, n.val, m.val] [(19, 5), (9, 10), (5, 2)] rfl
    ⟨t.isLt, n.isLt, m.isLt, trivial⟩ (by decide)
  have q30_2 : fld W 30 2 = 0 := H 30 2 (by decide)
  rw [(decode_at hW hlt).1 q30_2]
  have q24_6 : fld W 24 6 = 56 := H 24 6 (by decide)
  have q0_5 : fld W 0 5 = 4 := H 0 5 (by decide)
  rw [decodeS_family q24_6 (by decide)]
  show decodeSys W = _
  rw [decodeSys, q0_5]
  show check false false (fld W 7 2 != 0) (decodeSwr W) = _
  have q7_2 : fld W 7 2 = 0 := H 7 2 (by decide)
  rw [q7_2]
  have q5_2 : fld W 5 2 = m.val := H 5 2 (by decide)
  have q9_10 : fld W 9 10 = n.val := H 9 10 (by decide)
  have q19_5 : fld W 19 5 = t.val := H 19 5 (by decide)
  have e : decodeSwr W = .swr t n m := by
    have hx := hw
    simp only [Instr.WellFormed, Instr.selectorOk, sregRows, Bool.and_eq_true, beq_iff_eq, Bool.not_eq_true', List.contains_eq_mem, List.mem_cons, List.not_mem_nil, or_false,
      decide_eq_false_iff_not, not_or] at hx
    rw [decodeSwr, q5_2, q9_10, pick_of 5 q19_5 rfl, pick_of 10 q9_10 rfl, pick_of 2 q5_2 rfl]
    split <;> first | rfl | omega
  rw [e]
  exact check_ok hw

theorem swrFlags (t : Fin 32) : Statement (.swrFlags t) := by
  intro _ hw
  obtain ⟨W, hW, hlt, H⟩ := word_of (i := (.swrFlags t)) 0x38002004 [t.val] [(19, 5)] rfl
    ⟨t.isLt, trivial⟩ (by decide)
  have q30_2 : fld W 30 2 = 0 := H 30 2 (by decide)
  rw [(decode_at hW hlt).1 q30_2]
  have q24_6 : fld W 24 6 = 56 := H 24 6 (by decide)
  have q0_5 : fld W 0 5 = 4 := H 0 5 (by decide)
  rw [decodeS_family q24_6 (by decide)]
  show decodeSys W = _
  rw [decodeSys, q0_5]
  show check false false (fld W 7 2 != 0) (decodeSwr W) = _
  have q7_2 : fld W 7 2 = 0 := H 7 2 (by decide)
  rw [q7_2]
  have q5_2 : fld W 5 2 = 0 := H 5 2 (by decide)
  have q9_10 : fld W 9 10 = 16 := H 9 10 (by decide)
  have q19_5 : fld W 19 5 = t.val := H 19 5 (by decide)
  have e : decodeSwr W = .swrFlags t := by
    rw [decodeSwr, q5_2, q9_10]
    show Instr.swrFlags (pick 32 W 19) = _
    rw [pick_of 5 q19_5 rfl]
  rw [e]
  exact check_ok hw

theorem swrVtype (t : Fin 32) : Statement (.swrVtype t) := by
  intro _ hw
  obtain ⟨W, hW, hlt, H⟩ := word_of (i := (.swrVtype t)) 0x38002204 [t.val] [(19, 5)] rfl
    ⟨t.isLt, trivial⟩ (by decide)
  have q30_2 : fld W 30 2 = 0 := H 30 2 (by decide)
  rw [(decode_at hW hlt).1 q30_2]
  have q24_6 : fld W 24 6 = 56 := H 24 6 (by decide)
  have q0_5 : fld W 0 5 = 4 := H 0 5 (by decide)
  rw [decodeS_family q24_6 (by decide)]
  show decodeSys W = _
  rw [decodeSys, q0_5]
  show check false false (fld W 7 2 != 0) (decodeSwr W) = _
  have q7_2 : fld W 7 2 = 0 := H 7 2 (by decide)
  rw [q7_2]
  have q5_2 : fld W 5 2 = 0 := H 5 2 (by decide)
  have q9_10 : fld W 9 10 = 17 := H 9 10 (by decide)
  have q19_5 : fld W 19 5 = t.val := H 19 5 (by decide)
  have e : decodeSwr W = .swrVtype t := by
    rw [decodeSwr, q5_2, q9_10]
    show Instr.swrVtype (pick 32 W 19) = _
    rw [pick_of 5 q19_5 rfl]
  rw [e]
  exact check_ok hw

theorem swrRrb (t : Fin 32) : Statement (.swrRrb t) := by
  intro _ hw
  obtain ⟨W, hW, hlt, H⟩ := word_of (i := (.swrRrb t)) 0x38002404 [t.val] [(19, 5)] rfl
    ⟨t.isLt, trivial⟩ (by decide)
  have q30_2 : fld W 30 2 = 0 := H 30 2 (by decide)
  rw [(decode_at hW hlt).1 q30_2]
  have q24_6 : fld W 24 6 = 56 := H 24 6 (by decide)
  have q0_5 : fld W 0 5 = 4 := H 0 5 (by decide)
  rw [decodeS_family q24_6 (by decide)]
  show decodeSys W = _
  rw [decodeSys, q0_5]
  show check false false (fld W 7 2 != 0) (decodeSwr W) = _
  have q7_2 : fld W 7 2 = 0 := H 7 2 (by decide)
  rw [q7_2]
  have q5_2 : fld W 5 2 = 0 := H 5 2 (by decide)
  have q9_10 : fld W 9 10 = 18 := H 9 10 (by decide)
  have q19_5 : fld W 19 5 = t.val := H 19 5 (by decide)
  have e : decodeSwr W = .swrRrb t := by
    rw [decodeSwr, q5_2, q9_10]
    show Instr.swrRrb (pick 32 W 19) = _
    rw [pick_of 5 q19_5 rfl]
  rw [e]
  exact check_ok hw

theorem swrEc (t : Fin 32) : Statement (.swrEc t) := by
  intro _ hw
  obtain ⟨W, hW, hlt, H⟩ := word_of (i := (.swrEc t)) 0x38002604 [t.val] [(19, 5)] rfl
    ⟨t.isLt, trivial⟩ (by decide)
  have q30_2 : fld W 30 2 = 0 := H 30 2 (by decide)
  rw [(decode_at hW hlt).1 q30_2]
  have q24_6 : fld W 24 6 = 56 := H 24 6 (by decide)
  have q0_5 : fld W 0 5 = 4 := H 0 5 (by decide)
  rw [decodeS_family q24_6 (by decide)]
  show decodeSys W = _
  rw [decodeSys, q0_5]
  show check false false (fld W 7 2 != 0) (decodeSwr W) = _
  have q7_2 : fld W 7 2 = 0 := H 7 2 (by decide)
  rw [q7_2]
  have q5_2 : fld W 5 2 = 0 := H 5 2 (by decide)
  have q9_10 : fld W 9 10 = 19 := H 9 10 (by decide)
  have q19_5 : fld W 19 5 = t.val := H 19 5 (by decide)
  have e : decodeSwr W = .swrEc t := by
    rw [decodeSwr, q5_2, q9_10]
    show Instr.swrEc (pick 32 W 19) = _
    rw [pick_of 5 q19_5 rfl]
  rw [e]
  exact check_ok hw

theorem swrSrseed (t : Fin 32) : Statement (.swrSrseed t) := by
  intro _ hw
  obtain ⟨W, hW, hlt, H⟩ := word_of (i := (.swrSrseed t)) 0x38002A04 [t.val] [(19, 5)] rfl
    ⟨t.isLt, trivial⟩ (by decide)
  have q30_2 : fld W 30 2 = 0 := H 30 2 (by decide)
  rw [(decode_at hW hlt).1 q30_2]
  have q24_6 : fld W 24 6 = 56 := H 24 6 (by decide)
  have q0_5 : fld W 0 5 = 4 := H 0 5 (by decide)
  rw [decodeS_family q24_6 (by decide)]
  show decodeSys W = _
  rw [decodeSys, q0_5]
  show check false false (fld W 7 2 != 0) (decodeSwr W) = _
  have q7_2 : fld W 7 2 = 0 := H 7 2 (by decide)
  rw [q7_2]
  have q5_2 : fld W 5 2 = 0 := H 5 2 (by decide)
  have q9_10 : fld W 9 10 = 21 := H 9 10 (by decide)
  have q19_5 : fld W 19 5 = t.val := H 19 5 (by decide)
  have e : decodeSwr W = .swrSrseed t := by
    rw [decodeSwr, q5_2, q9_10]
    show Instr.swrSrseed (pick 32 W 19) = _
    rw [pick_of 5 q19_5 rfl]
  rw [e]
  exact check_ok hw

theorem swrPreempt (t : Fin 32) : Statement (.swrPreempt t) := by
  intro _ hw
  obtain ⟨W, hW, hlt, H⟩ := word_of (i := (.swrPreempt t)) 0x38021404 [t.val] [(19, 5)] rfl
    ⟨t.isLt, trivial⟩ (by decide)
  have q30_2 : fld W 30 2 = 0 := H 30 2 (by decide)
  rw [(decode_at hW hlt).1 q30_2]
  have q24_6 : fld W 24 6 = 56 := H 24 6 (by decide)
  have q0_5 : fld W 0 5 = 4 := H 0 5 (by decide)
  rw [decodeS_family q24_6 (by decide)]
  show decodeSys W = _
  rw [decodeSys, q0_5]
  show check false false (fld W 7 2 != 0) (decodeSwr W) = _
  have q7_2 : fld W 7 2 = 0 := H 7 2 (by decide)
  rw [q7_2]
  have q5_2 : fld W 5 2 = 0 := H 5 2 (by decide)
  have q9_10 : fld W 9 10 = 266 := H 9 10 (by decide)
  have q19_5 : fld W 19 5 = t.val := H 19 5 (by decide)
  have e : decodeSwr W = .swrPreempt t := by
    rw [decodeSwr, q5_2, q9_10]
    show Instr.swrPreempt (pick 32 W 19) = _
    rw [pick_of 5 q19_5 rfl]
  rw [e]
  exact check_ok hw

theorem swrEnvcb (t : Fin 32) : Statement (.swrEnvcb t) := by
  intro _ hw
  obtain ⟨W, hW, hlt, H⟩ := word_of (i := (.swrEnvcb t)) 0x38021804 [t.val] [(19, 5)] rfl
    ⟨t.isLt, trivial⟩ (by decide)
  have q30_2 : fld W 30 2 = 0 := H 30 2 (by decide)
  rw [(decode_at hW hlt).1 q30_2]
  have q24_6 : fld W 24 6 = 56 := H 24 6 (by decide)
  have q0_5 : fld W 0 5 = 4 := H 0 5 (by decide)
  rw [decodeS_family q24_6 (by decide)]
  show decodeSys W = _
  rw [decodeSys, q0_5]
  show check false false (fld W 7 2 != 0) (decodeSwr W) = _
  have q7_2 : fld W 7 2 = 0 := H 7 2 (by decide)
  rw [q7_2]
  have q5_2 : fld W 5 2 = 0 := H 5 2 (by decide)
  have q9_10 : fld W 9 10 = 268 := H 9 10 (by decide)
  have q19_5 : fld W 19 5 = t.val := H 19 5 (by decide)
  have e : decodeSwr W = .swrEnvcb t := by
    rw [decodeSwr, q5_2, q9_10]
    show Instr.swrEnvcb (pick 32 W 19) = _
    rw [pick_of 5 q19_5 rfl]
  rw [e]
  exact check_ok hw

theorem swrInjcfg (t : Fin 32) : Statement (.swrInjcfg t) := by
  intro _ hw
  obtain ⟨W, hW, hlt, H⟩ := word_of (i := (.swrInjcfg t)) 0x38040204 [t.val] [(19, 5)] rfl
    ⟨t.isLt, trivial⟩ (by decide)
  have q30_2 : fld W 30 2 = 0 := H 30 2 (by decide)
  rw [(decode_at hW hlt).1 q30_2]
  have q24_6 : fld W 24 6 = 56 := H 24 6 (by decide)
  have q0_5 : fld W 0 5 = 4 := H 0 5 (by decide)
  rw [decodeS_family q24_6 (by decide)]
  show decodeSys W = _
  rw [decodeSys, q0_5]
  show check false false (fld W 7 2 != 0) (decodeSwr W) = _
  have q7_2 : fld W 7 2 = 0 := H 7 2 (by decide)
  rw [q7_2]
  have q5_2 : fld W 5 2 = 0 := H 5 2 (by decide)
  have q9_10 : fld W 9 10 = 513 := H 9 10 (by decide)
  have q19_5 : fld W 19 5 = t.val := H 19 5 (by decide)
  have e : decodeSwr W = .swrInjcfg t := by
    rw [decodeSwr, q5_2, q9_10]
    show Instr.swrInjcfg (pick 32 W 19) = _
    rw [pick_of 5 q19_5 rfl]
  rw [e]
  exact check_ok hw

theorem accspill (d : Fin 32) (a : Fin 32) (b : Fin 32) : Statement (.accspill d a b) := by
  intro _ hw
  obtain ⟨W, hW, hlt, H⟩ := word_of (i := (.accspill d a b)) 0x38000005 [d.val, a.val, b.val] [(19, 5), (14, 5), (9, 5)] rfl
    ⟨d.isLt, a.isLt, b.isLt, trivial⟩ (by decide)
  have q30_2 : fld W 30 2 = 0 := H 30 2 (by decide)
  rw [(decode_at hW hlt).1 q30_2]
  have q24_6 : fld W 24 6 = 56 := H 24 6 (by decide)
  have q0_5 : fld W 0 5 = 5 := H 0 5 (by decide)
  rw [decodeS_family q24_6 (by decide)]
  show decodeSys W = _
  rw [decodeSys, q0_5]
  show check false (fld W 5 4 != 0) false (.accspill (pick 32 W 19) (pick 32 W 14) (pick 32 W 9)) = _
  have q5_4 : fld W 5 4 = 0 := H 5 4 (by decide)
  rw [q5_4]
  have q19_5 : fld W 19 5 = d.val := H 19 5 (by decide)
  have q14_5 : fld W 14 5 = a.val := H 14 5 (by decide)
  have q9_5 : fld W 9 5 = b.val := H 9 5 (by decide)
  rw [pick_of 5 q19_5 rfl, pick_of 5 q14_5 rfl, pick_of 5 q9_5 rfl]
  exact check_ok hw

theorem accfill (d : Fin 32) (a : Fin 32) (b : Fin 32) : Statement (.accfill d a b) := by
  intro _ hw
  obtain ⟨W, hW, hlt, H⟩ := word_of (i := (.accfill d a b)) 0x38000006 [d.val, a.val, b.val] [(19, 5), (14, 5), (9, 5)] rfl
    ⟨d.isLt, a.isLt, b.isLt, trivial⟩ (by decide)
  have q30_2 : fld W 30 2 = 0 := H 30 2 (by decide)
  rw [(decode_at hW hlt).1 q30_2]
  have q24_6 : fld W 24 6 = 56 := H 24 6 (by decide)
  have q0_5 : fld W 0 5 = 6 := H 0 5 (by decide)
  rw [decodeS_family q24_6 (by decide)]
  show decodeSys W = _
  rw [decodeSys, q0_5]
  show check false (fld W 5 4 != 0) false (.accfill (pick 32 W 19) (pick 32 W 14) (pick 32 W 9)) = _
  have q5_4 : fld W 5 4 = 0 := H 5 4 (by decide)
  rw [q5_4]
  have q19_5 : fld W 19 5 = d.val := H 19 5 (by decide)
  have q14_5 : fld W 14 5 = a.val := H 14 5 (by decide)
  have q9_5 : fld W 9 5 = b.val := H 9 5 (by decide)
  rw [pick_of 5 q19_5 rfl, pick_of 5 q14_5 rfl, pick_of 5 q9_5 rfl]
  exact check_ok hw

theorem ctxsave (d : Fin 32) (a : Fin 32) : Statement (.ctxsave d a) := by
  intro _ hw
  obtain ⟨W, hW, hlt, H⟩ := word_of (i := (.ctxsave d a)) 0x38000007 [d.val, a.val] [(19, 5), (14, 5)] rfl
    ⟨d.isLt, a.isLt, trivial⟩ (by decide)
  have q30_2 : fld W 30 2 = 0 := H 30 2 (by decide)
  rw [(decode_at hW hlt).1 q30_2]
  have q24_6 : fld W 24 6 = 56 := H 24 6 (by decide)
  have q0_5 : fld W 0 5 = 7 := H 0 5 (by decide)
  rw [decodeS_family q24_6 (by decide)]
  show decodeSys W = _
  rw [decodeSys, q0_5]
  show check false (fld W 5 4 != 0) (fld W 9 5 != 0) (.ctxsave (pick 32 W 19) (pick 32 W 14)) = _
  have q5_4 : fld W 5 4 = 0 := H 5 4 (by decide)
  have q9_5 : fld W 9 5 = 0 := H 9 5 (by decide)
  rw [q5_4, q9_5]
  have q19_5 : fld W 19 5 = d.val := H 19 5 (by decide)
  have q14_5 : fld W 14 5 = a.val := H 14 5 (by decide)
  rw [pick_of 5 q19_5 rfl, pick_of 5 q14_5 rfl]
  exact check_ok hw

theorem ctxload (d : Fin 32) (a : Fin 32) (b : Fin 32) : Statement (.ctxload d a b) := by
  intro _ hw
  obtain ⟨W, hW, hlt, H⟩ := word_of (i := (.ctxload d a b)) 0x38000008 [d.val, a.val, b.val] [(19, 5), (14, 5), (9, 5)] rfl
    ⟨d.isLt, a.isLt, b.isLt, trivial⟩ (by decide)
  have q30_2 : fld W 30 2 = 0 := H 30 2 (by decide)
  rw [(decode_at hW hlt).1 q30_2]
  have q24_6 : fld W 24 6 = 56 := H 24 6 (by decide)
  have q0_5 : fld W 0 5 = 8 := H 0 5 (by decide)
  rw [decodeS_family q24_6 (by decide)]
  show decodeSys W = _
  rw [decodeSys, q0_5]
  show check false (fld W 5 4 != 0) false (.ctxload (pick 32 W 19) (pick 32 W 14) (pick 32 W 9)) = _
  have q5_4 : fld W 5 4 = 0 := H 5 4 (by decide)
  rw [q5_4]
  have q19_5 : fld W 19 5 = d.val := H 19 5 (by decide)
  have q14_5 : fld W 14 5 = a.val := H 14 5 (by decide)
  have q9_5 : fld W 9 5 = b.val := H 9 5 (by decide)
  rw [pick_of 5 q19_5 rfl, pick_of 5 q14_5 rfl, pick_of 5 q9_5 rfl]
  exact check_ok hw

theorem tlbinv (d : Fin 32) (a : Fin 32) (b : Fin 32) : Statement (.tlbinv d a b) := by
  intro _ hw
  obtain ⟨W, hW, hlt, H⟩ := word_of (i := (.tlbinv d a b)) 0x38000009 [d.val, a.val, b.val] [(19, 5), (14, 5), (9, 5)] rfl
    ⟨d.isLt, a.isLt, b.isLt, trivial⟩ (by decide)
  have q30_2 : fld W 30 2 = 0 := H 30 2 (by decide)
  rw [(decode_at hW hlt).1 q30_2]
  have q24_6 : fld W 24 6 = 56 := H 24 6 (by decide)
  have q0_5 : fld W 0 5 = 9 := H 0 5 (by decide)
  rw [decodeS_family q24_6 (by decide)]
  show decodeSys W = _
  rw [decodeSys, q0_5]
  show check false (fld W 5 4 != 0) false (.tlbinv (pick 32 W 19) (pick 32 W 14) (pick 32 W 9)) = _
  have q5_4 : fld W 5 4 = 0 := H 5 4 (by decide)
  rw [q5_4]
  have q19_5 : fld W 19 5 = d.val := H 19 5 (by decide)
  have q14_5 : fld W 14 5 = a.val := H 14 5 (by decide)
  have q9_5 : fld W 9 5 = b.val := H 9 5 (by decide)
  rw [pick_of 5 q19_5 rfl, pick_of 5 q14_5 rfl, pick_of 5 q9_5 rfl]
  exact check_ok hw

theorem elogrd (d : Fin 32) (a : Fin 32) (b : Fin 32) : Statement (.elogrd d a b) := by
  intro _ hw
  obtain ⟨W, hW, hlt, H⟩ := word_of (i := (.elogrd d a b)) 0x3800000A [d.val, a.val, b.val] [(19, 5), (14, 5), (9, 5)] rfl
    ⟨d.isLt, a.isLt, b.isLt, trivial⟩ (by decide)
  have q30_2 : fld W 30 2 = 0 := H 30 2 (by decide)
  rw [(decode_at hW hlt).1 q30_2]
  have q24_6 : fld W 24 6 = 56 := H 24 6 (by decide)
  have q0_5 : fld W 0 5 = 10 := H 0 5 (by decide)
  rw [decodeS_family q24_6 (by decide)]
  show decodeSys W = _
  rw [decodeSys, q0_5]
  show check false (fld W 5 4 != 0) false (.elogrd (pick 32 W 19) (pick 32 W 14) (pick 32 W 9)) = _
  have q5_4 : fld W 5 4 = 0 := H 5 4 (by decide)
  rw [q5_4]
  have q19_5 : fld W 19 5 = d.val := H 19 5 (by decide)
  have q14_5 : fld W 14 5 = a.val := H 14 5 (by decide)
  have q9_5 : fld W 9 5 = b.val := H 9 5 (by decide)
  rw [pick_of 5 q19_5 rfl, pick_of 5 q14_5 rfl, pick_of 5 q9_5 rfl]
  exact check_ok hw

theorem moncall (d : Fin 32) (a : Fin 32) (b : Fin 32) : Statement (.moncall d a b) := by
  intro _ hw
  obtain ⟨W, hW, hlt, H⟩ := word_of (i := (.moncall d a b)) 0x3800000B [d.val, a.val, b.val] [(19, 5), (14, 5), (9, 5)] rfl
    ⟨d.isLt, a.isLt, b.isLt, trivial⟩ (by decide)
  have q30_2 : fld W 30 2 = 0 := H 30 2 (by decide)
  rw [(decode_at hW hlt).1 q30_2]
  have q24_6 : fld W 24 6 = 56 := H 24 6 (by decide)
  have q0_5 : fld W 0 5 = 11 := H 0 5 (by decide)
  rw [decodeS_family q24_6 (by decide)]
  show decodeSys W = _
  rw [decodeSys, q0_5]
  show check false (fld W 5 4 != 0) false (.moncall (pick 32 W 19) (pick 32 W 14) (pick 32 W 9)) = _
  have q5_4 : fld W 5 4 = 0 := H 5 4 (by decide)
  rw [q5_4]
  have q19_5 : fld W 19 5 = d.val := H 19 5 (by decide)
  have q14_5 : fld W 14 5 = a.val := H 14 5 (by decide)
  have q9_5 : fld W 9 5 = b.val := H 9 5 (by decide)
  rw [pick_of 5 q19_5 rfl, pick_of 5 q14_5 rfl, pick_of 5 q9_5 rfl]
  exact check_ok hw

theorem halt : Statement .halt := by
  intro _ hw
  obtain ⟨W, hW, hlt, H⟩ := word_of (i := .halt) 0x3800000C [] [] rfl
    trivial (by decide)
  have q30_2 : fld W 30 2 = 0 := H 30 2 (by decide)
  rw [(decode_at hW hlt).1 q30_2]
  have q24_6 : fld W 24 6 = 56 := H 24 6 (by decide)
  have q0_5 : fld W 0 5 = 12 := H 0 5 (by decide)
  rw [decodeS_family q24_6 (by decide)]
  show decodeSys W = _
  rw [decodeSys, q0_5]
  show check false (fld W 5 4 != 0) (fld W 9 15 != 0) (.halt) = _
  have q5_4 : fld W 5 4 = 0 := H 5 4 (by decide)
  have q9_15 : fld W 9 15 = 0 := H 9 15 (by decide)
  rw [q5_4, q9_15]
  exact check_ok hw

theorem vnop (t : Tok) : Statement (.vnop t) := by
  intro _ hw
  obtain ⟨W, hW, hlt, H⟩ := word_of (i := (.vnop t)) 0x40000000 [t.wait.val, t.post.val] [(2, 2), (0, 2)] rfl
    ⟨t.wait.isLt, t.post.isLt, trivial⟩ (by decide)
  have q30_2 : fld W 30 2 = 1 := H 30 2 (by decide)
  rw [(decode_at hW hlt).2.1 q30_2]
  have q24_6 : fld W 24 6 = 0 := H 24 6 (by decide)
  rw [decodeV, q24_6]
  show check false false (fld W 4 20 != 0) (.vnop (tok W)) = _
  have q4_20 : fld W 4 20 = 0 := H 4 20 (by decide)
  rw [q4_20]
  rw [tok_of t (H 2 2 (by decide)) (H 0 2 (by decide))]
  exact check_ok hw

theorem vadd (d : Fin 32) (a : Fin 32) (b : Fin 32) (t : VTail) : Statement (.vadd d a b t) := by
  intro _ hw
  obtain ⟨W, hW, hlt, H⟩ := word_of (i := (.vadd d a b t)) 0x41000000 [d.val, a.val, b.val, t.guard.val, t.sense.toNat, t.wait.val, t.post.val] [(19, 5), (14, 5), (9, 5), (5, 4), (4, 1), (2, 2), (0, 2)] rfl
    ⟨d.isLt, a.isLt, b.isLt, t.guard.isLt, Bool.toNat_lt t.sense, t.wait.isLt, t.post.isLt, trivial⟩ (by decide)
  have q30_2 : fld W 30 2 = 1 := H 30 2 (by decide)
  rw [(decode_at hW hlt).2.1 q30_2]
  have q24_6 : fld W 24 6 = 1 := H 24 6 (by decide)
  rw [decodeV, q24_6]
  show check false false false (.vadd (pick 32 W 19) (pick 32 W 14) (pick 32 W 9) (vtail W)) = _
  have q19_5 : fld W 19 5 = d.val := H 19 5 (by decide)
  have q14_5 : fld W 14 5 = a.val := H 14 5 (by decide)
  have q9_5 : fld W 9 5 = b.val := H 9 5 (by decide)
  rw [pick_of 5 q19_5 rfl, pick_of 5 q14_5 rfl, pick_of 5 q9_5 rfl, vtail_of t (H 5 4 (by decide)) (H 4 1 (by decide)) (H 2 2 (by decide)) (H 0 2 (by decide))]
  exact check_ok hw

theorem vsub (d : Fin 32) (a : Fin 32) (b : Fin 32) (t : VTail) : Statement (.vsub d a b t) := by
  intro _ hw
  obtain ⟨W, hW, hlt, H⟩ := word_of (i := (.vsub d a b t)) 0x42000000 [d.val, a.val, b.val, t.guard.val, t.sense.toNat, t.wait.val, t.post.val] [(19, 5), (14, 5), (9, 5), (5, 4), (4, 1), (2, 2), (0, 2)] rfl
    ⟨d.isLt, a.isLt, b.isLt, t.guard.isLt, Bool.toNat_lt t.sense, t.wait.isLt, t.post.isLt, trivial⟩ (by decide)
  have q30_2 : fld W 30 2 = 1 := H 30 2 (by decide)
  rw [(decode_at hW hlt).2.1 q30_2]
  have q24_6 : fld W 24 6 = 2 := H 24 6 (by decide)
  rw [decodeV, q24_6]
  show check false false false (.vsub (pick 32 W 19) (pick 32 W 14) (pick 32 W 9) (vtail W)) = _
  have q19_5 : fld W 19 5 = d.val := H 19 5 (by decide)
  have q14_5 : fld W 14 5 = a.val := H 14 5 (by decide)
  have q9_5 : fld W 9 5 = b.val := H 9 5 (by decide)
  rw [pick_of 5 q19_5 rfl, pick_of 5 q14_5 rfl, pick_of 5 q9_5 rfl, vtail_of t (H 5 4 (by decide)) (H 4 1 (by decide)) (H 2 2 (by decide)) (H 0 2 (by decide))]
  exact check_ok hw

theorem vmul (d : Fin 32) (a : Fin 32) (b : Fin 32) (t : VTail) : Statement (.vmul d a b t) := by
  intro _ hw
  obtain ⟨W, hW, hlt, H⟩ := word_of (i := (.vmul d a b t)) 0x43000000 [d.val, a.val, b.val, t.guard.val, t.sense.toNat, t.wait.val, t.post.val] [(19, 5), (14, 5), (9, 5), (5, 4), (4, 1), (2, 2), (0, 2)] rfl
    ⟨d.isLt, a.isLt, b.isLt, t.guard.isLt, Bool.toNat_lt t.sense, t.wait.isLt, t.post.isLt, trivial⟩ (by decide)
  have q30_2 : fld W 30 2 = 1 := H 30 2 (by decide)
  rw [(decode_at hW hlt).2.1 q30_2]
  have q24_6 : fld W 24 6 = 3 := H 24 6 (by decide)
  rw [decodeV, q24_6]
  show check false false false (.vmul (pick 32 W 19) (pick 32 W 14) (pick 32 W 9) (vtail W)) = _
  have q19_5 : fld W 19 5 = d.val := H 19 5 (by decide)
  have q14_5 : fld W 14 5 = a.val := H 14 5 (by decide)
  have q9_5 : fld W 9 5 = b.val := H 9 5 (by decide)
  rw [pick_of 5 q19_5 rfl, pick_of 5 q14_5 rfl, pick_of 5 q9_5 rfl, vtail_of t (H 5 4 (by decide)) (H 4 1 (by decide)) (H 2 2 (by decide)) (H 0 2 (by decide))]
  exact check_ok hw

theorem vfma (d : Fin 32) (a : Fin 32) (b : Fin 32) (t : VTail) : Statement (.vfma d a b t) := by
  intro _ hw
  obtain ⟨W, hW, hlt, H⟩ := word_of (i := (.vfma d a b t)) 0x44000000 [d.val, a.val, b.val, t.guard.val, t.sense.toNat, t.wait.val, t.post.val] [(19, 5), (14, 5), (9, 5), (5, 4), (4, 1), (2, 2), (0, 2)] rfl
    ⟨d.isLt, a.isLt, b.isLt, t.guard.isLt, Bool.toNat_lt t.sense, t.wait.isLt, t.post.isLt, trivial⟩ (by decide)
  have q30_2 : fld W 30 2 = 1 := H 30 2 (by decide)
  rw [(decode_at hW hlt).2.1 q30_2]
  have q24_6 : fld W 24 6 = 4 := H 24 6 (by decide)
  rw [decodeV, q24_6]
  show check false false false (.vfma (pick 32 W 19) (pick 32 W 14) (pick 32 W 9) (vtail W)) = _
  have q19_5 : fld W 19 5 = d.val := H 19 5 (by decide)
  have q14_5 : fld W 14 5 = a.val := H 14 5 (by decide)
  have q9_5 : fld W 9 5 = b.val := H 9 5 (by decide)
  rw [pick_of 5 q19_5 rfl, pick_of 5 q14_5 rfl, pick_of 5 q9_5 rfl, vtail_of t (H 5 4 (by decide)) (H 4 1 (by decide)) (H 2 2 (by decide)) (H 0 2 (by decide))]
  exact check_ok hw

theorem vfms (d : Fin 32) (a : Fin 32) (b : Fin 32) (t : VTail) : Statement (.vfms d a b t) := by
  intro _ hw
  obtain ⟨W, hW, hlt, H⟩ := word_of (i := (.vfms d a b t)) 0x45000000 [d.val, a.val, b.val, t.guard.val, t.sense.toNat, t.wait.val, t.post.val] [(19, 5), (14, 5), (9, 5), (5, 4), (4, 1), (2, 2), (0, 2)] rfl
    ⟨d.isLt, a.isLt, b.isLt, t.guard.isLt, Bool.toNat_lt t.sense, t.wait.isLt, t.post.isLt, trivial⟩ (by decide)
  have q30_2 : fld W 30 2 = 1 := H 30 2 (by decide)
  rw [(decode_at hW hlt).2.1 q30_2]
  have q24_6 : fld W 24 6 = 5 := H 24 6 (by decide)
  rw [decodeV, q24_6]
  show check false false false (.vfms (pick 32 W 19) (pick 32 W 14) (pick 32 W 9) (vtail W)) = _
  have q19_5 : fld W 19 5 = d.val := H 19 5 (by decide)
  have q14_5 : fld W 14 5 = a.val := H 14 5 (by decide)
  have q9_5 : fld W 9 5 = b.val := H 9 5 (by decide)
  rw [pick_of 5 q19_5 rfl, pick_of 5 q14_5 rfl, pick_of 5 q9_5 rfl, vtail_of t (H 5 4 (by decide)) (H 4 1 (by decide)) (H 2 2 (by decide)) (H 0 2 (by decide))]
  exact check_ok hw

theorem vmin (d : Fin 32) (a : Fin 32) (b : Fin 32) (t : VTail) : Statement (.vmin d a b t) := by
  intro _ hw
  obtain ⟨W, hW, hlt, H⟩ := word_of (i := (.vmin d a b t)) 0x46000000 [d.val, a.val, b.val, t.guard.val, t.sense.toNat, t.wait.val, t.post.val] [(19, 5), (14, 5), (9, 5), (5, 4), (4, 1), (2, 2), (0, 2)] rfl
    ⟨d.isLt, a.isLt, b.isLt, t.guard.isLt, Bool.toNat_lt t.sense, t.wait.isLt, t.post.isLt, trivial⟩ (by decide)
  have q30_2 : fld W 30 2 = 1 := H 30 2 (by decide)
  rw [(decode_at hW hlt).2.1 q30_2]
  have q24_6 : fld W 24 6 = 6 := H 24 6 (by decide)
  rw [decodeV, q24_6]
  show check false false false (.vmin (pick 32 W 19) (pick 32 W 14) (pick 32 W 9) (vtail W)) = _
  have q19_5 : fld W 19 5 = d.val := H 19 5 (by decide)
  have q14_5 : fld W 14 5 = a.val := H 14 5 (by decide)
  have q9_5 : fld W 9 5 = b.val := H 9 5 (by decide)
  rw [pick_of 5 q19_5 rfl, pick_of 5 q14_5 rfl, pick_of 5 q9_5 rfl, vtail_of t (H 5 4 (by decide)) (H 4 1 (by decide)) (H 2 2 (by decide)) (H 0 2 (by decide))]
  exact check_ok hw

theorem vmax (d : Fin 32) (a : Fin 32) (b : Fin 32) (t : VTail) : Statement (.vmax d a b t) := by
  intro _ hw
  obtain ⟨W, hW, hlt, H⟩ := word_of (i := (.vmax d a b t)) 0x47000000 [d.val, a.val, b.val, t.guard.val, t.sense.toNat, t.wait.val, t.post.val] [(19, 5), (14, 5), (9, 5), (5, 4), (4, 1), (2, 2), (0, 2)] rfl
    ⟨d.isLt, a.isLt, b.isLt, t.guard.isLt, Bool.toNat_lt t.sense, t.wait.isLt, t.post.isLt, trivial⟩ (by decide)
  have q30_2 : fld W 30 2 = 1 := H 30 2 (by decide)
  rw [(decode_at hW hlt).2.1 q30_2]
  have q24_6 : fld W 24 6 = 7 := H 24 6 (by decide)
  rw [decodeV, q24_6]
  show check false false false (.vmax (pick 32 W 19) (pick 32 W 14) (pick 32 W 9) (vtail W)) = _
  have q19_5 : fld W 19 5 = d.val := H 19 5 (by decide)
  have q14_5 : fld W 14 5 = a.val := H 14 5 (by decide)
  have q9_5 : fld W 9 5 = b.val := H 9 5 (by decide)
  rw [pick_of 5 q19_5 rfl, pick_of 5 q14_5 rfl, pick_of 5 q9_5 rfl, vtail_of t (H 5 4 (by decide)) (H 4 1 (by decide)) (H 2 2 (by decide)) (H 0 2 (by decide))]
  exact check_ok hw

theorem vabs (d : Fin 32) (a : Fin 32) (t : VTail) : Statement (.vabs d a t) := by
  intro _ hw
  obtain ⟨W, hW, hlt, H⟩ := word_of (i := (.vabs d a t)) 0x48000000 [d.val, a.val, t.guard.val, t.sense.toNat, t.wait.val, t.post.val] [(19, 5), (14, 5), (5, 4), (4, 1), (2, 2), (0, 2)] rfl
    ⟨d.isLt, a.isLt, t.guard.isLt, Bool.toNat_lt t.sense, t.wait.isLt, t.post.isLt, trivial⟩ (by decide)
  have q30_2 : fld W 30 2 = 1 := H 30 2 (by decide)
  rw [(decode_at hW hlt).2.1 q30_2]
  have q24_6 : fld W 24 6 = 8 := H 24 6 (by decide)
  rw [decodeV, q24_6]
  show check false false (fld W 9 5 != 0) (.vabs (pick 32 W 19) (pick 32 W 14) (vtail W)) = _
  have q9_5 : fld W 9 5 = 0 := H 9 5 (by decide)
  rw [q9_5]
  have q19_5 : fld W 19 5 = d.val := H 19 5 (by decide)
  have q14_5 : fld W 14 5 = a.val := H 14 5 (by decide)
  rw [pick_of 5 q19_5 rfl, pick_of 5 q14_5 rfl, vtail_of t (H 5 4 (by decide)) (H 4 1 (by decide)) (H 2 2 (by decide)) (H 0 2 (by decide))]
  exact check_ok hw

theorem vneg (d : Fin 32) (a : Fin 32) (t : VTail) : Statement (.vneg d a t) := by
  intro _ hw
  obtain ⟨W, hW, hlt, H⟩ := word_of (i := (.vneg d a t)) 0x49000000 [d.val, a.val, t.guard.val, t.sense.toNat, t.wait.val, t.post.val] [(19, 5), (14, 5), (5, 4), (4, 1), (2, 2), (0, 2)] rfl
    ⟨d.isLt, a.isLt, t.guard.isLt, Bool.toNat_lt t.sense, t.wait.isLt, t.post.isLt, trivial⟩ (by decide)
  have q30_2 : fld W 30 2 = 1 := H 30 2 (by decide)
  rw [(decode_at hW hlt).2.1 q30_2]
  have q24_6 : fld W 24 6 = 9 := H 24 6 (by decide)
  rw [decodeV, q24_6]
  show check false false (fld W 9 5 != 0) (.vneg (pick 32 W 19) (pick 32 W 14) (vtail W)) = _
  have q9_5 : fld W 9 5 = 0 := H 9 5 (by decide)
  rw [q9_5]
  have q19_5 : fld W 19 5 = d.val := H 19 5 (by decide)
  have q14_5 : fld W 14 5 = a.val := H 14 5 (by decide)
  rw [pick_of 5 q19_5 rfl, pick_of 5 q14_5 rfl, vtail_of t (H 5 4 (by decide)) (H 4 1 (by decide)) (H 2 2 (by decide)) (H 0 2 (by decide))]
  exact check_ok hw

theorem vand (d : Fin 32) (a : Fin 32) (b : Fin 32) (t : VTail) : Statement (.vand d a b t) := by
  intro _ hw
  obtain ⟨W, hW, hlt, H⟩ := word_of (i := (.vand d a b t)) 0x4A000000 [d.val, a.val, b.val, t.guard.val, t.sense.toNat, t.wait.val, t.post.val] [(19, 5), (14, 5), (9, 5), (5, 4), (4, 1), (2, 2), (0, 2)] rfl
    ⟨d.isLt, a.isLt, b.isLt, t.guard.isLt, Bool.toNat_lt t.sense, t.wait.isLt, t.post.isLt, trivial⟩ (by decide)
  have q30_2 : fld W 30 2 = 1 := H 30 2 (by decide)
  rw [(decode_at hW hlt).2.1 q30_2]
  have q24_6 : fld W 24 6 = 10 := H 24 6 (by decide)
  rw [decodeV, q24_6]
  show check false false false (.vand (pick 32 W 19) (pick 32 W 14) (pick 32 W 9) (vtail W)) = _
  have q19_5 : fld W 19 5 = d.val := H 19 5 (by decide)
  have q14_5 : fld W 14 5 = a.val := H 14 5 (by decide)
  have q9_5 : fld W 9 5 = b.val := H 9 5 (by decide)
  rw [pick_of 5 q19_5 rfl, pick_of 5 q14_5 rfl, pick_of 5 q9_5 rfl, vtail_of t (H 5 4 (by decide)) (H 4 1 (by decide)) (H 2 2 (by decide)) (H 0 2 (by decide))]
  exact check_ok hw

theorem vor (d : Fin 32) (a : Fin 32) (b : Fin 32) (t : VTail) : Statement (.vor d a b t) := by
  intro _ hw
  obtain ⟨W, hW, hlt, H⟩ := word_of (i := (.vor d a b t)) 0x4B000000 [d.val, a.val, b.val, t.guard.val, t.sense.toNat, t.wait.val, t.post.val] [(19, 5), (14, 5), (9, 5), (5, 4), (4, 1), (2, 2), (0, 2)] rfl
    ⟨d.isLt, a.isLt, b.isLt, t.guard.isLt, Bool.toNat_lt t.sense, t.wait.isLt, t.post.isLt, trivial⟩ (by decide)
  have q30_2 : fld W 30 2 = 1 := H 30 2 (by decide)
  rw [(decode_at hW hlt).2.1 q30_2]
  have q24_6 : fld W 24 6 = 11 := H 24 6 (by decide)
  rw [decodeV, q24_6]
  show check false false false (.vor (pick 32 W 19) (pick 32 W 14) (pick 32 W 9) (vtail W)) = _
  have q19_5 : fld W 19 5 = d.val := H 19 5 (by decide)
  have q14_5 : fld W 14 5 = a.val := H 14 5 (by decide)
  have q9_5 : fld W 9 5 = b.val := H 9 5 (by decide)
  rw [pick_of 5 q19_5 rfl, pick_of 5 q14_5 rfl, pick_of 5 q9_5 rfl, vtail_of t (H 5 4 (by decide)) (H 4 1 (by decide)) (H 2 2 (by decide)) (H 0 2 (by decide))]
  exact check_ok hw

theorem vxor (d : Fin 32) (a : Fin 32) (b : Fin 32) (t : VTail) : Statement (.vxor d a b t) := by
  intro _ hw
  obtain ⟨W, hW, hlt, H⟩ := word_of (i := (.vxor d a b t)) 0x4C000000 [d.val, a.val, b.val, t.guard.val, t.sense.toNat, t.wait.val, t.post.val] [(19, 5), (14, 5), (9, 5), (5, 4), (4, 1), (2, 2), (0, 2)] rfl
    ⟨d.isLt, a.isLt, b.isLt, t.guard.isLt, Bool.toNat_lt t.sense, t.wait.isLt, t.post.isLt, trivial⟩ (by decide)
  have q30_2 : fld W 30 2 = 1 := H 30 2 (by decide)
  rw [(decode_at hW hlt).2.1 q30_2]
  have q24_6 : fld W 24 6 = 12 := H 24 6 (by decide)
  rw [decodeV, q24_6]
  show check false false false (.vxor (pick 32 W 19) (pick 32 W 14) (pick 32 W 9) (vtail W)) = _
  have q19_5 : fld W 19 5 = d.val := H 19 5 (by decide)
  have q14_5 : fld W 14 5 = a.val := H 14 5 (by decide)
  have q9_5 : fld W 9 5 = b.val := H 9 5 (by decide)
  rw [pick_of 5 q19_5 rfl, pick_of 5 q14_5 rfl, pick_of 5 q9_5 rfl, vtail_of t (H 5 4 (by decide)) (H 4 1 (by decide)) (H 2 2 (by decide)) (H 0 2 (by decide))]
  exact check_ok hw

theorem vshl (d : Fin 32) (a : Fin 32) (b : Fin 32) (t : VTail) : Statement (.vshl d a b t) := by
  intro _ hw
  obtain ⟨W, hW, hlt, H⟩ := word_of (i := (.vshl d a b t)) 0x4D000000 [d.val, a.val, b.val, t.guard.val, t.sense.toNat, t.wait.val, t.post.val] [(19, 5), (14, 5), (9, 5), (5, 4), (4, 1), (2, 2), (0, 2)] rfl
    ⟨d.isLt, a.isLt, b.isLt, t.guard.isLt, Bool.toNat_lt t.sense, t.wait.isLt, t.post.isLt, trivial⟩ (by decide)
  have q30_2 : fld W 30 2 = 1 := H 30 2 (by decide)
  rw [(decode_at hW hlt).2.1 q30_2]
  have q24_6 : fld W 24 6 = 13 := H 24 6 (by decide)
  rw [decodeV, q24_6]
  show check false false false (.vshl (pick 32 W 19) (pick 32 W 14) (pick 32 W 9) (vtail W)) = _
  have q19_5 : fld W 19 5 = d.val := H 19 5 (by decide)
  have q14_5 : fld W 14 5 = a.val := H 14 5 (by decide)
  have q9_5 : fld W 9 5 = b.val := H 9 5 (by decide)
  rw [pick_of 5 q19_5 rfl, pick_of 5 q14_5 rfl, pick_of 5 q9_5 rfl, vtail_of t (H 5 4 (by decide)) (H 4 1 (by decide)) (H 2 2 (by decide)) (H 0 2 (by decide))]
  exact check_ok hw

theorem vshr (d : Fin 32) (a : Fin 32) (b : Fin 32) (t : VTail) : Statement (.vshr d a b t) := by
  intro _ hw
  obtain ⟨W, hW, hlt, H⟩ := word_of (i := (.vshr d a b t)) 0x4E000000 [d.val, a.val, b.val, t.guard.val, t.sense.toNat, t.wait.val, t.post.val] [(19, 5), (14, 5), (9, 5), (5, 4), (4, 1), (2, 2), (0, 2)] rfl
    ⟨d.isLt, a.isLt, b.isLt, t.guard.isLt, Bool.toNat_lt t.sense, t.wait.isLt, t.post.isLt, trivial⟩ (by decide)
  have q30_2 : fld W 30 2 = 1 := H 30 2 (by decide)
  rw [(decode_at hW hlt).2.1 q30_2]
  have q24_6 : fld W 24 6 = 14 := H 24 6 (by decide)
  rw [decodeV, q24_6]
  show check false false false (.vshr (pick 32 W 19) (pick 32 W 14) (pick 32 W 9) (vtail W)) = _
  have q19_5 : fld W 19 5 = d.val := H 19 5 (by decide)
  have q14_5 : fld W 14 5 = a.val := H 14 5 (by decide)
  have q9_5 : fld W 9 5 = b.val := H 9 5 (by decide)
  rw [pick_of 5 q19_5 rfl, pick_of 5 q14_5 rfl, pick_of 5 q9_5 rfl, vtail_of t (H 5 4 (by decide)) (H 4 1 (by decide)) (H 2 2 (by decide)) (H 0 2 (by decide))]
  exact check_ok hw

theorem vshra (d : Fin 32) (a : Fin 32) (b : Fin 32) (t : VTail) : Statement (.vshra d a b t) := by
  intro _ hw
  obtain ⟨W, hW, hlt, H⟩ := word_of (i := (.vshra d a b t)) 0x4F000000 [d.val, a.val, b.val, t.guard.val, t.sense.toNat, t.wait.val, t.post.val] [(19, 5), (14, 5), (9, 5), (5, 4), (4, 1), (2, 2), (0, 2)] rfl
    ⟨d.isLt, a.isLt, b.isLt, t.guard.isLt, Bool.toNat_lt t.sense, t.wait.isLt, t.post.isLt, trivial⟩ (by decide)
  have q30_2 : fld W 30 2 = 1 := H 30 2 (by decide)
  rw [(decode_at hW hlt).2.1 q30_2]
  have q24_6 : fld W 24 6 = 15 := H 24 6 (by decide)
  rw [decodeV, q24_6]
  show check false false false (.vshra (pick 32 W 19) (pick 32 W 14) (pick 32 W 9) (vtail W)) = _
  have q19_5 : fld W 19 5 = d.val := H 19 5 (by decide)
  have q14_5 : fld W 14 5 = a.val := H 14 5 (by decide)
  have q9_5 : fld W 9 5 = b.val := H 9 5 (by decide)
  rw [pick_of 5 q19_5 rfl, pick_of 5 q14_5 rfl, pick_of 5 q9_5 rfl, vtail_of t (H 5 4 (by decide)) (H 4 1 (by decide)) (H 2 2 (by decide)) (H 0 2 (by decide))]
  exact check_ok hw

theorem vcmpeq (d : Fin 16) (a : Fin 32) (b : Fin 32) (t : VTail) : Statement (.vcmpeq d a b t) := by
  intro _ hw
  obtain ⟨W, hW, hlt, H⟩ := word_of (i := (.vcmpeq d a b t)) 0x50000000 [d.val, a.val, b.val, t.guard.val, t.sense.toNat, t.wait.val, t.post.val] [(19, 4), (14, 5), (9, 5), (5, 4), (4, 1), (2, 2), (0, 2)] rfl
    ⟨d.isLt, a.isLt, b.isLt, t.guard.isLt, Bool.toNat_lt t.sense, t.wait.isLt, t.post.isLt, trivial⟩ (by decide)
  have q30_2 : fld W 30 2 = 1 := H 30 2 (by decide)
  rw [(decode_at hW hlt).2.1 q30_2]
  have q24_6 : fld W 24 6 = 16 := H 24 6 (by decide)
  rw [decodeV, q24_6]
  show check false false (fld W 23 1 != 0) (.vcmpeq (pick 16 W 19) (pick 32 W 14) (pick 32 W 9) (vtail W)) = _
  have q23_1 : fld W 23 1 = 0 := H 23 1 (by decide)
  rw [q23_1]
  have q19_4 : fld W 19 4 = d.val := H 19 4 (by decide)
  have q14_5 : fld W 14 5 = a.val := H 14 5 (by decide)
  have q9_5 : fld W 9 5 = b.val := H 9 5 (by decide)
  rw [pick_of 4 q19_4 rfl, pick_of 5 q14_5 rfl, pick_of 5 q9_5 rfl, vtail_of t (H 5 4 (by decide)) (H 4 1 (by decide)) (H 2 2 (by decide)) (H 0 2 (by decide))]
  exact check_ok hw

theorem vcmplt (d : Fin 16) (a : Fin 32) (b : Fin 32) (t : VTail) : Statement (.vcmplt d a b t) := by
  intro _ hw
  obtain ⟨W, hW, hlt, H⟩ := word_of (i := (.vcmplt d a b t)) 0x51000000 [d.val, a.val, b.val, t.guard.val, t.sense.toNat, t.wait.val, t.post.val] [(19, 4), (14, 5), (9, 5), (5, 4), (4, 1), (2, 2), (0, 2)] rfl
    ⟨d.isLt, a.isLt, b.isLt, t.guard.isLt, Bool.toNat_lt t.sense, t.wait.isLt, t.post.isLt, trivial⟩ (by decide)
  have q30_2 : fld W 30 2 = 1 := H 30 2 (by decide)
  rw [(decode_at hW hlt).2.1 q30_2]
  have q24_6 : fld W 24 6 = 17 := H 24 6 (by decide)
  rw [decodeV, q24_6]
  show check false false (fld W 23 1 != 0) (.vcmplt (pick 16 W 19) (pick 32 W 14) (pick 32 W 9) (vtail W)) = _
  have q23_1 : fld W 23 1 = 0 := H 23 1 (by decide)
  rw [q23_1]
  have q19_4 : fld W 19 4 = d.val := H 19 4 (by decide)
  have q14_5 : fld W 14 5 = a.val := H 14 5 (by decide)
  have q9_5 : fld W 9 5 = b.val := H 9 5 (by decide)
  rw [pick_of 4 q19_4 rfl, pick_of 5 q14_5 rfl, pick_of 5 q9_5 rfl, vtail_of t (H 5 4 (by decide)) (H 4 1 (by decide)) (H 2 2 (by decide)) (H 0 2 (by decide))]
  exact check_ok hw

theorem vcmple (d : Fin 16) (a : Fin 32) (b : Fin 32) (t : VTail) : Statement (.vcmple d a b t) := by
  intro _ hw
  obtain ⟨W, hW, hlt, H⟩ := word_of (i := (.vcmple d a b t)) 0x52000000 [d.val, a.val, b.val, t.guard.val, t.sense.toNat, t.wait.val, t.post.val] [(19, 4), (14, 5), (9, 5), (5, 4), (4, 1), (2, 2), (0, 2)] rfl
    ⟨d.isLt, a.isLt, b.isLt, t.guard.isLt, Bool.toNat_lt t.sense, t.wait.isLt, t.post.isLt, trivial⟩ (by decide)
  have q30_2 : fld W 30 2 = 1 := H 30 2 (by decide)
  rw [(decode_at hW hlt).2.1 q30_2]
  have q24_6 : fld W 24 6 = 18 := H 24 6 (by decide)
  rw [decodeV, q24_6]
  show check false false (fld W 23 1 != 0) (.vcmple (pick 16 W 19) (pick 32 W 14) (pick 32 W 9) (vtail W)) = _
  have q23_1 : fld W 23 1 = 0 := H 23 1 (by decide)
  rw [q23_1]
  have q19_4 : fld W 19 4 = d.val := H 19 4 (by decide)
  have q14_5 : fld W 14 5 = a.val := H 14 5 (by decide)
  have q9_5 : fld W 9 5 = b.val := H 9 5 (by decide)
  rw [pick_of 4 q19_4 rfl, pick_of 5 q14_5 rfl, pick_of 5 q9_5 rfl, vtail_of t (H 5 4 (by decide)) (H 4 1 (by decide)) (H 2 2 (by decide)) (H 0 2 (by decide))]
  exact check_ok hw

theorem vsel (d : Fin 32) (a : Fin 32) (b : Fin 32) (t : VTail) : Statement (.vsel d a b t) := by
  intro _ hw
  obtain ⟨W, hW, hlt, H⟩ := word_of (i := (.vsel d a b t)) 0x53000000 [d.val, a.val, b.val, t.guard.val, t.sense.toNat, t.wait.val, t.post.val] [(19, 5), (14, 5), (9, 5), (5, 4), (4, 1), (2, 2), (0, 2)] rfl
    ⟨d.isLt, a.isLt, b.isLt, t.guard.isLt, Bool.toNat_lt t.sense, t.wait.isLt, t.post.isLt, trivial⟩ (by decide)
  have q30_2 : fld W 30 2 = 1 := H 30 2 (by decide)
  rw [(decode_at hW hlt).2.1 q30_2]
  have q24_6 : fld W 24 6 = 19 := H 24 6 (by decide)
  rw [decodeV, q24_6]
  show check false false false (.vsel (pick 32 W 19) (pick 32 W 14) (pick 32 W 9) (vtail W)) = _
  have q19_5 : fld W 19 5 = d.val := H 19 5 (by decide)
  have q14_5 : fld W 14 5 = a.val := H 14 5 (by decide)
  have q9_5 : fld W 9 5 = b.val := H 9 5 (by decide)
  rw [pick_of 5 q19_5 rfl, pick_of 5 q14_5 rfl, pick_of 5 q9_5 rfl, vtail_of t (H 5 4 (by decide)) (H 4 1 (by decide)) (H 2 2 (by decide)) (H 0 2 (by decide))]
  exact check_ok hw

theorem vcvt (d : Fin 32) (a : Fin 32) (k : Fin 32) (t : VTail) : Statement (.vcvt d a k t) := by
  intro _ hw
  obtain ⟨W, hW, hlt, H⟩ := word_of (i := (.vcvt d a k t)) 0x54000000 [d.val, a.val, k.val, t.guard.val, t.sense.toNat, t.wait.val, t.post.val] [(19, 5), (14, 5), (9, 5), (5, 4), (4, 1), (2, 2), (0, 2)] rfl
    ⟨d.isLt, a.isLt, k.isLt, t.guard.isLt, Bool.toNat_lt t.sense, t.wait.isLt, t.post.isLt, trivial⟩ (by decide)
  have q30_2 : fld W 30 2 = 1 := H 30 2 (by decide)
  rw [(decode_at hW hlt).2.1 q30_2]
  have q24_6 : fld W 24 6 = 20 := H 24 6 (by decide)
  rw [decodeV, q24_6]
  show check false false false (.vcvt (pick 32 W 19) (pick 32 W 14) (pick 32 W 9) (vtail W)) = _
  have q19_5 : fld W 19 5 = d.val := H 19 5 (by decide)
  have q14_5 : fld W 14 5 = a.val := H 14 5 (by decide)
  have q9_5 : fld W 9 5 = k.val := H 9 5 (by decide)
  rw [pick_of 5 q19_5 rfl, pick_of 5 q14_5 rfl, pick_of 5 q9_5 rfl, vtail_of t (H 5 4 (by decide)) (H 4 1 (by decide)) (H 2 2 (by decide)) (H 0 2 (by decide))]
  exact check_ok hw

theorem vqmax (d : Fin 32) (a : Fin 32) (t : VTail) : Statement (.vqmax d a t) := by
  intro _ hw
  obtain ⟨W, hW, hlt, H⟩ := word_of (i := (.vqmax d a t)) 0x55000000 [d.val, a.val, t.guard.val, t.sense.toNat, t.wait.val, t.post.val] [(19, 5), (14, 5), (5, 4), (4, 1), (2, 2), (0, 2)] rfl
    ⟨d.isLt, a.isLt, t.guard.isLt, Bool.toNat_lt t.sense, t.wait.isLt, t.post.isLt, trivial⟩ (by decide)
  have q30_2 : fld W 30 2 = 1 := H 30 2 (by decide)
  rw [(decode_at hW hlt).2.1 q30_2]
  have q24_6 : fld W 24 6 = 21 := H 24 6 (by decide)
  rw [decodeV, q24_6]
  show check false false (fld W 9 5 != 0) (.vqmax (pick 32 W 19) (pick 32 W 14) (vtail W)) = _
  have q9_5 : fld W 9 5 = 0 := H 9 5 (by decide)
  rw [q9_5]
  have q19_5 : fld W 19 5 = d.val := H 19 5 (by decide)
  have q14_5 : fld W 14 5 = a.val := H 14 5 (by decide)
  rw [pick_of 5 q19_5 rfl, pick_of 5 q14_5 rfl, vtail_of t (H 5 4 (by decide)) (H 4 1 (by decide)) (H 2 2 (by decide)) (H 0 2 (by decide))]
  exact check_ok hw

theorem vqcvt (d : Fin 32) (a : Fin 32) (b : Fin 32) (t : VTail) : Statement (.vqcvt d a b t) := by
  intro _ hw
  obtain ⟨W, hW, hlt, H⟩ := word_of (i := (.vqcvt d a b t)) 0x56000000 [d.val, a.val, b.val, t.guard.val, t.sense.toNat, t.wait.val, t.post.val] [(19, 5), (14, 5), (9, 5), (5, 4), (4, 1), (2, 2), (0, 2)] rfl
    ⟨d.isLt, a.isLt, b.isLt, t.guard.isLt, Bool.toNat_lt t.sense, t.wait.isLt, t.post.isLt, trivial⟩ (by decide)
  have q30_2 : fld W 30 2 = 1 := H 30 2 (by decide)
  rw [(decode_at hW hlt).2.1 q30_2]
  have q24_6 : fld W 24 6 = 22 := H 24 6 (by decide)
  rw [decodeV, q24_6]
  show check false false false (.vqcvt (pick 32 W 19) (pick 32 W 14) (pick 32 W 9) (vtail W)) = _
  have q19_5 : fld W 19 5 = d.val := H 19 5 (by decide)
  have q14_5 : fld W 14 5 = a.val := H 14 5 (by decide)
  have q9_5 : fld W 9 5 = b.val := H 9 5 (by decide)
  rw [pick_of 5 q19_5 rfl, pick_of 5 q14_5 rfl, pick_of 5 q9_5 rfl, vtail_of t (H 5 4 (by decide)) (H 4 1 (by decide)) (H 2 2 (by decide)) (H 0 2 (by decide))]
  exact check_ok hw

theorem vdq (d : Fin 32) (a : Fin 32) (t : VTail) : Statement (.vdq d a t) := by
  intro _ hw
  obtain ⟨W, hW, hlt, H⟩ := word_of (i := (.vdq d a t)) 0x57000000 [d.val, a.val, t.guard.val, t.sense.toNat, t.wait.val, t.post.val] [(19, 5), (14, 5), (5, 4), (4, 1), (2, 2), (0, 2)] rfl
    ⟨d.isLt, a.isLt, t.guard.isLt, Bool.toNat_lt t.sense, t.wait.isLt, t.post.isLt, trivial⟩ (by decide)
  have q30_2 : fld W 30 2 = 1 := H 30 2 (by decide)
  rw [(decode_at hW hlt).2.1 q30_2]
  have q24_6 : fld W 24 6 = 23 := H 24 6 (by decide)
  rw [decodeV, q24_6]
  show check false false (fld W 9 5 != 0) (.vdq (pick 32 W 19) (pick 32 W 14) (vtail W)) = _
  have q9_5 : fld W 9 5 = 0 := H 9 5 (by decide)
  rw [q9_5]
  have q19_5 : fld W 19 5 = d.val := H 19 5 (by decide)
  have q14_5 : fld W 14 5 = a.val := H 14 5 (by decide)
  rw [pick_of 5 q19_5 rfl, pick_of 5 q14_5 rfl, vtail_of t (H 5 4 (by decide)) (H 4 1 (by decide)) (H 2 2 (by decide)) (H 0 2 (by decide))]
  exact check_ok hw

theorem vred (d : Fin 32) (a : Fin 32) (o : Fin 32) (t : VTail) : Statement (.vred d a o t) := by
  intro _ hw
  obtain ⟨W, hW, hlt, H⟩ := word_of (i := (.vred d a o t)) 0x58000000 [d.val, a.val, o.val, t.guard.val, t.sense.toNat, t.wait.val, t.post.val] [(19, 5), (14, 5), (9, 5), (5, 4), (4, 1), (2, 2), (0, 2)] rfl
    ⟨d.isLt, a.isLt, o.isLt, t.guard.isLt, Bool.toNat_lt t.sense, t.wait.isLt, t.post.isLt, trivial⟩ (by decide)
  have q30_2 : fld W 30 2 = 1 := H 30 2 (by decide)
  rw [(decode_at hW hlt).2.1 q30_2]
  have q24_6 : fld W 24 6 = 24 := H 24 6 (by decide)
  rw [decodeV, q24_6]
  show check false false false (.vred (pick 32 W 19) (pick 32 W 14) (pick 32 W 9) (vtail W)) = _
  have q19_5 : fld W 19 5 = d.val := H 19 5 (by decide)
  have q14_5 : fld W 14 5 = a.val := H 14 5 (by decide)
  have q9_5 : fld W 9 5 = o.val := H 9 5 (by decide)
  rw [pick_of 5 q19_5 rfl, pick_of 5 q14_5 rfl, pick_of 5 q9_5 rfl, vtail_of t (H 5 4 (by decide)) (H 4 1 (by decide)) (H 2 2 (by decide)) (H 0 2 (by decide))]
  exact check_ok hw

theorem vany (a : Fin 16) (t : VTail) : Statement (.vany a t) := by
  intro _ hw
  obtain ⟨W, hW, hlt, H⟩ := word_of (i := (.vany a t)) 0x59000000 [a.val, t.guard.val, t.sense.toNat, t.wait.val, t.post.val] [(14, 4), (5, 4), (4, 1), (2, 2), (0, 2)] rfl
    ⟨a.isLt, t.guard.isLt, Bool.toNat_lt t.sense, t.wait.isLt, t.post.isLt, trivial⟩ (by decide)
  have q30_2 : fld W 30 2 = 1 := H 30 2 (by decide)
  rw [(decode_at hW hlt).2.1 q30_2]
  have q24_6 : fld W 24 6 = 25 := H 24 6 (by decide)
  rw [decodeV, q24_6]
  show check false false (fld W 9 5 != 0 || fld W 18 6 != 0) (.vany (pick 16 W 14) (vtail W)) = _
  have q9_5 : fld W 9 5 = 0 := H 9 5 (by decide)
  have q18_6 : fld W 18 6 = 0 := H 18 6 (by decide)
  rw [q9_5, q18_6]
  have q14_4 : fld W 14 4 = a.val := H 14 4 (by decide)
  rw [pick_of 4 q14_4 rfl, vtail_of t (H 5 4 (by decide)) (H 4 1 (by decide)) (H 2 2 (by decide)) (H 0 2 (by decide))]
  exact check_ok hw

theorem vall (a : Fin 16) (t : VTail) : Statement (.vall a t) := by
  intro _ hw
  obtain ⟨W, hW, hlt, H⟩ := word_of (i := (.vall a t)) 0x5A000000 [a.val, t.guard.val, t.sense.toNat, t.wait.val, t.post.val] [(14, 4), (5, 4), (4, 1), (2, 2), (0, 2)] rfl
    ⟨a.isLt, t.guard.isLt, Bool.toNat_lt t.sense, t.wait.isLt, t.post.isLt, trivial⟩ (by decide)
  have q30_2 : fld W 30 2 = 1 := H 30 2 (by decide)
  rw [(decode_at hW hlt).2.1 q30_2]
  have q24_6 : fld W 24 6 = 26 := H 24 6 (by decide)
  rw [decodeV, q24_6]
  show check false false (fld W 9 5 != 0 || fld W 18 6 != 0) (.vall (pick 16 W 14) (vtail W)) = _
  have q9_5 : fld W 9 5 = 0 := H 9 5 (by decide)
  have q18_6 : fld W 18 6 = 0 := H 18 6 (by decide)
  rw [q9_5, q18_6]
  have q14_4 : fld W 14 4 = a.val := H 14 4 (by decide)
  rw [pick_of 4 q14_4 rfl, vtail_of t (H 5 4 (by decide)) (H 4 1 (by decide)) (H 2 2 (by decide)) (H 0 2 (by decide))]
  exact check_ok hw

theorem vbcast (d : Fin 32) (a : Fin 32) (l : Fin 32) (t : VTail) : Statement (.vbcast d a l t) := by
  intro _ hw
  obtain ⟨W, hW, hlt, H⟩ := word_of (i := (.vbcast d a l t)) 0x5B000000 [d.val, a.val, l.val, t.guard.val, t.sense.toNat, t.wait.val, t.post.val] [(19, 5), (14, 5), (9, 5), (5, 4), (4, 1), (2, 2), (0, 2)] rfl
    ⟨d.isLt, a.isLt, l.isLt, t.guard.isLt, Bool.toNat_lt t.sense, t.wait.isLt, t.post.isLt, trivial⟩ (by decide)
  have q30_2 : fld W 30 2 = 1 := H 30 2 (by decide)
  rw [(decode_at hW hlt).2.1 q30_2]
  have q24_6 : fld W 24 6 = 27 := H 24 6 (by decide)
  rw [decodeV, q24_6]
  show check false false false (.vbcast (pick 32 W 19) (pick 32 W 14) (pick 32 W 9) (vtail W)) = _
  have q19_5 : fld W 19 5 = d.val := H 19 5 (by decide)
  have q14_5 : fld W 14 5 = a.val := H 14 5 (by decide)
  have q9_5 : fld W 9 5 = l.val := H 9 5 (by decide)
  rw [pick_of 5 q19_5 rfl, pick_of 5 q14_5 rfl, pick_of 5 q9_5 rfl, vtail_of t (H 5 4 (by decide)) (H 4 1 (by decide)) (H 2 2 (by decide)) (H 0 2 (by decide))]
  exact check_ok hw

theorem vperm (d : Fin 32) (a : Fin 32) (b : Fin 32) (t : VTail) : Statement (.vperm d a b t) := by
  intro _ hw
  obtain ⟨W, hW, hlt, H⟩ := word_of (i := (.vperm d a b t)) 0x5C000000 [d.val, a.val, b.val, t.guard.val, t.sense.toNat, t.wait.val, t.post.val] [(19, 5), (14, 5), (9, 5), (5, 4), (4, 1), (2, 2), (0, 2)] rfl
    ⟨d.isLt, a.isLt, b.isLt, t.guard.isLt, Bool.toNat_lt t.sense, t.wait.isLt, t.post.isLt, trivial⟩ (by decide)
  have q30_2 : fld W 30 2 = 1 := H 30 2 (by decide)
  rw [(decode_at hW hlt).2.1 q30_2]
  have q24_6 : fld W 24 6 = 28 := H 24 6 (by decide)
  rw [decodeV, q24_6]
  show check false false false (.vperm (pick 32 W 19) (pick 32 W 14) (pick 32 W 9) (vtail W)) = _
  have q19_5 : fld W 19 5 = d.val := H 19 5 (by decide)
  have q14_5 : fld W 14 5 = a.val := H 14 5 (by decide)
  have q9_5 : fld W 9 5 = b.val := H 9 5 (by decide)
  rw [pick_of 5 q19_5 rfl, pick_of 5 q14_5 rfl, pick_of 5 q9_5 rfl, vtail_of t (H 5 4 (by decide)) (H 4 1 (by decide)) (H 2 2 (by decide)) (H 0 2 (by decide))]
  exact check_ok hw

theorem viota (d : Fin 32) (t : VTail) : Statement (.viota d t) := by
  intro _ hw
  obtain ⟨W, hW, hlt, H⟩ := word_of (i := (.viota d t)) 0x5D000000 [d.val, t.guard.val, t.sense.toNat, t.wait.val, t.post.val] [(19, 5), (5, 4), (4, 1), (2, 2), (0, 2)] rfl
    ⟨d.isLt, t.guard.isLt, Bool.toNat_lt t.sense, t.wait.isLt, t.post.isLt, trivial⟩ (by decide)
  have q30_2 : fld W 30 2 = 1 := H 30 2 (by decide)
  rw [(decode_at hW hlt).2.1 q30_2]
  have q24_6 : fld W 24 6 = 29 := H 24 6 (by decide)
  rw [decodeV, q24_6]
  show check false false (fld W 9 10 != 0) (.viota (pick 32 W 19) (vtail W)) = _
  have q9_10 : fld W 9 10 = 0 := H 9 10 (by decide)
  rw [q9_10]
  have q19_5 : fld W 19 5 = d.val := H 19 5 (by decide)
  rw [pick_of 5 q19_5 rfl, vtail_of t (H 5 4 (by decide)) (H 4 1 (by decide)) (H 2 2 (by decide)) (H 0 2 (by decide))]
  exact check_ok hw

theorem vmov (d : Fin 32) (a : Fin 32) (t : VTail) : Statement (.vmov d a t) := by
  intro _ hw
  obtain ⟨W, hW, hlt, H⟩ := word_of (i := (.vmov d a t)) 0x5E000000 [d.val, a.val, t.guard.val, t.sense.toNat, t.wait.val, t.post.val] [(19, 5), (14, 5), (5, 4), (4, 1), (2, 2), (0, 2)] rfl
    ⟨d.isLt, a.isLt, t.guard.isLt, Bool.toNat_lt t.sense, t.wait.isLt, t.post.isLt, trivial⟩ (by decide)
  have q30_2 : fld W 30 2 = 1 := H 30 2 (by decide)
  rw [(decode_at hW hlt).2.1 q30_2]
  have q24_6 : fld W 24 6 = 30 := H 24 6 (by decide)
  rw [decodeV, q24_6]
  show check false false (fld W 9 5 != 0) (.vmov (pick 32 W 19) (pick 32 W 14) (vtail W)) = _
  have q9_5 : fld W 9 5 = 0 := H 9 5 (by decide)
  rw [q9_5]
  have q19_5 : fld W 19 5 = d.val := H 19 5 (by decide)
  have q14_5 : fld W 14 5 = a.val := H 14 5 (by decide)
  rw [pick_of 5 q19_5 rfl, pick_of 5 q14_5 rfl, vtail_of t (H 5 4 (by decide)) (H 4 1 (by decide)) (H 2 2 (by decide)) (H 0 2 (by decide))]
  exact check_ok hw

theorem vsplat (d : Fin 32) (i : BitVec 10) (t : VTail) : Statement (.vsplat d i t) := by
  intro _ hw
  obtain ⟨W, hW, hlt, H⟩ := word_of (i := (.vsplat d i t)) 0x5F000000 [d.val, i.toNat, t.guard.val, t.sense.toNat, t.wait.val, t.post.val] [(19, 5), (9, 10), (5, 4), (4, 1), (2, 2), (0, 2)] rfl
    ⟨d.isLt, i.isLt, t.guard.isLt, Bool.toNat_lt t.sense, t.wait.isLt, t.post.isLt, trivial⟩ (by decide)
  have q30_2 : fld W 30 2 = 1 := H 30 2 (by decide)
  rw [(decode_at hW hlt).2.1 q30_2]
  have q24_6 : fld W 24 6 = 31 := H 24 6 (by decide)
  rw [decodeV, q24_6]
  show check false false false (.vsplat (pick 32 W 19) (.ofNat 10 (W / 2^9)) (vtail W)) = _
  have q19_5 : fld W 19 5 = d.val := H 19 5 (by decide)
  have q9_10 : fld W 9 10 = i.toNat := H 9 10 (by decide)
  rw [pick_of 5 q19_5 rfl, bv_of q9_10, vtail_of t (H 5 4 (by decide)) (H 4 1 (by decide)) (H 2 2 (by decide)) (H 0 2 (by decide))]
  exact check_ok hw

theorem vexp2 (d : Fin 32) (a : Fin 32) (t : VTail) : Statement (.vexp2 d a t) := by
  intro _ hw
  obtain ⟨W, hW, hlt, H⟩ := word_of (i := (.vexp2 d a t)) 0x60000000 [d.val, a.val, t.guard.val, t.sense.toNat, t.wait.val, t.post.val] [(19, 5), (14, 5), (5, 4), (4, 1), (2, 2), (0, 2)] rfl
    ⟨d.isLt, a.isLt, t.guard.isLt, Bool.toNat_lt t.sense, t.wait.isLt, t.post.isLt, trivial⟩ (by decide)
  have q30_2 : fld W 30 2 = 1 := H 30 2 (by decide)
  rw [(decode_at hW hlt).2.1 q30_2]
  have q24_6 : fld W 24 6 = 32 := H 24 6 (by decide)
  rw [decodeV, q24_6]
  show check false false (fld W 9 5 != 0) (.vexp2 (pick 32 W 19) (pick 32 W 14) (vtail W)) = _
  have q9_5 : fld W 9 5 = 0 := H 9 5 (by decide)
  rw [q9_5]
  have q19_5 : fld W 19 5 = d.val := H 19 5 (by decide)
  have q14_5 : fld W 14 5 = a.val := H 14 5 (by decide)
  rw [pick_of 5 q19_5 rfl, pick_of 5 q14_5 rfl, vtail_of t (H 5 4 (by decide)) (H 4 1 (by decide)) (H 2 2 (by decide)) (H 0 2 (by decide))]
  exact check_ok hw

theorem vrcp (d : Fin 32) (a : Fin 32) (t : VTail) : Statement (.vrcp d a t) := by
  intro _ hw
  obtain ⟨W, hW, hlt, H⟩ := word_of (i := (.vrcp d a t)) 0x61000000 [d.val, a.val, t.guard.val, t.sense.toNat, t.wait.val, t.post.val] [(19, 5), (14, 5), (5, 4), (4, 1), (2, 2), (0, 2)] rfl
    ⟨d.isLt, a.isLt, t.guard.isLt, Bool.toNat_lt t.sense, t.wait.isLt, t.post.isLt, trivial⟩ (by decide)
  have q30_2 : fld W 30 2 = 1 := H 30 2 (by decide)
  rw [(decode_at hW hlt).2.1 q30_2]
  have q24_6 : fld W 24 6 = 33 := H 24 6 (by decide)
  rw [decodeV, q24_6]
  show check false false (fld W 9 5 != 0) (.vrcp (pick 32 W 19) (pick 32 W 14) (vtail W)) = _
  have q9_5 : fld W 9 5 = 0 := H 9 5 (by decide)
  rw [q9_5]
  have q19_5 : fld W 19 5 = d.val := H 19 5 (by decide)
  have q14_5 : fld W 14 5 = a.val := H 14 5 (by decide)
  rw [pick_of 5 q19_5 rfl, pick_of 5 q14_5 rfl, vtail_of t (H 5 4 (by decide)) (H 4 1 (by decide)) (H 2 2 (by decide)) (H 0 2 (by decide))]
  exact check_ok hw

theorem vrsqrt (d : Fin 32) (a : Fin 32) (t : VTail) : Statement (.vrsqrt d a t) := by
  intro _ hw
  obtain ⟨W, hW, hlt, H⟩ := word_of (i := (.vrsqrt d a t)) 0x62000000 [d.val, a.val, t.guard.val, t.sense.toNat, t.wait.val, t.post.val] [(19, 5), (14, 5), (5, 4), (4, 1), (2, 2), (0, 2)] rfl
    ⟨d.isLt, a.isLt, t.guard.isLt, Bool.toNat_lt t.sense, t.wait.isLt, t.post.isLt, trivial⟩ (by decide)
  have q30_2 : fld W 30 2 = 1 := H 30 2 (by decide)
  rw [(decode_at hW hlt).2.1 q30_2]
  have q24_6 : fld W 24 6 = 34 := H 24 6 (by decide)
  rw [decodeV, q24_6]
  show check false false (fld W 9 5 != 0) (.vrsqrt (pick 32 W 19) (pick 32 W 14) (vtail W)) = _
  have q9_5 : fld W 9 5 = 0 := H 9 5 (by decide)
  rw [q9_5]
  have q19_5 : fld W 19 5 = d.val := H 19 5 (by decide)
  have q14_5 : fld W 14 5 = a.val := H 14 5 (by decide)
  rw [pick_of 5 q19_5 rfl, pick_of 5 q14_5 rfl, vtail_of t (H 5 4 (by decide)) (H 4 1 (by decide)) (H 2 2 (by decide)) (H 0 2 (by decide))]
  exact check_ok hw

theorem vcsum (x : Fin 4) (a : Fin 32) (t : VTail) : Statement (.vcsum x a t) := by
  intro _ hw
  obtain ⟨W, hW, hlt, H⟩ := word_of (i := (.vcsum x a t)) 0x63000000 [x.val, a.val, t.guard.val, t.sense.toNat, t.wait.val, t.post.val] [(19, 2), (14, 5), (5, 4), (4, 1), (2, 2), (0, 2)] rfl
    ⟨x.isLt, a.isLt, t.guard.isLt, Bool.toNat_lt t.sense, t.wait.isLt, t.post.isLt, trivial⟩ (by decide)
  have q30_2 : fld W 30 2 = 1 := H 30 2 (by decide)
  rw [(decode_at hW hlt).2.1 q30_2]
  have q24_6 : fld W 24 6 = 35 := H 24 6 (by decide)
  rw [decodeV, q24_6]
  have q9_5 : fld W 9 5 = 0 := H 9 5 (by decide)
  simp only []
  rw [q9_5]
  show check false false (fld W 21 3 != 0) (.vcsum (pick 4 W 19) (pick 32 W 14) (vtail W)) = _
  have q21_3 : fld W 21 3 = 0 := H 21 3 (by decide)
  rw [q21_3]
  have q19_2 : fld W 19 2 = x.val := H 19 2 (by decide)
  have q14_5 : fld W 14 5 = a.val := H 14 5 (by decide)
  rw [pick_of 2 q19_2 rfl, pick_of 5 q14_5 rfl, vtail_of t (H 5 4 (by decide)) (H 4 1 (by decide)) (H 2 2 (by decide)) (H 0 2 (by decide))]
  exact check_ok hw

theorem vcsumSet (x : Fin 4) (a : Fin 32) (t : VTail) : Statement (.vcsumSet x a t) := by
  intro _ hw
  obtain ⟨W, hW, hlt, H⟩ := word_of (i := (.vcsumSet x a t)) 0x63000200 [x.val, a.val, t.guard.val, t.sense.toNat, t.wait.val, t.post.val] [(19, 2), (14, 5), (5, 4), (4, 1), (2, 2), (0, 2)] rfl
    ⟨x.isLt, a.isLt, t.guard.isLt, Bool.toNat_lt t.sense, t.wait.isLt, t.post.isLt, trivial⟩ (by decide)
  have q30_2 : fld W 30 2 = 1 := H 30 2 (by decide)
  rw [(decode_at hW hlt).2.1 q30_2]
  have q24_6 : fld W 24 6 = 35 := H 24 6 (by decide)
  rw [decodeV, q24_6]
  have q9_5 : fld W 9 5 = 1 := H 9 5 (by decide)
  simp only []
  rw [q9_5]
  show check false false (fld W 21 3 != 0) (.vcsumSet (pick 4 W 19) (pick 32 W 14) (vtail W)) = _
  have q21_3 : fld W 21 3 = 0 := H 21 3 (by decide)
  rw [q21_3]
  have q19_2 : fld W 19 2 = x.val := H 19 2 (by decide)
  have q14_5 : fld W 14 5 = a.val := H 14 5 (by decide)
  rw [pick_of 2 q19_2 rfl, pick_of 5 q14_5 rfl, vtail_of t (H 5 4 (by decide)) (H 4 1 (by decide)) (H 2 2 (by decide)) (H 0 2 (by decide))]
  exact check_ok hw

theorem vcsumClr (x : Fin 4) (t : Tok) : Statement (.vcsumClr x t) := by
  intro _ hw
  obtain ⟨W, hW, hlt, H⟩ := word_of (i := (.vcsumClr x t)) 0x63000400 [x.val, t.wait.val, t.post.val] [(19, 2), (2, 2), (0, 2)] rfl
    ⟨x.isLt, t.wait.isLt, t.post.isLt, trivial⟩ (by decide)
  have q30_2 : fld W 30 2 = 1 := H 30 2 (by decide)
  rw [(decode_at hW hlt).2.1 q30_2]
  have q24_6 : fld W 24 6 = 35 := H 24 6 (by decide)
  rw [decodeV, q24_6]
  have q9_5 : fld W 9 5 = 2 := H 9 5 (by decide)
  simp only []
  rw [q9_5]
  show check (fld W 4 5 != 0) false (fld W 14 5 != 0 || fld W 21 3 != 0) (.vcsumClr (pick 4 W 19) (tok W)) = _
  have q4_5 : fld W 4 5 = 0 := H 4 5 (by decide)
  have q14_5 : fld W 14 5 = 0 := H 14 5 (by decide)
  have q21_3 : fld W 21 3 = 0 := H 21 3 (by decide)
  rw [q4_5, q14_5, q21_3]
  have q19_2 : fld W 19 2 = x.val := H 19 2 (by decide)
  rw [pick_of 2 q19_2 rfl, tok_of t (H 2 2 (by decide)) (H 0 2 (by decide))]
  exact check_ok hw

theorem vchk (a : Fin 4) (b : Fin 4) (t : Tok) : Statement (.vchk a b t) := by
  intro _ hw
  obtain ⟨W, hW, hlt, H⟩ := word_of (i := (.vchk a b t)) 0x64000000 [a.val, b.val, t.wait.val, t.post.val] [(14, 2), (9, 2), (2, 2), (0, 2)] rfl
    ⟨a.isLt, b.isLt, t.wait.isLt, t.post.isLt, trivial⟩ (by decide)
  have q30_2 : fld W 30 2 = 1 := H 30 2 (by decide)
  rw [(decode_at hW hlt).2.1 q30_2]
  have q24_6 : fld W 24 6 = 36 := H 24 6 (by decide)
  rw [decodeV, q24_6]
  show check (fld W 4 5 != 0) false (fld W 11 3 != 0 || fld W 16 8 != 0) (.vchk (pick 4 W 14) (pick 4 W 9) (tok W)) = _
  have q4_5 : fld W 4 5 = 0 := H 4 5 (by decide)
  have q11_3 : fld W 11 3 = 0 := H 11 3 (by decide)
  have q16_8 : fld W 16 8 = 0 := H 16 8 (by decide)
  rw [q4_5, q11_3, q16_8]
  have q14_2 : fld W 14 2 = a.val := H 14 2 (by decide)
  have q9_2 : fld W 9 2 = b.val := H 9 2 (by decide)
  rw [pick_of 2 q14_2 rfl, pick_of 2 q9_2 rfl, tok_of t (H 2 2 (by decide)) (H 0 2 (by decide))]
  exact check_ok hw

theorem kand (d : Fin 16) (a : Fin 16) (b : Fin 16) (t : VTail) : Statement (.kand d a b t) := by
  intro _ hw
  obtain ⟨W, hW, hlt, H⟩ := word_of (i := (.kand d a b t)) 0x65000000 [d.val, a.val, b.val, t.guard.val, t.sense.toNat, t.wait.val, t.post.val] [(19, 4), (14, 4), (9, 4), (5, 4), (4, 1), (2, 2), (0, 2)] rfl
    ⟨d.isLt, a.isLt, b.isLt, t.guard.isLt, Bool.toNat_lt t.sense, t.wait.isLt, t.post.isLt, trivial⟩ (by decide)
  have q30_2 : fld W 30 2 = 1 := H 30 2 (by decide)
  rw [(decode_at hW hlt).2.1 q30_2]
  have q24_6 : fld W 24 6 = 37 := H 24 6 (by decide)
  rw [decodeV, q24_6]
  show check false false (fld W 13 1 != 0 || fld W 18 1 != 0 || fld W 23 1 != 0) (.kand (pick 16 W 19) (pick 16 W 14) (pick 16 W 9) (vtail W)) = _
  have q13_1 : fld W 13 1 = 0 := H 13 1 (by decide)
  have q18_1 : fld W 18 1 = 0 := H 18 1 (by decide)
  have q23_1 : fld W 23 1 = 0 := H 23 1 (by decide)
  rw [q13_1, q18_1, q23_1]
  have q19_4 : fld W 19 4 = d.val := H 19 4 (by decide)
  have q14_4 : fld W 14 4 = a.val := H 14 4 (by decide)
  have q9_4 : fld W 9 4 = b.val := H 9 4 (by decide)
  rw [pick_of 4 q19_4 rfl, pick_of 4 q14_4 rfl, pick_of 4 q9_4 rfl, vtail_of t (H 5 4 (by decide)) (H 4 1 (by decide)) (H 2 2 (by decide)) (H 0 2 (by decide))]
  exact check_ok hw

theorem kor (d : Fin 16) (a : Fin 16) (b : Fin 16) (t : VTail) : Statement (.kor d a b t) := by
  intro _ hw
  obtain ⟨W, hW, hlt, H⟩ := word_of (i := (.kor d a b t)) 0x66000000 [d.val, a.val, b.val, t.guard.val, t.sense.toNat, t.wait.val, t.post.val] [(19, 4), (14, 4), (9, 4), (5, 4), (4, 1), (2, 2), (0, 2)] rfl
    ⟨d.isLt, a.isLt, b.isLt, t.guard.isLt, Bool.toNat_lt t.sense, t.wait.isLt, t.post.isLt, trivial⟩ (by decide)
  have q30_2 : fld W 30 2 = 1 := H 30 2 (by decide)
  rw [(decode_at hW hlt).2.1 q30_2]
  have q24_6 : fld W 24 6 = 38 := H 24 6 (by decide)
  rw [decodeV, q24_6]
  show check false false (fld W 13 1 != 0 || fld W 18 1 != 0 || fld W 23 1 != 0) (.kor (pick 16 W 19) (pick 16 W 14) (pick 16 W 9) (vtail W)) = _
  have q13_1 : fld W 13 1 = 0 := H 13 1 (by decide)
  have q18_1 : fld W 18 1 = 0 := H 18 1 (by decide)
  have q23_1 : fld W 23 1 = 0 := H 23 1 (by decide)
  rw [q13_1, q18_1, q23_1]
  have q19_4 : fld W 19 4 = d.val := H 19 4 (by decide)
  have q14_4 : fld W 14 4 = a.val := H 14 4 (by decide)
  have q9_4 : fld W 9 4 = b.val := H 9 4 (by decide)
  rw [pick_of 4 q19_4 rfl, pick_of 4 q14_4 rfl, pick_of 4 q9_4 rfl, vtail_of t (H 5 4 (by decide)) (H 4 1 (by decide)) (H 2 2 (by decide)) (H 0 2 (by decide))]
  exact check_ok hw

theorem kxor (d : Fin 16) (a : Fin 16) (b : Fin 16) (t : VTail) : Statement (.kxor d a b t) := by
  intro _ hw
  obtain ⟨W, hW, hlt, H⟩ := word_of (i := (.kxor d a b t)) 0x67000000 [d.val, a.val, b.val, t.guard.val, t.sense.toNat, t.wait.val, t.post.val] [(19, 4), (14, 4), (9, 4), (5, 4), (4, 1), (2, 2), (0, 2)] rfl
    ⟨d.isLt, a.isLt, b.isLt, t.guard.isLt, Bool.toNat_lt t.sense, t.wait.isLt, t.post.isLt, trivial⟩ (by decide)
  have q30_2 : fld W 30 2 = 1 := H 30 2 (by decide)
  rw [(decode_at hW hlt).2.1 q30_2]
  have q24_6 : fld W 24 6 = 39 := H 24 6 (by decide)
  rw [decodeV, q24_6]
  show check false false (fld W 13 1 != 0 || fld W 18 1 != 0 || fld W 23 1 != 0) (.kxor (pick 16 W 19) (pick 16 W 14) (pick 16 W 9) (vtail W)) = _
  have q13_1 : fld W 13 1 = 0 := H 13 1 (by decide)
  have q18_1 : fld W 18 1 = 0 := H 18 1 (by decide)
  have q23_1 : fld W 23 1 = 0 := H 23 1 (by decide)
  rw [q13_1, q18_1, q23_1]
  have q19_4 : fld W 19 4 = d.val := H 19 4 (by decide)
  have q14_4 : fld W 14 4 = a.val := H 14 4 (by decide)
  have q9_4 : fld W 9 4 = b.val := H 9 4 (by decide)
  rw [pick_of 4 q19_4 rfl, pick_of 4 q14_4 rfl, pick_of 4 q9_4 rfl, vtail_of t (H 5 4 (by decide)) (H 4 1 (by decide)) (H 2 2 (by decide)) (H 0 2 (by decide))]
  exact check_ok hw

theorem knot (d : Fin 16) (a : Fin 16) (t : VTail) : Statement (.knot d a t) := by
  intro _ hw
  obtain ⟨W, hW, hlt, H⟩ := word_of (i := (.knot d a t)) 0x68000000 [d.val, a.val, t.guard.val, t.sense.toNat, t.wait.val, t.post.val] [(19, 4), (14, 4), (5, 4), (4, 1), (2, 2), (0, 2)] rfl
    ⟨d.isLt, a.isLt, t.guard.isLt, Bool.toNat_lt t.sense, t.wait.isLt, t.post.isLt, trivial⟩ (by decide)
  have q30_2 : fld W 30 2 = 1 := H 30 2 (by decide)
  rw [(decode_at hW hlt).2.1 q30_2]
  have q24_6 : fld W 24 6 = 40 := H 24 6 (by decide)
  rw [decodeV, q24_6]
  show check false false (fld W 9 5 != 0 || fld W 18 1 != 0 || fld W 23 1 != 0) (.knot (pick 16 W 19) (pick 16 W 14) (vtail W)) = _
  have q9_5 : fld W 9 5 = 0 := H 9 5 (by decide)
  have q18_1 : fld W 18 1 = 0 := H 18 1 (by decide)
  have q23_1 : fld W 23 1 = 0 := H 23 1 (by decide)
  rw [q9_5, q18_1, q23_1]
  have q19_4 : fld W 19 4 = d.val := H 19 4 (by decide)
  have q14_4 : fld W 14 4 = a.val := H 14 4 (by decide)
  rw [pick_of 4 q19_4 rfl, pick_of 4 q14_4 rfl, vtail_of t (H 5 4 (by decide)) (H 4 1 (by decide)) (H 2 2 (by decide)) (H 0 2 (by decide))]
  exact check_ok hw

theorem vcfg (i : BitVec 10) (t : Tok) : Statement (.vcfg i t) := by
  intro _ hw
  obtain ⟨W, hW, hlt, H⟩ := word_of (i := (.vcfg i t)) 0x69000000 [i.toNat, t.wait.val, t.post.val] [(9, 10), (2, 2), (0, 2)] rfl
    ⟨i.isLt, t.wait.isLt, t.post.isLt, trivial⟩ (by decide)
  have q30_2 : fld W 30 2 = 1 := H 30 2 (by decide)
  rw [(decode_at hW hlt).2.1 q30_2]
  have q24_6 : fld W 24 6 = 41 := H 24 6 (by decide)
  rw [decodeV, q24_6]
  show check false false (fld W 4 5 != 0 || fld W 19 5 != 0) (.vcfg (.ofNat 10 (W / 2^9)) (tok W)) = _
  have q4_5 : fld W 4 5 = 0 := H 4 5 (by decide)
  have q19_5 : fld W 19 5 = 0 := H 19 5 (by decide)
  rw [q4_5, q19_5]
  have q9_10 : fld W 9 10 = i.toNat := H 9 10 (by decide)
  rw [bv_of q9_10, tok_of t (H 2 2 (by decide)) (H 0 2 (by decide))]
  exact check_ok hw

theorem vxtr (a : Fin 32) (t : VTail) : Statement (.vxtr a t) := by
  intro _ hw
  obtain ⟨W, hW, hlt, H⟩ := word_of (i := (.vxtr a t)) 0x6A000000 [a.val, t.guard.val, t.sense.toNat, t.wait.val, t.post.val] [(14, 5), (5, 4), (4, 1), (2, 2), (0, 2)] rfl
    ⟨a.isLt, t.guard.isLt, Bool.toNat_lt t.sense, t.wait.isLt, t.post.isLt, trivial⟩ (by decide)
  have q30_2 : fld W 30 2 = 1 := H 30 2 (by decide)
  rw [(decode_at hW hlt).2.1 q30_2]
  have q24_6 : fld W 24 6 = 42 := H 24 6 (by decide)
  rw [decodeV, q24_6]
  show check false false (fld W 9 5 != 0 || fld W 19 5 != 0) (.vxtr (pick 32 W 14) (vtail W)) = _
  have q9_5 : fld W 9 5 = 0 := H 9 5 (by decide)
  have q19_5 : fld W 19 5 = 0 := H 19 5 (by decide)
  rw [q9_5, q19_5]
  have q14_5 : fld W 14 5 = a.val := H 14 5 (by decide)
  rw [pick_of 5 q14_5 rfl, vtail_of t (H 5 4 (by decide)) (H 4 1 (by decide)) (H 2 2 (by decide)) (H 0 2 (by decide))]
  exact check_ok hw

theorem vpack (d : Fin 32) (a : Fin 32) (s : Fin 32) (t : VTail) : Statement (.vpack d a s t) := by
  intro _ hw
  obtain ⟨W, hW, hlt, H⟩ := word_of (i := (.vpack d a s t)) 0x6B000000 [d.val, a.val, s.val, t.guard.val, t.sense.toNat, t.wait.val, t.post.val] [(19, 5), (14, 5), (9, 5), (5, 4), (4, 1), (2, 2), (0, 2)] rfl
    ⟨d.isLt, a.isLt, s.isLt, t.guard.isLt, Bool.toNat_lt t.sense, t.wait.isLt, t.post.isLt, trivial⟩ (by decide)
  have q30_2 : fld W 30 2 = 1 := H 30 2 (by decide)
  rw [(decode_at hW hlt).2.1 q30_2]
  have q24_6 : fld W 24 6 = 43 := H 24 6 (by decide)
  rw [decodeV, q24_6]
  show check false false false (.vpack (pick 32 W 19) (pick 32 W 14) (pick 32 W 9) (vtail W)) = _
  have q19_5 : fld W 19 5 = d.val := H 19 5 (by decide)
  have q14_5 : fld W 14 5 = a.val := H 14 5 (by decide)
  have q9_5 : fld W 9 5 = s.val := H 9 5 (by decide)
  rw [pick_of 5 q19_5 rfl, pick_of 5 q14_5 rfl, pick_of 5 q9_5 rfl, vtail_of t (H 5 4 (by decide)) (H 4 1 (by decide)) (H 2 2 (by decide)) (H 0 2 (by decide))]
  exact check_ok hw

theorem vunpk (d : Fin 32) (a : Fin 32) (s : Fin 32) (t : VTail) : Statement (.vunpk d a s t) := by
  intro _ hw
  obtain ⟨W, hW, hlt, H⟩ := word_of (i := (.vunpk d a s t)) 0x6C000000 [d.val, a.val, s.val, t.guard.val, t.sense.toNat, t.wait.val, t.post.val] [(19, 5), (14, 5), (9, 5), (5, 4), (4, 1), (2, 2), (0, 2)] rfl
    ⟨d.isLt, a.isLt, s.isLt, t.guard.isLt, Bool.toNat_lt t.sense, t.wait.isLt, t.post.isLt, trivial⟩ (by decide)
  have q30_2 : fld W 30 2 = 1 := H 30 2 (by decide)
  rw [(decode_at hW hlt).2.1 q30_2]
  have q24_6 : fld W 24 6 = 44 := H 24 6 (by decide)
  rw [decodeV, q24_6]
  show check false false false (.vunpk (pick 32 W 19) (pick 32 W 14) (pick 32 W 9) (vtail W)) = _
  have q19_5 : fld W 19 5 = d.val := H 19 5 (by decide)
  have q14_5 : fld W 14 5 = a.val := H 14 5 (by decide)
  have q9_5 : fld W 9 5 = s.val := H 9 5 (by decide)
  rw [pick_of 5 q19_5 rfl, pick_of 5 q14_5 rfl, pick_of 5 q9_5 rfl, vtail_of t (H 5 4 (by decide)) (H 4 1 (by decide)) (H 2 2 (by decide)) (H 0 2 (by decide))]
  exact check_ok hw

theorem mnop (k : Tok) : Statement (.mnop k) := by
  intro _ hw
  obtain ⟨W, hW, hlt, H⟩ := word_of (i := (.mnop k)) 0x80000000 [k.wait.val, k.post.val] [(2, 2), (0, 2)] rfl
    ⟨k.wait.isLt, k.post.isLt, trivial⟩ (by decide)
  have q30_2 : fld W 30 2 = 2 := H 30 2 (by decide)
  rw [(decode_at hW hlt).2.2.1 q30_2]
  have q25_5 : fld W 25 5 = 0 := H 25 5 (by decide)
  rw [decodeM, q25_5]
  show check false false (fld W 4 21 != 0) (.mnop (tok W)) = _
  have q4_21 : fld W 4 21 = 0 := H 4 21 (by decide)
  rw [q4_21]
  rw [tok_of k (H 2 2 (by decide)) (H 0 2 (by decide))]
  exact check_ok hw

theorem mma (u : Fin 8) (t : Fin 16) (a : Fin 16) (b : Fin 16) (m : Bool) (x : Bool) (y : Bool) (k : Bool) (f : Bool) (q : Tok) : Statement (.mma u t a b m x y k f q) := by
  intro _ hw
  obtain ⟨W, hW, hlt, H⟩ := word_of (i := (.mma u t a b m x y k f q)) 0x82000000 [u.val, t.val, a.val, b.val, m.toNat, x.toNat, y.toNat, k.toNat, f.toNat, q.wait.val, q.post.val] [(22, 3), (18, 4), (14, 4), (10, 4), (9, 1), (8, 1), (7, 1), (6, 1), (5, 1), (2, 2), (0, 2)] rfl
    ⟨u.isLt, t.isLt, a.isLt, b.isLt, Bool.toNat_lt m, Bool.toNat_lt x, Bool.toNat_lt y, Bool.toNat_lt k, Bool.toNat_lt f, q.wait.isLt, q.post.isLt, trivial⟩ (by decide)
  have q30_2 : fld W 30 2 = 2 := H 30 2 (by decide)
  rw [(decode_at hW hlt).2.2.1 q30_2]
  have q25_5 : fld W 25 5 = 1 := H 25 5 (by decide)
  rw [decodeM, q25_5]
  show check false false (fld W 4 1 != 0) (.mma (pick 8 W 22) (pick 16 W 18) (pick 16 W 14) (pick 16 W 10) (bit W 9) (bit W 8) (bit W 7) (bit W 6) (bit W 5) (tok W)) = _
  have q4_1 : fld W 4 1 = 0 := H 4 1 (by decide)
  rw [q4_1]
  have q22_3 : fld W 22 3 = u.val := H 22 3 (by decide)
  have q18_4 : fld W 18 4 = t.val := H 18 4 (by decide)
  have q14_4 : fld W 14 4 = a.val := H 14 4 (by decide)
  have q10_4 : fld W 10 4 = b.val := H 10 4 (by decide)
  have q9_1 : fld W 9 1 = m.toNat := H 9 1 (by decide)
  have q8_1 : fld W 8 1 = x.toNat := H 8 1 (by decide)
  have q7_1 : fld W 7 1 = y.toNat := H 7 1 (by decide)
  have q6_1 : fld W 6 1 = k.toNat := H 6 1 (by decide)
  have q5_1 : fld W 5 1 = f.toNat := H 5 1 (by decide)
  rw [pick_of 3 q22_3 rfl, pick_of 4 q18_4 rfl, pick_of 4 q14_4 rfl, pick_of 4 q10_4 rfl, bit_of q9_1, bit_of q8_1, bit_of q7_1, bit_of q6_1, bit_of q5_1, tok_of q (H 2 2 (by decide)) (H 0 2 (by decide))]
  exact check_ok hw

theorem mzero (t : Fin 16) (k : Tok) : Statement (.mzero t k) := by
  intro _ hw
  obtain ⟨W, hW, hlt, H⟩ := word_of (i := (.mzero t k)) 0x84000000 [t.val, k.wait.val, k.post.val] [(18, 4), (2, 2), (0, 2)] rfl
    ⟨t.isLt, k.wait.isLt, k.post.isLt, trivial⟩ (by decide)
  have q30_2 : fld W 30 2 = 2 := H 30 2 (by decide)
  rw [(decode_at hW hlt).2.2.1 q30_2]
  have q25_5 : fld W 25 5 = 2 := H 25 5 (by decide)
  rw [decodeM, q25_5]
  show check false false (fld W 4 14 != 0 || fld W 22 3 != 0) (.mzero (pick 16 W 18) (tok W)) = _
  have q4_14 : fld W 4 14 = 0 := H 4 14 (by decide)
  have q22_3 : fld W 22 3 = 0 := H 22 3 (by decide)
  rw [q4_14, q22_3]
  have q18_4 : fld W 18 4 = t.val := H 18 4 (by decide)
  rw [pick_of 4 q18_4 rfl, tok_of k (H 2 2 (by decide)) (H 0 2 (by decide))]
  exact check_ok hw

theorem mdrain (t : Fin 16) (a : Fin 16) (k : Tok) : Statement (.mdrain t a k) := by
  intro _ hw
  obtain ⟨W, hW, hlt, H⟩ := word_of (i := (.mdrain t a k)) 0x86000000 [t.val, a.val, k.wait.val, k.post.val] [(18, 4), (14, 4), (2, 2), (0, 2)] rfl
    ⟨t.isLt, a.isLt, k.wait.isLt, k.post.isLt, trivial⟩ (by decide)
  have q30_2 : fld W 30 2 = 2 := H 30 2 (by decide)
  rw [(decode_at hW hlt).2.2.1 q30_2]
  have q25_5 : fld W 25 5 = 3 := H 25 5 (by decide)
  rw [decodeM, q25_5]
  show check false false (fld W 4 10 != 0 || fld W 22 3 != 0) (.mdrain (pick 16 W 18) (pick 16 W 14) (tok W)) = _
  have q4_10 : fld W 4 10 = 0 := H 4 10 (by decide)
  have q22_3 : fld W 22 3 = 0 := H 22 3 (by decide)
  rw [q4_10, q22_3]
  have q18_4 : fld W 18 4 = t.val := H 18 4 (by decide)
  have q14_4 : fld W 14 4 = a.val := H 14 4 (by decide)
  rw [pick_of 4 q18_4 rfl, pick_of 4 q14_4 rfl, tok_of k (H 2 2 (by decide)) (H 0 2 (by decide))]
  exact check_ok hw

theorem mloadc (t : Fin 16) (a : Fin 16) (k : Tok) : Statement (.mloadc t a k) := by
  intro _ hw
  obtain ⟨W, hW, hlt, H⟩ := word_of (i := (.mloadc t a k)) 0x88000000 [t.val, a.val, k.wait.val, k.post.val] [(18, 4), (14, 4), (2, 2), (0, 2)] rfl
    ⟨t.isLt, a.isLt, k.wait.isLt, k.post.isLt, trivial⟩ (by decide)
  have q30_2 : fld W 30 2 = 2 := H 30 2 (by decide)
  rw [(decode_at hW hlt).2.2.1 q30_2]
  have q25_5 : fld W 25 5 = 4 := H 25 5 (by decide)
  rw [decodeM, q25_5]
  show check false false (fld W 4 10 != 0 || fld W 22 3 != 0) (.mloadc (pick 16 W 18) (pick 16 W 14) (tok W)) = _
  have q4_10 : fld W 4 10 = 0 := H 4 10 (by decide)
  have q22_3 : fld W 22 3 = 0 := H 22 3 (by decide)
  rw [q4_10, q22_3]
  have q18_4 : fld W 18 4 = t.val := H 18 4 (by decide)
  have q14_4 : fld W 14 4 = a.val := H 14 4 (by decide)
  rw [pick_of 4 q18_4 rfl, pick_of 4 q14_4 rfl, tok_of k (H 2 2 (by decide)) (H 0 2 (by decide))]
  exact check_ok hw

theorem cnop (h : Fin 8) (t : Tok) : Statement (.cnop h t) := by
  intro _ hw
  obtain ⟨W, hW, hlt, H⟩ := word_of (i := (.cnop h t)) 0xC0001000 [h.val, t.wait.val, t.post.val] [(22, 3), (2, 2), (0, 2)] rfl
    ⟨h.isLt, t.wait.isLt, t.post.isLt, trivial⟩ (by decide)
  have q30_2 : fld W 30 2 = 3 := H 30 2 (by decide)
  rw [(decode_at hW hlt).2.2.2 q30_2]
  have q25_5 : fld W 25 5 = 0 := H 25 5 (by decide)
  rw [decodeC, q25_5]
  show check (fld W 8 4 != 0 || bit W 13) false (!bit W 12 || fld W 4 4 != 0 || fld W 14 8 != 0) (.cnop (pick 8 W 22) (tok W)) = _
  have q8_4 : fld W 8 4 = 0 := H 8 4 (by decide)
  have q13_1 : fld W 13 1 = 0 := H 13 1 (by decide)
  have b13 : bit W 13 = false := bit_of (b := false) q13_1
  have q4_4 : fld W 4 4 = 0 := H 4 4 (by decide)
  have q14_8 : fld W 14 8 = 0 := H 14 8 (by decide)
  have q12_1 : fld W 12 1 = 1 := H 12 1 (by decide)
  have b12 : bit W 12 = true := bit_of (b := true) q12_1
  rw [q8_4, b13, q4_4, q14_8, b12]
  have q22_3 : fld W 22 3 = h.val := H 22 3 (by decide)
  rw [pick_of 3 q22_3 rfl, tok_of t (H 2 2 (by decide)) (H 0 2 (by decide))]
  exact check_ok hw

theorem cpy (h : Fin 8) (c : Fin 16) (r : Bool) (t : Tok) : Statement (.cpy h c r t) := by
  intro _ hw
  obtain ⟨W, hW, hlt, H⟩ := word_of (i := (.cpy h c r t)) 0xC2001000 [h.val, c.val, r.toNat, t.wait.val, t.post.val] [(22, 3), (18, 4), (13, 1), (2, 2), (0, 2)] rfl
    ⟨h.isLt, c.isLt, Bool.toNat_lt r, t.wait.isLt, t.post.isLt, trivial⟩ (by decide)
  have q30_2 : fld W 30 2 = 3 := H 30 2 (by decide)
  rw [(decode_at hW hlt).2.2.2 q30_2]
  have q25_5 : fld W 25 5 = 1 := H 25 5 (by decide)
  rw [decodeC, q25_5]
  show check (fld W 8 4 != 0) false (!bit W 12 || fld W 4 4 != 0 || fld W 14 4 != 0) (.cpy (pick 8 W 22) (pick 16 W 18) (bit W 13) (tok W)) = _
  have q8_4 : fld W 8 4 = 0 := H 8 4 (by decide)
  have q4_4 : fld W 4 4 = 0 := H 4 4 (by decide)
  have q14_4 : fld W 14 4 = 0 := H 14 4 (by decide)
  have q12_1 : fld W 12 1 = 1 := H 12 1 (by decide)
  have b12 : bit W 12 = true := bit_of (b := true) q12_1
  rw [q8_4, q4_4, q14_4, b12]
  have q22_3 : fld W 22 3 = h.val := H 22 3 (by decide)
  have q18_4 : fld W 18 4 = c.val := H 18 4 (by decide)
  have q13_1 : fld W 13 1 = r.toNat := H 13 1 (by decide)
  rw [pick_of 3 q22_3 rfl, pick_of 4 q18_4 rfl, bit_of q13_1, tok_of t (H 2 2 (by decide)) (H 0 2 (by decide))]
  exact check_ok hw

theorem cred (h : Fin 8) (c : Fin 16) (r : Bool) (o : Fin 16) (t : Tok) : Statement (.cred h c r o t) := by
  intro _ hw
  obtain ⟨W, hW, hlt, H⟩ := word_of (i := (.cred h c r o t)) 0xC4001000 [h.val, c.val, r.toNat, o.val, t.wait.val, t.post.val] [(22, 3), (18, 4), (13, 1), (8, 4), (2, 2), (0, 2)] rfl
    ⟨h.isLt, c.isLt, Bool.toNat_lt r, o.isLt, t.wait.isLt, t.post.isLt, trivial⟩ (by decide)
  have q30_2 : fld W 30 2 = 3 := H 30 2 (by decide)
  rw [(decode_at hW hlt).2.2.2 q30_2]
  have q25_5 : fld W 25 5 = 2 := H 25 5 (by decide)
  rw [decodeC, q25_5]
  show check false false (!bit W 12 || fld W 4 4 != 0 || fld W 14 4 != 0) (.cred (pick 8 W 22) (pick 16 W 18) (bit W 13) (pick 16 W 8) (tok W)) = _
  have q4_4 : fld W 4 4 = 0 := H 4 4 (by decide)
  have q14_4 : fld W 14 4 = 0 := H 14 4 (by decide)
  have q12_1 : fld W 12 1 = 1 := H 12 1 (by decide)
  have b12 : bit W 12 = true := bit_of (b := true) q12_1
  rw [q4_4, q14_4, b12]
  have q22_3 : fld W 22 3 = h.val := H 22 3 (by decide)
  have q18_4 : fld W 18 4 = c.val := H 18 4 (by decide)
  have q13_1 : fld W 13 1 = r.toNat := H 13 1 (by decide)
  have q8_4 : fld W 8 4 = o.val := H 8 4 (by decide)
  rw [pick_of 3 q22_3 rfl, pick_of 4 q18_4 rfl, bit_of q13_1, pick_of 4 q8_4 rfl, tok_of t (H 2 2 (by decide)) (H 0 2 (by decide))]
  exact check_ok hw

theorem cgath (h : Fin 8) (c : Fin 16) (r : Bool) (t : Tok) : Statement (.cgath h c r t) := by
  intro _ hw
  obtain ⟨W, hW, hlt, H⟩ := word_of (i := (.cgath h c r t)) 0xC6001000 [h.val, c.val, r.toNat, t.wait.val, t.post.val] [(22, 3), (18, 4), (13, 1), (2, 2), (0, 2)] rfl
    ⟨h.isLt, c.isLt, Bool.toNat_lt r, t.wait.isLt, t.post.isLt, trivial⟩ (by decide)
  have q30_2 : fld W 30 2 = 3 := H 30 2 (by decide)
  rw [(decode_at hW hlt).2.2.2 q30_2]
  have q25_5 : fld W 25 5 = 3 := H 25 5 (by decide)
  rw [decodeC, q25_5]
  show check (fld W 8 4 != 0) false (!bit W 12 || fld W 4 4 != 0 || fld W 14 4 != 0) (.cgath (pick 8 W 22) (pick 16 W 18) (bit W 13) (tok W)) = _
  have q8_4 : fld W 8 4 = 0 := H 8 4 (by decide)
  have q4_4 : fld W 4 4 = 0 := H 4 4 (by decide)
  have q14_4 : fld W 14 4 = 0 := H 14 4 (by decide)
  have q12_1 : fld W 12 1 = 1 := H 12 1 (by decide)
  have b12 : bit W 12 = true := bit_of (b := true) q12_1
  rw [q8_4, q4_4, q14_4, b12]
  have q22_3 : fld W 22 3 = h.val := H 22 3 (by decide)
  have q18_4 : fld W 18 4 = c.val := H 18 4 (by decide)
  have q13_1 : fld W 13 1 = r.toNat := H 13 1 (by decide)
  rw [pick_of 3 q22_3 rfl, pick_of 4 q18_4 rfl, bit_of q13_1, tok_of t (H 2 2 (by decide)) (H 0 2 (by decide))]
  exact check_ok hw

theorem cscat (h : Fin 8) (c : Fin 16) (r : Bool) (t : Tok) : Statement (.cscat h c r t) := by
  intro _ hw
  obtain ⟨W, hW, hlt, H⟩ := word_of (i := (.cscat h c r t)) 0xC8001000 [h.val, c.val, r.toNat, t.wait.val, t.post.val] [(22, 3), (18, 4), (13, 1), (2, 2), (0, 2)] rfl
    ⟨h.isLt, c.isLt, Bool.toNat_lt r, t.wait.isLt, t.post.isLt, trivial⟩ (by decide)
  have q30_2 : fld W 30 2 = 3 := H 30 2 (by decide)
  rw [(decode_at hW hlt).2.2.2 q30_2]
  have q25_5 : fld W 25 5 = 4 := H 25 5 (by decide)
  rw [decodeC, q25_5]
  show check (fld W 8 4 != 0) false (!bit W 12 || fld W 4 4 != 0 || fld W 14 4 != 0) (.cscat (pick 8 W 22) (pick 16 W 18) (bit W 13) (tok W)) = _
  have q8_4 : fld W 8 4 = 0 := H 8 4 (by decide)
  have q4_4 : fld W 4 4 = 0 := H 4 4 (by decide)
  have q14_4 : fld W 14 4 = 0 := H 14 4 (by decide)
  have q12_1 : fld W 12 1 = 1 := H 12 1 (by decide)
  have b12 : bit W 12 = true := bit_of (b := true) q12_1
  rw [q8_4, q4_4, q14_4, b12]
  have q22_3 : fld W 22 3 = h.val := H 22 3 (by decide)
  have q18_4 : fld W 18 4 = c.val := H 18 4 (by decide)
  have q13_1 : fld W 13 1 = r.toNat := H 13 1 (by decide)
  rw [pick_of 3 q22_3 rfl, pick_of 4 q18_4 rfl, bit_of q13_1, tok_of t (H 2 2 (by decide)) (H 0 2 (by decide))]
  exact check_ok hw

theorem cmcast (h : Fin 8) (c : Fin 16) (r : Bool) (t : Tok) : Statement (.cmcast h c r t) := by
  intro _ hw
  obtain ⟨W, hW, hlt, H⟩ := word_of (i := (.cmcast h c r t)) 0xCA001000 [h.val, c.val, r.toNat, t.wait.val, t.post.val] [(22, 3), (18, 4), (13, 1), (2, 2), (0, 2)] rfl
    ⟨h.isLt, c.isLt, Bool.toNat_lt r, t.wait.isLt, t.post.isLt, trivial⟩ (by decide)
  have q30_2 : fld W 30 2 = 3 := H 30 2 (by decide)
  rw [(decode_at hW hlt).2.2.2 q30_2]
  have q25_5 : fld W 25 5 = 5 := H 25 5 (by decide)
  rw [decodeC, q25_5]
  show check (fld W 8 4 != 0) false (!bit W 12 || fld W 4 4 != 0 || fld W 14 4 != 0) (.cmcast (pick 8 W 22) (pick 16 W 18) (bit W 13) (tok W)) = _
  have q8_4 : fld W 8 4 = 0 := H 8 4 (by decide)
  have q4_4 : fld W 4 4 = 0 := H 4 4 (by decide)
  have q14_4 : fld W 14 4 = 0 := H 14 4 (by decide)
  have q12_1 : fld W 12 1 = 1 := H 12 1 (by decide)
  have b12 : bit W 12 = true := bit_of (b := true) q12_1
  rw [q8_4, q4_4, q14_4, b12]
  have q22_3 : fld W 22 3 = h.val := H 22 3 (by decide)
  have q18_4 : fld W 18 4 = c.val := H 18 4 (by decide)
  have q13_1 : fld W 13 1 = r.toNat := H 13 1 (by decide)
  rw [pick_of 3 q22_3 rfl, pick_of 4 q18_4 rfl, bit_of q13_1, tok_of t (H 2 2 (by decide)) (H 0 2 (by decide))]
  exact check_ok hw

theorem cfill (h : Fin 8) (c : Fin 16) (r : Bool) (o : Fin 16) (t : Tok) : Statement (.cfill h c r o t) := by
  intro _ hw
  obtain ⟨W, hW, hlt, H⟩ := word_of (i := (.cfill h c r o t)) 0xCC001000 [h.val, c.val, r.toNat, o.val, t.wait.val, t.post.val] [(22, 3), (18, 4), (13, 1), (8, 4), (2, 2), (0, 2)] rfl
    ⟨h.isLt, c.isLt, Bool.toNat_lt r, o.isLt, t.wait.isLt, t.post.isLt, trivial⟩ (by decide)
  have q30_2 : fld W 30 2 = 3 := H 30 2 (by decide)
  rw [(decode_at hW hlt).2.2.2 q30_2]
  have q25_5 : fld W 25 5 = 6 := H 25 5 (by decide)
  rw [decodeC, q25_5]
  show check false false (!bit W 12 || fld W 4 4 != 0 || fld W 14 4 != 0) (.cfill (pick 8 W 22) (pick 16 W 18) (bit W 13) (pick 16 W 8) (tok W)) = _
  have q4_4 : fld W 4 4 = 0 := H 4 4 (by decide)
  have q14_4 : fld W 14 4 = 0 := H 14 4 (by decide)
  have q12_1 : fld W 12 1 = 1 := H 12 1 (by decide)
  have b12 : bit W 12 = true := bit_of (b := true) q12_1
  rw [q4_4, q14_4, b12]
  have q22_3 : fld W 22 3 = h.val := H 22 3 (by decide)
  have q18_4 : fld W 18 4 = c.val := H 18 4 (by decide)
  have q13_1 : fld W 13 1 = r.toNat := H 13 1 (by decide)
  have q8_4 : fld W 8 4 = o.val := H 8 4 (by decide)
  rw [pick_of 3 q22_3 rfl, pick_of 4 q18_4 rfl, bit_of q13_1, pick_of 4 q8_4 rfl, tok_of t (H 2 2 (by decide)) (H 0 2 (by decide))]
  exact check_ok hw

theorem allowanceRefill (p : Fin 16) : Statement (.allowanceRefill p) := fun h => absurd h Bool.false_ne_true

theorem kill (c : Fin 256) : Statement (.kill c) := fun h => absurd h Bool.false_ne_true

theorem vFinish (s : SlotId) : Statement (.vFinish s) := fun h => absurd h Bool.false_ne_true

theorem markerApply (s : SlotId) : Statement (.markerApply s) := fun h => absurd h Bool.false_ne_true

theorem agEntry (s : SlotId) (g : Fin 8) : Statement (.agEntry s g) := fun h => absurd h Bool.false_ne_true

theorem cStart (s : SlotId) : Statement (.cStart s) := fun h => absurd h Bool.false_ne_true

theorem copyUnit (s : SlotId) (h : Fin 8) : Statement (.copyUnit s h) := fun h => absurd h Bool.false_ne_true

theorem cComplete (s : SlotId) (h : Fin 8) : Statement (.cComplete s h) := fun h => absurd h Bool.false_ne_true

theorem mStart (s : SlotId) : Statement (.mStart s) := fun h => absurd h Bool.false_ne_true

theorem microStep (s : SlotId) : Statement (.microStep s) := fun h => absurd h Bool.false_ne_true

theorem mComplete (s : SlotId) : Statement (.mComplete s) := fun h => absurd h Bool.false_ne_true

theorem quiescentPoint (s : SlotId) : Statement (.quiescentPoint s) := fun h => absurd h Bool.false_ne_true

theorem leaseIdleTimeout (c : Fin 64) : Statement (.leaseIdleTimeout c) := fun h => absurd h Bool.false_ne_true

theorem ticketServe (c : Fin 64) : Statement (.ticketServe c) := fun h => absurd h Bool.false_ne_true

theorem poolScrub (p : Fin 16) : Statement (.poolScrub p) := fun h => absurd h Bool.false_ne_true

theorem storePerform (s : SlotId) : Statement (.storePerform s) := fun h => absurd h Bool.false_ne_true

theorem loadBlockFill (s : SlotId) (h : Fin 16) (k : Fin 64) : Statement (.loadBlockFill s h k) := fun h => absurd h Bool.false_ne_true

theorem taskStart (s : SlotId) : Statement (.taskStart s) := fun h => absurd h Bool.false_ne_true

theorem resume (s : SlotId) : Statement (.resume s) := fun h => absurd h Bool.false_ne_true

theorem taskEnd (s : SlotId) : Statement (.taskEnd s) := fun h => absurd h Bool.false_ne_true

theorem graphNodePlace (p : Fin 16) : Statement (.graphNodePlace p) := fun h => absurd h Bool.false_ne_true

theorem launchScan (p : Fin 16) : Statement (.launchScan p) := fun h => absurd h Bool.false_ne_true

theorem periodicWake (p : Fin 16) : Statement (.periodicWake p) := fun h => absurd h Bool.false_ne_true

theorem wakeWindowEnd (p : Fin 16) : Statement (.wakeWindowEnd p) := fun h => absurd h Bool.false_ne_true

theorem steal (c : Fin 256) : Statement (.steal c) := fun h => absurd h Bool.false_ne_true

theorem dequeRefill (c : Fin 256) : Statement (.dequeRefill c) := fun h => absurd h Bool.false_ne_true

theorem spillSweep (c : Fin 256) : Statement (.spillSweep c) := fun h => absurd h Bool.false_ne_true

theorem preload (s : SlotId) : Statement (.preload s) := fun h => absurd h Bool.false_ne_true

theorem preloadComplete (s : SlotId) : Statement (.preloadComplete s) := fun h => absurd h Bool.false_ne_true

theorem yieldTimeout (s : SlotId) : Statement (.yieldTimeout s) := fun h => absurd h Bool.false_ne_true

theorem waitSatisfied (s : SlotId) : Statement (.waitSatisfied s) := fun h => absurd h Bool.false_ne_true

theorem awaitReread (s : SlotId) : Statement (.awaitReread s) := fun h => absurd h Bool.false_ne_true

theorem barrierLanding (p : Fin 16) : Statement (.barrierLanding p) := fun h => absurd h Bool.false_ne_true

theorem barwaitReturn (s : SlotId) : Statement (.barwaitReturn s) := fun h => absurd h Bool.false_ne_true

theorem asyncDelivery (s : SlotId) : Statement (.asyncDelivery s) := fun h => absurd h Bool.false_ne_true

theorem watchdog (s : SlotId) : Statement (.watchdog s) := fun h => absurd h Bool.false_ne_true

theorem preemptBudget (s : SlotId) : Statement (.preemptBudget s) := fun h => absurd h Bool.false_ne_true

theorem loopDrainTimeout (s : SlotId) : Statement (.loopDrainTimeout s) := fun h => absurd h Bool.false_ne_true

theorem saveTorn (s : SlotId) : Statement (.saveTorn s) := fun h => absurd h Bool.false_ne_true

theorem cfgCtl : Statement .cfgCtl := fun h => absurd h Bool.false_ne_true

theorem partRun (p : Fin 16) : Statement (.partRun p) := fun h => absurd h Bool.false_ne_true

theorem partStop (p : Fin 16) : Statement (.partStop p) := fun h => absurd h Bool.false_ne_true

theorem partReset (p : Fin 16) : Statement (.partReset p) := fun h => absurd h Bool.false_ne_true

theorem coreRun (c : Fin 256) : Statement (.coreRun c) := fun h => absurd h Bool.false_ne_true

theorem dma : Statement .dma := fun h => absurd h Bool.false_ne_true

theorem logSwap (p : Fin 16) : Statement (.logSwap p) := fun h => absurd h Bool.false_ne_true

theorem powerCap (w : BitVec 64) : Statement (.powerCap w) := fun h => absurd h Bool.false_ne_true

theorem pfRegisterWrite (off : BitVec 16) (v : BitVec 64) : Statement (.pfRegisterWrite off v) := fun h => absurd h Bool.false_ne_true

theorem doorbell (p : Fin 16) (v : BitVec 64) : Statement (.doorbell p v) := fun h => absurd h Bool.false_ne_true

theorem keyLoad (p : Fin 16) (k : Fin 16) (wrapped : BitVec 576) : Statement (.keyLoad p k wrapped) := fun h => absurd h Bool.false_ne_true

theorem keyClear (p : Fin 16) (k : Fin 16) : Statement (.keyClear p k) := fun h => absurd h Bool.false_ne_true

theorem linkCrcError (l : Fin 4) (failed : Bool) : Statement (.linkCrcError l failed) := fun h => absurd h Bool.false_ne_true

theorem falranRequest (port : Fin 64) (f : Flit) (q : FalranReq) : Statement (.falranRequest port f q) := fun h => absurd h Bool.false_ne_true

theorem falranData (port : Fin 64) (f : Flit) : Statement (.falranData port f) := fun h => absurd h Bool.false_ne_true

theorem falranResponse (port : Fin 64) (f : Flit) (r : FalranResp) : Statement (.falranResponse port f r) := fun h => absurd h Bool.false_ne_true

theorem falranAck (port : Fin 64) (f : Flit) : Statement (.falranAck port f) := fun h => absurd h Bool.false_ne_true

theorem falranRetryRequest (port : Fin 64) (f : Flit) : Statement (.falranRetryRequest port f) := fun h => absurd h Bool.false_ne_true

theorem thermalTrip : Statement .thermalTrip := fun h => absurd h Bool.false_ne_true

theorem clockThrottle (watts : Nat) : Statement (.clockThrottle watts) := fun h => absurd h Bool.false_ne_true

theorem coldReset (image : FirmwareImage) : Statement (.coldReset image) := fun h => absurd h Bool.false_ne_true

theorem spdmRequest (p : Fin 17) (q : SpdmReq) : Statement (.spdmRequest p q) := fun h => absurd h Bool.false_ne_true

theorem wake (p : Fin 16) (mask : BitVec 4) : Statement (.wake p mask) := fun h => absurd h Bool.false_ne_true

theorem slotReselect (c : Fin 256) : Statement (.slotReselect c) := fun h => absurd h Bool.false_ne_true

theorem stallEnd (s : SlotId) : Statement (.stallEnd s) := fun h => absurd h Bool.false_ne_true

theorem compaction (p : PoolId) : Statement (.compaction p) := fun h => absurd h Bool.false_ne_true

theorem segmentEvict (g : SegId) : Statement (.segmentEvict g) := fun h => absurd h Bool.false_ne_true

theorem configCommit : Statement .configCommit := fun h => absurd h Bool.false_ne_true

theorem cfgTmo : Statement .cfgTmo := fun h => absurd h Bool.false_ne_true

theorem freshFill (g : SegId) : Statement (.freshFill g) := fun h => absurd h Bool.false_ne_true

theorem segmentRecall (g : SegId) : Statement (.segmentRecall g) := fun h => absurd h Bool.false_ne_true

theorem writeBack (c : Fin 256) (line : Nat) : Statement (.writeBack c line) := fun h => absurd h Bool.false_ne_true

end Laws.RoundTrip

end Sys2Proof
end

