-- ==== Sys2Proof/Tests/Slice0.lean ====
section
/-! SUPPORT. The model's own tests: words of every family, terms that are not well-formed, single steps with results taken from the spec,
and for the statements a state and operands that meet their hypotheses. -/

open Sys2Proof Sys2Proof.Machine

namespace Sys2Proof.Tests

set_option Elab.async false

/-! ### Decoding (02) -/

/-- Each word decodes to its instruction. -/
def decodes (l : List (BitVec 32 × Instr)) : Bool :=
  l.all fun e => match decode e.1 with
    | .ok i => i == e.2
    | .error _ => false

/-- Each word is refused for its reason. -/
def refuses (l : List (BitVec 32 × Reason)) : Bool :=
  l.all fun e => match decode e.1 with
    | .ok _ => false
    | .error r => r == e.2

/-- Register words: every operand field written at the bits that 02 gives it, and the examples the spec encodes. -/
theorem test_decode_register :
    decodes
      [(0x0019D801, .add 3 7 12), (0x0019D802, .sub 3 7 12), (0x0019D803, .and 3 7 12), (0x0019D804, .or 3 7 12),
       (0x0019D805, .xor 3 7 12), (0x0019D806, .andn 3 7 12), (0x0019D807, .orn 3 7 12), (0x0019D808, .sll 3 7 12),
       (0x0019D809, .srl 3 7 12), (0x0019D80A, .sra 3 7 12), (0x0019D80B, .mul 3 7 12), (0x0019D80C, .mulh 3 7 12),
       (0x0019D80D, .mulhu 3 7 12), (0x0019D80E, .div 3 7 12), (0x0019D90E, .divu 3 7 12), (0x0019D80F, .rem 3 7 12),
       (0x0019D90F, .remu 3 7 12), (0x0019D810, .slt 3 7 12), (0x0019D811, .sltu 3 7 12), (0x0019D812, .min 3 7 12),
       (0x0019D813, .max 3 7 12), (0x0019D814, .minu 3 7 12), (0x0019D815, .maxu 3 7 12), (0x0019C016, .clz 3 7), (0x0019C017, .ctz 3 7),
       (0x0019C018, .popc 3 7), (0x0019D819, .rol 3 7 12), (0x0019D81A, .ror 3 7 12), (0x0019D81B, .sext 3 7 12),
       (0x0019D81C, .zext 3 7 12), (0x0019D81D, .bext 3 7 12), (0x0019D81E, .bins 3 7 12), (0x00184401, .add 3 1 2),
       (0x00298F0E, .divu 5 6 7)] = true := by decide +kernel

/-- Immediate words: every operand field written at the bits that 02 gives it, and the examples the spec encodes. -/
theorem test_decode_immediate :
    decodes
      [(0x0119EA5B, .addi 3 7 0x2A5B), (0x0219EA5B, .andi 3 7 0x2A5B), (0x0319EA5B, .ori 3 7 0x2A5B), (0x0419EA5B, .xori 3 7 0x2A5B),
       (0x0519EA5B, .slti 3 7 0x2A5B), (0x0619EA5B, .sltiu 3 7 0x2A5B), (0x0A19EA5B, .muli 3 7 0x2A5B), (0x0719C009, .slli 3 7 9),
       (0x0719D009, .srli 3 7 9), (0x0719E009, .srai 3 7 9), (0x0719F009, .roli 3 7 9), (0x0B19C27E, .bexti 3 7 9 62),
       (0x0C19C27E, .binsi 3 7 9 62), (0x081DA5A5, .lui 3 0x5A5A5), (0x091DA5A5, .auipc 3 0x5A5A5), (0x01000000, .addi 0 0 0),
       (0x021040FF, .andi 2 1 0xFF), (0x07226003, .srai 4 9 3), (0x0B314108, .bexti 6 5 4 8),
       (0x0838000C, .lui 7 12)] = true := by decide +kernel

/-- Branch words: every operand field written at the bits that 02 gives it, and the examples the spec encodes. -/
theorem test_decode_branch :
    decodes
      [(0x1019EA5B, .beq 3 7 0x2A5B), (0x1119EA5B, .bne 3 7 0x2A5B), (0x1219EA5B, .blt 3 7 0x2A5B), (0x1319EA5B, .bge 3 7 0x2A5B),
       (0x1419EA5B, .bltu 3 7 0x2A5B), (0x1519EA5B, .bgeu 3 7 0x2A5B), (0x16193A5B, .bbs 3 9 0x1A5B), (0x17193A5B, .bbc 3 9 0x1A5B),
       (0x18A5C3F1, .j 0xA5C3F1), (0x19A5C3F1, .jal 0xA5C3F1), (0x1A19EA5B, .jalr 3 7 0x2A5B), (0x1B182A5B, .brloop 3 0x2A5B),
       (0x11283FFD, .bne 5 0 0x3FFD), (0x1A07C000, .jalr 0 31 0)] = true := by decide +kernel

/-- Floating words: every operand field written at the bits that 02 gives it, and the examples the spec encodes. -/
theorem test_decode_floating :
    decodes
      [(0x0F19D801, .fadd 3 7 12), (0x0F19D802, .fsub 3 7 12), (0x0F19D803, .fmul 3 7 12), (0x0F19D804, .ffma 3 7 12),
       (0x0F19D805, .fmin 3 7 12), (0x0F19D806, .fmax 3 7 12), (0x0F19D887, .fcmp 3 7 12 2), (0x0F19C0A8, .fcvt 3 7 5),
       (0x0F088647, .fcmp 1 2 3 1), (0x0F124068, .fcvt 2 9 3)] = true := by decide +kernel

/-- Memory words: every operand field written at the bits that 02 gives it, and the examples the spec encodes. -/
theorem test_decode_memory :
    decodes
      [(0x2019EDA3, .ld 3 7 2 true 0x5A3), (0x2119D5A3, .st 3 7 1 0x5A3), (0x2219CBA5, .ldS 3 7 0 true 1 0x1A5),
       (0x2319D5A5, .stS 3 7 1 2 0x1A5), (0x2419D8D8, .atom 3 7 12 3 1 8), (0x2519D8D0, .cas 3 7 12 3 1), (0x26000000, .mark),
       (0x260000D0, .fenceRel 3), (0x260000E0, .fenceAcq 3), (0x260000F0, .fenceAr 3), (0x2719D890, .lblk 3 7 6 9),
       (0x27181801, .lblkRel 3 6), (0x28198001, .blkwait 3 6), (0x2919C001, .pspace 3 7), (0x2919D802, .pcast 3 7 12),
       (0x20293008, .ld 5 4 3 false 8), (0x20310801, .ld 6 4 0 true 1), (0x212FA00C, .st 5 30 2 12), (0x22097200, .ldS 1 5 3 false 1 0),
       (0x23497408, .stS 9 5 3 2 8), (0x24111260, .atom 2 4 9 1 2 0), (0x25190D50, .cas 3 4 6 5 1), (0x27120CF0, .lblk 2 8 3 15),
       (0x27100C01, .lblkRel 2 3), (0x2810C001, .blkwait 2 3), (0x29284001, .pspace 5 1), (0x29304602, .pcast 6 1 3),
       (0x26000050, .fenceRel 1), (0x26000170, .fenceAr 5)] = true := by decide +kernel

/-- Transaction, pool and segment words: every operand field written at the bits that 02 gives it, and the examples the spec encodes. -/
theorem test_decode_transaction_pool_and_segment :
    decodes
      [(0x2A180001, .txb 3), (0x2A180002, .txe 3), (0x2A00C003, .txa 3), (0x2B180001, .pgalloc 3), (0x2B180021, .pgallocNb 3),
       (0x2B19C002, .pgfree 3 7), (0x2C19C001, .sgnew 3 7), (0x2C19C021, .sgnewCl 3 7), (0x2C19C002, .sgfree 3 7),
       (0x2C19C003, .sgpin 3 7), (0x2C19C004, .sgunpin 3 7), (0x2C19C005, .sgpref 3 7), (0x2C19C006, .sginfo 3 7),
       (0x2C19C007, .sgquota 3 7), (0x2C19D808, .sgsched 3 7 12), (0x2A100001, .txb 2), (0x2A180002, .txe 3),
       (0x2A01C003, .txa 7)] = true := by decide +kernel

/-- Task words: every operand field written at the bits that 02 gives it. -/
theorem test_decode_task :
    decodes
      [(0x3019C001, .spawn 3 7), (0x30000002, .tend), (0x30000003, .yield), (0x3019D804, .await 3 7 12), (0x3119C061, .domjoin 3 7 3),
       (0x31180062, .domleave 3 3), (0x3119C063, .bardecl 3 7 3), (0x31180064, .bararr 3 3), (0x31180065, .barwait 3 3),
       (0x3219C001, .scnew 3 7), (0x3219C002, .cancel 3 7), (0x3219C003, .cancelwait 3 7),
       (0x3319C001, .grun 3 7)] = true := by decide +kernel

/-- Engine control words: every operand field written at the bits that 02 gives it. -/
theorem test_decode_engine_control :
    decodes
      [(0x34000021, .tkpost 1), (0x34000022, .tkwait 1), (0x3400C003, .qpush 3), (0x34180004, .qpop 3), (0x3400C005, .fmtq 3),
       (0x34000006, .mlease), (0x3419C026, .mleaseG 3 7), (0x34000007, .mrelease), (0x3419C068, .chwait 3 7 3), (0x34180069, .chid 3 3),
       (0x3519C0C1, .tdset 3 7 6), (0x3519C0C2, .cdset 3 7 6), (0x3519C063, .agset 3 7 3),
       (0x3519C064, .portbind 3 7 3)] = true := by decide +kernel

/-- System words: every operand field written at the bits that 02 gives it, and the examples the spec encodes. -/
theorem test_decode_system :
    decodes
      [(0x38010A01, .trap 0x85), (0x38000402, .tret true false), (0x381A0603, .srd 3 259 0), (0x381A0604, .swr 3 259 0),
       (0x38182004, .swrFlags 3), (0x38182204, .swrVtype 3), (0x38182404, .swrRrb 3), (0x38182604, .swrEc 3), (0x38182A04, .swrSrseed 3),
       (0x381A1404, .swrPreempt 3), (0x381A1804, .swrEnvcb 3), (0x381C0204, .swrInjcfg 3), (0x3819D805, .accspill 3 7 12),
       (0x3819D806, .accfill 3 7 12), (0x3819C007, .ctxsave 3 7), (0x3819D808, .ctxload 3 7 12), (0x3819D809, .tlbinv 3 7 12),
       (0x3819D80A, .elogrd 3 7 12), (0x3819D80B, .moncall 3 7 12), (0x3800000C, .halt), (0x38282003, .srd 5 16 0),
       (0x38000602, .tret true true)] = true := by decide +kernel

/-- Vector arithmetic words: every operand field written at the bits that 02 gives it, and the examples the spec encodes. -/
theorem test_decode_vector_arithmetic :
    decodes
      [(0x4000000D, .vnop ⟨3, 1⟩), (0x41A31B3D, .vadd 20 12 13 ⟨9, true, 3, 1⟩), (0x42A31B3D, .vsub 20 12 13 ⟨9, true, 3, 1⟩),
       (0x43A31B3D, .vmul 20 12 13 ⟨9, true, 3, 1⟩), (0x44A31B3D, .vfma 20 12 13 ⟨9, true, 3, 1⟩),
       (0x45A31B3D, .vfms 20 12 13 ⟨9, true, 3, 1⟩), (0x46A31B3D, .vmin 20 12 13 ⟨9, true, 3, 1⟩),
       (0x47A31B3D, .vmax 20 12 13 ⟨9, true, 3, 1⟩), (0x48A3013D, .vabs 20 12 ⟨9, true, 3, 1⟩),
       (0x49A3013D, .vneg 20 12 ⟨9, true, 3, 1⟩), (0x4AA31B3D, .vand 20 12 13 ⟨9, true, 3, 1⟩),
       (0x4BA31B3D, .vor 20 12 13 ⟨9, true, 3, 1⟩), (0x4CA31B3D, .vxor 20 12 13 ⟨9, true, 3, 1⟩),
       (0x4DA31B3D, .vshl 20 12 13 ⟨9, true, 3, 1⟩), (0x4EA31B3D, .vshr 20 12 13 ⟨9, true, 3, 1⟩),
       (0x4FA31B3D, .vshra 20 12 13 ⟨9, true, 3, 1⟩), (0x5031D93D, .vcmpeq 6 7 12 ⟨9, true, 3, 1⟩),
       (0x5131D93D, .vcmplt 6 7 12 ⟨9, true, 3, 1⟩), (0x5231D93D, .vcmple 6 7 12 ⟨9, true, 3, 1⟩),
       (0x53A31B3D, .vsel 20 12 13 ⟨9, true, 3, 1⟩), (0x41415200, .vadd 8 5 9 ⟨0, false, 0, 0⟩),
       (0x51190A00, .vcmplt 3 4 5 ⟨0, false, 0, 0⟩), (0x44A00B3D, .vfma 20 0 5 ⟨9, true, 3, 1⟩)] = true := by decide +kernel

/-- Vector conversion, masks and movement words: every operand field written at the bits that 02 gives it, and the examples the spec encodes. -/
theorem test_decode_vector_conversion_masks_and_movement :
    decodes
      [(0x54A3273D, .vcvt 20 12 19 ⟨9, true, 3, 1⟩), (0x55A3013D, .vqmax 20 12 ⟨9, true, 3, 1⟩),
       (0x56A31B3D, .vqcvt 20 12 13 ⟨9, true, 3, 1⟩), (0x57A3013D, .vdq 20 12 ⟨9, true, 3, 1⟩),
       (0x58A3053D, .vred 20 12 2 ⟨9, true, 3, 1⟩), (0x5901813D, .vany 6 ⟨9, true, 3, 1⟩), (0x5A01813D, .vall 6 ⟨9, true, 3, 1⟩),
       (0x5BA31B3D, .vbcast 20 12 13 ⟨9, true, 3, 1⟩), (0x5CA31B3D, .vperm 20 12 13 ⟨9, true, 3, 1⟩),
       (0x5DA0013D, .viota 20 ⟨9, true, 3, 1⟩), (0x5EA3013D, .vmov 20 12 ⟨9, true, 3, 1⟩), (0x5FA10B3D, .vsplat 20 0x85 ⟨9, true, 3, 1⟩),
       (0x60A3013D, .vexp2 20 12 ⟨9, true, 3, 1⟩), (0x61A3013D, .vrcp 20 12 ⟨9, true, 3, 1⟩),
       (0x62A3013D, .vrsqrt 20 12 ⟨9, true, 3, 1⟩), (0x6309C13D, .vcsum 1 7 ⟨9, true, 3, 1⟩),
       (0x6309C33D, .vcsumSet 1 7 ⟨9, true, 3, 1⟩), (0x6308040D, .vcsumClr 1 ⟨3, 1⟩), (0x6400440D, .vchk 1 2 ⟨3, 1⟩),
       (0x6532C93D, .kand 6 11 4 ⟨9, true, 3, 1⟩), (0x6632C93D, .kor 6 11 4 ⟨9, true, 3, 1⟩), (0x6732C93D, .kxor 6 11 4 ⟨9, true, 3, 1⟩),
       (0x6832C13D, .knot 6 11 ⟨9, true, 3, 1⟩), (0x6900720D, .vcfg 0x39 ⟨3, 1⟩), (0x6A01C13D, .vxtr 7 ⟨9, true, 3, 1⟩),
       (0x6BA31B3D, .vpack 20 12 13 ⟨9, true, 3, 1⟩), (0x6CA31B3D, .vunpk 20 12 13 ⟨9, true, 3, 1⟩),
       (0x58310200, .vred 6 4 1 ⟨0, false, 0, 0⟩), (0x5900C000, .vany 3 ⟨0, false, 0, 0⟩), (0x63098200, .vcsumSet 1 6 ⟨0, false, 0, 0⟩),
       (0x64000200, .vchk 0 1 ⟨0, 0⟩), (0x69011000, .vcfg 0x088 ⟨0, 0⟩)] = true := by decide +kernel

/-- Campion words: every operand field written at the bits that 02 gives it, and the examples the spec encodes. -/
theorem test_decode_campion :
    decodes
      [(0x8000000D, .mnop ⟨3, 1⟩), (0x821AD3ED, .mma 0 6 11 4 true true true true true ⟨3, 1⟩), (0x8418000D, .mzero 6 ⟨3, 1⟩),
       (0x861AC00D, .mdrain 6 11 ⟨3, 1⟩), (0x881AC00D, .mloadc 6 11 ⟨3, 1⟩), (0x80000009, .mnop ⟨2, 1⟩),
       (0x82604A00, .mma 1 8 1 2 true false false false false ⟨0, 0⟩), (0x82204821, .mma 0 8 1 2 false false false false true ⟨0, 1⟩),
       (0x84200000, .mzero 8 ⟨0, 0⟩), (0x86110003, .mdrain 4 4 ⟨0, 3⟩), (0x8820C000, .mloadc 8 3 ⟨0, 0⟩)] = true := by decide +kernel

/-- Copy words: every operand field written at the bits that 02 gives it, and the examples the spec encodes. -/
theorem test_decode_copy :
    decodes
      [(0xC0C0100D, .cnop 3 ⟨3, 1⟩), (0xC2D8300D, .cpy 3 6 true ⟨3, 1⟩), (0xC4D8310D, .cred 3 6 true 1 ⟨3, 1⟩),
       (0xC6D8300D, .cgath 3 6 true ⟨3, 1⟩), (0xC8D8300D, .cscat 3 6 true ⟨3, 1⟩), (0xCAD8300D, .cmcast 3 6 true ⟨3, 1⟩),
       (0xCCD8310D, .cfill 3 6 true 1 ⟨3, 1⟩), (0xC294300B, .cpy 2 5 true ⟨2, 3⟩), (0xC60C1000, .cgath 0 3 false ⟨0, 0⟩),
       (0xC80C1000, .cscat 0 3 false ⟨0, 0⟩), (0xC0C01001, .cnop 3 ⟨0, 1⟩), (0xC4501000, .cred 1 4 false 0 ⟨0, 0⟩),
       (0xCA1C3000, .cmcast 0 7 true ⟨0, 0⟩), (0xCD081100, .cfill 4 2 false 1 ⟨0, 0⟩)] = true := by decide +kernel
/-- R42, Table 13, and the rules of R23, R26, R29 to R32: words that are no instruction, with the reason; the lowest code where several
hold. -/
theorem test_refused_words :
    refuses
      [(0x00000000, .undefinedSelector), (0x0D000000, .reservedOpcode), (0x82E04A2D, .undefinedSelector), (0xC2940003, .mustBeZero),
       (0x44080001, .forbiddenOperand), (0x39000000, .reservedOpcode), (0x0000001F, .undefinedSelector), (0x20003800, .mustBeZero),
       (0x26000001, .mustBeZero), (0x41115200, .forbiddenOperand), (0x41415210, .forbiddenOperand)] = true := by decide +kernel

/-- A term for each check of well-formedness that the check refuses, and a neighbour that it lets pass. -/
theorem test_ill_formed :
    (Instr.fcmp 1 2 3 4).selectorOk = false ∧ (Instr.srd 1 0x007 0).selectorOk = false ∧ (Instr.swr 1 0x010 0).selectorOk = false ∧
      (Instr.vcfg 0x00A ⟨0, 0⟩).selectorOk = false ∧ (Instr.ld 1 2 3 true 0).zeroOk = false ∧ (Instr.vcfg 0x288 ⟨0, 0⟩).zeroOk = false ∧
      (Instr.vadd 2 5 9 ⟨0, false, 0, 0⟩).operandOk = false ∧ (Instr.vadd 8 3 9 ⟨0, false, 0, 0⟩).operandOk = false ∧
      (Instr.vadd 8 5 9 ⟨0, true, 0, 0⟩).operandOk = false ∧ (Instr.fcmp 1 2 3 4).WellFormed = false ∧
      (Instr.ld 1 2 3 true 0).WellFormed = false ∧ (Instr.vadd 2 5 9 ⟨0, false, 0, 0⟩).WellFormed = false ∧
      (Instr.fcmp 1 2 3 3).WellFormed = true ∧ (Instr.ld 1 2 2 true 0).WellFormed = true ∧
      (Instr.vadd 8 5 9 ⟨0, false, 0, 0⟩).WellFormed = true := by decide +kernel

/-! ### Small states -/

/-- A task on slot 0 of core 0, with the identity map of the first 32 MiB (log 6). -/
def base : State := State.reset.placed 0x01000000

/-- Registers set. -/
def regs (s : State) (l : List (Fin 32 × Word)) : State := l.foldl (fun t e => t.setReg e.1 e.2) s

/-- Memory with sealed granules that begin with the given double words. -/
def put (s : State) (l : List (Nat × List Word)) : State :=
  { s with mem := l.foldl (fun m e => m.putGran (e.1 / 32) (mkGran (e.2.foldr (fun w d => d * 2 ^ 64 + w.setWidth 256) 0))) s.mem }

/-- The current slot changed. -/
def me (s : State) (f : Slot → Slot) : State := s.setMe (f s.me)

/-- The instruction ends in a next state with the given property. -/
def ends (i : Instr) (s : State) (c : State → Bool) : Bool :=
  match exec i s with
  | .next t => c t
  | _ => false

/-- A computation gives a value with the given property. -/
def gives {ε α : Type} (e : Except ε α) (c : α → Bool) : Bool :=
  match e with
  | .ok a => c a
  | .error _ => false

/-- What a test of `gives` shows. -/
theorem of_gives {ε α : Type} {e : Except ε α} {c : α → Bool} (h : gives e c = true) : ∃ a, e = .ok a ∧ c a = true := by
  cases e with
  | error _ => cases h
  | ok a => exact ⟨a, rfl, h⟩

/-- What a test of `ends` shows. -/
theorem of_ends {i : Instr} {s : State} {c : State → Bool} (h : ends i s c = true) : ∃ t, exec i s = .next t ∧ c t = true := by
  unfold ends at h
  cases hx : exec i s <;> simp only [hx] at h
  · exact ⟨_, rfl, h⟩
  · cases h
  · cases h

/-- A resident segment of the task in window 0x8: 4 KiB, name 5, frame 0. -/
def seg5 (s : State) : State :=
  { s with segs := s.segs ++ [{ s.newSeg s.cur false 5 0 with state := .resident }] }

/-- Its first byte. -/
def ptr5 : Word := 0x8000050000000000

/-- The task is in its handler at supervisor level. -/
def handler (s : State) : State := me s fun x => { x with level := .supervisor, frame := { x.frame with inTrap := true, tepc := 0x100040 } }

/-- Where an admission goes. -/
def goes (a : Admission) (c : State → Bool) : Bool :=
  match a with
  | .go t => c t
  | _ => false

/-- A transaction open on the current slot. -/
def txOpen (s : State) : State := me s fun x => { x with tx := some ⟨0x100004, 2, x.active, [], [], false, .idle⟩ }

/-- A store request to the last double word of a granule of memory. -/
def req : StoreReq :=
  { loc := .phys (0x200000 / 32), off := 24, size := 8, data := 0x1122334455667788, ptr := 0x200018, pc := 0x100000
    cached := false, uncached := false, key := 0, dlog := false, later := false, crc := none, sent := none }

/-- The 32 MiB from 32 MiB lie on device 3. -/
def farPage (s : State) : State := put s [(0x20000, [0x1F, 0x9F + 3 * 2 ^ 52])]

/-- The segment of `seg5` with a change. -/
def seg5With (f : Seg → Seg) : State := regs ((seg5 base).mapSeg ⟨.task (envKey 0 0), 5⟩ f) [(1, ptr5)]

/-- The engines of the current slot changed. -/
def eng (s : State) (f : Engines → Engines) : State := me s fun x => { x with eng := f x.eng }

/-! ### Scalar instructions: results of 04's tables and states that meet the hypotheses -/

/-- R14, Table 6: every special case, with its flag. -/
theorem test_division_cases :
    let s := regs base [(1, 7), (2, 0), (4, 0x8000000000000000), (5, 0xFFFFFFFFFFFFFFFF), (6, 0xFFFFFFFFFFFFFFF9), (8, 2)]
    (ends (.div 3 1 2) s fun t => t.reg 3 == 0xFFFFFFFFFFFFFFFF && t.flags == 0x020) ∧ (ends (.divu 3 1 2) s fun t => t.reg 3 == 0xFFFFFFFFFFFFFFFF && t.flags == 0x020) ∧
      (ends (.rem 3 1 2) s fun t => t.reg 3 == 7 && t.flags == 0x020) ∧ (ends (.remu 3 1 2) s fun t => t.reg 3 == 7 && t.flags == 0x020) ∧
      (ends (.div 3 4 5) s fun t => t.reg 3 == 0x8000000000000000 && t.flags == 0x008) ∧ (ends (.rem 3 4 5) s fun t => t.reg 3 == 0 && t.flags == 0) ∧
      (ends (.div 3 6 8) s fun t => t.reg 3 == 0xFFFFFFFFFFFFFFFD && t.flags == 0) ∧
      (ends (.rem 3 6 8) s fun t => t.reg 3 == 0xFFFFFFFFFFFFFFFF && t.flags == 0) := by decide +kernel

/-- R78: wraps, signs, the low 6 bits of an amount, counts at their ends, and a source that is the destination. -/
theorem test_register_operations :
    let s := regs base [(1, 0xFFFFFFFFFFFFFFFF), (2, 1), (4, 0x8000000000000000), (5, 65), (6, 0)]
    (ends (.add 1 1 2) s fun t => t.reg 1 == 0 && t.pc == 0x100004) ∧ (ends (.sub 3 6 2) s fun t => t.reg 3 == 0xFFFFFFFFFFFFFFFF) ∧
      (ends (.sra 3 4 5) s fun t => t.reg 3 == 0xC000000000000000) ∧ (ends (.srl 3 4 5) s fun t => t.reg 3 == 0x4000000000000000) ∧
      (ends (.sll 3 2 5) s fun t => t.reg 3 == 2) ∧ (ends (.mulh 3 1 1) s fun t => t.reg 3 == 0) ∧
      (ends (.mulhu 3 1 1) s fun t => t.reg 3 == 0xFFFFFFFFFFFFFFFE) ∧ (ends (.slt 3 4 2) s fun t => t.reg 3 == 1) ∧
      (ends (.sltu 3 4 2) s fun t => t.reg 3 == 0) ∧ (ends (.rol 3 4 5) s fun t => t.reg 3 == 1) ∧
      (ends (.clz 3 2) s fun t => t.reg 3 == 63) ∧ (ends (.clz 3 6) s fun t => t.reg 3 == 64) ∧ (ends (.ctz 3 4) s fun t => t.reg 3 == 63) ∧
      (ends (.popc 3 1) s fun t => t.reg 3 == 64) ∧ (ends (.andn 3 1 2) s fun t => t.reg 3 == 0xFFFFFFFFFFFFFFFE) ∧
      (ends (.add 0 1 1) s fun t => t.reg 0 == 0 && t.pc == 0x100004) := by decide +kernel

/-- A count of 0, of 63 and of 64; a divisor of zero, the overflow, and an ordinary pair. -/
theorem witness_IntegerResults :
    ((∀ k < 64, (0 : Word).getLsbD (63 - k) = false) ∧ (∀ k < 63, (1 : Word).getLsbD (63 - k) = false) ∧ (1 : Word).getLsbD 0 = true ∧
      (0x8000000000000000 : Word).getLsbD 63 = true ∧ (∀ k < 63, (0x8000000000000000 : Word).getLsbD k = false)) ∧
    (let s := regs base [(4, 0x8000000000000000), (5, 0xFFFFFFFFFFFFFFFF), (6, 3)]
     s.reg 2 = 0 ∧ s.reg 4 = BitVec.intMin 64 ∧ s.reg 5 = BitVec.allOnes 64 ∧ s.reg 6 ≠ 0) := by decide +kernel

/-- R78, R79, R82: extensions and fields at the top of the word, and an empty field. -/
theorem test_bit_fields :
    let s := regs base [(1, 0x80), (2, 7), (4, 0xF00000000000000F), (5, 60), (6, 0x0204), (7, 0x3C), (8, 0x023C)]
    (ends (.sext 3 1 2) s fun t => t.reg 3 == 0xFFFFFFFFFFFFFF80) ∧ (ends (.zext 3 4 2) s fun t => t.reg 3 == 0x0F) ∧
      (ends (.bext 3 4 8) s fun t => t.reg 3 == 0xF) ∧ (ends (.bext 3 4 7) s fun t => t.reg 3 == 0) ∧
      (ends (.bins 4 1 7) s fun t => t.reg 4 == 0xF00000000000000F) ∧ (ends (.bins 5 4 6) s fun t => t.reg 5 == 0xFC) ∧
      (ends (.bexti 3 4 8 60) s fun t => t.reg 3 == 0xF) ∧ (ends (.binsi 3 4 8 60) s fun t => t.reg 3 == 0xF000000000000000) := by decide +kernel

/-- R80, R81, R83, with the worked example that builds a segment pointer (04). -/
theorem test_immediates :
    let s := regs base [(1, 1), (2, 0x8000000000000000), (9, 0xFFFFFFFFFFFFFF00)]
    (ends (.addi 3 1 0x3FFF) s fun t => t.reg 3 == 0) ∧ (ends (.sltiu 3 1 0x3FFF) s fun t => t.reg 3 == 1) ∧
      (ends (.slti 3 1 0x3FFF) s fun t => t.reg 3 == 0) ∧ (ends (.muli 3 1 0x2000) s fun t => t.reg 3 == 0xFFFFFFFFFFFFE000) ∧
      (ends (.srai 4 9 3) s fun t => t.reg 4 == 0xFFFFFFFFFFFFFFE0) ∧ (ends (.roli 3 2 1) s fun t => t.reg 3 == 1) ∧
      (ends (.lui 3 12) s fun t => t.reg 3 == 0x18000) ∧ (ends (.lui 3 0x40000) s fun t => t.reg 3 == 0xFFFFFFFF80000000) ∧
      (ends (.auipc 3 1) s fun t => t.reg 3 == 0x102000) := by decide +kernel

/-- A value of each form, with the field past the top and with an empty field. -/
theorem witness_FieldsAndImmediates :
    let s := regs base [(1, 0x80), (2, 7), (4, 0xF00000000000000F), (8, 0x023C)]
    (∀ k < 64, (0xFFFFFFFFFFFFFF80 : Word).getLsbD k = (s.reg 1).getLsbD (min k 7)) ∧ (s.reg 2).toNat % 64 = 7 ∧
      (∀ k < 64, (0x0F : Word).getLsbD k = (decide (k ≤ 7) && (s.reg 4).getLsbD k)) ∧
      (s.reg 8).toNat % 64 = 60 ∧ (s.reg 8).toNat / 64 % 64 = 8 ∧
      (∀ k < 64, (0xF : Word).getLsbD k = (decide (k < 8) && decide (60 + k < 64) && (s.reg 4).getLsbD (60 + k))) ∧
      (∀ k < 64, (0xF000000000000000 : Word).getLsbD k =
        if 60 ≤ k ∧ k < 60 + 8 then (s.reg 4).getLsbD (k - 60) else (s.reg 3).getLsbD k) ∧
      (∀ k < 64, (0 : Word).getLsbD k = (decide (k < 0) && decide (60 + k < 64) && (s.reg 4).getLsbD (60 + k))) := by decide +kernel

/-- R84 to R88: taken and not taken, a link, a target that is not aligned, and one below address 0. -/
theorem test_branches :
    let s := regs base [(1, 5), (2, 0xFFFFFFFFFFFFFFFF), (4, 0x200003)]
    (ends (.beq 1 1 4) s fun t => t.pc == 0x100010) ∧ (ends (.bne 1 1 4) s fun t => t.pc == 0x100004) ∧
      (ends (.blt 2 1 0x3FFF) s fun t => t.pc == 0x0FFFFC) ∧ (ends (.bltu 2 1 4) s fun t => t.pc == 0x100004) ∧
      (ends (.bbs 1 2 1) s fun t => t.pc == 0x100004) ∧ (ends (.bbc 1 1 1) s fun t => t.pc == 0x100004) ∧
      (ends (.jal 0xFFFFFF) s fun t => t.pc == 0x0FFFFC && t.reg 31 == 0x100004) ∧
      (ends (.jalr 5 4 1) s fun t => t.pc == 0x200004 && t.reg 5 == 0x100004) ∧
      (ends (.jalr 5 4 0) s fun t => t.me.frame.tcause == 0x03 && t.me.frame.tinfo0 == 0x200003 && t.me.frame.tepc == 0x100000 && t.me.bank.get 5 == 0) ∧
      (ends (.beq 0 0 0x3FFF) (me s fun x => { x with pc := 0 }) fun t => t.me.frame.tcause == 0x04 && t.me.frame.tinfo0 == 0xFFFFFFFFFFFFFFFC) := by decide +kernel

/-- Conditions that hold and that fail; a target in range, one past 48 bits, one not aligned. -/
theorem witness_ControlTransfers :
    let s := regs base [(1, 5), (2, 0xFFFFFFFFFFFFFFFF), (4, 0x200003), (6, 0x1000000000000)]
    s.reg 1 = s.reg 1 ∧ s.reg 1 ≠ s.reg 2 ∧ (s.reg 2).toInt < (s.reg 1).toInt ∧ (s.reg 1).toNat < (s.reg 2).toNat ∧
      (s.reg 1).getLsbD 2 = true ∧ (s.reg 1).getLsbD 1 = false ∧ bitsOf (s.reg 6) 48 16 ≠ 0 ∧ bitsOf (s.reg 4) 48 16 = 0 ∧
      bitsOf (s.reg 4) 0 2 ≠ 0 ∧ bitsOf s.pc 0 2 = 0 ∧ bitsOf s.pc 48 16 = 0 := by decide +kernel

/-- The last word before the top; a register that is not g0, and another. -/
theorem witness_ResultFrame : (0xFFFFFFFFFFF8 : Word).toNat + 4 < 2 ^ 48 ∧ nextPc 0xFFFFFFFFFFF8 = 0xFFFFFFFFFFFC := by decide +kernel

theorem witness_RegisterZero : ((5 : Fin 32) ≠ 0 ∧ (7 : Fin 32) ≠ 5) ∧ (base.setReg 5 9).reg 5 = 9 ∧ (base.setReg 0 9).reg 0 = 0 := by
  decide +kernel

/-- R90 to R92: 1 + 2, a product that rounds, an unordered compare, NaN to integer. -/
theorem test_scalar_fp :
    let s := regs base [(1, 0x3F800000), (2, 0x40000000), (4, 0x7FC00000), (5, 0x3F800001)]
    (ends (.fadd 3 1 2) s fun t => t.reg 3 == 0x40400000 && t.flags == 0) ∧ (ends (.fsub 3 1 2) s fun t => t.reg 3 == 0xBF800000) ∧
      (ends (.ffma 1 2 2) s fun t => t.reg 1 == 0x40A00000) ∧ (ends (.fmul 3 5 5) s fun t => t.reg 3 == 0x3F800002 && t.flags != 0) ∧
      (ends (.fcmp 3 1 2 1) s fun t => t.reg 3 == 1) ∧ (ends (.fcmp 3 4 2 1) s fun t => t.reg 3 == 0) := by decide +kernel

/-! ### Loads, stores and atomics -/

/-- R93, R94: sizes and extension; a store is queued, and the next load of the slot sees it. -/
theorem test_loads :
    let s := put (regs base [(4, 0x200000), (5, 0x200004)]) [(0x200000, [0xFEDCBA9876543280, 7])]
    (ends (.ld 6 4 0 true 0) s fun t => t.reg 6 == 0x80 && t.pc == 0x100004) ∧ (ends (.ld 6 4 0 false 0) s fun t => t.reg 6 == 0xFFFFFFFFFFFFFF80) ∧
      (ends (.ld 6 5 2 false 0) s fun t => t.reg 6 == 0xFFFFFFFFFEDCBA98) ∧ (ends (.ld 6 4 3 false 8) s fun t => t.reg 6 == 7) ∧
      (ends (.ldS 6 4 3 false 1 0) s fun t => t.reg 6 == 0xFEDCBA9876543280) ∧
      (ends (.ld 6 4 3 false 1) s fun t => t.me.frame.tcause == 0x03 && t.me.frame.tinfo0 == 0x200001 && t.me.bank.get 6 == 0) ∧
      (ends (.st 5 4 2 0) s fun t => ends (.ld 6 4 3 false 0) t fun u => u.reg 6 == 0xFEDCBA9800200004 && u.mem.byte 0x200000 == 0x80) := by
  decide +kernel

theorem witness_LoadsComplete :
    let s := regs base [(4, 0x200000)]
    (gives (loadOp (s.reg 4 + BitVec.ofInt 64 (0 : BitVec 11).toInt) (2 ^ (3 : Fin 4).val) false s) fun _ => true) ∧
      (gives (loadOp (s.reg 4 + BitVec.ofInt 64 (0x1F8 : BitVec 9).toInt) (2 ^ (3 : Fin 4).val) true s) fun _ => true) ∧
      (0xFF : Word).toNat < 2 ^ (8 * 2 ^ (0 : Fin 4).val) ∧ (BitVec.allOnes 64).toNat < 2 ^ (8 * 2 ^ (3 : Fin 4).val) := by decide +kernel

/-- A pointer into a segment with a good granule and one with a broken seal. -/
theorem witness_LoadedGranule :
    let s := seg5 base
    let g : SegId := ⟨.task (envKey 0 0), 5⟩
    let l := Loc.seg g 127
    let bad := s.mapSeg g fun h => { h with data := h.data.putMeta 127 1 false false }
    let seen := fun (t : State) =>
      let u := t.storeErrors g 127
      (checkGran (u.versionAt l (u.bindAt [l] (u.bindFloor u.cur l)).1 (t.segGran g 127))).isNone
    s.me.tx = none ∧ (gives (s.decodePtr s.cur (ptr5 + 0xFF8) 8) fun x => x == .seg g 0xFF8) ∧
      (goes (s.admitSet s.cur (.control s.cur) [g] [ptr5 + 0xFF8] (tinfo2 8 .load) false) fun t =>
        t.me.tx.isNone && t.cur == s.cur && t.me.sq.isEmpty && !t.isLocked l && seen t) ∧
      (goes (bad.admitSet bad.cur (.control bad.cur) [g] [ptr5 + 0xFF8] (tinfo2 8 .load) false) fun t => !t.isLocked l && !seen t) ∧
      byteMask (0xFF8 % 32) 8 ≠ 0 := by decide +kernel

/-- A pointer into memory by windows 0 and 2, with a good granule and one with a broken seal. -/
theorem witness_LoadedGranule_memory :
    let s := base
    (gives (s.decodePtr s.cur 0x200000 8) fun x => x == .glob 0 0x200000) ∧
      (gives (s.decodePtr s.cur 0x2000000000200000 8) fun x => x == .glob 2 0x200000) ∧
      (gives (s.translate s.cur.core (s.partNo s.cur.core) (s.rootOf s.cur) 0x200000 .load) fun g =>
        let t := s.tlbNote s.cur.core (s.partNo s.cur.core) (s.rootOf s.cur) 0x200000 g
        let b : State := { t with mem := t.mem.putMeta (0x200000 / 32) 1 false false }
        let k := g.pa / 32
        let home := fun (t : State) =>
          let u := (t.evictLine s.cur.core (k / 4)).corrected s.cur.core g.use.part k
          (checkGran (u.versionAt (.phys k) (u.bindAt [.phys k] (u.bindFloor s.cur (.phys k))).1 (u.homeGran g.use.part g.use.key k))).isNone
        let line := fun (t : State) => gives (fillOp g.use k t) fun f =>
          (checkGran ((f.2.l1Errors s.cur.core g.use.part k).l1Gran s.cur.core k)).isNone
        !g.rem && byteMask (g.pa % 32) 8 != 0 && !t.blockPending s.cur.core (k / 4) && !t.isLocked (.phys k) && s.me.sq.isEmpty &&
          home t && line t && !home b && !line b && (lineLocs (k / 4)).all (fun y => !t.isLocked y) &&
          (t.l1Line s.cur.core (k / 4)).isNone && (gives (fillOp g.use k t) fun f => (f.2.l1Line s.cur.core (k / 4)).isSome)) := by decide +kernel

theorem witness_StoresComplete :
    let s := regs base [(4, 0x200000)]
    let p := s.reg 4 + BitVec.ofInt 64 (0x7F8 : BitVec 11).toInt
    let q := s.reg 4 + BitVec.ofInt 64 (0x1F8 : BitVec 9).toInt
    (gives (locate p 8 .store s) fun r => r.2.me.tx.isNone) ∧ (gives (locate q 8 .store s) fun r => r.2.me.tx.isNone) ∧
      (gives (releaseOp 5 s) fun r => gives (locate q 8 .store r.2) fun r => r.2.me.tx.isNone) ∧
      (gives (locate p 8 .store (txOpen s)) fun r => match r.2.me.tx with
        | some x => gives (txStore x r.1 8 p (s.reg 4) r.2) fun _ => true
        | none => false) ∧
      (gives (locate q 8 .store (txOpen s)) fun r => match r.2.me.tx with
        | some x => gives (txStore x r.1 8 q (s.reg 4) r.2) fun _ => true
        | none => false) ∧ (txOpen s).me.tx.isSome = true := by decide +kernel

/-- R206, R16: the bytes in order, lowest first, and no other. -/
theorem test_store_performed :
    let s := put (me base fun x => { x with sq := [req] }) [(0x200000, [1, 2, 3, 4])]
    (ends (.storePerform ⟨0, 0⟩) s fun t => t.mem.byte 0x200018 == 0x88 && t.mem.byte 0x20001F == 0x11 && t.mem.byte 0x200010 == 3 &&
      t.mem.byte 0x200020 == 0 && t.me.sq.isEmpty) = true := by decide +kernel

theorem witness_StorePerformed :
    let s := me base fun x => { x with sq := [req] }
    let i : SlotId := ⟨0, 0⟩
    let n := 0x200000 / 32
    ((s.slotOf i).sq = [req] ∧ req.sent = none ∧ req.loc = .phys n ∧ s.isLocked req.loc = false ∧ (s.slotOf i).task.isSome = true ∧ req.crc = none ∧ req.cached = false ∧ s.l1Line i.core (n / 4) = none) ∧
      (physOf (32 * n) ≠ .hole ∧ s.regionOk (s.partNo i.core) (32 * n) = true ∧ s.keyOf (s.partNo i.core) (some req.key) (32 * n) = none ∧
        (s.partOf (s.partNo i.core)).logMode = 0) ∧
      (checkGran ((s.evictLine i.core (n / 4)).homeGran (s.partNo i.core) (some req.key) n) = none ∧
        (s.dieOf (s.homeDie (32 * n))).injcfg = 0 ∧ req.off + req.size ≤ 32 ∧ req.size ≤ 8) := by decide +kernel

/-- R224, Table 3: the old value is given, the new one written; CAS that does not match writes nothing. -/
theorem test_atomics :
    let s := put (regs base [(4, 0x200008), (9, 0xFFFFFFFFFFFFFFFF), (6, 77), (3, 5)]) [(0x200000, [0, 5])]
    (ends (.atom 2 4 9 1 2 0) s fun t => t.reg 2 == 5 && t.mem.byte 0x200008 == 4 && t.mem.byte 0x200009 == 0) ∧
      (ends (.atom 2 4 9 0 0 4) s fun t => t.mem.byte 0x200008 == 0xFF) ∧ (ends (.atom 2 4 9 0 0 6) s fun t => t.mem.byte 0x200008 == 5) ∧
      (ends (.cas 3 4 6 5 1) s fun t => t.reg 3 == 5 && t.mem.byte 0x200008 == 77) ∧
      (ends (.cas 2 4 6 5 1) s fun t => t.reg 2 == 5 && t.mem.byte 0x200008 == 5) := by decide +kernel

theorem witness_AtomicsComplete :
    let s := put (regs base [(4, 0x200008), (9, 1), (3, 5)]) [(0x200000, [0, 5])]
    let bad : State := { s with mem := s.mem.putMeta (0x200000 / 32) 1 false false }
    s.me.tx = none ∧
      (gives (ordered 3 5 (atomicOp (s.reg 4) (s.reg 9) (fun x old => some (atomValue 0 old x))
        fun w crc => .atom 0 (Fin.ofNat 4 (bitsOf (s.reg 4) 3 2)) w 0 crc) s) fun _ => true) ∧
      (gives (ordered 0 0 (atomicOp (s.reg 4) (s.reg 9) (fun x old => if old = s.reg 3 then some x else none)
        fun w crc => .atom 15 (Fin.ofNat 4 (bitsOf (s.reg 4) 3 2)) w (s.reg 3) crc) s) fun r => r.1 == 5) ∧
      s.me.sq = [] ∧ (gives (s.decodePtr s.cur 0x200008 8) fun x => x == .glob 0 0x200008) ∧
      (gives (s.translate s.cur.core (s.partNo s.cur.core) (s.rootOf s.cur) 0x200008 .atomic) fun g =>
        let n := fun (z : State) =>
          let t := z.tlbNote s.cur.core (s.partNo s.cur.core) (s.rootOf s.cur) 0x200008 g
          let u := (t.evictLine s.cur.core (g.pa / 128)).corrected s.cur.core g.use.part (g.pa / 32)
          let y := u.setMe (u.me.bound (u.homeOf (.phys (g.pa / 32))) u.now)
          (t.blockPending s.cur.core (g.pa / 128) || t.isLocked (.phys (g.pa / 32)), checkGran (y.homeGran g.use.part g.use.key (g.pa / 32)))
        !g.rem && !(n s).1 && (n s).2.isNone && (n bad).2.isSome) := by decide +kernel

/-- The same in a segment, and an operand that an error has struck. -/
theorem witness_AtomicsComplete_segment :
    let s := seg5 base
    let g : SegId := ⟨.task (envKey 0 0), 5⟩
    let bad := s.mapSeg g fun h => { h with data := h.data.putMeta 127 1 false false }
    let fails := fun (v : Word) => operandFault (natBytes 8 (7 ^^^ v : Word).toNat) (some (crc32c (natBytes 8 7)))
    s.me.sq = [] ∧ (gives (s.decodePtr s.cur (ptr5 + 0xFF8) 8) fun x => x == .seg g 0xFF8) ∧
      (goes (s.admitSet s.cur (.control s.cur) [g] [ptr5 + 0xFF8] (tinfo2 8 .atomic) false) fun t =>
        t.me.sq.isEmpty && !t.isLocked (.seg g 127) && (checkGran (t.segGran g 127)).isNone) ∧
      (goes (bad.admitSet bad.cur (.control bad.cur) [g] [ptr5 + 0xFF8] (tinfo2 8 .atomic) false) fun t =>
        t.me.sq.isEmpty && !t.isLocked (.seg g 127) && (checkGran (t.segGran g 127)).isSome) ∧
      fails 0 = none ∧ (fails 1).isSome = true := by decide +kernel

/-- R191, R224: an atomic whose operand an error has struck traps SEAL with TINFO3 = 2 and writes nothing. -/
theorem test_operand_struck :
    let s := put (regs base [(4, 0x200008), (9, 1)]) [(0x200000, [0, 5])]
    (ends (.atom 2 4 9 0 0 0) { s with strike := 2 } fun t => t.me.frame.tcause == 0x0C && t.me.frame.tinfo3 == 2 && t.mem.byte 0x200008 == 5) = true := by
  decide +kernel

/-- g4 points into a page on device 3, whose home has answered an atomic with a granule and a code. -/
def answered (g : Granule) (code : Fin 3) : State :=
  me (farPage (regs base [(4, 0x2000008), (9, 9)])) fun x => { x with replies := [(replyKey 3 0 (.atom 0 1 9 0 0), ⟨g, code⟩)] }

/-- R222, R224: the home's answer is the old word; a granule that fails there traps with TINFO3 = 1, an operand with SEAL and 2. -/
theorem test_far_atomic :
    (ends (.atom 2 4 9 0 0 0) (answered (mkGran (5 * 2 ^ 64)) 0) fun t => t.reg 2 == 5 && t.pc == 0x100004) ∧
      (ends (.atom 2 4 9 0 0 0) (answered poisoned 1) fun t => t.me.frame.tcause == 0x0D && t.me.frame.tinfo3 == 1 && t.me.frame.tinfo0 == 0x2000000) ∧
      (ends (.atom 2 4 9 0 0 0) (answered (mkGran 7) 2) fun t => t.me.frame.tcause == 0x0C && t.me.frame.tinfo1 == 7 && t.me.frame.tinfo3 == 2) := by
  decide +kernel

theorem witness_AtomicsComplete_remote :
    let at3 := fun (s : State) (c : Reply → Bool) => (gives (s.decodePtr s.cur 0x2000008 8) fun x => x == .glob 0 0x2000008) &&
      gives (s.translate s.cur.core (s.partNo s.cur.core) (s.rootOf s.cur) 0x2000008 .atomic) fun g =>
        let t := s.tlbNote s.cur.core (s.partNo s.cur.core) (s.rootOf s.cur) 0x2000008 g
        g.rem && s.me.sq.isEmpty &&
          ((t.me.replies.find? fun e => e.1 == replyKey g.dev (g.pa / 32 * 32) (.atom 0 1 9 0 0)).map fun e => c e.2) == some true
    at3 (answered (mkGran 5) 0) (fun a => a.code != 2 && (checkGran a.g).isNone) ∧
      at3 (answered poisoned 1) (fun a => a.code != 2 && (checkGran a.g).isSome) ∧ at3 (answered (mkGran 7) 2) (fun a => a.code == 2) := by decide +kernel

theorem witness_FencesComplete :
    let s := me base fun x => { x with sq := [req] }
    s.me.tx = none ∧ (gives (drainOp s) fun r => (r.2.unanswered r.2.cur).isNone && r.2.me.sq.isEmpty) ∧
      (gives (releaseOp 0 s) fun r => r.2.me.sq.isEmpty) ∧ (gives (releaseOp 5 s) fun r => (r.2.coreOf r.2.cur.core).fifo.isEmpty) := by decide +kernel

/-- R225: MARK and a release perform the queued store before they complete. -/
theorem test_fences :
    let s := me base fun x => { x with sq := [req] }
    (ends .mark s fun t => t.mem.byte 0x200018 == 0x88 && t.me.sq.isEmpty && t.pc == 0x100004) ∧
      (ends (.fenceRel 5) s fun t => t.mem.byte 0x200018 == 0x88 && t.pc == 0x100004) ∧
      (ends (.fenceAcq 0) s fun t => t.pc == 0x100004) := by decide +kernel

/-- R227, R228: a block of one line, and of more lines than a set of the L1 takes; a handle with and without a block. -/
theorem witness_LoadBlocks :
    let s := regs base [(8, 0x200000)]
    let full := me s fun x => { x with blocks := [(0, ⟨0, (List.range 5).map fun k => (0x4000 + 512 * k, true), [], true⟩)] }
    let one := fun (flag : Bool) => me s fun x => { x with blocks := [(3, ⟨0x200000, [(0x4000, flag)], [0], flag⟩)] }
    s.me.tx = none ∧ bitsOf (s.reg 8) 60 4 = 0 ∧ (gives (s.decodePtr s.cur (s.reg 8) 1) fun x => x == .glob 0 0x200000) ∧
      (gives (s.decodePtr s.cur (s.reg 8 + word (128 * (63 + 1) - 1)) 1) fun x => x == .glob 0 0x201FFF) ∧ (s.reg 8).toNat % 128 = 0 ∧
      (gives (blockLines (s.reg 8) 0x200000 64 s) fun r => match r.1 with
        | some ls => blockFits (s.otherLines s.cur 3) (ls.map (·.1)) && ls.length == 64
        | none => false) ∧
      (gives (blockLines (s.reg 8) 0x200000 1 full) fun r => match r.1 with
        | some ls => !blockFits (full.otherLines s.cur 3) (ls.map (·.1))
        | none => false) ∧
      thas (one true).me.blocks 3 = true ∧ thas s.me.blocks 3 = false ∧
      ((one true).me.blocks.find? (fun b => b.1 == 3)).map (·.2.flag) = some true ∧
      ((one false).me.blocks.find? (fun b => b.1 == 3)).map (·.2.flag) = some false := by decide +kernel

theorem test_load_blocks :
    let s := regs base [(8, 0x200000), (9, 0x200040)]
    (ends (.lblk 2 8 3 15) s fun t => t.reg 2 == 0 && thas t.me.blocks 3) ∧ (ends (.lblkRel 2 3) s fun t => t.reg 2 == 5) ∧
      (ends (.blkwait 2 3) s fun t => t.reg 2 == 5) ∧ (ends (.lblk 2 9 3 0) s fun t => t.me.frame.tcause == 0x03) := by decide +kernel

/-- R230, and the segment pointer of core 0x21 that core 0x22 checks with n = 24: PSPACE bits 6:4 = 001, PCAST 0x05. -/
theorem test_pointer_inspection :
    let s := regs (seg5 base) [(1, ptr5), (3, 0x1000), (4, 0x1001), (5, 0x8210050000000000), (6, 24), (7, 0x8000060000000000), (8, 0x3000000000000000)]
    (ends (.pcast 2 1 3) s fun t => t.reg 2 == 0) ∧ (ends (.pcast 2 1 4) s fun t => t.reg 2 == 0x07) ∧
      (ends (.pcast 2 5 6) s fun t => t.reg 2 == 0x05) ∧ (ends (.pcast 2 7 6) s fun t => t.reg 2 == 0x09) ∧
      (ends (.pcast 2 8 0) s fun t => t.reg 2 == 0x04) ∧ (ends (.pspace 2 5) s fun t => bitsOf (t.reg 2) 4 3 == 1 && bitsOf (t.reg 2) 0 4 == 8) := by
  decide +kernel

theorem witness_PointerInspection :
    let s := regs (seg5 base) [(1, ptr5), (3, 0x1000), (4, 0x1001), (8, 0x3000000000000000)]
    (gives (s.decodePtr s.cur (s.reg 1) 1) fun _ => true) ∧ s.reg 0 = 0 ∧ s.reg 3 ≠ 0 ∧
      (gives (s.decodePtr s.cur (s.reg 1 + s.reg 3 - 1) 1) fun _ => true) ∧
      (gives (s.decodePtr s.cur (s.reg 1 + s.reg 4 - 1) 1) fun _ => true) = false ∧
      (gives (s.decodePtr s.cur (s.reg 8) 1) fun _ => true) = false := by decide +kernel

/-- R231 to R235: an early abort restores the bank; a commit writes; a commit after a conflict does not. -/
theorem test_transactions :
    let s := regs base [(4, 0x200000), (5, 9)]
    (ends (.txb 2) s fun t => t.reg 2 == 0 && t.me.tx.isSome && t.pc == 0x100004) ∧ (ends (.txe 3) s fun t => t.reg 3 == 3) ∧
      (ends (.txb 2) s fun t => ends (.st 5 4 3 0) t fun u => u.mem.byte 0x200000 == 0 &&
        (ends (.txe 3) u fun v => v.reg 3 == 0 && v.mem.byte 0x200000 == 9 && v.me.tx.isNone) &&
        (ends (.txe 3) (me u fun x => { x with tx := x.tx.map fun k => { k with conflict := true } }) fun v =>
          v.reg 3 == 0x101 && v.mem.byte 0x200000 == 0 && v.me.tx.isNone)) ∧
      (ends (.txb 2) s fun t => ends (.txa 5) (t.setReg 7 1) fun v => v.reg 2 == 0x90501 && v.reg 7 == 0 && v.pc == 0x100004) := by decide +kernel

theorem witness_Transactions :
    let s := txOpen base
    let c := me s fun x => { x with tx := x.tx.map fun k => { k with conflict := true } }
    let bad := me s fun x => { x with tx := x.tx.map fun k =>
      { k with writes := [⟨.phys (0x200000 / 32), 0x200000, 0, false, 0xFF, 9, 0, 0⟩] } }
    let open_ := fun (z : State) (f : State → Tx → Bool) => gives (releaseOp 5 z) fun r => match r.2.me.tx with
        | some x => (r.2.txLocs x).all (fun l => l.isHere && !r.2.isLocked l) && f (r.2.evictLocs (r.2.txLocs x)) x
        | none => false
    base.me.tx = none ∧ (s.me.tx.map (·.commit)) = some .idle ∧ open_ c (fun u _ => u.me.tx.any (·.conflict)) ∧
      open_ s (fun u x => !u.me.tx.any (·.conflict) && gives (txAdmit x.writes u) fun w => gives (w.2.txPrepare x.writes) fun _ => true) ∧
      open_ bad (fun u x => !u.me.tx.any (·.conflict) && gives (txAdmit x.writes u) fun w => !gives (w.2.txPrepare x.writes) fun _ => true) := by decide +kernel

/-- A partition with a pool of four pages: one scrubbed, one allocated. -/
def pooled (s : State) (scrubbed : List Nat) : State :=
  s.mapPart 0 fun q => { q with pool := some ⟨0x400000, 16, 4, 0x300000, [], scrubbed, [1], []⟩ }

theorem witness_PagePool :
    let s := pooled base [2]
    let u := fun (z : State) => z.withPool (z.partNo z.cur.core)
    s.me.tx = none ∧ s.poolWants 0 = [] ∧ (pooled base []).poolWants 0 = [] ∧ base.poolWants 0 = [] ∧ ((u s).partOf ((u s).partNo (u s).cur.core)).pool.isSome = true ∧ ((u s).poolTake ((u s).partNo (u s).cur.core)).isSome = true ∧
      ((u (pooled base [])).partOf 0).pool.isSome = true ∧ ((u (pooled base [])).poolTake 0).isSome = false ∧
      ((u base).partOf ((u base).partNo (u base).cur.core)).pool = none ∧
      (gives (releaseOp 5 (regs s [(7, 0x410000)])) fun r => r.2.poolWants 0 == [] &&
        let w := r.2.withPool (r.2.partNo r.2.cur.core)
        match (w.partOf (w.partNo w.cur.core)).pool with
        | some k => match k.pageOf (w.reg 7) with
          | some n => k.allocated.contains n
          | none => false
        | none => false) := by decide +kernel

/-- Slot 1 has asked for a page first and still waits. -/
def poolWaiting : State :=
  ((pooled base [2]).setSlot ⟨0, 1⟩ placedSlot).mapPart 0 fun q => { q with pool := q.pool.map fun k => { k with waits := [⟨⟨0, 1⟩, some 0, 0x100000⟩] } }

/-- R236: a request that waits keeps its place before a later one. -/
theorem test_pool_order :
    (ends (.pgallocNb 3) poolWaiting fun t => t.reg 3 == 5) ∧
      (ends (.pgallocNb 3) { poolWaiting with cur := ⟨0, 1⟩ } fun t => t.reg 3 == 0x420000 && ((t.partOf 0).pool.map fun k => k.waits.isEmpty) == some true) := by
  decide +kernel

theorem witness_PagePool_order :
    let s := poolWaiting
    ((s.partOf 0).pool.map fun k => s.poolQueue k == [⟨⟨0, 1⟩, some 0, 0x100000⟩] && (k.scrubbed[s.poolPlace k s.cur]?).isNone &&
        !(s.poolQueue k).contains (s.poolRequest s.cur)) = some true ∧
      ((s.partOf 0).pool.map fun k => s.poolRequest ⟨0, 1⟩ == ⟨⟨0, 1⟩, some 0, 0x100000⟩ && k.scrubbed[s.poolPlace k ⟨0, 1⟩]? == some 2 &&
        !s.scrubbing 0 k 2) = some true := by decide +kernel

/-! ### Segments -/

/-- R237 to R245: names from the lowest, quotas, and what is refused. -/
theorem test_segments :
    let s := regs base [(1, 4096), (2, 0x100000), (4, 3), (5, 0x200000), (6, 0x8000000000000000), (7, 0xFFFFFFFFFFFFFFFF)]
    (ends (.sgnew 3 1) s fun t => t.reg 3 == 0x8000000000000000 && ends (.sgnew 3 2) t fun u => u.reg 3 == 0x8000010000000000) ∧
      (ends (.sgnewCl 3 1) s fun t => t.reg 3 == 0x9000000000000000) ∧ (ends (.sgnew 3 4) s fun t => t.reg 3 == 3) ∧
      (ends (.sgnew 3 5) s fun t => t.reg 3 == 3) ∧ (ends (.sgfree 3 6) s fun t => t.reg 3 == 3) ∧
      (ends (.sginfo 3 6) s fun t => t.reg 3 == 0xFFFFFFFFFFFFFFFF) ∧
      (ends (.sgquota 3 4) s fun t => t.reg 3 == 0 && t.me.quota == 3) ∧ (ends (.sgquota 3 0) s fun t => t.reg 3 == 3) := by decide +kernel

theorem test_segment_pins :
    (ends (.sgpin 3 1) (seg5With id) fun t => t.reg 3 == 0 && t.segs.all (·.sgpin) &&
        (ends (.sgunpin 3 1) t fun u => u.reg 3 == 0 && u.segs.all fun g => !g.sgpin)) ∧
      (ends (.sgunpin 3 1) (seg5With id) fun t => t.reg 3 == 3) ∧ (ends (.sgfree 3 1) (seg5With id) fun t => t.reg 3 == 0 && t.segs.isEmpty) ∧
      (ends (.sgfree 3 1) (seg5With fun g => { g with pins := 1 }) fun t => t.pc == 0x100000 && t.segs.length == 1) ∧
      (ends (.sgpref 3 1) (seg5With id) fun t => t.reg 3 == 0) := by decide +kernel

/-- Of SegmentOperandRefused too. -/
theorem witness_SegmentControl :
    let s := seg5With id
    let p := seg5With fun g => { g with sgpin := true, pins := 1 }
    s.me.tx = none ∧ s.segOperand s.cur (s.reg 2) = none ∧
      ((s.segOperand s.cur (s.reg 1)).map fun g => decide (s.segOf g.id = some g) && g.pins == 0 && g.copyPins == 0 && !g.sgpin && !s.storesTo g.id &&
        goes (s.admitSet s.cur (.control s.cur) [g.id] [s.reg 1] 0 true) fun _ => true) = some true ∧
      s.me.sq = [] ∧ s.me.refused = false ∧ (me s fun x => { x with refused := true }).me.refused = true ∧
      ((p.segOperand p.cur (p.reg 1)).map fun g => decide (p.segOf g.id = some g) && g.sgpin && decide (0 < g.pins)) = some true ∧
      p.me.sq = [] ∧ (ends (.sgpin 3 1) (seg5With fun g => { g with state := .absent }) fun t => (t.ticketOf (.control t.cur)).isSome) := by
  decide +kernel

/-- Memory with a schedule of one phase that names segment 5. -/
def scheduled : State := put (regs base [(1, 0x200000)]) [(0x200000, [0]), (0x200040, [5])]

/-- Of QuotaAndSchedule too. -/
theorem witness_SegmentAllocation :
    let s := regs base [(1, 4096), (2, 0x100000), (4, 512)]
    let z := me s fun x => { x with quota := 255 }
    let q := scheduled
    let y : SegSched := ⟨q.keyOfSlot q.cur, [[(false, 5)], []], 1⟩
    let l : State := { q with scheds := [y] }
    (s.me.tx = none ∧ (s.reg 1).toNat = 4096 * 2 ^ 0 ∧ (s.reg 2).toNat = 4096 * 2 ^ 8 ∧ s.freeName (.task s.me.ctx.key) = some 0 ∧
      s.freeName (.cluster (clusterOfCore s.cur.core)) = some 0 ∧ 2 ^ 8 ≤ s.me.quota ∧ z.me.quota < 2 ^ 8) ∧
      ((s.reg 4).toNat ≤ s.me.quota ∧ sumFrames ((s.chargedTo (s.keyOfSlot s.cur)).filter (·.sgpin)) ≤ 1 ∧
        ((s.setMe { s.me with quota := 1 }).shrinkTo (s.keyOfSlot s.cur) 1 s.segs.length).framesOf (s.keyOfSlot s.cur) ≤ 1 ∧ z.me.quota < (z.reg 4).toNat) ∧
      (q.reg 1 ≠ 0 ∧ (gives (memOperand (q.reg 1) 64 8 q) fun r => decide (r.2 = q)) ∧
        (gives (wordsAt (q.reg 1) 8 2 q) fun h => bitsOf (imgWord h.1 0) 4 60 == 0 && ((h.1.drop 1).all (· == 0)) &&
          gives (wordsAt (q.reg 1 + 64) 8 (2 * (bitsOf (imgWord h.1 0) 0 4 + 1)) h.2) fun l =>
            (schedPhases l.1 (bitsOf (imgWord h.1 0) 0 4 + 1)).isSome && decide (bitsOf (q.reg 0) 0 4 ≤ bitsOf (imgWord h.1 0) 0 4))) ∧
      (l.reg 0 = 0 ∧ l.scheds.find? (fun x => x.key == l.keyOfSlot l.cur) = some y ∧ (l.reg 0).toNat < y.phases.length ∧
        y.phases.length ≤ ((regs l [(3, 2)]).reg 3).toNat ∧ q.scheds.find? (fun x => x.key == q.keyOfSlot q.cur) = none ∧
        (regs l [(3, 0xFFFFFFFFFFFFFFFF)]).reg 3 = BitVec.allOnes 64) ∧
      (∀ k ≤ 8, (s.reg 0).toNat ≠ 4096 * 2 ^ k) := by decide +kernel

/-- A schedule with a reserved bit in its header, one with a word after it, one with an entry that is none, a phase that it does not have. -/
theorem witness_QuotaAndSchedule_refused :
    let read := fun (h e : List Word) (c : List Word → List Word → Bool) =>
      let q := put (regs base [(1, 0x200000), (2, 1)]) [(0x200000, h), (0x200040, e)]
      gives (wordsAt (q.reg 1) 8 2 q) fun h => gives (wordsAt (q.reg 1 + 64) 8 (2 * (bitsOf (imgWord h.1 0) 0 4 + 1)) h.2) fun l => c h.1 l.1
    (read [0x10] [5] fun h _ => bitsOf (imgWord h 0) 4 60 != 0) ∧ (read [0, 1] [5] fun h _ => (h.drop 1).any (· != 0)) ∧
      (read [0] [0x8000] fun h l => (schedPhases l (bitsOf (imgWord h 0) 0 4 + 1)).isNone) ∧
      (read [0] [5] fun h _ => decide (bitsOf (imgWord h 0) 0 4 < bitsOf (1 : Word) 0 4)) := by decide +kernel

/-- All 4096 names of the task, or of its cluster, taken. -/
def fullNames (z : State) (shared : Bool) : State :=
  { z with segs := (List.finRange 4096).map fun n => z.newSeg z.cur shared n 0 }

theorem witness_SegmentAllocation_full (z : State) (shared : Bool) :
    (fullNames z shared).freeName (if shared then .cluster (clusterOfCore z.cur.core) else .task z.me.ctx.key) = none := by
  have h : ∀ n, (z.newSeg z.cur shared n 0).id = ⟨if shared then .cluster (clusterOfCore z.cur.core) else .task z.me.ctx.key, n⟩ := by
    intro n; cases shared <;> rfl
  simp [State.freeName, fullNames, h]

theorem test_schedule :
    (ends (.sgsched 3 1 0) scheduled fun t => t.reg 3 == 0 && t.scheds.map (·.phases) == [[[(false, 5)] ++ List.replicate 31 (false, 0)]] &&
        (ends (.sgsched 3 0 4) (t.setReg 4 0xFFFFFFFFFFFFFFFF) fun u => u.reg 3 == 0 && u.scheds.isEmpty)) = true := by decide +kernel

/-! ### Tasks, domains, scopes, graphs -/

/-- A kernel header at 0x300000 with one deque entry and one launch entry, and a record at 0x200000 that names it. -/
def spawner : State :=
  put (regs base [(1, 0x200000), (2, 0x200040)])
    [(0x200000, [0x100000, 9, 0, 0x300000]), (0x300000, [word (1 + 8 * 2 ^ 16 + 2 * 2 ^ 22 + 2 * 2 ^ 26 + 2 ^ 30 + 2 ^ 34), 16])]

/-- R158: the record joins the deque's head; a record whose header is not one is refused; so is one more than the cap allows. -/
theorem test_spawn :
    (ends (.spawn 3 1) spawner fun t => t.reg 3 == 0 && (t.coreOf 0).deque.length == 1 && (ends (.spawn 3 1) t fun u => u.reg 3 == 3)) ∧
      (ends (.spawn 3 2) spawner fun t => t.reg 3 == 3 && (t.coreOf 0).deque.isEmpty) ∧
      (ends (.spawn 3 1) (me spawner fun x => { x with tx := some ⟨0x100004, 2, x.active, [], [], false, .idle⟩ }) fun t => t.reg 2 == 0x301) := by
  decide +kernel

/-- The spawning task in a scope that is cancelled. -/
def cancelledTask (s : State) : State :=
  (me s fun x => { x with task := x.task.map fun t => { t with scope := 7 } }).mapPart 0 fun q =>
    { q with scopes := q.scopes ++ [⟨7, 0, some 0, 1, true, none, false, 0, 0, []⟩] }

/-- Of SpawnCompletes and EndYieldAwait. -/
theorem witness_SpawnEndYieldAwait :
    let s := spawner
    let read := fun (z : State) (a : Fin 32) (c : List Word → State → Bool) =>
      gives (memOperand (z.reg a) 64 0 z) fun r => decide (r.2 = z) && gives (wordsAt (z.reg a) 0 2 z) fun r => gives (releaseOp 5 r.2) fun q => c r.1 q.2
    s.me.tx = none ∧ s.me.task.isSome = true ∧ read s 2 (fun l v => (v.headerWants 0 v.me.ctx.root l).isEmpty && ((v.forget 0).readRecord 0 v.me.ctx.root l false).isNone) ∧
      read s 1 (fun l v => (v.headerWants 0 v.me.ctx.root l).isEmpty && let v := v.forget 0; match v.readRecord 0 v.me.ctx.root l false, v.me.task with
        | some r, some t => v.canReserve 0 r.info.caps && decide (v.owned v.cur.core 0 t.serial < t.caps.deque) && gives (v.spawnRec t r) fun _ => true
        | _, _ => false) ∧
      read (s.mapPart 0 fun q => { q with spool := 0 }) 1 (fun l v => let v := v.forget 0; match v.readRecord 0 v.me.ctx.root l false with
        | some r => !v.canReserve 0 r.info.caps
        | none => false) ∧
      read (me s fun x => { x with task := x.task.map fun t => { t with caps := { t.caps with deque := 0 } } }) 1 (fun l v =>
        let v := v.forget 0; match v.readRecord 0 v.me.ctx.root l false, v.me.task with
        | some _, some t => decide (t.caps.deque ≤ v.owned v.cur.core 0 t.serial)
        | _, _ => false) ∧
      read (cancelledTask s) 1 (fun l v => let v := v.forget 0; match v.readRecord 0 v.me.ctx.root l false, v.me.task with
        | some r, some t => v.canReserve 0 r.info.caps && decide (v.owned v.cur.core 0 t.serial < t.caps.deque) &&
          !gives (v.spawnRec t r) fun _ => true
        | _, _ => false) ∧
      (let w := put (regs base [(1, 0x200000), (4, 7), (5, 8)]) [(0x200000, [7])]
       (gives (memOperand (w.reg 1) 8 8 w) fun r => decide (r.2 = w)) ∧
       (gives (memTarget (w.reg 1) 8 .load w) fun t => gives (drainOp t.2) fun q => gives (homeOp t.1 .read q.2) fun g =>
         gives (consume g.1 [] t.1.loc t.1.off 8 (w.reg 1) 8 g.2) fun x =>
           decide ((w.reg 4).toNat ≤ x.1.toNat) && decide (x.1.toNat < (w.reg 5).toNat))) := by decide +kernel

/-- R159 to R161: YIELD and an unmet AWAIT wait at their word, and a met AWAIT goes on. -/
theorem test_waits :
    let s := put (regs base [(1, 0x200000), (4, 7), (5, 8)]) [(0x200000, [7])]
    (ends (.await 3 1 4) s fun t => t.reg 3 == 0 && t.pc == 0x100004) ∧
      (ends (.await 3 1 5) s fun t => t.pc == 0x100000 && t.me.status != .ready) ∧ (ends .yield s fun t => t.me.status == .waiting .yield) ∧
      (ends .tend s fun t => t.me.sched.ended) := by decide +kernel

/-- The task is a member of domain 9 at level 1. -/
def joined (f : Member → Member) : State :=
  let s := (regs base [(1, 9), (2, 100)]).mapPart 0 fun q => { q with doms := [⟨1, 9, 0, 0, [f (Member.new (taskNo 0 0))]⟩] }
  me s fun x => x.setDom 1 9

/-- R118, R162: join once; leave; a count that is declared; the only member's arrival ends the phase, and BARWAIT answers 0. -/
theorem test_domains :
    (ends (.domjoin 3 1 1) (regs base [(1, 9)]) fun t => t.reg 3 == 0 && t.me.dom 1 == 9 && (ends (.domjoin 3 1 1) t fun u => u.reg 3 == 3)) ∧
      (ends (.domleave 3 1) (joined id) fun t => t.reg 3 == 0 && t.me.dom 1 == 0) ∧ (ends (.domleave 3 2) (joined id) fun t => t.reg 3 == 3) ∧
      (ends (.bardecl 3 2 1) (joined id) fun t => t.reg 3 == 0 && (t.partOf 0).doms.all fun d => d.members.all fun m => m.count == 100) ∧
      (ends (.bararr 3 1) (joined id) fun t => t.reg 3 == 0 && (ends (.barwait 4 1) t fun u => u.reg 4 == 0 && u.pc == 0x100008)) ∧
      (ends (.barwait 4 1) (joined fun m => { m with result := some .broken }) fun u => u.reg 4 == 4) := by decide +kernel

/-- Of BarwaitResult too. -/
theorem witness_Domains :
    let s := regs base [(1, 9), (2, 0x10000)]
    let at1 : (Member → Member) → (Member → Bool) → Bool := fun f c => match (joined f).me.task with
      | some t => ((joined f).memberAt t (joined f).me 1).map (fun m => c m.2) == some true
      | none => false
    (s.me.tx = none ∧ s.me.task.isSome = true ∧ 1 ≤ (s.reg 1).toNat ∧ (s.reg 1).toNat < 2 ^ 16 ∧ s.me.dom 1 = 0 ∧
      (s.domJoin 0 s.cur.core (taskNo 0 0) 1 9).isSome = true ∧ (s.reg 0).toNat = 0 ∧ 2 ^ 16 ≤ (s.reg 2).toNat ∧ (joined id).me.dom 1 ≠ 0 ∧
      (s.me.task.map fun t => (s.memberAt t s.me 1).isNone) = some true) ∧
      (at1 id fun m => !m.arr && !m.broken && m.result.isNone && m.overrun.isNone && decide ((if m.decl then m.count else 0) + (2 ^ 40 - 1) < 2 ^ 40)) ∧
      (at1 (fun m => { m with broken := true }) fun m => !m.arr && m.broken) ∧ (at1 (fun m => { m with arr := true }) fun m => m.arr && m.result.isNone) ∧
      (at1 (fun m => { m with result := some .broken }) fun m => m.result == some .broken) ∧
      (gives (releaseOp 1 (joined id)) fun _ => true) ∧ s.domHome 0 1 9 = none := by decide +kernel

/-- Domain 9 at level 5 of fabric group 3, which device 2 keeps: its home has answered the given message with the given status. -/
def farDomain (status : Nat) (m : DomMsg) : State :=
  let s := (regs base [(1, 9), (2, 100)]).mapPart 0 fun q =>
    { q with desc := q.desc.set 8 3, doms := [⟨5, 9, 0, 0, [Member.new (taskNo 0 0)]⟩] }
  { me s fun x => { x.setDom 5 (if m = .join then 0 else 9) with
      replies := [(replyKey 2 0 (.dom 3 9 (taskNo 0 0) m), ⟨mkGran (BitVec.ofNat 256 status), 0⟩)] } with
    pkg := { s.pkg with domHomes := [(3 * 2 ^ 16 + 9, 2)] } }

/-- R118, R390: the domain instructions take the status that the home has answered. -/
theorem test_far_domains :
    (ends (.domjoin 3 1 5) (farDomain 0 .join) fun t => t.reg 3 == 0 && t.me.dom 5 == 9) ∧
      (ends (.domleave 3 5) (farDomain 0 .leave) fun t => t.reg 3 == 0 && t.me.dom 5 == 0) ∧
      (ends (.bardecl 3 2 5) (farDomain 4 (.declare 100)) fun t => t.reg 3 == 4) ∧
      (ends (.bararr 3 5) (farDomain 4 .arrive) fun t => t.reg 3 == 4) := by decide +kernel

theorem witness_Domains_far :
    let asks : Nat → DomMsg → Bool := fun (st : Nat) (m : DomMsg) => match (farDomain st m).me.task with
      | some t => gives (domAskOp t 2 9 m (farDomain st m)) fun r => domStatus r.1 == st
      | none => false
    let keeps : Nat → DomMsg → Bool := fun (st : Nat) (m : DomMsg) => match (farDomain st m).me.task with
      | some t => (((farDomain st m).memberAt t (farDomain st m).me 5).map fun e => e.1 == 9 && !e.2.arr) == some true
      | none => false
    ((farDomain 0 .join).domHome 0 5 9 = some 2 ∧ (farDomain 0 .join).fgid 0 ≠ 0 ∧ (farDomain 0 .join).me.dom 5 = 0 ∧ asks 0 .join) ∧
      (keeps 0 .leave ∧ asks 0 .leave) ∧ (keeps 4 (.declare 100) ∧ asks 4 (.declare 100)) ∧
      (keeps 4 .arrive ∧ asks 4 .arrive ∧ (gives (releaseOp 5 (farDomain 4 .arrive)) fun _ => true)) := by decide +kernel

/-- R163, R351, R352: the lowest free id; a mark; the acknowledgement of a cancelled scope without tasks. -/
theorem test_scopes :
    let s := regs base [(1, 0x200000), (2, 7), (4, 9)]
    let c := (s.mapPart 0 fun q => { q with scopes := q.scopes ++ [⟨7, 0, some 0, 0, false, none, false, 0, 0, []⟩] })
    (ends (.scnew 3 1) s fun t => t.reg 3 == 0 && ((t.partOf 0).scope 1).isSome && (ends (.ld 4 1 3 false 8) t fun u => u.reg 4 == 1)) ∧
      (ends (.cancel 3 2) c fun t => t.reg 3 == 0 && ((t.partOf 0).scope 7).map (·.mark) == some true && (ends (.cancelwait 3 2) t fun u => u.reg 3 == 0)) ∧
      (ends (.cancel 3 2) (me c fun x => { x with task := x.task.map fun t => { t with scope := 7 } }) fun t => t.me.pend.kill == some 7) ∧
      (ends (.cancel 3 4) c fun t => t.reg 3 == 3) ∧ (ends (.cancelwait 3 2) c fun t => t.reg 3 == 3) := by decide +kernel

/-- A graph object at 0x200000: one node, whose record stands at 0x200100, and one instance at 0x380000. -/
def graphed : State :=
  put (regs base [(1, 0x200000)])
    [(0x200000, [1, 0x200100, 0x200180, 0x380000]), (0x200020, [1, 0, 0x200140, 0]), (0x200100, [0x100000, 9, 0, 0x300000]),
     (0x300000, [word (1 + 8 * 2 ^ 16 + 2 * 2 ^ 22 + 2 * 2 ^ 26 + 2 ^ 30 + 2 ^ 34), 16])]

/-- R164: an instance starts. -/
theorem test_graph :
    (ends (.grun 3 1) graphed fun t => t.reg 3 == 0 && (t.partOf 0).insts.length == 1) = true := by decide +kernel

/-- Of CancelScopes and GraphRunCompletes. -/
theorem witness_ScopesAndGraphs :
    let s := regs base [(1, 0x200000), (2, 7)]
    let inScope := fun (mark : Bool) (n : Nat) => s.mapPart 0 fun q => { q with scopes := q.scopes ++ [⟨7, 0, some 0, n, mark, none, false, 0, 0, []⟩] }
    let new := fun (z : State) (c : Part → State → Target → Bool) =>
      gives (memOperand (z.reg 1) 16 24 z) fun r => decide (r.2 = z) && gives (memTarget (z.reg 1) 24 .store z) fun x =>
        let q := (x.2.partOf 0).withRoot
        decide (q.scopes.length < 4096) && c q x.2 x.1
    (s.me.tx = none ∧ s.me.task.isSome = true) ∧
      (new s fun q u x => !q.cancelled 0 && (freeScope q 1 65535).isSome && gives (drainOp u) fun v => !v.2.isLocked x.loc &&
        gives (storeNow x (s.reg 1) s.pc 0 v.2) fun w => match x with
          | .mem k pa z => gives (storeNow (.mem k (pa + 8) z) (s.reg 1 + 8) s.pc 1 w.2) fun _ => true
          | _ => false) ∧
      (new (cancelledTask s) fun q _ _ => q.cancelled 7) ∧
      (let q := fun (z : State) => (z.partOf 0).withRoot
       (s.reg 2).toNat < 2 ^ 16 ∧ ((q (inScope true 0)).scope 7).isSome = true ∧ (q (inScope true 0)).within 7 0 = true ∧
         (q (inScope true 0)).cancelled 7 = true ∧ (q (inScope true 0)).taskCount 7 = 0 ∧ (q (inScope true 1)).taskCount 7 ≠ 0 ∧
         (q (inScope false 0)).cancelled 7 = false ∧ (q s).scope 7 = none ∧
         (inScope true 0).ackReady 0 7 = true ∧ (inScope true 1).ackReady 0 7 = false ∧ (gives (releaseOp 5 (inScope false 0)) fun _ => true) ∧
         2 ^ 16 ≤ ((regs s [(3, 0x10000)]).reg 3).toNat) ∧
      (gives (memOperand (graphed.reg 1) 64 0 graphed) fun r => decide (r.2 = graphed)) ∧
      (gives (wordsAt (graphed.reg 1) 0 2 graphed) fun l => gives (releaseOp 5 l.2) fun v => match v.2.me.task, graphOf l.1 with
        | some t, some g => (v.2.graphWants 0 v.2.me.ctx.root g).isEmpty && let v := ((), v.2.forget 0); (gives (v.2.graphRun t v.2.me.ctx.root 0x200000 g) fun w =>
            !(gives (w.graphRun t v.2.me.ctx.root 0x200000 g) fun _ => true))
        | _, _ => false) ∧ graphOf [] = none := by decide +kernel

/-! ### Engine control -/

/-- R293 to R295: a counter that is full or empty holds the instruction; a value goes in at the end and comes out at the head. -/
theorem test_tokens_and_queues :
    let s := regs base [(1, 0x1FFFFFFFF)]
    let full := me base fun x => x.setToken .s .v ⟨15, 0⟩
    let one := me base fun x => x.setToken .m .s ⟨1, 0⟩
    let vs := eng base fun e => { e with ports := { e.ports with vs := [(3, some 42), (4, none)] } }
    (ends (.tkpost 1) s fun t => (t.me.token .s .v).n == 1 && t.pc == 0x100004) ∧ (ends (.tkpost 1) full fun t => t.pc == 0x100000 && (t.me.token .s .v).n == 15) ∧
      (ends (.tkwait 2) one fun t => (t.me.token .m .s).n == 0 && t.pc == 0x100004) ∧ (ends (.tkwait 2) s fun t => t.me.status == .waiting (.tkwait .m)) ∧
      (ends (.qpush 1) s fun t => t.me.eng.ports.v2 == [0x1FFFFFFFF]) ∧ (ends (.qpop 2) vs fun t => t.reg 2 == 42 && t.me.eng.ports.vs == [(4, none)]) ∧
      (ends (.qpop 2) s fun t => t.pc == 0x100000) ∧ (ends (.fmtq 1) s fun t => t.me.eng.qs.fq == [0xFFFFFFFF]) := by decide +kernel

theorem witness_TokensAndQueues :
    let full := me base fun x => x.setToken .s .v ⟨14, 1⟩
    let one := me base fun x => x.setToken .m .s ⟨1, 0⟩
    base.me.tx = none ∧ base.me.tokenRoom .s (engOf 1) = true ∧ full.me.tokenRoom .s (engOf 1) = false ∧ 0 < (one.me.token (engOf 2) .s).n ∧
      (base.me.token (engOf 2) .s).n = 0 ∧
      (eng base fun e => { e with ports := { e.ports with v2 := List.replicate 31 0 } }).me.eng.ports.v2.length < 32 ∧
      32 ≤ (eng base fun e => { e with ports := { e.ports with v2 := List.replicate 32 0 } }).me.eng.ports.v2.length ∧
      (eng base fun e => { e with ports := { e.ports with vs := [(3, some 42)] } }).me.eng.ports.vs = [(3, some 42)] ∧
      (eng base fun e => { e with ports := { e.ports with vs := [(3, none)] } }).me.eng.ports.vs.head?.map (·.2) = some none ∧
      base.me.eng.ports.vs = [] ∧ (eng base fun e => { e with qs := { e.qs with fq := List.replicate 15 0 } }).me.eng.qs.fq.length < 16 ∧
      16 ≤ (eng base fun e => { e with qs := { e.qs with fq := List.replicate 16 0 } }).me.eng.qs.fq.length := by decide +kernel

/-- A channel with the last id given and the last one done. -/
def channel (given done : Nat) : State := regs (me base fun x => x.setChan 2 ⟨given, done, none⟩) [(1, 5), (2, 0x1000000000000)]

/-- R268, R296, R297: the ends of the comparison window, REFUSED past the last id given, and leases. -/
theorem test_channels :
    (ends (.chid 3 2) (channel 5 4) fun t => t.reg 3 == 5) ∧ (ends (.chwait 3 1 2) (channel 5 5) fun t => t.reg 3 == 0 && t.pc == 0x100004) ∧
      (ends (.chwait 3 1 2) (channel 4 4) fun t => t.reg 3 == 3) ∧ (ends (.chwait 3 0 2) (channel 0 0) fun t => t.reg 3 == 0) ∧
      (ends (.chwait 3 2 2) (channel 5 5) fun t => t.reg 3 == 3) ∧ (ends (.chwait 3 1 2) (channel 5 4) fun t => t.me.status == .waiting (.chwait 2 5)) ∧
      (ends .mlease base fun t => (t.clusterOf 0).reqs.map (·.1) == [⟨0, 0⟩] && (ends .mrelease t fun u => (u.clusterOf 0).reqs.isEmpty)) ∧
      (ends (.mleaseG 3 1) (regs base [(1, 0x101)]) fun t => t.reg 3 == 0 && t.me.eng.grant == some ⟨1, 1⟩) ∧
      (ends (.mleaseG 3 1) (regs base [(1, 0x104)]) fun t => t.reg 3 == 3) := by decide +kernel

/-- Images at 0x200000: a tile of 32 x 32 elements, a copy of 32 bytes between two addresses, a generator of one row. -/
def images : State :=
  put (regs base [(1, 0x200000), (2, 0x200040), (4, 0x2000A0), (5, 0x2000C0)])
    [(0x200000, [0x8000050000000000, 32 + 32 * 2 ^ 16 + 32 * 2 ^ 32, 0, 0]),
     (0x200040, [0x200000, 0x201000, 0x0001000100010001, 0]), (0x200080, [0x1FE00000]),
     (0x2000A0, [0x8000050000000000, 1 + 2 ^ 16 + 32 * 2 ^ 32, 0, 0])]

/-- R298 to R302: images that pass their checks and one that does not; a port that a generator feeds. -/
theorem test_descriptors :
    (ends (.tdset 3 1 8) images fun t => t.reg 3 == 0 && (tget Desc.initial t.me.eng.descs.cur 8).loaded) ∧
      (ends (.tdset 3 5 8) images fun t => t.reg 3 == 3) ∧
      (ends (.agset 3 4 1) images fun t => t.reg 3 == 0 && (ends (.portbind 6 7 0) (t.setReg 7 1) fun u => u.reg 6 == 0 && u.me.eng.ports.bind0 == .gen 1)) ∧
      (ends (.portbind 6 7 0) (images.setReg 7 1) fun u => u.reg 6 == 3) := by decide +kernel

/-- Of CampionLease, Channels and Descriptors. -/
theorem witness_EngineControl :
    let s := regs base [(1, 0x101), (2, 0x104), (4, 0x400)]
    let img := fun (a : Word) (al n k : Nat) (ok : List Word → Bool) (want : Bool) => (gives (images.decodePtr images.cur a al) fun _ => true) &&
      gives (loadWords a n images) fun r => ok r.1 == want && (!want || (r.2.me.setDesc k r.1).isSome)
    (s.me.tx = none ∧ bitsOf (s.reg 1) 10 54 = 0 ∧ clusterOfCore (grantSlot (s.reg 1)).core = clusterOfCore s.cur.core ∧ grantSlot (s.reg 1) ≠ s.cur ∧
      s.me.eng.grant = none ∧ clusterOfCore (grantSlot (s.reg 2)).core ≠ clusterOfCore s.cur.core ∧ bitsOf (s.reg 4) 10 54 ≠ 0 ∧
      grantSlot (s.reg 0) = s.cur) ∧
      (let c := channel 5 4
       bitsOf (c.reg 2) 48 16 ≠ 0 ∧ bitsOf (c.reg 0) 0 48 = 0 ∧ bitsOf (c.reg 1) 0 48 ≠ 0 ∧ chanReached ((channel 4 4).me.chan 2).given 5 = false ∧
         chanReached (c.me.chan 2).given 5 = true ∧ chanReached (c.me.chan 2).doneId 5 = false ∧ chanReached ((channel 5 5).me.chan 2).doneId 5 = true) ∧
      (img 0x200000 64 8 8 tileOk true ∧ img 0x2000C0 64 8 8 tileOk false ∧ img 0x200040 32 12 20 copyOk true ∧ img 0x2000C0 32 12 20 copyOk false ∧
        img 0x2000A0 32 4 33 genOk true ∧ img 0x2000C0 32 4 33 genOk false) ∧
      (s.me.portBind 0 31).isSome = true ∧ (s.me.portBind 0 1).isSome = false := by decide +kernel

/-! ### Traps and system instructions -/

/-- R324, R325: a fault vectors to TVB + 64 times its cause, and the frame holds where it came from. -/
theorem test_trap_entry :
    let s := me base fun x => { x with frame := { x.frame with tvb := 0x40000 } }
    (ends (.ld 6 0 3 false 1) s fun t => t.pc == 0x400C0 && t.me.level == .supervisor && t.me.frame.tepc == 0x100000 && t.me.frame.tinfo0 == 1 &&
      t.me.frame.plev == .task && t.me.frame.inTrap && t.me.bank.get 6 == 0) ∧
      (ends (.trap 1023) s fun t => t.pc == 0x404C0 && t.me.frame.tinfo0 == 1023 && t.me.frame.tepc == 0x100004 &&
        (ends (.tret false false) t fun u => u.pc == 0x100004 && u.me.level == .task && !u.me.frame.inTrap)) ∧
      (ends (.trap 0) (txOpen s) fun t => t.reg 2 == 0x301 && t.pc == 0x100004 && t.me.tx.isNone) := by decide +kernel

/-- R330: a fault in the handler keeps the first frame, freezes the partition and is reported. -/
theorem test_double_fault :
    (ends (.ld 6 0 3 false 1) (handler base) fun t => t.me.level == .monitor && t.me.frame.tepc == 0x100040 && (t.partOf 0).frozen &&
      t.pkg.mbox == [[0x17, 0, 0, 0]]) = true := by decide +kernel

/-- Of TrapAbortsTransaction too. -/
theorem witness_TrapEntry :
    (base.me.level ≠ .monitor ∧ (0x03 : BitVec 8) ≠ 0x0C ∧ (0x03 : BitVec 8) ≠ 0x0D ∧ base.me.tx = none) ∧
      (let h := me (handler base) fun x => { x with frame := { x.frame with inTrap := false } }
       h.me.level = .supervisor ∧ h.me.frame.inTrap = false ∧ h.me.tx = none) ∧
      (txOpen base).me.level = .task ∧ (txOpen base).me.tx = some ⟨0x100004, 2, base.me.active, [], [], false, .idle⟩ := by decide +kernel

theorem witness_DoubleFault : (handler base).me.level = .supervisor ∧ (handler base).me.frame.inTrap = true := by decide +kernel

/-- Of IllegalTraps, PrivilegeTraps and ForbiddenInTransaction. -/
theorem witness_IllegalAndPrivilege :
    base.me.level = .task ∧ base.me.level ≠ .monitor ∧ sregNumbers.contains 0x100 = true ∧ sregNumbers.contains 0x10C = true ∧
      sregNumbers.contains 0x200 = true ∧ (txOpen base).me.tx.isSome = true ∧ (handler base).me.level ≠ .monitor := by decide +kernel

/-- R42 and its examples: a reserved opcode, and TRET at task level. -/
theorem test_illegal_and_privilege :
    (ends (.illegal 0x0D000000 .reservedOpcode) base fun t => t.me.frame.tcause == 0x01 && t.me.frame.tinfo0 == 0x0D000000 && t.me.frame.tinfo1 == 1) ∧
      (ends (.tret true true) base fun t => t.me.frame.tcause == 0x02 && t.me.frame.tinfo0 == 0x38000602 && t.me.frame.tinfo1 == 1) ∧
      (ends .halt base fun t => t.me.frame.tcause == 0x02 && t.me.frame.tinfo1 == 3) ∧
      (ends (.srd 5 0x200 0) base fun t => t.me.frame.tcause == 0x02 && t.me.frame.tinfo1 == 3 && t.me.bank.get 5 == 0) ∧
      (ends (.swr 1 0x014 0) base fun t => t.me.frame.tcause == 0x01 && t.me.frame.tinfo1 == 2) := by decide +kernel

theorem witness_TrapInstruction :
    base.me.tx = none ∧ base.me.level = .task ∧ (handler base).me.tx = none ∧ (handler base).me.level = .supervisor ∧
      (handler base).me.frame.inTrap = true ∧ (me (handler base) fun x => { x with frame := { x.frame with inTrap := false } }).me.frame.inTrap = false := by
  decide +kernel

theorem witness_TrapReturn :
    (handler base).me.level ≠ .task ∧ (handler base).me.tx = none ∧ (handler base).me.pend.kill = none ∧ (handler base).me.frame.drop = false := by
  decide +kernel

/-- The monitor's level. -/
def monitor (s : State) : State := me s fun x => { x with level := .monitor }

/-- R354 to R356, R9, R325: registers that a write masks, and those that SRD reads. -/
theorem test_special_registers :
    let h := handler (regs base [(1, 0xFFFFFFFFFFFFFFFF), (2, 0x089)])
    (ends (.tret true false) h fun t => t.pc == 0x100044) ∧ (ends (.srd 5 0x101 0) h fun t => t.me.bank == h.me.bank && t.reg 5 == 0x100040) ∧
      (ends (.swr 1 0x100 0) (h.setReg 1 0x12345678) fun t => t.me.frame.tvb == 0x12345000) ∧
      (ends (.swrFlags 1) (regs base [(1, 0x7FF)]) fun t => t.flags == 0x03F) ∧ (ends (.swrFlags 1) (regs base [(1, 0xD3F)]) fun t => t.flags == 0xD3F) ∧
      (ends (.swrRrb 1) (regs base [(1, 0x1F)]) fun t => t.me.rrb == 15) ∧ (ends (.swrVtype 2) (regs base [(2, 0x039)]) fun t => t.me.vtype == 0x039) ∧
      (ends (.swrVtype 2) (regs base [(2, 0x08A)]) fun t => t.me.vtype == 0x088) := by decide +kernel

theorem witness_SpecialRegisterReads_done : sregNumbers.contains 0x020 = true ∧ isDone 0x020 = true ∧ isDone 0x014 = false := by decide

theorem witness_SpecialRegisterReads :
    let m := monitor base
    (∀ n ∈ sregNumbers, n < 1024) ∧ sregNumbers.contains 0x000 = true ∧ sregNumbers.contains 0x204 = true ∧ m.me.level = .monitor ∧ m.me.level ≠ .task ∧
      m.me.tx = none := by decide +kernel

/-- Of NamedRegisterWrites too. -/
theorem witness_SpecialRegisterWrites :
    let h := handler base
    let e := put (handler (regs { base with slots := tput base.slots 0 { placedSlot with ctx := { placedSlot.ctx with env := none } } } [])) [(0x200000, [0x1000000, 1])]
    (base.me.tx = none ∧ h.me.level ≠ .task ∧ (monitor base).me.level = .monitor ∧ base.me.journalFull = false ∧ vtypeOk 0x039 = true ∧
      vtypeOk 0x08A = false ∧ vtypeOk 0x288 = false ∧ base.me.busyWith .v = false ∧ base.me.busyWith .m = false) ∧
      (e.me.level ≠ .task ∧ e.anyEnv (e.partNo e.cur.core) = false ∧ e.envPool (e.partNo e.cur.core) 0x200000 = some (0x1000000, 1) ∧
        (e.wants (e.partNo e.cur.core) (e.partOf (e.partNo e.cur.core)).root 0x200000 3).isEmpty = true) ∧
      h.anyEnv (h.partNo h.cur.core) = true := by decide +kernel

/-- A save area at 16 MiB for the context of the slot. -/
def area : State := me (regs (handler base) [(1, 3), (2, 0x1000000)]) fun x => { x with ctx := { x.ctx with ctx := 5, csa := 0x1000000 } }

/-- Bank 3 of core 0 tagged to the slot's context. -/
def tagged : State :=
  { area with mem := (put area [(0x1000000, [0, word (5 * 2 ^ 24)])]).mem }.mapCore 0 fun k => { k with banks := [(3, ⟨5, 0, 0, envKey 0 0⟩)] }

/-- The area's context is saved (valid = 1); one of another context. -/
theorem witness_AccumulatorMoves_saved :
    let saved : State := { tagged with mem := (put tagged [(0x1000000, [0, word (5 * 2 ^ 24 + 1)])]).mem }
    let other : State := { tagged with mem := (put tagged [(0x1000000, [0, word (6 * 2 ^ 24)])]).mem }
    (saved.saveGet 0 (0x1000000 + 8)).getLsbD 0 = true ∧ (saved.bankTag 0 3).map (·.ctx.toNat) = some (bitsOf (saved.saveGet 0 (0x1000000 + 8)) 24 8) ∧
      saved.bankSplit 0 3 = false ∧ area.bankTag 0 3 = none ∧ bitsOf (other.saveGet 0 (0x1000000 + 8)) 24 8 ≠ other.me.ctx.ctx.toNat ∧
      (tagged.bankTag 0 3).isSome = true ∧ area.me.ctx.spilled.getLsbD 3 = false := by decide +kernel

theorem witness_AccumulatorMoves :
    let s := tagged
    let f := me { s with cores := tput s.cores 0 Core.initial } fun x => { x with ctx := { x.ctx with spilled := 8 } }
    (s.me.tx = none ∧ s.me.level ≠ .task ∧ s.reg 1 = 3 ∧ (s.reg 1).toNat ≤ 47 ∧ s.reg 2 = 0x1000000 ∧ (s.reg 2).toNat % 2 ^ 17 = 0 ∧ physOf (s.reg 2).toNat ≠ .hole) ∧
      (let w := s.saveGet 0 (0x1000000 + 8)
       w.getLsbD 0 = false ∧ s.ownerOf 0 0x1000000 = some ⟨0, 0⟩ ∧ (s.bankTag 0 3).map (·.ctx.toNat) = some (bitsOf w 24 8) ∧ s.bankSplit 0 3 = false ∧
         s.bankBusy 0 3 = false ∧ physOf ((s.saveGet 0 (0x1000000 + 0x40)).toNat + 65536 * 3) ≠ .hole ∧
         bitsOf w 24 8 = f.me.ctx.ctx.toNat ∧ f.bankTag 0 3 = none ∧ f.me.ctx.spilled.getLsbD 3 = true) := by decide +kernel

/-- R357: with no trap taken there is nothing to save. -/
theorem test_saved_contexts :
    (ends (.ctxsave 3 2) (me area fun x => { x with frame := { x.frame with inTrap := false } }) fun t => t.reg 3 == 3) := by decide +kernel

/-- A valid area of core 0 at 16 MiB with its resume record in the deque, and a supervisor on slot 1. -/
def saved : State :=
  let m := put area [(0x1000000, [0, 1])]
  let r : Rec := ⟨.resume 0x1000000 (some 0) ⟨Slot.initial.eng, [], false, none, false, 0⟩, placedTaskInfo, 512, none, false⟩
  regs ({ m with cur := ⟨0, 1⟩, slots := tput m.slots 1 { Slot.initial with status := .ready, level := .supervisor } }.mapCore 0 fun k =>
    { k with deque := [r] }) [(2, 0x1000000), (4, 3)]

theorem witness_SavedContexts :
    let s := me area fun x => { x with frame := { x.frame with plev := .task } }
    let c := saved.mapPart 0 fun q => { q with scopes := q.scopes.map fun x => { x with mark := true } }
    (s.me.tx = none ∧ s.me.level ≠ .task ∧ (s.reg 2).toNat % 2 ^ 17 = 0 ∧ physOf (s.reg 2).toNat ≠ .hole ∧ s.me.frame.inTrap = true ∧
      s.me.frame.plev = .task ∧ s.me.task.isSome = true ∧ s.lockedStores s.cur = false ∧ s.me.farStores = false) ∧
      (me s fun x => { x with frame := { x.frame with inTrap := false } }).me.frame.inTrap = false ∧
      (let w := saved.saveGet (saved.partNo 0) (0x1000000 + 8)
       saved.me.tx = none ∧ saved.me.level ≠ .task ∧ w.getLsbD 0 = true ∧ bitsOf w 8 8 = 0 ∧ (saved.reg 4).toNat ≤ 3 ∧
         (saved.slotOf ⟨0, slotNo (saved.reg 4).toNat⟩).status = .free) ∧
      ((saved.savedRec 0 0x1000000).map fun r => (match r.kind with
        | .resume a _ _ => a == 0x1000000
        | _ => false) && !saved.recCancelled r && c.recCancelled r) = some true := by decide +kernel

/-- R360 to R363: an entry that there is none of, the version and the power limit, and a core that stops. -/
theorem test_system_services :
    let h := handler (regs base [])
    (ends (.moncall 3 1 0) (h.setReg 1 1) fun t => t.reg 3 == 3600) ∧ (ends (.moncall 3 1 0) (h.setReg 1 3) fun t => t.reg 3 == 0xFFFFFFFFFFFFFFFF) ∧
      (ends (.tlbinv 3 1 2) (h.setReg 2 2) fun t => t.reg 3 == 0) ∧ (ends .halt (monitor base) fun t => (t.coreOf 0).halted) := by decide +kernel

theorem witness_SystemServices :
    let h := handler (regs base [])
    let z := (h.setReg 2 2)
    h.me.tx = none ∧ h.me.level ≠ .task ∧ (h.reg 2).toNat ≤ 2 ∧ bitsOf (h.reg 1) 48 16 = 0 ∧ (z.reg 2).toNat = 2 ∧ (gives (releaseOp 5 h) fun _ => true) ∧
      bitsOf (h.reg 1) 34 30 = 0 ∧ (h.logEntry 0 0 0 0).isSome = false ∧
      ((h.mapDie 0 fun d => { d with elog := [(0, (1, [⟨1, 2, 3, 4⟩]))] }).logEntry 0 0 0 3).isSome = true ∧ (h.setReg 2 4).reg 2 = 4 ∧ (h.setReg 2 5).reg 2 = 5 ∧ (h.setReg 1 3).reg 1 = 3 ∧ (monitor base).me.level = .monitor ∧
      (h.tlbDrop 0 fun _ => true).pendingAccess 0 = false ∧
      ((me h fun x => { x with sq := [req] }).tlbDrop 0 fun _ => true).pendingAccess 0 = true := by decide +kernel

/-- A partition whose test flag is set. -/
def tested : State := (regs (handler base) [(1, 2), (2, 0x200000), (4, 0x200001)]).mapPart 0 fun q => { q with desc := q.desc.set 0 ((q.word 0) ||| 0x100000) }

/-- R362, R349: MONCALL 2 sets the injector where the flag allows it; a fault of the monitor stops the core. -/
theorem test_moncall :
    (ends (.moncall 3 1 2) tested fun t => t.reg 3 == 0) ∧ (ends (.moncall 3 1 4) tested fun t => (t.coreOf 0).halted && (t.partOf 0).frozen) ∧
      (ends (.moncall 3 1 2) (regs (handler base) [(1, 2)]) fun t => t.reg 3 == 0xFFFFFFFFFFFFFFFF) := by decide +kernel

theorem witness_SystemServices_monitor :
    let h := regs (handler base) [(1, 2)]
    tested.me.tx = none ∧ tested.me.level ≠ .task ∧ tested.reg 1 = 2 ∧ (tested.partOf 0).testFlag = true ∧ tested.monFault 0 0x200000 = none ∧
      tested.monFault 0 0x200001 = some 0x03 ∧ (h.partOf 0).testFlag = false := by decide +kernel

/-! ### Engine words -/

/-- A word or a command in a queue, forwarded under descriptor version 1. -/
def entry (w : BitVec 32) : QEntry := ⟨w, 0, 1, 1, 0, [], false, false⟩

/-- R22, R251, R268: each class joins its queue; a C word takes the next id of its channel; a word in a handler is ILLEGAL. -/
theorem test_forwarding :
    (ends (.vadd 8 5 9 ⟨0, false, 0, 0⟩) base fun t => t.me.eng.qs.vq.map (·.word) == [0x41415200] && t.me.eng.qs.journal.length == 1 && t.pc == 0x100004) ∧
      (ends (.mzero 8 ⟨0, 0⟩) base fun t => t.me.eng.qs.mq.map (·.word) == [0x84200000]) ∧
      (ends (.cpy 2 5 true ⟨2, 3⟩) base fun t => t.me.eng.qs.cq.map (·.word) == [0xC294300B] && (t.me.chan 2).given == 1) ∧
      (ends (.vcfg 0x039 ⟨0, 0⟩) base fun t => t.me.vtype == 0x039 && t.me.eng.vec.vtype == 0x088) ∧
      (ends (.mnop ⟨2, 1⟩) (handler base) fun t => t.me.level == .monitor) ∧
      (ends (.mnop ⟨2, 1⟩) (me (handler base) fun x => { x with frame := { x.frame with inTrap := false } }) fun t =>
        t.me.frame.tcause == 0x01 && t.me.frame.tinfo0 == 0x80000009 && t.me.frame.tinfo1 == 2) := by decide +kernel

/-- Of ForwardingStalls too. -/
theorem witness_EngineWordsForwarded :
    let full := eng base fun e => { e with qs := { e.qs with vq := List.replicate 32 (entry 0x40000000) } }
    (base.actor = .control ∧ base.me.level = .task ∧ base.me.tx = none ∧ base.me.journalFull = false) ∧
      (encodeNat (.vadd 8 5 9 ⟨0, false, 0, 0⟩) / 2 ^ 30 = 1 ∧ encodeNat (.vcfg 0x039 ⟨0, 0⟩) / 2 ^ 30 = 1 ∧ base.me.depth .v < base.me.depthLimit .v) ∧
      (encodeNat (.mnop ⟨0, 0⟩) / 2 ^ 30 = 2 ∧ encodeNat (.mzero 8 ⟨0, 0⟩) / 2 ^ 30 = 2 ∧ encodeNat (.mdrain 4 4 ⟨0, 0⟩) / 2 ^ 30 = 2 ∧
        encodeNat (.mloadc 8 3 ⟨0, 0⟩) / 2 ^ 30 = 2 ∧ encodeNat (.mma 2 8 1 2 true true true true true ⟨3, 3⟩) / 2 ^ 30 = 2 ∧
        base.me.depth .m < base.me.depthLimit .m) ∧
      (encodeNat (.cnop 7 ⟨3, 3⟩) / 2 ^ 30 = 3 ∧ encodeNat (.cpy 0 0 false ⟨0, 0⟩) / 2 ^ 30 = 3 ∧ encodeNat (.cred 1 4 false 0 ⟨0, 0⟩) / 2 ^ 30 = 3 ∧
        encodeNat (.cgath 0 3 false ⟨0, 0⟩) / 2 ^ 30 = 3 ∧ encodeNat (.cscat 0 3 false ⟨0, 0⟩) / 2 ^ 30 = 3 ∧
        encodeNat (.cmcast 0 7 true ⟨0, 0⟩) / 2 ^ 30 = 3 ∧ encodeNat (.cfill 4 2 false 1 ⟨0, 0⟩) / 2 ^ 30 = 3 ∧ base.me.depth .c < base.me.depthLimit .c) ∧
      full.me.depthLimit .v ≤ full.me.depth .v ∧ (handler base).me.level ≠ .task ∧
      (eng base fun e => { e with qs := { e.qs with journal := List.replicate 256 ⟨0x40000000, 0, false, false, .v, 0, 0⟩ } }).me.journalFull = true := by decide +kernel

/-- The vector engine runs for slot 0, with a word at the head of its queue. -/
def vectorAt (w : BitVec 32) (f : VecState → VecState) : State :=
  { (eng base fun e => { e with qs := { e.qs with vq := [entry w] }, vec := f e.vec }) with actor := .vector }

/-- The write that a word has left pending. -/
def pends (s : State) (c : VDest → Bool) : Bool := s.me.eng.vec.pending.any fun p => c p.dest

/-- R148, R150, R151, R142, Table 5: lane numbers, a value for every lane, a mask of all ones, and the latency of 2. -/
theorem test_vector_words :
    (ends (.viota 8 ⟨0, false, 0, 0⟩) (vectorAt 0x5D400000 id) fun t =>
      (pends t fun d => match d with
        | .v n l _ => n == 8 && (l.take 3).map (·.toNat) == [0, 1, 2] && (l.getD 255 0).toNat == 255
        | _ => false) && (t.me.eng.vec.pending.map (·.due)) == [2] && t.me.eng.qs.vq.isEmpty) ∧
      (ends (.knot 2 0 ⟨0, false, 0, 0⟩) (vectorAt 0x68100000 id) fun t => pends t fun d => match d with
        | .k n b _ => n == 2 && b == 0
        | _ => false) ∧
      (ends (.vchk 0 1 ⟨0, 0⟩) (vectorAt 0x64000200 id) fun t => t.me.eng.vec.flight.map (·.chk) == [some true] && t.me.eng.vec.flight.map (·.due) == [8]) := by
  decide +kernel

/-- R28, R127, R131: a word without tokens and port registers, one that waits on a token, one that reads the port v0, and a VCHK. -/
theorem witness_VectorWordsIssue :
    let w := fun (v : BitVec 32) (x : VWord) (s : State) => match s.me.vHead with
      | some q => q.word == v && s.me.placesFor x && (match s.me.startTokens .v q.word q.popped with
        | some y => match postEng .v q.word with
          | some b => (s.setMe (y.unreserve .v b)).vCheck s.cur q x |>.isNone
          | none => ((s.setMe y).vCheck s.cur q x).isNone
        | none => false)
      | none => false
    let port := fun (v : BitVec 32) => { (eng (vectorAt v id) fun e => { e with ports := { e.ports with v0 := [⟨none, List.replicate 32 (mkGran 0)⟩] } }) with actor := .vector }
    (vectorAt 0 id).actor = .vector ∧ (w 0x41415200 (vWord ⟨0, false, 0, 0⟩ [5, 9] (.v 8) 2 fun x => addWord (x.src 5) (x.src 9) x) (vectorAt 0x41415200 id)) = true ∧
      (w 0x41401200 (vWord ⟨0, false, 0, 0⟩ [0, 9] (.v 8) 2 fun x => addWord (x.src 0) (x.src 9) x) (port 0x41401200)) = true ∧
      (w 0x64000200 (bareWord [0, 1] .check 8 fun x => chkWord (x.xa 0) (x.xa 1) x) (vectorAt 0x64000200 id)) = true ∧
      (w 0x4000000D (bareWord [] .none 0 noWord) ({ me (vectorAt 0x4000000D id) fun x => x.setToken .c .v ⟨1, 0⟩ with actor := .vector })) = true := by decide +kernel

/-- A word in flight that is due in cycle 5. -/
def flying (chk : Option Bool) : VFlight := ⟨0, 5, .v, 0x02, none, none, chk⟩

/-- Of MarkerApplied too. -/
theorem witness_VectorFinish :
    let s := eng { base with cycle := 5 } fun e => { e with vec := { e.vec with flight := [flying none] } }
    let e := eng { base with cycle := 4 } fun e => { e with vec := { e.vec with flight := [flying none] } }
    (e.slotOf ⟨0, 0⟩).eng.vec.firstDue e.cycle = none ∧ (s.slotOf ⟨0, 0⟩).eng.vec.firstDue s.cycle = some (flying none) ∧
      (flying none).chk ≠ some false ∧ (flying (some true)).chk ≠ some false ∧
      (vectorAt 0x7F000001 id).me.eng.qs.vq = [entry 0x7F000001] ∧ isMarker 0x7F000001 = true ∧
      (vectorAt 0x7F000001 id).runs 0 = true := by decide +kernel

theorem test_vector_finish :
    (ends (.vFinish ⟨0, 0⟩) (eng { base with cycle := 5 } fun e => { e with vec := { e.vec with flight := [flying none] } }) fun t =>
      t.flags == 0x02 && t.me.eng.vec.flight.isEmpty) ∧
      (ends (.markerApply ⟨0, 0⟩) (vectorAt 0x7F000001 id) fun t => t.me.eng.vec.rrb == 15 && t.me.eng.qs.vq.isEmpty) := by decide +kernel

/-- Core 0 does not run. -/
def halt0 (s : State) : State := s.mapCore 0 fun k => { k with halted := true }

/-- Generator 1 loaded with one row of one entry in segment 5 and bound to v0. -/
def generator (p : Word) : State :=
  eng (seg5 base) fun e =>
    { e with
      descs := ⟨[(33, ⟨[p, 1 + 2 ^ 16 + 32 * 2 ^ 32, 0, 0], 1, true⟩)], 1, []⟩
      ports := { e.ports with bind0 := .gen 1, walks := [(1, ⟨[p, 1 + 2 ^ 16 + 32 * 2 ^ 32, 0, 0], 0, none⟩)] } }

theorem witness_GeneratorEntry :
    let s := generator ptr5
    let x := s.slotOf ⟨0, 0⟩
    let b := generator 0x8000060000000000
    (x.eng.ports.boundTo 1 = some 0 ∧ x.portOpen 0 = true ∧ x.fedBy 0 1 = true ∧ s.runs 0 = true ∧
      s.entryLocked ⟨.task (envKey 0 0), 5⟩ 0 = false ∧ s.lockedStores ⟨0, 0⟩ = false ∧ (halt0 s).runs 0 = false ∧ (x.eng.ports.walks.find? (fun e => e.1 == 1)).map (fun e => e.2.fault.isNone && decide (e.2.next < walkLen e.2.img)) = some true) ∧
      (gives (s.decodePtr ⟨0, 0⟩ ptr5 32) fun y => y == .seg ⟨.task (envKey 0 0), 5⟩ 0) ∧ (gives (s.decodePtr ⟨0, 0⟩ (ptr5 + 1023) 1) fun _ => true) ∧
      (goes (s.admitSet ⟨0, 0⟩ (.ag ⟨0, 0⟩ 1) [⟨.task (envKey 0 0), 5⟩] [ptr5] 0 false) fun _ => true) ∧
      (gives (b.decodePtr ⟨0, 0⟩ 0x8000060000000000 32) fun _ => true) = false ∧
      ((gives (s.decodePtr ⟨0, 0⟩ (ptr5 + 0xE00) 32) fun _ => true) ∧ (gives (s.decodePtr ⟨0, 0⟩ (ptr5 + 0xE00 + 1023) 1) fun _ => true) = false) ∧
      (match (me s fun x => { x with quota := 0 }).admitSet ⟨0, 0⟩ (.ag ⟨0, 0⟩ 1) [⟨.task (envKey 0 0), 5⟩] [ptr5] 0 false with
        | .tooLarge f => f == 1
        | _ => false) = true := by decide +kernel

theorem test_generator :
    (ends (.agEntry ⟨0, 0⟩ 1) (generator ptr5) fun t => t.me.eng.ports.v0.length == 1) ∧
      (ends (.agEntry ⟨0, 0⟩ 1) (generator 0x8000060000000000) fun t => t.me.eng.ports.v0.isEmpty) ∧
      (ends (.agEntry ⟨0, 0⟩ 1) (generator (ptr5 + 0xE00)) fun t => t.me.eng.ports.walks.any fun e => e.2.fault.any fun f => f.cause == 0x07 && f.t0 == ptr5 + 0xE00) := by decide +kernel

/-- CPY ch2, cd5 in the C queue: one element of 32 bytes from 2 MiB to the given address. -/
def copying (dst : Word) : State :=
  eng (put base [(0x200000, [1, 2, 3, 4])]) fun e =>
    { e with
      descs := ⟨[(21, ⟨[0x200000, dst, 0x0001000100010001, 0, 0, 0, 0, 0, 0x1FE00004, 0, 0, 0], 1, true⟩)], 1, []⟩
      qs := { e.qs with cq := [entry 0xC2941000] } }

/-- The copy has started; its one unit is done. -/
def started (s : State) (c : State → Bool) : Bool := ends (.cStart ⟨0, 0⟩) s c

theorem test_copy :
    (started (copying 0x201000) fun t => ends (.copyUnit ⟨0, 0⟩ 2) t fun u => u.mem.byte 0x201008 == 2 && ends (.cComplete ⟨0, 0⟩ 2) u fun v =>
      (v.me.chan 2).doneId == 1 && (v.me.chan 2).run.isNone) = true := by decide +kernel

theorem witness_CopySteps :
    let i : SlotId := ⟨0, 0⟩
    let s := copying 0x201000
    let unit := fun (t : State) (want : Bool) => match ((t.slotOf i).chan 2).run with
      | some r => t.runs i.core && r.admitted && !r.stopped && decide (r.elem < cTotal r.img) && (t.slotOf i).cPortOpen 2 r.img && match cWordOf r.q.word with
        | some w => match w.kind with
          | some k => want == gives (cRunUnit i 2 r w k t) fun _ => true
          | none => false
        | none => false
      | none => false
    (s.runs i.core = true ∧ (let s1 := (List.finRange 8).foldl (fun t h => t.cRetry i h) s
      ((s1.cHead i).map fun e => e.1 == entry 0xC2941000 && e.2.chan == 2 && ((s1.slotOf i).chan e.2.chan).run.isNone) = some true ∧
        s1.cTurn i = true ∧
        ((s1.slotOf i).startTokens .c (entry 0xC2941000).word false).isSome = true)) ∧
      (started s fun t => unit t true) ∧ (started (copying 0x4000000) fun t => unit t false) ∧
      (started s fun t => ends (.copyUnit i 2) t fun u => match ((u.slotOf i).chan 2).run with
        | some r => r.admitted && decide (cTotal r.img ≤ r.elem) && !u.cUnacked i 2 r && r.lines.all fun n => !u.lineHeld i.core n
        | none => false) := by decide +kernel

/-- An M word with a format word, td8 a result tile of one element, td3 one row of segment 5; the slot asks for the lease. -/
def matrix (w : BitVec 32) (bad : Bool) : State :=
  let s := eng (seg5 base) fun e =>
    { e with
      descs := ⟨[(3, ⟨[ptr5, 1 + 2 ^ 16 + 32 * 2 ^ 32, 0, 0, 0, 0, 0, 0], 1, true⟩), (8, ⟨[0, 1 + 2 ^ 16 + 256 * 2 ^ 32, 2, 0, 0, 0, 0, 0], 1, true⟩)], 1, []⟩
      qs := { e.qs with mq := [entry w], fq := [0x100] } }
  let t := if bad then s.mapSeg ⟨.task (envKey 0 0), 5⟩ fun h => { h with data := h.data.putMeta 0 1 false false } else s
  t.mapCluster 0 fun k => { k with reqs := [(⟨0, 0⟩, 0)] }

/-- R278, R303, R286, R289: under the lease MZERO of one element runs its one step and completes. -/
theorem test_matrix :
    (ends (.mStart ⟨0, 0⟩) (matrix 0x84200000 false) fun t => (t.clusterOf 0).holder == some ⟨0, 0⟩ && t.me.eng.mrun.isSome &&
      ends (.microStep ⟨0, 0⟩) t fun u => ends (.mComplete ⟨0, 0⟩) u fun v => v.me.eng.mrun.isNone && v.me.eng.qs.fq.isEmpty &&
        (v.bankTag 0 0).isSome) = true := by decide +kernel

/-- Of LeaseTimeout too. -/
theorem witness_MatrixSteps :
    let i : SlotId := ⟨0, 0⟩
    let s := matrix 0x84200000 false
    let run := fun (t : State) (want : Bool) => match (t.slotOf i).eng.mrun, (t.slotOf i).eng.qs.fq with
      | some r, fw :: _ => t.runs i.core && (t.clusterOf (clusterOfCore i.core)).holder == some i && r.admitted && !r.finished && match (t.slotOf i).planOf r.q fw with
        | some p => want == gives (t.mStep i p r) fun _ => true
        | none => false
      | _, _ => false
    let halted := fun (t : State) => { t with cores := tput t.cores 0 { t.coreOf 0 with halted := true } }
    (s.runs i.core = true ∧ ((s.takeLease i).map fun t => !(t.slotOf i).eng.qs.mStop && (t.slotOf i).eng.mrun.isNone &&
        (t.slotOf i).eng.qs.mq == [entry 0x84200000] && t.withinLease (clusterOfCore i.core) (entry 0x84200000) && !t.lockedStores i &&
        (t.bandSlots i (wordParts 0x84200000)).isSome && ((t.slotOf i).startTokens .m 0x84200000 false).isSome) = some true) ∧
      (ends (.mStart i) s fun t => run t true && (ends (.microStep i) t fun u => (u.slotOf i).eng.mrun.map (·.finished) == some true) &&
        !(halted t).runs i.core && (((halted t).slotOf i).eng.mrun.map fun r => r.admitted && !r.finished) == some true) ∧
      (ends (.mStart i) (matrix 0x8820C000 true) fun t => run t false && match (t.slotOf i).eng.mrun with
        | some r => !t.segLocked r.pins &&
            (t.mapPkg fun k => { k with locks := [⟨.seg ⟨.task (envKey 0 0), 5⟩ 0, 1, 0, 0, none⟩] }).segLocked r.pins
        | none => false) ∧
      (let c := fun (n : Nat) => { base with cycle := n }.mapCluster 0 fun k => { k with holder := some i, idleSince := some 0, reqs := [(⟨0, 1⟩, 0)] }
       ((c 255).clusterOf 0).holder = some i ∧ ((c 255).clusterOf 0).idleSince = some 0 ∧ (c 255).cycle < 0 + 256 ∧ 0 + 256 ≤ (c 256).cycle ∧
         ((c 256).slotOf i).eng.qs.mq = [] ∧ ∃ r ∈ ((c 256).clusterOf 0).reqs, r.1 ≠ i) := by decide +kernel

/-! ### Segments and caches between instructions -/

/-- The segment of `seg5` with a change and a ticket of the control core that names it. -/
def ticketed (f : Seg → Seg) : State :=
  { seg5With f with tickets := [⟨0, .control ⟨0, 0⟩, [⟨.task (envKey 0 0), 5⟩], [ptr5], 0, [0], false⟩] }

theorem witness_SegmentSteps :
    let id5 : SegId := ⟨.task (envKey 0 0), 5⟩
    let s := seg5With fun g => { g with claimed := true, dirty := [0] }
    let far := seg5With fun g => { g with claimed := true, dirty := [0], home := 2 ^ 40 }
    let at5 := fun (z : State) (f : Seg → Bool) => (z.segOf id5).map f == some true
    base.oldestIn 0 = none ∧ ((ticketed id).oldestIn 0).isSome = true ∧
      (at5 s fun g => decide (s.segOf g.id = some g) && g.claimed && g.state == .resident && !s.pinned g && gives (s.evictSeg g) fun _ => true) ∧
      (at5 far fun g => g.claimed && g.state == .resident && !far.pinned g && !gives (far.evictSeg g) fun _ => true) ∧
      (at5 (seg5With id) fun g => !g.claimed) ∧
      (let a := ticketed fun g => { g with state := .absent }
       at5 a fun g => (a.recallable g).isSome && (a.placeFor g.pool g.frames).isSome && gives (a.bringIn g 0) fun _ => true) ∧
      (let a := ticketed fun g => { g with state := .fresh }
       at5 a fun g => (a.recallable g).isSome && (a.placeFor g.pool g.frames).isSome && gives (a.bringIn g 0) fun _ => true) ∧
      (let a := ticketed fun g => { g with state := .absent, home := 2 ^ 40 }
       at5 a fun g => (a.recallable g).isSome && !gives (a.bringIn g 0) fun _ => true) := by decide +kernel

theorem test_segment_steps :
    (ends (.segmentRecall ⟨.task (envKey 0 0), 5⟩) (ticketed fun g => { g with state := .absent }) fun t => t.segs.map (·.state) == [.resident]) ∧
      (ends (.freshFill ⟨.task (envKey 0 0), 5⟩) (ticketed fun g => { g with state := .fresh }) fun t => t.segs.map (·.state) == [.resident]) ∧
      (ends (.segmentEvict ⟨.task (envKey 0 0), 5⟩) (seg5With fun g => { g with claimed := true }) fun t => t.segs.map (·.state) == [.fresh]) := by decide +kernel

/-- A load has brought the line of 2 MiB into the L1 of core 0, and a store has made a granule of it dirty. -/
def cached (c : State → Bool) : Bool :=
  ends (.ld 6 4 3 false 0) (regs base [(4, 0x200000)]) fun t => ends (.st 4 4 3 0) t fun u => ends (.storePerform ⟨0, 0⟩) u c

theorem test_write_back :
    (cached fun t => (t.coreOf 0).fifo == [0x4000] && t.mem.byte 0x200002 == 0 && ends (.writeBack 0 0x4000) t fun u =>
      u.mem.byte 0x200002 == 0x20 && (u.coreOf 0).fifo.isEmpty) = true := by decide +kernel

/-- Of PoolScrubbed too. -/
theorem witness_CacheSteps :
    let b := fun (d : Bool) => me base fun x => { x with blocks := [(3, ⟨0x200000, [(0x4000, d)], [0], d⟩)] }
    let k : Pool := ⟨0x400000, 16, 4, 0x300000, [2, 3], [], [1], []⟩
    let p := base.mapPart 0 fun q => { q with pool := some k }
    base.l1Line 0 0x4000 = none ∧ (cached fun t => (t.l1Line 0 0x4000).isSome) ∧
      (((b false).slotOf ⟨0, 0⟩).blocks.find? (fun e => e.1 == 3)).map (fun e => e.2.lines[0]?) = some (some (0x4000, false)) ∧
      (((b true).slotOf ⟨0, 0⟩).blocks.find? (fun e => e.1 == 3)).map (fun e => e.2.lines[0]?) = some (some (0x4000, true)) ∧
      (p.partOf 0).pool = some k ∧ k.scrubQ = 2 :: [3] ∧ ((p.pageSite 0 k 2).map fun d => match d with
        | .here _ => true
        | _ => false) = some true ∧
      p.quiescing 0 = false ∧ (base.mapPart 0 fun q => { q with stopped := true }).quiescing 0 = true := by decide +kernel

/-- A line of plain HBM that the L1 holds, with a dirty granule; a line that a commit has locked. -/
theorem witness_CacheSteps_line :
    (cached fun t => match t.l1Line 0 0x4000 with
      | some l => !t.lineLocked 0x4000 && l.line == 0x4000 && (t.partOf l.part).logMode == 0 && (l.grans.any (·.dirty)) &&
          (List.range l.grans.length).all fun k => decide (physOf (32 * (4 * 0x4000 + k)) = .hbm) && t.regionOk l.part (32 * (4 * 0x4000 + k)) &&
            (t.keyOf l.part (some l.key) (32 * (4 * 0x4000 + k))).isNone && !t.hit (dieOfCore 0) l.part .l1 (4 * 0x4000 + k) && !t.isLocked (.phys (4 * 0x4000 + k))
      | none => false) ∧
      { base with pkg := { base.pkg with locks := [⟨.phys 0x10003, 1, 0, 0, none⟩] } }.lineLocked 0x4000 = true := by decide +kernel

/-! ### Tasks between instructions -/

/-- A record of a task. -/
def rec0 : Rec :=
  { kind := .fresh, info := { placedTaskInfo with serial := 1, record := [0x100000, 9, 0, 0x300000, 0, 0, 0, 0] }, quota := 3, owner := none, spilled := false }

/-- Two environments at 0x600000, of which slot 0 holds the first, and a deque of core 0. -/
def startable (l : List Rec) : State :=
  ((put base [(0x600040, [0x700000, 0x8000, 0x800000, word placedRoot]), (0x600060, [0, 0x1000000, 7])]).mapPart 0 fun q =>
    { q with envBase := 0x600000, envCount := 2 }).mapCore 0 fun k => { k with deque := l }

/-- A resume record for an area, with its environment. -/
def resumed : Rec := { rec0 with kind := .resume 0x1000000 (some 1) ⟨Slot.initial.eng, [], false, none, false, 0⟩ }

/-- A record of a scope that is cancelled. -/
def dead : Rec := { rec0 with info := { rec0.info with scope := 7 } }

/-- Scope 7 is cancelled, and core 0 has seen its mark. -/
def cancel7 (s : State) : State := s.mapPart 0 fun q => { q with scopes := q.scopes ++ [⟨7, 0, some 0, 1, true, none, false, 0, 0, [0]⟩] }

/-- R13, R101, R102: the entry, the argument, the top of the private area, and nothing else. -/
theorem test_task_start :
    (ends (.taskStart ⟨0, 1⟩) (startable [rec0]) fun t =>
      let x := t.slotOf ⟨0, 1⟩
      x.pc == 0x100000 && x.bank.get 1 == 9 && x.bank.get 30 == 0x4000000000008000 && x.bank.get 2 == 0 && x.status == .ready && x.level == .task &&
        x.ctx.env == some 1 && x.quota == 3 && (t.coreOf 0).deque.isEmpty) = true := by decide +kernel

/-- Of StartRegisters too. -/
theorem witness_TaskStarts :
    let s := startable [rec0]
    let i : SlotId := ⟨0, 1⟩
    (s.starts i.core = true ∧ (s.slotOf i).status = .free ∧ s.headRec i.core = some (rec0, []) ∧ rec0.kind = .fresh ∧ s.recSeen 0 rec0 = false ∧ (s.startWants rec0 1).isEmpty = true ∧
      s.freeEnv rec0.info.part = some 1 ∧ (s.startRec i rec0 1).isSome = true) ∧
      ((cancel7 (startable [dead])).headRec 0 = some (dead, []) ∧ (cancel7 (startable [dead])).recSeen 0 dead = true) ∧
      (startable [resumed]).headRec 0 = some (resumed, []) ∧ resumed.kind = .resume 0x1000000 (some 1) ⟨Slot.initial.eng, [], false, none, false, 0⟩ := by decide +kernel

/-- Slot 1 preloads a record, with another of the given priority in the deque. -/
def preloading (l : List Rec) : State := (startable l).setSlot ⟨0, 1⟩ { Slot.initial with status := .preloaded, next := some rec0 }

/-- A task that has executed TEND. -/
def ending : State := me base fun x => { x with sched := { x.sched with ended := true } }

theorem test_task_end :
    (ends (.taskEnd ⟨0, 0⟩) ending fun t => t.me.status == .free && t.me.task.isNone && (t.partOf 0).spool == 2) ∧
      (ends (.taskEnd ⟨0, 0⟩) base fun t => t.me.task.isSome) := by decide +kernel

theorem witness_TaskEnds :
    let s := preloading []
    let u := preloading [{ rec0 with info := { rec0.info with prio := 0 } }]
    let p := (preloading [rec0]).mapSlot ⟨0, 1⟩ fun x => { x with next := some { rec0 with info := { rec0.info with prio := 2 } } }
    ((ending.slotOf ⟨0, 0⟩).task.isSome = true ∧ ending.canEnd ⟨0, 0⟩ = true ∧ ((ending.slotOf ⟨0, 0⟩).task.map fun t => (ending.endWants t).isEmpty) = some true ∧ base.canEnd ⟨0, 0⟩ = false) ∧
      ((s.slotOf ⟨0, 1⟩).status = .preloaded ∧ (s.slotOf ⟨0, 1⟩).next = some rec0 ∧ s.starts 0 = true ∧
        (s.coreOf 0).deque.all (fun x => x.spilled || decide (rec0.info.prio ≤ x.info.prio)) = true ∧ s.recSeen 0 rec0 = false ∧ (s.startWants rec0 1).isEmpty = true ∧ s.freeEnv 0 = some 1 ∧
        ((s.endPreload ⟨0, 1⟩).startRec ⟨0, 1⟩ rec0 1).isSome = true ∧ (u.coreOf 0).deque.all (fun x => x.spilled || decide (rec0.info.prio ≤ x.info.prio)) = true) ∧
      (p.coreOf 0).deque.all (fun x => x.spilled || decide (2 ≤ x.info.prio)) = false := by decide +kernel

/-- A graph instance with one unplaced node. -/
def instanceOf (r : Rec) : GInst := ⟨0x200000, 0, placedRoot, 1, [{ r with info := { r.info with node := some (0x200000, 0) } }], [0], 0x380000, 1, [0], false, 0⟩

/-- Queue 0 is to be scanned, whose control block stands at the given address. -/
def scanning (cb : Word) (s : State) : State := s.mapPart 0 fun q => { q with desc := q.desc.set 4 cb, scanMask := 1 }

/-- R107, R398: a control block on another device is asked for. -/
theorem test_scan :
    (ends (.launchScan 0) (scanning 0x2000000 (farPage base)) fun t => t.pkg.remotes.length + t.pkg.fetched.length != 0 || (t.partOf 0).scanMask == 1) ∧
      (ends (.launchScan 0) (scanning 0x200000 base) fun t => (t.partOf 0).scanMask == 0) := by decide +kernel

theorem witness_LaunchSteps :
    let s := base.mapPart 0 fun q => { q with insts := [instanceOf rec0], scanMask := 5 }
    let w := fun (c : Nat) => { base with cycle := c }.mapPart 0 fun q => { q with lastWake := some 10, wakeAgain := 6 }
    ((s.partOf 0).insts.find? (fun g => !g.unplaced.isEmpty && !g.broken) = some (instanceOf rec0) ∧ (instanceOf rec0).unplaced = [0] ∧
      ((instanceOf rec0).recs.find? (fun r => r.info.node = some (0x200000, 0 * 65536 + 0))).isSome = true) ∧
      ((gives ((scanning 0x200000 base).scanQueues 0 1 [0, 1, 2, 3]) fun _ => true) ∧ (scanning 0x200000 base).launches 0 = true ∧
        (gives ((scanning 0x2000000 (farPage base)).scanQueues 0 1 [0, 1, 2, 3]) fun _ => true) = false ∧
        s.launches 0 = true ∧ (s.partOf 0).scanMask ≠ 0 ∧ (base.partOf 0).scanMask = 0 ∧ (base.partOf 0).valid = true) ∧
      ((base.partOf 0).lastScan + 65536 ≤ { base with cycle := 65536 }.cycle ∧ { base with cycle := 65535 }.cycle < (base.partOf 0).lastScan + 65536) ∧
      (base.pkg.cfg.status ≠ 3 ∧ (base.partOf 0).lastWake = none ∧ ((w 1609).partOf 0).lastWake = some 10 ∧ (w 1609).cycle < 10 + 1600 ∧
        10 + 1600 ≤ (w 1610).cycle ∧ ((w 1610).partOf 0).wakeAgain ≠ 0 ∧ ((w 1610).partOf 0).scanMask = 0 ∧ (w 1610).launches 0 = true) := by decide +kernel

/-- R106, R108: after 65,536 cycles every queue is scanned; a wake within a microsecond is kept for the end of the window. -/
theorem test_wakes :
    (ends (.periodicWake 0) { base with cycle := 65536 } fun t => (t.partOf 0).scanMask == 15) ∧
      (ends (.wake 0 2) base fun t => (t.partOf 0).scanMask == 2 && (ends (.wake 0 4) t fun u => (u.partOf 0).scanMask == 2 && (u.partOf 0).wakeAgain == 4)) := by
  decide +kernel

/-- Core 1 holds a record that core 0 may steal. -/
def loaded (r : List Rec) : State := ((startable []).mapCore 1 fun k => { k with deque := r }).mapCore 0 fun k => { k with deque := [] }

theorem witness_DequeSteps :
    let d := fun (s : State) => (s.coresOf (s.partNo 0)).filter (· != 0)
    let v := fun (s : State) => (d s).getD ((lfsrStep (s.coreOf 0).lfsr).toNat % (d s).length) 0
    let s := (startable []).mapCore 0 fun k => { k with deque := [] }
    let f := (s.coresOf (s.partNo 0)).foldl (fun t c => if c = 0 then t else t.mapCore c fun k => { k with deque := [rec0] }) s
    let tried := s.mapCore 0 fun k => { k with tries := 1 }
    let sp := { rec0 with spilled := true }
    (s.starts 0 = true ∧ d s ≠ [] ∧ (s.coreOf 0).deque = [] ∧ (s.coreOf 0).backoff ≤ s.cycle ∧ (∃ i ∈ slotsOf 0, (s.slotOf i).status = .free) ∧
      f.stealable (v f) 0 = some rec0 ∧ f.recSeen 0 rec0 = false ∧ s.stealable (v s) 0 = none ∧ (s.coreOf 0).tries = 0 ∧ 1 ≤ (tried.coreOf 0).tries ∧
      tried.stealable (v tried) 0 = none) ∧
      (let r := startable [rec0, sp, rec0]
       (r.coreOf 0).deque = [rec0] ++ sp :: [rec0] ∧ sp.spilled = true ∧ (∀ y ∈ [rec0], y.spilled = false) ∧
         ((r.coreOf 0).deque.filter fun r => !r.spilled).length < 32 ∧ (∀ y ∈ (r.coreOf 0).deque, y.spilled = true → r.recSeen 0 y = false)) ∧
      (let z := cancel7 (startable [{ dead with spilled := true }])
       (z.coreOf 0).deque = [{ dead with spilled := true }] ∧ z.recSeen 0 { dead with spilled := true } = true) ∧
      (let t := (cancelledTask base).seeMarks 0
       (t.slotOf ⟨0, 0⟩).task.isSome = true ∧ (t.slotOf ⟨0, 0⟩).level = .task ∧ (t.slotOf ⟨0, 0⟩).atBoundary = true ∧
         (t.partOf 0).cancelSeen 0 t.cycle 7 = true) ∧
      (let q := State.reset
       (∀ i ∈ slotsOf 0, (q.slotOf i).task = none ∧ (q.slotOf i).next = none) ∧ (q.coreOf 0).deque = [] ∧ q.cancelledNodes (q.partNo 0) = []) := by decide +kernel

/-- R112, R344: a second miss backs off for 1,024 cycles; a killed task leaves its slot Free. -/
theorem test_steal_and_kill :
    (ends (.steal 0) ((startable []).mapCore 0 fun k => { k with tries := 1 }) fun t => (t.coreOf 0).backoff == 1024 && (t.coreOf 0).tries == 0) ∧
      (ends (.kill 0) (cancelledTask base) fun t => t.me.task.isNone || t.me.pend.kill.isSome) := by decide +kernel

/-- The slot waits. -/
def waiting (w : Wait) : State := me base fun x => { x with status := .waiting w }

/-- The slot has stalled since cycle 0. -/
def stalled (r : Stall) (c : Nat) : State := { (me base fun x => { x with sched := { x.sched with stall := some r } }) with cycle := c }

/-- The slot waits for the word at 0x200000 to reach 7. -/
def awaiting (v : Word) (hit : Bool) : State :=
  me (put base [(0x200000, [v])]) fun x => { x with status := .waiting (.await 3 0x200000 7 (.phys 0x10000)), sched := { x.sched with awaitHit := hit } }

theorem witness_WaitEnds :
    let i : SlotId := ⟨0, 0⟩
    let y := waiting .yield
    let o := y.setSlot ⟨0, 1⟩ { Slot.initial with status := .ready, sched := { Slot.initial.sched with lastIssue := 1 } }
    let two := (stalled .qpop 65).setSlot ⟨0, 1⟩ { placedSlot with ctx := { placedSlot.ctx with env := none } }
    ((y.slotOf i).status = .waiting .yield ∧ y.otherIssued i = false ∧ o.otherIssued i = true ∧ { y with cycle := 64 }.otherReady i = false ∧
      (y.slotOf i).sched.since + 64 ≤ { y with cycle := 64 }.cycle ∧ { y with cycle := 63 }.cycle < (y.slotOf i).sched.since + 64) ∧
      (let c := me (waiting (.chwait 2 5)) fun x => x.setChan 2 ⟨5, 5, none⟩
       (c.slotOf i).status = .waiting (.chwait 2 5) ∧ doneReached ((c.slotOf i).chan 2).doneId 5 = true) ∧
      (let c := me (waiting (.tkwait .m)) fun x => x.setToken .m .s ⟨1, 0⟩
       (c.slotOf i).status = .waiting (.tkwait .m) ∧ 0 < ((c.slotOf i).token .m .s).n) ∧
      ((stalled .qpush 0).stallFree i .qpush = true ∧ (stalled .qpop 0).stallFree i .qpop = false ∧ ((stalled .qpop 0).slotOf i).sched.stall = some .qpop) ∧
      (((awaiting 7 false).slotOf i).sched.awaitHit = false ∧ (awaiting 7 false).cycle < ((awaiting 7 false).slotOf i).sched.since + 4096 ∧
        (let a := awaiting 7 true
         let u : State := { a.setSlot i { a.slotOf i with status := .ready, sched := { (a.slotOf i).sched with readySince := a.cycle, awaitHit := false } } with cur := i }
         gives (awaitOp 3 0x200000 7 u) fun t => (t.2.slotOf i).status == .ready)) ∧
      ((two.slotOf (two.curOf 0)).canIssue = true ∧ (two.slotOf (two.curOf 0)).sched.since + 64 < two.cycle ∧ (two.chooseSlot 0).isSome = true ∧
        (stalled .qpop 64).cycle ≤ ((stalled .qpop 64).slotOf ((stalled .qpop 64).curOf 0)).sched.since + 64) := by decide +kernel

/-- R109, R161: a YIELD goes past its word after 64 cycles; an AWAIT whose word has come answers 0 and goes on. -/
theorem test_wait_ends :
    (ends (.yieldTimeout ⟨0, 0⟩) { waiting .yield with cycle := 64 } fun t => t.me.status == .ready && t.pc == 0x100004) ∧
      (ends (.yieldTimeout ⟨0, 0⟩) { waiting .yield with cycle := 63 } fun t => t.me.status == .waiting .yield) ∧
      (ends (.awaitReread ⟨0, 0⟩) (awaiting 7 true) fun t => t.me.status == .ready && t.reg 3 == 0 && t.pc == 0x100004) := by decide +kernel

/-- A landing of 40 bytes for the member of domain 9. -/
def landed : State := (joined id).mapPart 0 fun q => { q with landings := [⟨1, 9, taskNo 0 0, 40, 0⟩] }

theorem witness_BarrierSteps :
    let i : SlotId := ⟨0, 0⟩
    let w := fun (r : Option PhaseEnd) => me (joined fun m => { m with result := r, arr := true }) fun x => { x with status := .waiting (.barwait 4 1) }
    (landed.partOf 0).landings = [⟨1, 9, taskNo 0 0, 40, 0⟩] ∧ ((w none).slotOf i).status = .waiting (.barwait 4 1) ∧
      (((w none).slotOf i).task.map fun t => ((w none).memberAt t ((w none).slotOf i) 1).map (·.2.result)) = some (some none) ∧
      (((w (some (.ok 0))).slotOf i).task.map fun t => ((w (some (.ok 0))).memberAt t ((w (some (.ok 0))).slotOf i) 1).map (·.2.result)) =
        some (some (some (.ok 0))) ∧ landed.domHome 0 1 9 = none ∧
      { landed.mapPart 0 fun q => { q with desc := q.desc.set 8 3, landings := [⟨5, 9, taskNo 0 0, 40, 0⟩] } with
        pkg := { landed.pkg with domHomes := [(3 * 2 ^ 16 + 9, 2)] } }.domHome 0 5 9 = some 2 := by decide +kernel

theorem test_barwait_return :
    (ends (.barwaitReturn ⟨0, 0⟩) (me (joined fun m => { m with result := some (.ok 0), arr := true }) fun x => { x with status := .waiting (.barwait 4 1) }) fun t =>
      t.me.status == .ready && t.reg 4 == 0 && t.pc == 0x100004) ∧
      (ends (.barrierLanding 0) landed fun t => (t.partOf 0).landings.isEmpty) := by decide +kernel

/-- A store fault that waits for delivery, on slot 1. -/
def deferred : State :=
  base.setSlot ⟨0, 1⟩ { placedSlot with pend := ⟨none, false, [⟨0x0A, .s, 0, 0x200000, 0, 0x18, 0x100000⟩], [], false, false⟩, frame := { Frame.zero with tvb := 0x40000 } }

theorem test_async :
    (ends (.asyncDelivery ⟨0, 1⟩) deferred fun t =>
      let x := t.slotOf ⟨0, 1⟩
      x.level == .supervisor && x.frame.tcause == 1024 + 0x0A && x.frame.tepc == 0x100000 && x.pc == 0x40280 && x.pend.stores.isEmpty) = true := by decide +kernel

/-- The slot's task with a change of its pending causes. -/
def pending (f : Pend → Pend) : State := me base fun x => { x with pend := f x.pend }

/-- Events pend for partition 0. -/
def events (err dev : Bool) (s : State) : State := s.mapPart 0 fun q => { q with errPend := err, devPend := dev, doorbell := 5 }

/-- A supervisor slot without a task, outside a handler. -/
def noTask : State := me (handler base) fun x => { x with task := none, frame := { x.frame with inTrap := false } }

theorem witness_AsyncDelivered :
    let i : SlotId := ⟨0, 0⟩
    let task := fun (s : State) => s.issues i && (s.slotOf i).atBoundary && (s.slotOf i).tx.isNone && (s.slotOf i).task.isSome &&
      decide ((s.slotOf i).level = .task)
    let live := fun (s : State) => task s && !(s.partOf 0).cancelSeen 0 s.cycle 0 && (s.slotOf i).pend.kill.isNone && !s.quiescing 0 && !(s.slotOf i).frame.inTrap
    let quiet := fun (s : State) => live s && (s.slotOf i).pend.stores.isEmpty && (s.slotOf i).oldestFault.isNone
    let err := fun (s : State) => s.eventFor 0 (·.errPend)
    let dev := fun (s : State) => s.eventFor 0 (·.devPend)
    let f := fun (c : BitVec 8) (e : Eng) => (⟨c, e, 3, 0x200000, 0, 0x18, 0x100000⟩ : PendFault)
    (let s := (cancelledTask base).seeMarks 0
     task s ∧ (s.partOf 0).cancelSeen 0 s.cycle 7 = true) ∧
      (task (pending fun p => { p with kill := some 0 }) ∧ ((pending fun p => { p with kill := some 0 }).slotOf i).pend.kill.isSome) ∧
      (let s := base.mapPart 0 fun q => { q with stopped := true }
       task s ∧ (s.partOf 0).cancelSeen 0 s.cycle 0 = false ∧ (s.slotOf i).pend.kill = none ∧ s.quiescing 0 = true ∧ s.canQuiesce i = true) ∧
      (live (pending fun p => { p with stores := [f 0x0A .s] }) ∧ live (pending fun p => { p with stores := [f 0x0C .s] }) ∧
        live (me (pending fun p => { p with stores := [f 0x0D .s] }) fun x => { x with task := x.task.map fun t => { t with idem := true } })) ∧
      (let s := pending fun p => { p with engines := [f 0x0A .c] }
       live s ∧ (s.slotOf i).pend.stores = [] ∧ (s.slotOf i).oldestFault = some (f 0x0A .c)) ∧
      (quiet (events true false base) ∧ err (events true false base)) ∧
      (let s := pending fun p => { p with wdog := true }
       quiet s ∧ !err s ∧ (s.slotOf i).pend.wdog = true) ∧
      (let s := me (pending fun p => { p with preempt := true }) fun x => { x with loop := { x.loop with ready := true } }
       quiet s ∧ !err s ∧ (s.slotOf i).pend.wdog = false ∧ (s.slotOf i).pend.preempt = true ∧ (s.slotOf i).loop.ready = true) ∧
      (quiet (events false true base) ∧ !err (events false true base) ∧ dev (events false true base)) := by decide +kernel

/-- The two events at supervisor level, and on a core whose slots are all Free. -/
theorem witness_AsyncDelivered_events :
    let i : SlotId := ⟨0, 0⟩
    let free := base.setSlot ⟨0, 0⟩ Slot.initial
    (∀ e d, (events e d noTask).issues i = true ∧ ((events e d noTask).slotOf i).atBoundary = true ∧ ((events e d noTask).slotOf i).tx = none ∧
        ((events e d noTask).slotOf i).task = none ∧ ((events e d noTask).slotOf i).level = .supervisor ∧
        ((events e d noTask).slotOf i).frame.inTrap = false ∧ (events e d noTask).eventFor 0 (·.errPend) = e ∧
        (events e d noTask).eventFor 0 (·.devPend) = d) ∧
      (∀ e d, (events e d free).runs 0 = true ∧ (∀ j ∈ slotsOf 0, ((events e d free).slotOf j).status = .free) ∧
        (events e d free).eventFor 0 (·.errPend) = e ∧ (events e d free).eventFor 0 (·.devPend) = d) := by decide +kernel

/-- R325, R328, Table 3: cause and origin of each asynchronous trap. -/
theorem test_async_order :
    let enters := fun (s : State) (c : Nat) => ends (.asyncDelivery ⟨0, 0⟩) s fun t => t.me.level == .supervisor && t.me.frame.tcause.toNat == 1024 + c
    enters (pending fun p => { p with engines := [⟨0x0A, .c, 3, 1, 2, 3, 4⟩], wdog := true }) (256 * 3 + 0x0A) ∧
      enters (pending fun p => { p with wdog := true, preempt := true }) 0x14 ∧ enters (events true true base) 0x19 ∧
      enters (events false true base) 0x1A ∧ enters (events false true (base.setSlot ⟨0, 0⟩ Slot.initial)) 0x1A := by decide +kernel

/-- A counter of 1 on the slot, at a cycle. -/
def counting (c used : Nat) : State :=
  { (me base fun x => { x with loop := { x.loop with wdog := 1, budget := 1 }, sched := { x.sched with budgetUsed := used } }) with cycle := c }

/-- The handler is at a CTXSAVE of an aligned area. -/
def saving : State :=
  me (put area [(0x100000, [0x38188007])]) fun x => { x with frame := { x.frame with plev := .task } }

theorem witness_CountersExpire :
    let i : SlotId := ⟨0, 0⟩
    let s := counting 1024 1024
    let d := { (me base fun x => { x with pend := { x.pend with preempt := true } }) with cycle := 65536 }
    (s.issues i = true ∧ (s.slotOf i).task.isSome = true ∧ (s.slotOf i).loop.wdog ≠ 0 ∧
      (s.slotOf i).sched.wdogSince + 1024 * (s.slotOf i).loop.wdog.toNat ≤ s.cycle ∧ (counting 1023 0).cycle < 0 + 1024 * 1) ∧
      ((s.slotOf i).loop.budget ≠ 0 ∧ (s.slotOf i).loop.spent = false ∧ 1024 * (s.slotOf i).loop.budget.toNat ≤ (s.slotOf i).sched.budgetUsed ∧
        ((counting 0 1023).slotOf i).sched.budgetUsed < 1024 * ((counting 0 1023).slotOf i).loop.budget.toNat) ∧
      ((d.slotOf i).pend.preempt = true ∧ (d.slotOf i).loop.ready = false ∧ (d.slotOf i).loop.reqCycle + 65536 ≤ d.cycle ∧
        { d with cycle := 65535 }.cycle < (d.slotOf i).loop.reqCycle + 65536) ∧
      (saving.slotOf i).task.isSome = true ∧ saving.saving i = true ∧ base.saving i = false := by decide +kernel

theorem test_counters :
    (ends (.watchdog ⟨0, 0⟩) (counting 1024 0) fun t => t.me.pend.wdog) ∧ (ends (.watchdog ⟨0, 0⟩) (counting 1023 0) fun t => !t.me.pend.wdog) ∧
      (ends (.preemptBudget ⟨0, 0⟩) (counting 0 1024) fun t => t.me.pend.preempt) ∧
      (ends (.preemptBudget ⟨0, 0⟩) (counting 0 1023) fun t => !t.me.pend.preempt) := by decide +kernel

/-- A loop counter in g5, and EC. -/
def looping (n ec : Word) : State := me (regs base [(5, n)]) fun x => { x with ec := ec }

/-- R84, R130: the kernel stages count g5, the epilogue EC; RRB turns in each; the last one goes on. -/
theorem test_brloop :
    (ends (.brloop 5 0x3FFA) (looping 2 1) fun t => t.pc == 0x0FFFE8 && t.reg 5 == 1 && t.me.ec == 1 && t.me.rrb == 15 && t.me.eng.qs.vq.map (·.word) == [0x7F000001]) ∧
      (ends (.brloop 5 0x3FFA) (looping 0 2) fun t => t.pc == 0x0FFFE8 && t.reg 5 == 0 && t.me.ec == 1 && t.me.eng.qs.vq.map (·.word) == [0x7F000000]) ∧
      (ends (.brloop 5 0x3FFA) (looping 0 1) fun t => t.pc == 0x100004 && t.me.ec == 0) ∧
      (ends (.brloop 5 0x3FFA) (me (looping 2 1) fun x => { x with pc := 0 }) fun t => t.me.frame.tcause == 0x04 && t.me.bank.get 5 == 2) := by decide +kernel

theorem witness_LoopBranch :
    let d := fun (a dra drs : Word) => me (looping a 1) fun x => { x with loop := { x.loop with drain := true, dra := dra, drs := drs } }
    let st := me (looping 3 1) fun x => { x with pend := { x.pend with preempt := true } }
    ((looping 2 1).me.tx = none ∧ (looping 2 1).reg 5 ≠ 0 ∧ (looping 2 1).me.loop.drain = false ∧ (looping 2 1).me.pend.preempt = false ∧ 2 ≤ (looping 0 2).me.ec.toNat ∧
      (looping 0 1).me.ec.toNat < 2 ∧ (looping 0 1).reg 5 = 0 ∧ (looping 2 1).me.journalFull = false) ∧
      (bitsOf (branchTarget 0 (0x3FFA : BitVec 14)) 48 16 ≠ 0 ∧ bitsOf (branchTarget 0x100000 (0x3FFA : BitVec 14)) 48 16 = 0 ∧ bitsOf (branchTarget 0x100000 (0x3FFA : BitVec 14)) 0 2 = 0 ∧
        bitsOf (branchTarget 0x100002 (0x3FFA : BitVec 14)) 0 2 ≠ 0) ∧
      ((d 2 0 0).me.loop.drain = true ∧ (d 2 0 0).me.ec.toNat < 2 ∧ (d 2 0 0).me.loop.dra = 0 ∧ (d 2 4 3).me.loop.dra ≠ 0 ∧ (d 2 4 3).me.journalLacks 2 = false) ∧
      (let l := eng (d 2 4 3) fun e => { e with qs := { e.qs with journal := List.replicate 255 ⟨0x40000000, 0, false, false, .v, 0, 0⟩ } }
       l.me.journalFull = false ∧ l.me.journalLacks 2 = true ∧
         (eng l fun e => { e with qs := { e.qs with journal := List.replicate 256 ⟨0x40000000, 0, false, false, .v, 0, 0⟩ } }).me.journalFull = true) ∧
      (st.me.pend.preempt = true ∧ st.me.loop.ready = false ∧ st.me.loop.drain = false ∧ 1 ≤ st.me.ec.toNat ∧ st.me.ec.toNat ≤ 8 ∧ st.reg 5 ≠ 0) := by decide +kernel

/-! ### Events of the package -/

/-- The package after its firmware has started. -/
def running : State := base.mapPkg fun k => { k with firmware := some ⟨1, 0, true⟩ }

/-- A configuration transaction in flight for partition 0, with a timeout of 1,600 cycles from cycle 0. -/
def configuring (c : Nat) : State :=
  { (running.mapPkg fun k => { k with cfg := ⟨3, some 0, [0]⟩, pf := [(0x10, 1)] }) with cycle := c }

/-- The same, with the task's slot free. -/
def quieted : State :=
  (configuring 0).setSlot ⟨0, 0⟩ { ((configuring 0).slotOf ⟨0, 0⟩) with task := none, next := none }

/-- The task's slot is free, and its save has not been noted. -/
def unnoted : State := quieted.mapPkg fun k => { k with cfg := ⟨3, none, [0]⟩ }

/-- Partition 0 is being reset, with or without a task. -/
def resetting (n : Nat) : State :=
  running.mapPart 0 fun q => { q with resetting := true, scopes := q.scopes.map fun x => { x with own := n } }

theorem witness_ConfigSteps_saved :
    (∀ p ∈ unnoted.pkg.cfg.affected, unnoted.allSaved (Fin.ofNat 16 p) = true) ∧ unnoted.pkg.cfg.start = none ∧ unnoted.pkg.cfg.status = 3 ∧
      (∀ p ∈ unnoted.pkg.cfg.affected.map (Fin.ofNat 16), ∀ k ∈ [0, 1, 2, 3], (unnoted.queueWants p k).isEmpty = true) ∧
      (∀ p ∈ (configuring 0).pkg.cfg.affected.map (Fin.ofNat 16), ∀ k ∈ [0, 1, 2, 3], ((configuring 0).queueWants p k).isEmpty = true) ∧
      (configuring 0).pkg.cfg.start = some 0 := by decide +kernel

theorem witness_PartitionControl_reset :
    ((List.range (running.partOf 0).envCount).flatMap (running.adoptWants 0)).isEmpty = true ∧
      ((resetting 1).partOf 0).resetting = true ∧ (resetting 1).ackReady 0 0 = false ∧ (resetting 0).ackReady 0 0 = true := by decide +kernel

/-- Of ConfigSteps and PartitionControl. -/
theorem witness_PartitionSteps :
    (running.up = true ∧ running.pkg.cfg.status ≠ 3 ∧ running.layoutOk = true ∧
      (running.mapPkg fun k => { k with pf := [(0x2000, 8)] }).layoutOk = false) ∧
      ((configuring 0).pkg.cfg.status = 3 ∧ (∀ p ∈ quieted.pkg.cfg.affected, quieted.quiet (Fin.ofNat 16 p) = true) ∧
        quieted.pkg.cfg.status = 3 ∧ ¬ (∀ p ∈ (configuring 0).pkg.cfg.affected, (configuring 0).quiet (Fin.ofNat 16 p) = true)) ∧
      ((configuring 1599).cycle < 0 + 1600 * ((configuring 1599).pfReg 0x10).toNat ∧ 0 + 1600 * ((configuring 1600).pfReg 0x10).toNat ≤ (configuring 1600).cycle) ∧
      ((running.partOf 0).valid = true ∧ (running.partOf 1).valid = false) ∧
      running.logicalCore 0 = some 0 ∧ running.logicalCore 255 = none := by decide +kernel

theorem test_partition :
    (ends (.configCommit) (configuring 0) fun t => decide (t.pkg.cfg.status = 3)) = true ∧
      (ends (.cfgTmo) (configuring 1600) fun t => decide (t.pkg.cfg.status = 1) && t.up) = true ∧
      (ends (.partStop 1) running fun t => decide (t.parts = running.parts)) = true := by decide +kernel

/-- A session of the VF of partition 0. -/
def inSession : State := running.mapPkg fun k => { k with spdm := { k.spdm with sessions := [(0, 5)] } }

/-- A transfer of 4 KiB from the host at 0 to HBM at 1 MiB, with go set. -/
def moving : State :=
  running.mapPkg fun k => { k with pf := [(0x100, 0x000F000000000000), (0x108, 0x100000), (0x110, 4096), (0x118, 1)] }

theorem witness_HostSteps :
    (running.up = true ∧ pfMask 0x10 = some (BitVec.allOnes 64) ∧ pfMask 0x38 = some 0xFFF ∧ pfMask 0x400 = some 3) ∧
      ((running.partOf 0).valid = true ∧ (running.partOf 1).valid = false ∧
        (inSession.pkg.spdm.sessions.find? fun x => x.1 == bitsOf ((inSession.partOf 0).word 0) 16 4) = some (0, 5)) ∧
      ((moving.pfReg 0x118).getLsbD 0 = true ∧ (moving.pfReg 0x110).toNat % 4096 = 0 ∧ 0 < (moving.pfReg 0x110).toNat ∧ (moving.pfReg 0x100).toNat % 32 = 0 ∧
        (moving.pfReg 0x108).toNat % 32 = 0 ∧ dmaSides (moving.pfReg 0x100).toNat (moving.pfReg 0x108).toNat (moving.pfReg 0x110).toNat = true ∧
        moving.unlockedRange (moving.pfReg 0x100).toNat (moving.pfReg 0x110).toNat = true ∧
        moving.unlockedRange (moving.pfReg 0x108).toNat (moving.pfReg 0x110).toNat = true) ∧
      25 < running.pkg.clockMHz ∧ (tget ⟨0, false⟩ running.pkg.links 0).down = false := by decide +kernel

/-- The power cap lies below some draw and above another. -/
theorem witness_HostSteps_cap : running.powerCap < running.powerCap + 1 ∧ 0 ≤ running.powerCap :=
  ⟨Nat.lt_succ_self _, Nat.zero_le _⟩

/-- A wrapped key pair unwraps to itself; one with another integrity value does not. -/
theorem witness_HostSteps_key (kek : BitVec 256) (key : BitVec 512) :
    (∃ w, keyUnwrap kek w = some key) ∧ ∃ w, keyUnwrap kek w = none := by
  refine ⟨⟨keyWrapped kek (List.replicate 8 0xA6) key, ?_⟩, keyWrapped kek (List.replicate 8 0) key, ?_⟩ <;>
    rw [keyUnwrap_keyWrapped kek ⟨by decide, by decide⟩] <;> simp

/-- FIPS 197, C.3: the block 00112233…ff under the key 000102…1f. -/
theorem test_aes :
    bytesNum (aesEncrypt (List.range 32) ((List.range 16).map (17 * ·))).reverse = 0x8EA2B7CA516745BFEAFC49904B496089 := by decide +kernel

/-- Slots 2 and 3 of partition 0 hold keys. -/
def withKeys : State := base.mapPart 0 fun q => { q with keys := [(2, 7), (3, 8)] }

theorem witness_KeyedMemory :
    physOf (32 * 0x10000) = .hbm ∧ withKeys.regionOk 0 (32 * 0x10000) = true ∧ (withKeys.partOf 0).logMode = 0 ∧
      withKeys.hit (withKeys.homeDie (32 * 0x10000)) 0 .seal 0x10000 = false ∧ withKeys.hit (withKeys.homeDie (32 * 0x10000)) 0 .hbmu 0x10000 = false ∧
      withKeys.keyOf 0 (some 2) (32 * 0x10000) = some 7 ∧ withKeys.keyOf 0 (some 3) (32 * 0x10000) = some 8 ∧ (8 : BitVec 512) ≠ 7 ∧
      withKeys.keyOf 0 (some 4) (32 * 0x10000) = none := by decide +kernel

theorem test_host :
    (ends (.pfRegisterWrite 0x38 0xFFFFF) running fun t => t.pfReg 0x38 == 0xFFF) = true ∧
      (ends (.logSwap 0) running fun t => (t.partOf 0).logActive != (running.partOf 0).logActive) = true ∧
      (ends (.dma) (moving.mapPkg fun k => { k with pf := [(0x100, 0x000F000000000000), (0x108, 0x100000), (0x110, 0), (0x118, 1)] }) fun t => t.mem.byte 0x100000 == 0) = true := by
  decide +kernel

/-! ### Falran -/

/-- A flit of the given number and type. -/
def flit (seq type : Nat) : Flit := mkFlit seq 4095 type 0 0

/-- The same, with one bit of its CRC turned. -/
def spoilt (seq type : Nat) : Flit := { flit seq type with crc := (flit seq type).crc ^^^ 1 }

theorem flitOk_flit (seq type : Nat) : flitOk (flit seq type) = true := by
  simp [flitOk, flit, mkFlit]

theorem flitOk_spoilt (seq type : Nat) : flitOk (spoilt seq type) = false := by
  simp [flitOk, spoilt, flit, mkFlit]

/-- A remote read of the task, sent by port 0 and not answered. -/
def remoteRead : Remote := ⟨7, ⟨0, 0⟩, 1, 0, ⟨1, 0, 7, 0, .read, false⟩, none, none, none, none, none⟩

/-- Port 0 with a change. -/
def port (f : FPort → FPort) : State := (running.mapPkg fun k => { k with remotes := [remoteRead] }).mapPort 0 f

theorem witness_FalranSteps :
    (running.up = true ∧ ((port fun k => { k with down := true }).portOf 0).down = true ∧ (running.portOf 0).down = false) ∧
      (flitType (flit 0 2) = 2 ∧ flitType (spoilt 0 2) = 2 ∧
        flitSeq (flit 0 2) = (running.portOf 0).rxSeq ∧ flitSeq (flit 1 2) ≠ (running.portOf 0).rxSeq ∧ flitType (flit 0 1) = 1 ∧
        running.targetPart ⟨1, 0, 7, 0xBFFFFFFFE0, .read, false⟩ = none ∧ flitType (flit 0 3) = 3 ∧ flitType (flit 0 4) = 4 ∧ flitType (flit 0 0) = 0 ∧
        flitType (spoilt 0 4) = 4 ∧ 5 < flitType (spoilt 0 9) ∧ 5 < flitType (flit 0 9)) ∧
      ((port fun k => { k with rxDrop := true }).portOf 0).rxDrop = true ∧ (running.portOf 0).rxDrop = false ∧
      (port id).pkg.remotes.find? (fun q => q.tag == 7) = some remoteRead ∧
      (flitType (flit 0 5) = 5 ∧ ((((port fun k => { k with replay := [⟨0, 1, flit 0 1⟩] }).portOf 0).acked (flitAck (flit 0 5))).replay.length = 1) ∧
        (((port fun k => { k with replay := [⟨0, 1, flit 0 1⟩] }).portOf 0).acked (flitAck (flit 0 5))).fails < 16) := by decide +kernel

/-- Endpoint 5 of device 2 may use the partition's memory, which holds 7 at 2 MiB; the page at 4 MiB is stored under a key slot. -/
def serving : State :=
  { (put running [(0x200000, [7])]).mapPkg fun k => { k with pf := [(0xC000, word (2 ^ 63 + 2 * 2 ^ 16 + 5))] } with keyed := [0x40] }

/-- A request of that endpoint. -/
def asks (pa : BitVec 52) (op : RemoteOp) : FalranReq := ⟨2, 5, 7, pa, op, false⟩

/-- The state in which the request of a flit in sequence is served. -/
def arrived (s : State) : State := (s.receive 0 (flit 0 1) (some 0)).1

theorem witness_FalranSteps_served :
    let g := fun (s : State) (pa : BitVec 52) => (arrived s).homeGran 0 none (pa.toNat / 32)
    let ok := asks 0x200000
    let locked : State := serving.mapPkg fun k => { k with locks := [⟨.phys 0x10000, 1, 0, 0, none⟩] }
    let bad : State := { serving with mem := serving.mem.putMeta 0x10000 0 true false }
    (serving.targetPart (ok .read) = some 0 ∧ serving.hit (portDie 0) 0 .flit 0 = false ∧ flitType (flit 0 1) = 1 ∧
        flitSeq (flit 0 1) = (serving.portOf 0).rxSeq ∧ (serving.portOf 0).down = false) ∧
      ((arrived serving).mustWait (ok .read) = false ∧ (arrived locked).mustWait (ok .read) = true) ∧
      ((arrived serving).peered 0 2 5 = true ∧ (arrived serving).peered 0 2 6 = false) ∧
      ((arrived serving).keyedAt 0x400000 = true ∧ (arrived serving).keyedAt 0x200000 = false) ∧
      (gives (writeGran (g serving 0x200000) zeroGran 0xFF none) (fun y => (checkGran y).isNone) ∧ gives (writeGran (g bad 0x200000) zeroGran 0xFF none) (fun _ => true) = false ∧
        (0xFF : BitVec 32) ≠ BitVec.allOnes 32 ∧ operandFault (namedBytes zeroGran.data 0xFF) (some 1) ≠ none ∧
        operandFault (natBytes 8 7) (some (crc32c (natBytes 8 7))) = none ∧ operandFault (natBytes 8 7) (some 1) ≠ none) ∧
      (checkGran (g serving 0x200000) = none ∧ checkGran (g bad 0x200000) ≠ none ∧ takeAt (g serving 0x200000).data (8 * 0) 8 = 7 ∧
        takeAt (g serving 0x200000).data (8 * 1) 8 ≠ 7) := by decide +kernel

/-- A commit locks the granule for its bytes, whose check code is good or not, and then writes what its lock keeps. -/
theorem witness_FalranSteps_commit :
    let d : BitVec 256 := 9
    let good := RemoteOp.txLock 3 true 0xFF d (maskCrc d 0xFF)
    let bad := RemoteOp.txLock 3 true 0xFF d 1
    let u := (arrived serving).serveHome 0 (asks 0x200000 good)
    (arrived serving).mustWait (asks 0x200000 good) = false ∧ (arrived serving).txHit (asks 0x200000 good) = false ∧
      u.2.code = 0 ∧ u.1.mustWait (asks 0x200000 (.txWrite 3)) = false ∧ u.1.mustWait (asks 0x200000 .read) = true ∧
      ((u.1.pkg.locks.find? fun l => l.heldBy (asks 0x200000 (.txWrite 3)) 3).bind (·.write)).isSome = true ∧
      (u.1.serveHome 0 (asks 0x200000 (.txWrite 3))).1.mem.byte 0x200000 = 9 ∧
      ((arrived serving).serveHome 0 (asks 0x200000 bad)).2.code = 2 := by decide +kernel

/-- Partition 0 in fabric group 3, of which domain 9 is. -/
theorem witness_FalranSteps_domain :
    (running.mapPart 0 fun q => { q with desc := q.desc.set 8 3 }).targetPart (asks 0 (.dom 3 9 1 .join)) = some 0 := by decide +kernel

/-- The response to the read is accepted. -/
theorem witness_FalranSteps_accepted :
    ((port id).receive 0 (flit 0 3) (((port id).pkg.remotes.find? fun q => q.tag == 7).map fun q => (port id).partNo q.slot.core)).2 = true := by
  unfold State.receive FPort.receive
  rw [flitOk_flit]
  decide +kernel

/-- R388: a flit in order is accepted; one that comes too early is dropped, and so are the rest until the replay; one that has been
received already is dropped. -/
theorem test_ports :
    (FPort.initial.receive (flit 0 2) false).1.rxSeq = 1 ∧ ((FPort.initial.receive (flit 1 2) false).1.rxDrop = true ∧ (FPort.initial.receive (flit 1 2) false).2 = false) ∧
      (FPort.initial.receive (flit 4095 2) false) = (FPort.initial, false) := by
  unfold FPort.receive
  rw [flitOk_flit, flitOk_flit, flitOk_flit]
  decide +kernel

/-- R388: a flit that fails its CRC is dropped. -/
theorem test_spoilt : (FPort.initial.receive (spoilt 0 2) false).1.rxDrop = true ∧ (FPort.initial.receive (spoilt 0 2) false).2 = false := by
  unfold FPort.receive
  rw [flitOk_spoilt]
  decide +kernel

/-- R388: an acknowledgement frees the flits up to the one it names. -/
theorem test_acked : (((FPort.initial.send 1 1 0 0).send 1 1 0 0).acked 0).replay.map (·.seq) = [1] := by decide +kernel

/-! ### Steps, encodings, invariants -/

/-- The step of slot 0 at the word placed by `base` for a core turn: the choice, the conditions and the decoded instruction. -/
def stepsTo (s : State) (c : Fin 256) (p : Instr → Bool) : Bool :=
  match State.select { s with agenda := [] } c with
  | none => false
  | some (i, t) =>
    t.issues i && (t.nextCause i).isNone && (t.slotOf i).sched.stall.isNone &&
      match fetchOp { t with cur := i, actor := .control } with
      | .ok (w, _) =>
        match decode w with
        | .ok a => p a
        | .error _ => false
      | .error _ => false

theorem witness_StepRunsDecoded :
    let v := { vectorAt 0x5D400000 id with agenda := [.vector ⟨0, 0⟩] }
    (base.agenda = [.core 0] ∧ stepsTo (State.reset.placed 0x01000000) 0 fun a => decide (a = .addi 0 0 0)) ∧
      ((v.slotOf ⟨0, 0⟩).vHead = some (entry 0x5D400000) ∧ v.runs 0 = true ∧ (decode 0x5D400000).toOption = some (.viota 8 ⟨0, false, 0, 0⟩) ∧
        v.vTurn exec ⟨0, 0⟩ = true ∧ (vectorAt 0x4000000D id).vTurn exec ⟨0, 0⟩ = false ∧ ((vectorAt 0x4000000D id).slotOf ⟨0, 0⟩).vHead = some (entry 0x4000000D) ∧
        (vectorAt 0x4000000D id).runs 0 = true ∧ (decode 0x4000000D).toOption = some (.vnop ⟨3, 1⟩)) ∧
      isEvent .dma = true := by decide +kernel

theorem witness_EncodeDecode :
    (Instr.add 31 1 2).isWord = true ∧ (Instr.add 31 1 2).WellFormed = true ∧ (Instr.brloop 5 0x3FFA).WellFormed = true ∧
      (Instr.mma 2 8 1 2 true true true true false ⟨3, 3⟩).WellFormed = true ∧ (Instr.cpy 2 5 true ⟨2, 3⟩).WellFormed = true := by decide +kernel

theorem witness_StepKeepsCanonical : base.Canonical ∧ (match step base with
    | .next t => t.me.pc == 0x100004
    | _ => false) = true := by
  refine ⟨⟨by decide +kernel, ?_⟩, by decide +kernel⟩
  simp [base, State.placed, State.reset]

end Sys2Proof.Tests
end

section
/-! PROOF. O1: the integer register operations of 04 R78 and the division cases of 01 R14. -/

namespace Sys2Proof.Machine

/-! ### Completion with a value given in another form -/

/-- An instruction that ends in a result whose value the statement writes in its own way. -/
theorem computes_value {i : Instr} {s : State} {d : Fin 32} {v w : Word} (h : exec i s = .next (s.result d w)) (hv : w = v) :
    Computes i s d v 0 :=
  computes_result (hv ▸ h)

/-- The same with sticky bits. -/
theorem computes_value_flags {i : Instr} {s : State} {d : Fin 32} {v w : Word} {f g : BitVec 12}
    (h : exec i s = .next ((s.stick g).result d w)) (hf : g = f) (hv : w = v) : Computes i s d v f :=
  computes_stick (hf ▸ hv ▸ h)

/-! ### Products -/

/-- Bits 127:64 of an integer held in 128 bits are the integer divided by 2^64, rounded down. -/
theorem upperHalf_ofInt (z : Int) : (BitVec.ofInt 128 z).extractLsb' 64 64 = BitVec.ofInt 64 (z / 2 ^ 64) := by
  apply BitVec.eq_of_toNat_eq
  simp only [BitVec.extractLsb'_toNat, BitVec.toNat_ofInt, Nat.shiftRight_eq_div_pow]
  omega

theorem mul_eq_ofInt (x y : Word) : x * y = BitVec.ofInt 64 (x.toInt * y.toInt) := by
  rw [BitVec.ofInt_mul, BitVec.ofInt_toInt, BitVec.ofInt_toInt]

theorem upperHalf_signedProduct (x y : Word) :
    (x.signExtend 128 * y.signExtend 128).extractLsb' 64 64 = BitVec.ofInt 64 (x.toInt * y.toInt / 2 ^ 64) := by
  rw [BitVec.signExtend, BitVec.signExtend, ← BitVec.ofInt_mul, upperHalf_ofInt]

theorem upperHalf_unsignedProduct (x y : Word) :
    (x.setWidth 128 * y.setWidth 128).extractLsb' 64 64 = BitVec.ofNat 64 (x.toNat * y.toNat / 2 ^ 64) := by
  rw [← BitVec.ofNat_toNat, ← BitVec.ofNat_toNat, ← BitVec.ofNat_mul, ← BitVec.ofInt_natCast, upperHalf_ofInt]
  norm_cast

/-! ### Comparisons -/

theorem wbit_slt (x y : Word) : wbit (x.slt y) = if x.toInt < y.toInt then 1 else 0 := by
  simp [wbit, BitVec.slt]

theorem wbit_ult (x y : Word) : wbit (x.ult y) = if x.toNat < y.toNat then 1 else 0 := by
  simp [wbit, BitVec.ult]

theorem ite_slt_eq_min (x y : Word) : (if x.slt y then x else y) = BitVec.ofInt 64 (min x.toInt y.toInt) := by
  rw [min_def_lt, apply_ite (BitVec.ofInt 64), BitVec.ofInt_toInt, BitVec.ofInt_toInt]
  simp only [BitVec.slt_iff_toInt_lt]

theorem ite_slt_eq_max (x y : Word) : (if x.slt y then y else x) = BitVec.ofInt 64 (max x.toInt y.toInt) := by
  rw [max_def_lt, apply_ite (BitVec.ofInt 64), BitVec.ofInt_toInt, BitVec.ofInt_toInt]
  simp only [BitVec.slt_iff_toInt_lt]

theorem ite_ult_eq_min (x y : Word) : (if x.ult y then x else y) = BitVec.ofNat 64 (min x.toNat y.toNat) := by
  rw [min_def_lt, apply_ite (BitVec.ofNat 64)]
  simp [BitVec.ult]

theorem ite_ult_eq_max (x y : Word) : (if x.ult y then y else x) = BitVec.ofNat 64 (max x.toNat y.toNat) := by
  rw [max_def_lt, apply_ite (BitVec.ofNat 64)]
  simp [BitVec.ult]

/-! ### Counts of bits -/

/-- n zero bits at the top, and a one below them unless the word is zero: n is the number of leading zeros. -/
theorem clzNat_eq {x : Word} {n : Nat} (hn : n ≤ 64) (hzero : ∀ k < n, x.getLsbD (63 - k) = false)
    (hone : n < 64 → x.getLsbD (63 - n) = true) : clzNat x = n := by
  have hlt : x.toNat < 2 ^ (64 - n) := by
    refine Nat.lt_pow_two_of_testBit _ fun j hj => ?_
    rw [BitVec.testBit_toNat]
    by_cases hj' : j < 64
    · have h := hzero (63 - j) (by omega)
      rwa [show 63 - (63 - j) = j by omega] at h
    · exact BitVec.getLsbD_of_ge _ _ (by omega)
  unfold clzNat
  by_cases h64 : n = 64
  · subst h64
    have hx : x = 0 := BitVec.eq_of_toNat_eq (by simpa using hlt)
    rw [if_pos hx]
  · have hge : 2 ^ (63 - n) ≤ x.toNat := Nat.ge_two_pow_of_testBit (by rw [BitVec.testBit_toNat]; exact hone (by omega))
    have hpos : x.toNat ≠ 0 := fun h => absurd (h ▸ hge) (by simp)
    have hx : x ≠ 0 := fun h => hpos (by rw [h]; rfl)
    have hlog : Nat.log2 x.toNat = 63 - n :=
      (Nat.log2_eq_iff hpos).mpr ⟨hge, by rwa [show 63 - n + 1 = 64 - n by omega]⟩
    rw [if_neg hx, hlog]
    omega

/-- The search upwards from bit i, with m bits to go, ends at k: the first one bit, or the end where all are zero. -/
theorem ctzFrom_eq {x : Word} {k : Nat} : ∀ {m i : Nat}, i ≤ k → k ≤ i + m → (∀ j < k, x.getLsbD j = false) →
    (k < i + m → x.getLsbD k = true) → ctzFrom x m i = k
  | 0, i, hik, hki, _, _ => by
    show i = k
    omega
  | m + 1, i, hik, hki, hzero, hone => by
    rw [ctzFrom]
    rcases Nat.eq_or_lt_of_le hik with rfl | hlt
    · rw [if_pos (hone (by omega))]
    · rw [if_neg (by simp [hzero i hlt])]
      exact ctzFrom_eq hlt (by omega) hzero fun h => hone (by omega)

theorem popBelow_eq_countP (x : Word) (n : Nat) : popBelow x n = (List.range n).countP fun k => x.getLsbD k := by
  induction n with
  | zero => rfl
  | succ n ih => rw [popBelow, ih, List.range_succ, List.countP_append, List.countP_singleton]

/-! ### Divisions (R14, Table 6) -/

/-! Each division word answers a result after the sticky bits of R14. -/

theorem exec_div (d a b : Fin 32) (s : State) : exec (.div d a b) s =
    .next ((s.stick (divFlags (s.reg a) (s.reg b))).result d
      (if s.reg b = 0 then BitVec.allOnes 64 else (s.reg a).sdiv (s.reg b))) := rfl

theorem exec_divu (d a b : Fin 32) (s : State) : exec (.divu d a b) s =
    .next ((s.stick (zeroFlags (s.reg b))).result d (if s.reg b = 0 then BitVec.allOnes 64 else (s.reg a).udiv (s.reg b))) := rfl

theorem exec_rem (d a b : Fin 32) (s : State) : exec (.rem d a b) s =
    .next ((s.stick (zeroFlags (s.reg b))).result d (if s.reg b = 0 then s.reg a else (s.reg a).srem (s.reg b))) := rfl

theorem exec_remu (d a b : Fin 32) (s : State) : exec (.remu d a b) s =
    .next ((s.stick (zeroFlags (s.reg b))).result d (if s.reg b = 0 then s.reg a else (s.reg a).umod (s.reg b))) := rfl

theorem divFlags_zero (x : Word) : divFlags x 0 = 0x020 := rfl

theorem divFlags_overflow : divFlags (BitVec.intMin 64) (BitVec.allOnes 64) = 0x008 := by decide

theorem divFlags_ordinary {x y : Word} (hy : y ≠ 0) (ho : ¬ (x = BitVec.intMin 64 ∧ y = BitVec.allOnes 64)) :
    divFlags x y = 0 := by
  rw [divFlags, if_neg hy, if_neg ho]

theorem zeroFlags_zero : zeroFlags 0 = 0x020 := rfl

theorem zeroFlags_ne {y : Word} (hy : y ≠ 0) : zeroFlags y = 0 := if_neg hy

theorem sdiv_eq_ofInt (x y : Word) : x.sdiv y = BitVec.ofInt 64 (x.toInt.tdiv y.toInt) :=
  BitVec.eq_of_toInt_eq (by rw [BitVec.toInt_sdiv, BitVec.toInt_ofInt])

theorem srem_eq_ofInt (x y : Word) : x.srem y = BitVec.ofInt 64 (x.toInt.tmod y.toInt) := by
  rw [← BitVec.toInt_srem, BitVec.ofInt_toInt]

theorem udiv_eq_ofNat (x y : Word) : x.udiv y = BitVec.ofNat 64 (x.toNat / y.toNat) := by
  rw [← BitVec.toNat_udiv, BitVec.ofNat_toNat, BitVec.setWidth_eq]
  rfl

theorem umod_eq_ofNat (x y : Word) : x.umod y = BitVec.ofNat 64 (x.toNat % y.toNat) := by
  rw [← BitVec.toNat_umod, BitVec.ofNat_toNat, BitVec.setWidth_eq]
  rfl

section
variable {s : State} {d a b : Fin 32}

/-- Divisor 0: all ones or the dividend, and DIVZERO. -/
theorem divisions_by_zero (hy : s.reg b = 0) :
    Computes (.div d a b) s d (BitVec.allOnes 64) 0x020 ∧ Computes (.divu d a b) s d (BitVec.allOnes 64) 0x020 ∧
      Computes (.rem d a b) s d (s.reg a) 0x020 ∧ Computes (.remu d a b) s d (s.reg a) 0x020 := by
  have hf : zeroFlags (s.reg b) = 0x020 := by rw [hy, zeroFlags_zero]
  exact ⟨computes_value_flags (exec_div d a b s) (by rw [hy, divFlags_zero]) (if_pos hy),
    computes_value_flags (exec_divu d a b s) hf (if_pos hy), computes_value_flags (exec_rem d a b s) hf (if_pos hy),
    computes_value_flags (exec_remu d a b s) hf (if_pos hy)⟩

/-- -2^63 / -1: the quotient wraps with OVERFLOW, and the remainder is 0 without it. -/
theorem signedDivisions_overflow (hx : s.reg a = BitVec.intMin 64) (hy : s.reg b = BitVec.allOnes 64) :
    Computes (.div d a b) s d (BitVec.intMin 64) 0x008 ∧ Computes (.rem d a b) s d 0 0 := by
  have hne : s.reg b ≠ 0 := by rw [hy]; decide
  refine ⟨computes_value_flags (exec_div d a b s) (by rw [hx, hy, divFlags_overflow]) ?_,
    computes_value_flags (exec_rem d a b s) (zeroFlags_ne hne) ?_⟩
  · rw [if_neg hne, hx, hy, ← BitVec.neg_one_eq_allOnes, BitVec.intMin_sdiv_neg_one]
  · rw [if_neg hne, hx, hy]
    decide

/-- Every other signed division: the quotient rounds towards zero, the remainder has the sign of the dividend, and no flag is set. -/
theorem signedDivisions_ordinary (hne : s.reg b ≠ 0) (ho : ¬ (s.reg a = BitVec.intMin 64 ∧ s.reg b = BitVec.allOnes 64)) :
    Computes (.div d a b) s d (BitVec.ofInt 64 ((s.reg a).toInt.tdiv (s.reg b).toInt)) 0 ∧
      Computes (.rem d a b) s d (BitVec.ofInt 64 ((s.reg a).toInt.tmod (s.reg b).toInt)) 0 :=
  ⟨computes_value_flags (exec_div d a b s) (divFlags_ordinary hne ho) (by rw [if_neg hne, sdiv_eq_ofInt]),
    computes_value_flags (exec_rem d a b s) (zeroFlags_ne hne) (by rw [if_neg hne, srem_eq_ofInt])⟩

theorem unsignedDivisions_ordinary (hne : s.reg b ≠ 0) :
    Computes (.divu d a b) s d (BitVec.ofNat 64 ((s.reg a).toNat / (s.reg b).toNat)) 0 ∧
      Computes (.remu d a b) s d (BitVec.ofNat 64 ((s.reg a).toNat % (s.reg b).toNat)) 0 :=
  ⟨computes_value_flags (exec_divu d a b s) (zeroFlags_ne hne) (by rw [if_neg hne, udiv_eq_ofNat]),
    computes_value_flags (exec_remu d a b s) (zeroFlags_ne hne) (by rw [if_neg hne, umod_eq_ofNat])⟩

end

/-! ### The obligation -/

/-- Settles O1: each word ends in `State.result`, whose frame is `computes_result`; the values and flags are the lemmas above. -/
theorem integerResults : Obligations.IntegerResults := by
  unfold Obligations.IntegerResults
  refine ⟨fun s d a b => ?_, fun s d a => ?_, fun s d a b => ?_⟩
  · intro x y n
    exact ⟨computes_result rfl, computes_result rfl, computes_result rfl, computes_result rfl, computes_result rfl,
      computes_result rfl, computes_result rfl, computes_result rfl, computes_result rfl, computes_result rfl,
      computes_value rfl (mul_eq_ofInt x y), computes_value rfl (upperHalf_signedProduct x y),
      computes_value rfl (upperHalf_unsignedProduct x y), computes_value rfl (wbit_slt x y), computes_value rfl (wbit_ult x y),
      computes_value rfl (ite_slt_eq_min x y), computes_value rfl (ite_slt_eq_max x y), computes_value rfl (ite_ult_eq_min x y),
      computes_value rfl (ite_ult_eq_max x y), computes_result rfl, computes_result rfl⟩
  · intro x
    refine ⟨fun n hn hzero hone => ?_, fun n hn hzero hone => ?_, ?_⟩
    · exact computes_value rfl (congrArg word (clzNat_eq hn hzero hone))
    · exact computes_value rfl (congrArg word (ctzFrom_eq n.zero_le (by omega) hzero fun h => hone (by omega)))
    · exact computes_value rfl (congrArg word (popBelow_eq_countP x 64))
  · exact ⟨divisions_by_zero, signedDivisions_overflow, signedDivisions_ordinary, unsignedDivisions_ordinary⟩

end Sys2Proof.Machine
end

section
/-! PROOF. O2: the bit fields of 04 R78, R79 and R82, bit by bit, and the immediate operations of R80, R81 and R83. -/

namespace Sys2Proof.Machine

/-! ### Bits of the field operations (R79) -/

@[simp] theorem getLsbD_lowMask (n k : Nat) : (lowMask n).getLsbD k = (decide (k < 64) && decide (k < n)) := by
  simp [lowMask, word, BitVec.getLsbD_ofNat, Nat.testBit_two_pow_sub_one]

/-- Up to position n a sign extension from bit n has the word's bits, and above it copies of bit n. -/
theorem getLsbD_sextLow (w : Word) {n : Nat} (hn : n < 64) (k : Nat) (hk : k < 64) :
    (sextLow w (n + 1)).getLsbD k = w.getLsbD (min k n) := by
  have hpos : (if 64 - (n + 1) + k < 64 then 64 - (n + 1) + k else 64 - 1) = 64 - (n + 1) + min k n := by
    split <;> omega
  have hlt : 64 - (n + 1) + min k n < 64 := by omega
  rw [sextLow, BitVec.getLsbD_sshiftRight, BitVec.msb_eq_getLsbD_last, ← apply_ite, hpos, BitVec.getLsbD_shiftLeft,
    Nat.add_sub_cancel_left, decide_eq_true hlt, decide_eq_false (Nat.not_le.mpr hk),
    decide_eq_false (Nat.not_lt.mpr (Nat.le_add_right _ _))]
  rfl

theorem getLsbD_zeroAbove (x : Word) (n k : Nat) (hk : k < 64) :
    (x &&& lowMask (n + 1)).getLsbD k = (decide (k ≤ n) && x.getLsbD k) := by
  rw [BitVec.getLsbD_and, getLsbD_lowMask, decide_eq_true hk, Bool.true_and, Bool.and_comm,
    decide_eq_decide.mpr Nat.lt_succ_iff]

theorem getLsbD_extractField (x : Word) (p n k : Nat) (hk : k < 64) :
    (extractField x p n).getLsbD k = (decide (k < n) && decide (p + k < 64) && x.getLsbD (p + k)) := by
  rw [extractField, BitVec.getLsbD_and, BitVec.getLsbD_ushiftRight, getLsbD_lowMask]
  by_cases hp : p + k < 64
  · simp [hp, hk, Bool.and_comm]
  · simp [hp, BitVec.getLsbD_of_ge x (p + k) (Nat.le_of_not_lt hp)]

theorem getLsbD_insertField (d x : Word) (p n k : Nat) (hk : k < 64) :
    (insertField d x p n).getLsbD k = if p ≤ k ∧ k < p + n then x.getLsbD (k - p) else d.getLsbD k := by
  simp only [insertField, BitVec.getLsbD_or, BitVec.getLsbD_and, BitVec.getLsbD_not, BitVec.getLsbD_shiftLeft, getLsbD_lowMask]
  by_cases hp : p ≤ k
  · by_cases hn : k < p + n
    · have hin : k - p < n := by omega
      have hword : k - p < 64 := by omega
      simp [hk, hp, hn, hin, hword, Nat.not_lt.mpr hp]
    · have hout : ¬ k - p < n := by omega
      simp [hk, hp, hn, hout]
  · simp [hk, hp, Nat.lt_of_not_le hp]

theorem bitsOf_six_six (y : Word) : bitsOf y 6 6 = y.toNat / 64 % 64 := by
  rw [bitsOf, BitVec.extractLsb'_toNat, Nat.shiftRight_eq_div_pow]

/-- An instruction that ends in a result, where both the result and the value of the statement are given bit by bit. -/
theorem computes_bits {i : Instr} {s : State} {d : Fin 32} {v w : Word} {f : Nat → Bool} (h : exec i s = .next (s.result d w))
    (hv : ∀ k < 64, v.getLsbD k = f k) (hw : ∀ k < 64, w.getLsbD k = f k) : Computes i s d v 0 :=
  computes_value h (BitVec.eq_of_getLsbD_eq fun k hk => (hw k hk).trans (hv k hk).symm)

/-! BEXT and BINS take position and length from bits 5:0 and 11:6 of gb. -/

theorem exec_bext (d a b : Fin 32) (s : State) : exec (.bext d a b) s =
    .next (s.result d (extractField (s.reg a) ((s.reg b).toNat % 64) ((s.reg b).toNat / 64 % 64))) := by
  rw [← bitsOf_six_six]
  rfl

theorem exec_bins (d a b : Fin 32) (s : State) : exec (.bins d a b) s =
    .next (s.result d (insertField (s.reg d) (s.reg a) ((s.reg b).toNat % 64) ((s.reg b).toNat / 64 % 64))) := by
  rw [← bitsOf_six_six]
  rfl

/-! ### Immediates (R80, R83) -/

theorem simm_eq_ofInt {n : Nat} (i : BitVec n) : simm i = BitVec.ofInt 64 i.toInt := rfl

theorem toInt_simm {n : Nat} (hn : n ≤ 64) (i : BitVec n) : (simm i).toInt = i.toInt :=
  BitVec.toInt_signExtend_of_le hn

/-- A shift of a sign-extended immediate is a product of its integer. -/
theorem simm_shiftLeft {n : Nat} (i : BitVec n) (k : Nat) : simm i <<< k = BitVec.ofInt 64 (i.toInt * 2 ^ k) := by
  have hpow : BitVec.ofInt 64 (2 ^ k) = BitVec.twoPow 64 k := BitVec.eq_of_toNat_eq (by
    rw [BitVec.toNat_twoPow, BitVec.toNat_ofInt]
    norm_cast)
  rw [BitVec.ofInt_mul, hpow, BitVec.mul_twoPow_eq_shiftLeft, simm_eq_ofInt]

theorem upperImm_eq_ofInt (i : BitVec 19) : upperImm i = BitVec.ofInt 64 (i.toInt * 2 ^ 13) := simm_shiftLeft i 13

/-! ### The obligation -/

/-- Settles O2: each word ends in `State.result`; a bit of its value is the bit that R79 gives, and its immediate is the
sign-extended field. -/
theorem fieldsAndImmediates : Obligations.FieldsAndImmediates := by
  unfold Obligations.FieldsAndImmediates
  refine ⟨fun s d a b l p => ?_, fun s d a i n u => ?_⟩
  · intro x n m
    have hn : n < 64 := Nat.mod_lt _ (by decide)
    exact ⟨fun v hv => computes_bits rfl hv (getLsbD_sextLow x hn),
      fun v hv => computes_bits rfl hv (getLsbD_zeroAbove x n),
      fun v hv => computes_bits (exec_bext d a b s) hv (getLsbD_extractField x n m),
      fun v hv => computes_bits (exec_bins d a b s) hv (getLsbD_insertField (s.reg d) x n m),
      fun v hv => computes_bits rfl hv (getLsbD_extractField x p.val l.val),
      fun v hv => computes_bits rfl hv (getLsbD_insertField (s.reg d) x p.val l.val)⟩
  · intro x m
    have hm : simm i = m := simm_eq_ofInt i
    exact ⟨computes_value rfl (congrArg (x + ·) hm), computes_value rfl (congrArg (x &&& ·) hm),
      computes_value rfl (congrArg (x ||| ·) hm), computes_value rfl (congrArg (x ^^^ ·) hm),
      computes_value rfl (by rw [wbit_slt, toInt_simm (by decide)]), computes_value rfl (by rw [wbit_ult, hm]),
      computes_value rfl (congrArg (x * ·) hm),
      computes_result rfl, computes_result rfl, computes_result rfl, computes_result rfl,
      computes_value rfl (upperImm_eq_ofInt u), computes_value rfl (congrArg (s.pc + ·) (upperImm_eq_ofInt u))⟩

end Sys2Proof.Machine
end

section
/-! PROOF. O3: branches and jumps, taken or not, and the faults of their targets (04 R84 to R88). -/

namespace Sys2Proof.Machine

/-! ### The target of a transfer (R84) -/

theorem branchTarget_eq {n : Nat} (p : Word) (o : BitVec n) : branchTarget p o = p + BitVec.ofInt 64 (4 * o.toInt) := by
  rw [branchTarget, simm_shiftLeft, Int.mul_comm]
  rfl

section
variable {a : Word}

theorem transferFault_addrSpace (h : bitsOf a 48 16 ≠ 0) : transferFault a = some ⟨0x04, a, 0, 0, 0⟩ := if_pos h

theorem transferFault_misalign (hs : bitsOf a 48 16 = 0) (hm : bitsOf a 0 2 ≠ 0) :
    transferFault a = some ⟨0x03, a, 0, 0, 0⟩ := by
  rw [transferFault, if_neg (not_not.mpr hs), if_pos hm]

theorem transferFault_none (hs : bitsOf a 48 16 = 0) (hm : bitsOf a 0 2 = 0) : transferFault a = none := by
  rw [transferFault, if_neg (not_not.mpr hs), if_neg (not_not.mpr hm)]

/-! ### What a transfer does -/

/-- A target with a fault traps, with or without a link register, and does nothing else. -/
theorem State.transfer_fault {f : TrapInfo} (h : transferFault a = some f) (s : State) (link : Option (Fin 32)) :
    s.transfer a link = s.trapMe f := by
  simp only [State.transfer, h]

theorem State.transfer_none (h : transferFault a = none) (s : State) :
    s.transfer a none = (s.retireTo a).setMe (s.retireTo a).me.outOfLoop := by
  rw [State.transfer, h]

/-- With a link register, a transfer is a write of PC + 4 and then the transfer. -/
theorem State.transfer_some (h : transferFault a = none) (s : State) (d : Fin 32) :
    s.transfer a (some d) = (s.setReg d (s.pc + 4)).transfer a none := by
  simp only [State.transfer, h]

theorem State.pc_transfer_none (h : transferFault a = none) (s : State) : (s.transfer a none).pc = a := by
  rw [State.transfer_none h, State.pc_setMe]
  exact State.pc_retireTo s a

theorem State.reg_transfer_none (h : transferFault a = none) (s : State) (r : Fin 32) : (s.transfer a none).reg r = s.reg r := by
  rw [State.transfer_none h, State.reg_setMe]
  exact State.reg_retireTo s a r

theorem State.flags_transfer_none (h : transferFault a = none) (s : State) : (s.transfer a none).flags = s.flags := by
  rw [State.transfer_none h, State.flags_setMe]
  exact State.flags_retireTo s a

theorem State.me_transfer_none (h : transferFault a = none) (s : State) : (s.transfer a none).me =
    { s.me.outOfLoop.issued s.cycle with pc := a, bare := s.me.bare && a == nextPc s.me.pc } := by
  rw [State.transfer_none h, State.me_setMe, State.me_retireTo]
  rfl

/-- A transfer writes the current slot alone, so that it keeps what the writes before it have kept. -/
theorem State.RestKept.transfer {s t : State} (h : s.RestKept t) (ha : transferFault a = none) :
    s.RestKept (t.transfer a none) := by
  rw [State.transfer_none ha]
  exact (h.setMe _).setMe _

end

/-- Leaving a loop and replacing the bank in use change different fields. -/
theorem Slot.outOfLoop_setActive (x : Slot) (b : Bank) : (x.setActive b).outOfLoop = x.outOfLoop.setActive b :=
  apply_ite Slot.outOfLoop _ _ _

/-- The frame of an instruction that writes the bank in use and goes on at p. -/
theorem Slot.CoreKept.bankTo (x : Slot) (b : Bank) (c : Nat) (p : Word) :
    x.CoreKept { (x.setActive b).issued c with pc := p, bare := x.bare && p == nextPc x.pc } := by
  refine ⟨?_, ?_, ?_, by simp [Slot.issued], rfl⟩
  · unfold Slot.setActive
    split <;> rfl
  · exact (Slot.setActive_other x b).1
  · exact (Slot.setActive_other x b).2

/-! ### Instructions that end in a transfer or a branch -/

theorem transfers_of_exec {i : Instr} {s : State} {a : Word} {link : Option (Fin 32)} (h : exec i s = .next (s.transfer a link)) :
    Transfers i s a link := by
  refine ⟨fun hs => ?_, fun hs hm => ?_, fun hs hm => ?_⟩
  · exact h.trans (congrArg _ (State.transfer_fault (transferFault_addrSpace hs) s link))
  · exact h.trans (congrArg _ (State.transfer_fault (transferFault_misalign hs hm) s link))
  · have ha := transferFault_none hs hm
    cases link with
    | none =>
      refine ⟨_, h, State.pc_transfer_none ha s, State.flags_transfer_none ha s, State.reg_transfer_none ha s,
        (State.RestKept.refl s).transfer ha, ?_⟩
      rw [State.me_transfer_none ha]
      exact Slot.CoreKept.retire s.me.outOfLoop a s.cycle
    | some d =>
      rw [State.transfer_some ha] at h
      refine ⟨_, h, State.pc_transfer_none ha _, ?_, fun r => ?_, ((State.RestKept.refl s).setMe _).transfer ha, ?_⟩
      · rw [State.flags_transfer_none ha, State.flags_setReg]
      · rw [State.reg_transfer_none ha, State.reg_setReg]
      · rw [State.me_transfer_none ha, State.me_setReg, Slot.outOfLoop_setActive, Slot.setActive_bare, Slot.setActive_pc]
        exact Slot.CoreKept.bankTo s.me.outOfLoop _ _ a

/-- A branch whose condition the statement writes in its own way. -/
theorem branches_of_exec {n : Nat} {i : Instr} {s : State} {c : Bool} {o : BitVec n} {p : Prop}
    (h : exec i s = .next (s.branch c o)) (hc : c = true ↔ p) : Branches i s p (s.pc + BitVec.ofInt 64 (4 * o.toInt)) := by
  rw [← branchTarget_eq]
  refine ⟨fun hp => transfers_of_exec ?_, fun hp => continues_retire ?_⟩
  · rw [h, State.branch, if_pos (hc.mpr hp)]
  · rw [h, State.branch, if_neg (mt hc.mp hp)]

/-! J and JAL go to a target in words (R87). -/

theorem exec_j (o : BitVec 24) (s : State) :
    exec (.j o) s = .next (s.transfer (s.pc + BitVec.ofInt 64 (4 * o.toInt)) none) := by
  rw [← branchTarget_eq]
  rfl

theorem exec_jal (o : BitVec 24) (s : State) :
    exec (.jal o) s = .next (s.transfer (s.pc + BitVec.ofInt 64 (4 * o.toInt)) (some 31)) := by
  rw [← branchTarget_eq]
  rfl

/-! ### Conditions (R85) -/

theorem not_slt_iff (x y : Word) : (!x.slt y) = true ↔ x.toInt ≥ y.toInt := by
  rw [Bool.not_eq_true', ← Bool.not_eq_true, BitVec.slt_iff_toInt_lt, not_lt]

theorem not_ult_iff (x y : Word) : (!x.ult y) = true ↔ x.toNat ≥ y.toNat := by
  rw [Bool.not_eq_true', ← Bool.not_eq_true, BitVec.ult_iff_toNat_lt, not_lt]

/-! ### The obligation -/

/-- Settles O3: each word ends in `State.branch` or `State.transfer`; the conditions are those of Table 9 and R86. -/
theorem controlTransfers : Obligations.ControlTransfers := by
  unfold Obligations.ControlTransfers
  intro s d a b i k h o x y t u w
  exact ⟨branches_of_exec rfl beq_iff_eq, branches_of_exec rfl bne_iff_ne, branches_of_exec rfl BitVec.slt_iff_toInt_lt,
    branches_of_exec rfl (not_slt_iff x y), branches_of_exec rfl BitVec.ult_iff_toNat_lt,
    branches_of_exec rfl (not_ult_iff x y), branches_of_exec rfl Iff.rfl, branches_of_exec rfl (Bool.not_eq_true' _).to_iff,
    transfers_of_exec (exec_j o s), transfers_of_exec (exec_jal o s), transfers_of_exec rfl⟩

end Sys2Proof.Machine
end

section
/-! PROOF. O43: the end of a task (05 R98) and of a preload (16 R340). -/

namespace Sys2Proof.Machine

/-- An action of the device that wants nothing of other devices is done at once, and forgets what was read for it (R398). -/
theorem State.reading_nil (s : State) (p : Fin 16) (f : State → State) : s.reading p [] f = (f s).forget p := rfl

/-! ### TASK_END -/

theorem exec_taskEnd (i : SlotId) (s : State) : exec (.taskEnd i) s = execTaskEnd i s := rfl

section
variable {s : State} {i : SlotId} {k : TaskInfo} (ht : (s.slotOf i).task = some k)
include ht

theorem exec_taskEnd_of_canEnd (he : s.canEnd i = true) (hw : s.endWants k = []) : exec (.taskEnd i) s =
    .next (((((((s.drainFifo i.core).stopWork i).freeSlot i).leaveTask k (s.slotOf i).doms false).completeWord k).nodeEnded k true).forget
      k.part) := by
  simp only [exec_taskEnd, execTaskEnd, ht, he, hw, if_true, State.reading_nil]

theorem exec_taskEnd_of_not_canEnd (he : s.canEnd i = false) : exec (.taskEnd i) s = .next s := by
  simp only [exec_taskEnd, execTaskEnd, ht, he, Bool.false_eq_true, if_false]

end

/-! ### PRELOAD_COMPLETE -/

/-- A start that wants nothing of other devices takes place at once, from the state that the record's place has been left in (R102). -/
theorem State.startIn_of_startRec {s t : State} {i : SlotId} {r : Rec} {e : Nat} {leave : State → State}
    (hw : s.startWants r e = []) (ht : (leave s).startRec i r e = some t) : s.startIn i r e leave = t.forget r.info.part := by
  simp only [State.startIn, hw, State.reading_nil, ht]

theorem exec_preloadComplete (i : SlotId) (s : State) : exec (.preloadComplete i) s = execPreloadComplete i s := rfl

section
variable {s : State} {i : SlotId} {r : Rec} (hp : (s.slotOf i).status = .preloaded) (hr : (s.slotOf i).next = some r)
  (hs : s.starts i.core = true)
include hp hr hs

theorem exec_preloadComplete_of_moreUrgent
    (hd : (s.coreOf i.core).deque.all (fun x => x.spilled || decide (r.info.prio ≤ x.info.prio)) = false) :
    exec (.preloadComplete i) s = .next ((s.endPreload i).pushHead i.core r) := by
  simp only [exec_preloadComplete, execPreloadComplete, hp, hr, hs, hd, Bool.true_eq_false, if_false, if_true]

/-- A record that is no resume record, of a scope that the core does not see cancelled, starts with an environment that is free. -/
theorem exec_preloadComplete_of_mostUrgent {t : State} {e : Nat}
    (hd : (s.coreOf i.core).deque.all (fun x => x.spilled || decide (r.info.prio ≤ x.info.prio)) = true)
    (hk : r.kind = .fresh ∨ r.kind = .rerun) (hc : s.recSeen i.core r = false) (he : s.freeEnv r.info.part = some e)
    (hw : s.startWants r e = []) (ht : (s.endPreload i).startRec i r e = some t) :
    exec (.preloadComplete i) s = .next (t.forget r.info.part) := by
  have hstart : s.startIn i r e (fun s => s.endPreload i) = t.forget r.info.part := State.startIn_of_startRec hw ht
  rw [exec_preloadComplete]
  rcases hk with hk | hk <;>
    simp only [execPreloadComplete, hp, hr, hs, hd, hk, hc, he, hstart, Bool.true_eq_false, Bool.false_eq_true, if_false]

end

/-! ### The obligation -/

/-- Settles O43: each clause is a case of TASK_END or PRELOAD_COMPLETE, where nothing is left to ask of other devices. -/
theorem taskEnds : Obligations.TaskEnds := by
  unfold Obligations.TaskEnds
  intro s t i k r e
  exact ⟨exec_taskEnd_of_canEnd, exec_taskEnd_of_not_canEnd, fun hp hr hs =>
    ⟨exec_preloadComplete_of_moreUrgent hp hr hs, exec_preloadComplete_of_mostUrgent hp hr hs⟩⟩

end Sys2Proof.Machine
end

section
/-! PROOF. O47: landings that reach a domain (05 R119, 20 R390), and the return of a BARWAIT (05 R120). -/

namespace Sys2Proof.Machine

/-! ### Where a domain is kept

A change of a partition that keeps its descriptor moves no domain: its fabric group and whether it is valid stand there (R379). -/

section
variable {f : Part → Part} (hf : ∀ q, (f q).desc = q.desc)
include hf

theorem State.desc_mapPart (s : State) (p j : Fin 16) : ((s.mapPart p f).partOf j).desc = (s.partOf j).desc := by
  rw [State.partOf_mapPart]
  split
  next h => rw [h, hf]
  next => rfl

theorem State.domPart_mapPart (s : State) (p j : Fin 16) (level : Nat) : (s.mapPart p f).domPart j level = s.domPart j level := by
  simp only [State.domPart, Part.valid, Part.word, State.desc_mapPart hf]

theorem State.fgid_mapPart (s : State) (p j : Fin 16) : (s.mapPart p f).fgid j = s.fgid j := by
  simp only [State.fgid, Part.word, State.desc_mapPart hf]

theorem State.domHome_mapPart (s : State) (p j : Fin 16) (level id : Nat) :
    (s.mapPart p f).domHome j level id = s.domHome j level id := by
  rw [State.domHome, State.domHome, State.fgid_mapPart hf, State.mapPart_pkg]

end

/-! ### A domain after a change (R117) -/

theorem State.doms_mapDom (s : State) (p : Fin 16) (level id : Nat) (f : Dom → Dom) :
    ((s.mapDom p level id f).partOf (s.domPart p level)).doms =
      (updFirst (fun d => d.level == level && d.id == id) f (s.partOf (s.domPart p level)).doms).filter fun d => !d.members.isEmpty := by
  rw [State.mapDom, State.partOf_mapPart, if_pos rfl]

@[simp] theorem State.landings_mapDom (s : State) (p j : Fin 16) (level id : Nat) (f : Dom → Dom) :
    ((s.mapDom p level id f).partOf j).landings = (s.partOf j).landings := by
  rw [State.mapDom, State.partOf_mapPart]
  split
  next h => rw [h]
  next => rfl

@[simp] theorem State.slots_mapDom (s : State) (p : Fin 16) (level id : Nat) (f : Dom → Dom) :
    (s.mapDom p level id f).slots = s.slots := rfl

@[simp] theorem State.mem_mapDom (s : State) (p : Fin 16) (level id : Nat) (f : Dom → Dom) :
    (s.mapDom p level id f).mem = s.mem := rfl

/-! ### The landings on their way in a partition -/

/-- A partition's landings are replaced. -/
def State.setLandings (s : State) (p : Fin 16) (r : List Landing) : State := s.mapPart p fun q => { q with landings := r }

theorem State.landings_setLandings (s : State) (p : Fin 16) (r : List Landing) : ((s.setLandings p r).partOf p).landings = r := by
  rw [State.setLandings, State.partOf_mapPart, if_pos rfl]

theorem State.doms_setLandings (s : State) (p j : Fin 16) (r : List Landing) :
    ((s.setLandings p r).partOf j).doms = (s.partOf j).doms := by
  rw [State.setLandings, State.partOf_mapPart]
  split
  next h => rw [h]
  next => rfl

theorem State.domPart_setLandings (s : State) (p j : Fin 16) (r : List Landing) (level : Nat) :
    (s.setLandings p r).domPart j level = s.domPart j level :=
  State.domPart_mapPart (f := fun q => { q with landings := r }) (fun _ => rfl) s p j level

theorem State.domHome_setLandings (s : State) (p j : Fin 16) (r : List Landing) (level id : Nat) :
    (s.setLandings p r).domHome j level id = s.domHome j level id :=
  State.domHome_mapPart (f := fun q => { q with landings := r }) (fun _ => rfl) s p j level id

/-! ### BARRIER_LANDING -/

theorem exec_barrierLanding (p : Fin 16) (s : State) : exec (.barrierLanding p) s = execBarrierLanding p s := rfl

section
variable {s : State} {p : Fin 16} {l : Landing} {r : List Landing} (hl : (s.partOf p).landings = l :: r)
include hl

theorem exec_barrierLanding_here (hh : s.domHome p l.level l.id = none) : exec (.barrierLanding p) s =
    .next ((s.setLandings p r).mapDom p l.level l.id fun d => d.landing l.task l.bytes l.phase) := by
  rw [← State.domHome_setLandings s p p r, State.setLandings] at hh
  simp only [exec_barrierLanding, execBarrierLanding, State.setLandings, hl, hh]

theorem exec_barrierLanding_away {dev : Nat} (hh : s.domHome p l.level l.id = some dev) : exec (.barrierLanding p) s =
    .next ((s.setLandings p r).sendDom p dev l.id l.task (.land l.bytes l.phase)) := by
  rw [← State.domHome_setLandings s p p r, State.setLandings] at hh
  simp only [exec_barrierLanding, execBarrierLanding, State.setLandings, hl, hh]

end

/-! ### BARWAIT_RETURN -/

theorem exec_barwaitReturn (i : SlotId) (s : State) : exec (.barwaitReturn i) s = execBarwaitReturn i s := rfl

section
variable {s : State} {i : SlotId} {d : Fin 32} {v : Fin 8} {t : TaskInfo} {id : Nat} {m : Member}
  (hw : (s.slotOf i).status = .waiting (.barwait d v)) (ht : (s.slotOf i).task = some t)
  (hm : s.memberAt t (s.slotOf i) v.val = some (id, m))
include hw ht hm

theorem exec_barwaitReturn_ended {e : PhaseEnd} (he : m.result = some e) :
    exec (.barwaitReturn i) s = .next (s.barReturn i t d v.val id m e) := by
  simp only [exec_barwaitReturn, execBarwaitReturn, hw, ht, hm, he]

theorem exec_barwaitReturn_waits (he : m.result = none) : exec (.barwaitReturn i) s = .next s := by
  simp only [exec_barwaitReturn, execBarwaitReturn, hw, ht, hm, he]

end

/-! ### The obligation -/

/-- Settles O47: the landing has left the list before it is delivered, which moves no domain and no home; a BARWAIT returns with the result
of its member and waits without one. -/
theorem barrierSteps : Obligations.BarrierSteps := by
  unfold Obligations.BarrierSteps
  intro s p l r i d v t id m e
  refine ⟨fun hl hh => ⟨_, exec_barrierLanding_here hl hh, ?_, ?_, rfl, rfl⟩, fun hl dev hh => exec_barrierLanding_away hl hh,
    fun hw ht hm => ⟨exec_barwaitReturn_ended hw ht hm, exec_barwaitReturn_waits hw ht hm⟩⟩
  · rw [State.landings_mapDom, State.landings_setLandings]
  · rw [← State.domPart_setLandings s p p r, State.doms_mapDom, State.doms_setLandings]

end Sys2Proof.Machine
end

section
/-! PROOF. O50: BRLOOP outside a transaction (04 R84; 06 R130; 07 R156; 16 R333). -/

namespace Sys2Proof.Machine

/-! ### What BRLOOP decides (R130) -/

section
variable {a ec : Word} {drain : Bool}

theorem loopDecide_kernel (h : a ≠ 0 ∧ drain = false) : loopDecide a ec drain = ⟨a - 1, ec, true, true⟩ := if_pos h

/-- In the epilogue EC counts down, and the branch is taken while one is left. -/
theorem loopDecide_epilogue (h : ¬ (a ≠ 0 ∧ drain = false)) (he : 2 ≤ ec.toNat) :
    loopDecide a ec drain = ⟨a, ec - 1, false, true⟩ := by
  have h0 : ec ≠ 0 := by bv_omega
  have h1 : ec - 1 ≠ 0 := by bv_omega
  rw [loopDecide, if_neg h, if_pos h0, decide_eq_true h1]

theorem loopDecide_exit (h : ¬ ((a ≠ 0 ∧ drain = false) ∨ 2 ≤ ec.toNat)) : loopDecide a ec drain = ⟨a, 0, false, false⟩ := by
  obtain ⟨hk, he⟩ := not_or.mp h
  rw [loopDecide, if_neg hk]
  split
  next h0 =>
    have h1 : ec - 1 = 0 := by bv_omega
    rw [h1, decide_eq_false (not_not.mpr rfl)]
  next h0 => rw [not_not.mp h0]

theorem loopDecide_taken_iff : (loopDecide a ec drain).taken = true ↔ (a ≠ 0 ∧ drain = false) ∨ 2 ≤ ec.toNat := by
  by_cases hk : a ≠ 0 ∧ drain = false
  · exact iff_of_true (congrArg LoopDecision.taken (loopDecide_kernel hk)) (Or.inl hk)
  · by_cases he : 2 ≤ ec.toNat
    · exact iff_of_true (congrArg LoopDecision.taken (loopDecide_epilogue hk he)) (Or.inr he)
    · rw [loopDecide_exit (not_or.mpr ⟨hk, he⟩)]
      exact iff_of_false Bool.false_ne_true (not_or.mpr ⟨hk, he⟩)

end

/-! ### Writes of the loop's registers, and markers -/

/-- The slot after new values of EC, RRB and the loop's state. -/
def Slot.putLoop (x : Slot) (ec : Word) (rrb : Nat) (l : Loop) : Slot := { x with ec := ec, rrb := rrb, loop := l }

@[simp] theorem Slot.ec_putLoop (x : Slot) (e : Word) (n : Nat) (l : Loop) : (x.putLoop e n l).ec = e := rfl
@[simp] theorem Slot.rrb_putLoop (x : Slot) (e : Word) (n : Nat) (l : Loop) : (x.putLoop e n l).rrb = n := rfl
@[simp] theorem Slot.loop_putLoop (x : Slot) (e : Word) (n : Nat) (l : Loop) : (x.putLoop e n l).loop = l := rfl
@[simp] theorem Slot.pc_putLoop (x : Slot) (e : Word) (n : Nat) (l : Loop) : (x.putLoop e n l).pc = x.pc := rfl
@[simp] theorem Slot.eng_putLoop (x : Slot) (e : Word) (n : Nat) (l : Loop) : (x.putLoop e n l).eng = x.eng := rfl
@[simp] theorem Slot.active_putLoop (x : Slot) (e : Word) (n : Nat) (l : Loop) : (x.putLoop e n l).active = x.active := rfl

/-- The words of the current slot's V queue (R251). -/
def State.vWords (s : State) : List (BitVec 32) := s.me.eng.qs.vq.map (·.word)

/-- The current slot sends a marker down its V queue. -/
def State.sendMarker (s : State) (w : BitVec 32) : State := s.enqueue s.cur .v w 0

/-- A marker goes to the end of the V queue and leaves of the slot all but what it holds for its engines. -/
theorem State.sendMarker_me (s : State) (w : BitVec 32) :
    ∃ e, (s.sendMarker w).me = { s.me with eng := e } ∧ e.qs.vq.map (·.word) = s.vWords ++ [w] :=
  ⟨_, State.me_setMe s _, List.map_append⟩

section
variable (s : State) (w : BitVec 32)

@[simp] theorem State.ec_sendMarker : (s.sendMarker w).me.ec = s.me.ec := by
  obtain ⟨e, h, -⟩ := s.sendMarker_me w
  rw [h]
@[simp] theorem State.rrb_sendMarker : (s.sendMarker w).me.rrb = s.me.rrb := by
  obtain ⟨e, h, -⟩ := s.sendMarker_me w
  rw [h]
@[simp] theorem State.loop_sendMarker : (s.sendMarker w).me.loop = s.me.loop := by
  obtain ⟨e, h, -⟩ := s.sendMarker_me w
  rw [h]
@[simp] theorem State.pc_sendMarker : (s.sendMarker w).pc = s.pc := by
  obtain ⟨e, h, -⟩ := s.sendMarker_me w
  rw [State.pc, h, State.pc]
@[simp] theorem State.active_sendMarker : (s.sendMarker w).me.active = s.me.active := by
  obtain ⟨e, h, -⟩ := s.sendMarker_me w
  rw [h]
  rfl
@[simp] theorem State.vWords_sendMarker : (s.sendMarker w).vWords = s.vWords ++ [w] := by
  obtain ⟨e, h, he⟩ := s.sendMarker_me w
  rw [State.vWords, h, he]

end

/-- The current slot after new values of EC, RRB and the loop's state. -/
def State.putLoop (s : State) (ec : Word) (rrb : Nat) (l : Loop) : State := s.setMe (s.me.putLoop ec rrb l)

section
variable (s : State) (e : Word) (n : Nat) (l : Loop) (w : BitVec 32)

@[simp] theorem State.me_putLoop : (s.putLoop e n l).me = s.me.putLoop e n l := State.me_setMe s _
@[simp] theorem State.pc_putLoop : (s.putLoop e n l).pc = s.pc := State.pc_setMe s _
@[simp] theorem State.reg_putLoop (q : Fin 32) : (s.putLoop e n l).reg q = s.reg q := State.reg_setMe s _ q
@[simp] theorem State.vWords_putLoop : (s.putLoop e n l).vWords = s.vWords := by simp [State.vWords]
@[simp] theorem State.flags_putLoop : (s.putLoop e n l).flags = s.flags := State.flags_setMe s _

@[simp] theorem State.reg_sendMarker (q : Fin 32) : (s.sendMarker w).reg q = s.reg q := by
  rw [State.reg, State.active_sendMarker, State.reg]
@[simp] theorem State.flags_sendMarker : (s.sendMarker w).flags = s.flags := by
  rw [State.flags, State.active_sendMarker, State.flags]

end

/-! ### The parts of a BRLOOP -/

/-- A BRLOOP of the slot drains its loop: a drain is on, or this one begins it (R333). -/
def Slot.drains (x : Slot) : Bool := x.loop.drain || x.startsDrain

/-- The number of kernel stages that the drain has saved, where ga is a. -/
def Slot.savedCount (x : Slot) (a : Word) : Word := if x.startsDrain then a else x.loop.dra

/-- The epilogue that the drain has saved. -/
def Slot.savedEpilogue (x : Slot) : Word := if x.startsDrain then x.ec else x.loop.drs

/-- What BRLOOP decides in a state. -/
def State.loopChoice (s : State) (r : Fin 32) : LoopDecision := loopDecide (s.reg r) s.me.ec s.me.drains

/-- The loop's state after a BRLOOP that has not ended a drain. -/
def State.loopAfter (s : State) (r : Fin 32) : Loop :=
  { (s.setReg r (s.loopChoice r).a).me.loop with
    drain := s.me.drains
    dra := s.me.savedCount (s.reg r)
    drs := s.me.savedEpilogue
    inLoop := (s.loopChoice r).taken
    ready := (s.setReg r (s.loopChoice r).a).me.loop.ready || (s.me.awaitsDrain && !s.me.startsDrain) }

/-- What every BRLOOP does: its registers and its marker (R130). -/
def State.loopTurn (s : State) (r : Fin 32) : State :=
  ((s.setReg r (s.loopChoice r).a).putLoop (s.loopChoice r).ec ((s.me.rrb + 15) % 16) (s.loopAfter r)).sendMarker
    (markerWord 0 (if (s.loopChoice r).stage then 1 else 0))

/-- The end of a drain (R333). -/
def State.loopDrained (s : State) : State :=
  s.putLoop s.me.ec s.me.rrb { s.me.loop with drain := false, ready := true }

/-- The refill of a drained loop from a count and an epilogue (R333; log 26). -/
def State.loopRefilled (s : State) (r : Fin 32) (n ec : Word) : State :=
  let u := s.setReg r (n - 1)
  (u.putLoop ec u.me.rrb u.me.loop).sendMarker (refillMarker ec)

/-- A BRLOOP is its turn and one of four endings. -/
theorem State.brloop_eq (s : State) (r : Fin 32) (t : Word) : s.brloop r t =
    if (s.loopChoice r).taken then (s.loopTurn r).retireTo t
    else if s.me.drains then
      if s.me.savedCount (s.reg r) ≠ 0 then
        ((s.loopTurn r).loopDrained.loopRefilled r (s.me.savedCount (s.reg r)) s.me.savedEpilogue).retireTo t
      else (s.loopTurn r).loopDrained.retire
    else (s.loopTurn r).retire := rfl

/-! ### What the parts leave -/

@[simp] theorem State.vWords_setReg (s : State) (r : Fin 32) (v : Word) : (s.setReg r v).vWords = s.vWords := by
  simp [State.vWords]
@[simp] theorem State.vWords_retireTo (s : State) (t : Word) : (s.retireTo t).vWords = s.vWords := by
  simp [State.vWords]
@[simp] theorem State.vWords_retire (s : State) : s.retire.vWords = s.vWords := State.vWords_retireTo s _

section
variable (s : State) (r : Fin 32)

@[simp] theorem State.ec_loopTurn : (s.loopTurn r).me.ec = (s.loopChoice r).ec := by simp [State.loopTurn]
@[simp] theorem State.pc_loopTurn : (s.loopTurn r).pc = s.pc := by simp [State.loopTurn]
@[simp] theorem State.reg_loopTurn (q : Fin 32) :
    (s.loopTurn r).reg q = if q = r ∧ q ≠ 0 then (s.loopChoice r).a else s.reg q := by simp [State.loopTurn]
@[simp] theorem State.vWords_loopTurn :
    (s.loopTurn r).vWords = s.vWords ++ [markerWord 0 (if (s.loopChoice r).stage then 1 else 0)] := by
  simp [State.loopTurn]

@[simp] theorem State.ec_loopDrained : s.loopDrained.me.ec = s.me.ec := by simp [State.loopDrained]
@[simp] theorem State.pc_loopDrained : s.loopDrained.pc = s.pc := by simp [State.loopDrained]
@[simp] theorem State.reg_loopDrained (q : Fin 32) : s.loopDrained.reg q = s.reg q := by simp [State.loopDrained]
@[simp] theorem State.vWords_loopDrained : s.loopDrained.vWords = s.vWords := by simp [State.loopDrained]
@[simp] theorem State.loop_loopDrained : s.loopDrained.me.loop = { s.me.loop with drain := false, ready := true } := by
  simp [State.loopDrained]

variable (n ec : Word)

@[simp] theorem State.ec_loopRefilled : (s.loopRefilled r n ec).me.ec = ec := by simp [State.loopRefilled]
@[simp] theorem State.reg_loopRefilled (q : Fin 32) :
    (s.loopRefilled r n ec).reg q = if q = r ∧ q ≠ 0 then n - 1 else s.reg q := by simp [State.loopRefilled]
@[simp] theorem State.vWords_loopRefilled : (s.loopRefilled r n ec).vWords = s.vWords ++ [refillMarker ec] := by
  simp [State.loopRefilled]
@[simp] theorem State.loop_loopRefilled : (s.loopRefilled r n ec).me.loop = s.me.loop := by simp [State.loopRefilled]

end

/-- Where the decision leaves ga, every register stays. -/
theorem State.reg_loopTurn_kept {s : State} {r : Fin 32} (h : (s.loopChoice r).a = s.reg r) (q : Fin 32) :
    (s.loopTurn r).reg q = s.reg q := by
  rw [State.reg_loopTurn, h]
  split
  next hq => rw [hq.1]
  next => rfl

/-! ### The frame of a BRLOOP -/

/-- After any BRLOOP that completes: RRB is turned, the slot is in a loop as b says, and FLAGS and all but the current slot are as before. -/
def State.LoopTurned (s t : State) (b : Bool) : Prop :=
  t.me.rrb = (s.me.rrb + 15) % 16 ∧ t.me.loop.inLoop = b ∧ t.flags = s.flags ∧ t = { s with slots := t.slots } ∧
    ∀ j, j ≠ s.cur → t.slotOf j = s.slotOf j

theorem State.RestKept.loopTurn (s : State) (r : Fin 32) : s.RestKept (s.loopTurn r) :=
  (((State.RestKept.refl s).setMe _).setMe _).setMe _

theorem State.RestKept.loopRefilled (s : State) (r : Fin 32) (n ec : Word) : s.RestKept (s.loopRefilled r n ec) :=
  (((State.RestKept.refl s).setMe _).setMe _).setMe _

theorem State.LoopTurned.loopTurn (s : State) (r : Fin 32) : s.LoopTurned (s.loopTurn r) (s.loopChoice r).taken := by
  obtain ⟨hslots, hother, -⟩ := State.RestKept.loopTurn s r
  refine ⟨?_, ?_, ?_, hslots, hother⟩ <;> simp [State.loopTurn, State.loopAfter]

section
variable {s t u : State} {b : Bool} (h : s.LoopTurned t b)
include h

/-- A further change of the current slot that leaves RRB, the mark of a loop and FLAGS. -/
theorem State.LoopTurned.keep (hk : t.RestKept u) (hr : u.me.rrb = t.me.rrb) (hl : u.me.loop.inLoop = t.me.loop.inLoop)
    (hf : u.flags = t.flags) : s.LoopTurned u b := by
  obtain ⟨hrrb, hin, hflags, hslots, hother⟩ := h
  obtain ⟨kslots, kother, -⟩ := hk
  have hc : t.cur = s.cur := by rw [hslots]
  refine ⟨hr.trans hrrb, hl.trans hin, hf.trans hflags, ?_, fun j hj => (kother j (hc ▸ hj)).trans (hother j hj)⟩
  rw [kslots, hslots]

theorem State.LoopTurned.retireTo (p : Word) : s.LoopTurned (t.retireTo p) b :=
  h.keep ((State.RestKept.refl t).setMe _) (by simp) (by simp) (by simp)

theorem State.LoopTurned.loopDrained : s.LoopTurned t.loopDrained b :=
  h.keep ((State.RestKept.refl t).setMe _) (by simp [State.loopDrained]) (by simp) (by simp [State.loopDrained])

theorem State.LoopTurned.loopRefilled (r : Fin 32) (n ec : Word) : s.LoopTurned (t.loopRefilled r n ec) b :=
  h.keep (State.RestKept.loopRefilled t r n ec) (by simp [State.loopRefilled]) (by simp) (by simp [State.loopRefilled])

end

/-! ### The journal's room (R261, R262) -/

theorem State.loopMarkers_eq (s : State) (r : Fin 32) : s.me.loopMarkers (s.reg r) =
    if s.me.drains && !(s.loopChoice r).taken && decide (s.me.savedCount (s.reg r) ≠ 0) then 2 else 1 := rfl

theorem State.loopMarkers_pos (s : State) (r : Fin 32) : 1 ≤ s.me.loopMarkers (s.reg r) := by
  rw [State.loopMarkers_eq]
  split <;> decide

theorem Slot.journalLacks_mono {x : Slot} {m n : Nat} (hmn : m ≤ n) (h : x.journalLacks m = true) : x.journalLacks n = true := by
  simp only [Slot.journalLacks, decide_eq_true_eq] at h ⊢
  omega

/-! ### The instruction (R156) -/

section
variable {s : State} {a : Fin 32} {o : BitVec 14} (hx : s.me.tx = none)
include hx

theorem exec_brloop : exec (.brloop a o) s = .next (
    match (if (s.loopChoice a).taken then transferFault (branchTarget s.pc o) else none) with
    | some f => s.trapMe f
    | none => if s.me.journalLacks (s.me.loopMarkers (s.reg a)) then s.stallMe .journalFull else s.brloop a (branchTarget s.pc o)) := by
  show execBrloop a o s = _
  rw [execBrloop, hx]
  rfl

theorem exec_brloop_fault {f : TrapInfo} (hk : (s.loopChoice a).taken = true) (hf : transferFault (branchTarget s.pc o) = some f) :
    exec (.brloop a o) s = .next (s.trapMe f) := by
  simp only [exec_brloop hx, hk, hf, if_true]

theorem exec_brloop_unfaulted (hf : (s.loopChoice a).taken = true → transferFault (branchTarget s.pc o) = none) :
    exec (.brloop a o) s = .next
      (if s.me.journalLacks (s.me.loopMarkers (s.reg a)) then s.stallMe .journalFull else s.brloop a (branchTarget s.pc o)) := by
  rw [exec_brloop hx, ite_eq_right_iff.mpr hf]

/-- A full journal has no room for however many markers there are. -/
theorem exec_brloop_journalFull (hf : (s.loopChoice a).taken = true → transferFault (branchTarget s.pc o) = none)
    (hj : s.me.journalFull = true) : exec (.brloop a o) s = .next (s.stallMe .journalFull) := by
  rw [exec_brloop_unfaulted hx hf, if_pos (Slot.journalLacks_mono (s.loopMarkers_pos a) hj)]

section
variable (hj : s.me.journalFull = false)
include hj

/-- One marker fits in a journal that is not full. -/
theorem exec_brloop_oneMarker (hf : (s.loopChoice a).taken = true → transferFault (branchTarget s.pc o) = none)
    (hm : s.me.loopMarkers (s.reg a) = 1) : exec (.brloop a o) s = .next (s.brloop a (branchTarget s.pc o)) := by
  rw [exec_brloop_unfaulted hx hf, hm, if_neg (Bool.not_eq_true _ ▸ hj)]

theorem exec_brloop_taken (hk : (s.loopChoice a).taken = true) (hf : transferFault (branchTarget s.pc o) = none) :
    exec (.brloop a o) s = .next ((s.loopTurn a).retireTo (branchTarget s.pc o)) := by
  have hm : s.me.loopMarkers (s.reg a) = 1 := by simp [State.loopMarkers_eq, hk]
  rw [exec_brloop_oneMarker hx hj (fun _ => hf) hm, State.brloop_eq, if_pos hk]

theorem exec_brloop_exit (hk : (s.loopChoice a).taken = false) (hd : s.me.drains = false) :
    exec (.brloop a o) s = .next (s.loopTurn a).retire := by
  have hm : s.me.loopMarkers (s.reg a) = 1 := by simp [State.loopMarkers_eq, hd]
  rw [exec_brloop_oneMarker hx hj (by simp [hk]) hm, State.brloop_eq]
  simp [hk, hd]

theorem exec_brloop_drained (hk : (s.loopChoice a).taken = false) (hd : s.me.drains = true) (h0 : s.me.savedCount (s.reg a) = 0) :
    exec (.brloop a o) s = .next (s.loopTurn a).loopDrained.retire := by
  have hm : s.me.loopMarkers (s.reg a) = 1 := by simp [State.loopMarkers_eq, h0]
  rw [exec_brloop_oneMarker hx hj (by simp [hk]) hm, State.brloop_eq]
  simp [hk, hd, h0]

end

section
variable (hk : (s.loopChoice a).taken = false) (hd : s.me.drains = true) (hn : s.me.savedCount (s.reg a) ≠ 0)
include hk hd hn

/-- A refill needs room for its own marker too, and its target is not checked (log 22). -/
theorem exec_brloop_refill : exec (.brloop a o) s = .next
    (if s.me.journalLacks 2 then s.stallMe .journalFull
     else ((s.loopTurn a).loopDrained.loopRefilled a (s.me.savedCount (s.reg a)) s.me.savedEpilogue).retireTo
       (branchTarget s.pc o)) := by
  have hm : s.me.loopMarkers (s.reg a) = 2 := by
    rw [State.loopMarkers_eq, hk, hd, decide_eq_true hn]
    rfl
  rw [exec_brloop_unfaulted hx (by simp [hk]), hm, State.brloop_eq, hk, hd, if_pos hn]
  rfl

end

end

/-! ### The clauses of R130 and R333 -/

/-- The refill's marker as R333 and log 26 have it. -/
theorem refillMarker_eq (drs : Word) : refillMarker drs = BitVec.ofNat 32 (0x7F000200 + 2 * bitsOf drs 0 4) := by
  rw [refillMarker, markerWord]
  congr 1
  omega

section
variable {s : State} {a : Fin 32} {o : BitVec 14}

section
variable (hx : s.me.tx = none) (hj : s.me.journalFull = false)
include hx hj

theorem brloop_kernelStage (hk : s.reg a ≠ 0 ∧ s.me.drains = false) (hf : transferFault (branchTarget s.pc o) = none) :
    ∃ t, exec (.brloop a o) s = .next t ∧ s.LoopTurned t true ∧ s.OnlyReg t a (s.reg a - 1) ∧ t.me.ec = s.me.ec ∧
      t.pc = branchTarget s.pc o ∧ t.vWords = s.vWords ++ [0x7F000001] := by
  have hc : s.loopChoice a = ⟨s.reg a - 1, s.me.ec, true, true⟩ := loopDecide_kernel hk
  have ht : (s.loopChoice a).taken = true := by rw [hc]
  refine ⟨_, exec_brloop_taken hx hj ht hf, ht ▸ (State.LoopTurned.loopTurn s a).retireTo _, fun q => ?_, ?_, ?_, ?_⟩ <;>
    simp [hc, markerWord]

theorem brloop_epilogueStage (hk : ¬ (s.reg a ≠ 0 ∧ s.me.drains = false)) (he : 2 ≤ s.me.ec.toNat)
    (hf : transferFault (branchTarget s.pc o) = none) :
    ∃ t, exec (.brloop a o) s = .next t ∧ s.LoopTurned t true ∧ (∀ r, t.reg r = s.reg r) ∧ t.me.ec = s.me.ec - 1 ∧
      t.pc = branchTarget s.pc o ∧ t.vWords = s.vWords ++ [0x7F000000] := by
  have hc : s.loopChoice a = ⟨s.reg a, s.me.ec - 1, false, true⟩ := loopDecide_epilogue hk he
  have ht : (s.loopChoice a).taken = true := by rw [hc]
  have ha : (s.loopChoice a).a = s.reg a := by rw [hc]
  refine ⟨_, exec_brloop_taken hx hj ht hf, ht ▸ (State.LoopTurned.loopTurn s a).retireTo _, fun q => ?_, ?_, ?_, ?_⟩
  · rw [State.reg_retireTo, State.reg_loopTurn_kept ha]
  all_goals simp [hc, markerWord]

end

/-! Where the branch is not taken, the decision leaves ga and ends EC. -/

section
variable (hn : ¬ ((s.reg a ≠ 0 ∧ s.me.drains = false) ∨ 2 ≤ s.me.ec.toNat))
include hn

theorem State.loopChoice_exit : s.loopChoice a = ⟨s.reg a, 0, false, false⟩ := loopDecide_exit hn

theorem State.loopChoice_exit_a : (s.loopChoice a).a = s.reg a := congrArg LoopDecision.a (State.loopChoice_exit hn)

theorem State.loopChoice_exit_taken : (s.loopChoice a).taken = false := congrArg LoopDecision.taken (State.loopChoice_exit hn)

theorem State.LoopTurned.exit : s.LoopTurned (s.loopTurn a) false :=
  State.loopChoice_exit_taken hn ▸ State.LoopTurned.loopTurn s a

variable (hx : s.me.tx = none)
include hx

section
variable (hj : s.me.journalFull = false)
include hj

theorem brloop_fallsThrough (hd : s.me.drains = false) :
    ∃ t, exec (.brloop a o) s = .next t ∧ s.LoopTurned t false ∧ (∀ r, t.reg r = s.reg r) ∧ t.me.ec = 0 ∧ t.pc = nextPc s.pc ∧
      t.vWords = s.vWords ++ [0x7F000000] := by
  refine ⟨_, exec_brloop_exit hx hj (State.loopChoice_exit_taken hn) hd, (State.LoopTurned.exit hn).retireTo _, fun q => ?_, ?_, ?_, ?_⟩
  · rw [State.reg_retire, State.reg_loopTurn_kept (State.loopChoice_exit_a hn)]
  all_goals simp [State.loopChoice_exit hn, markerWord]

theorem brloop_drainEnds (hd : s.me.drains = true) (h0 : s.me.savedCount (s.reg a) = 0) :
    ∃ t, exec (.brloop a o) s = .next t ∧ s.LoopTurned t false ∧ (∀ r, t.reg r = s.reg r) ∧ t.me.ec = 0 ∧ t.pc = nextPc s.pc ∧
      t.me.loop.drain = false ∧ t.me.loop.ready = true ∧ t.vWords = s.vWords ++ [0x7F000000] := by
  refine ⟨_, exec_brloop_drained hx hj (State.loopChoice_exit_taken hn) hd h0, (State.LoopTurned.exit hn).loopDrained.retireTo _,
    fun q => ?_, ?_, ?_, ?_, ?_, ?_⟩
  · rw [State.reg_retire, State.reg_loopDrained, State.reg_loopTurn_kept (State.loopChoice_exit_a hn)]
  all_goals simp [State.loopChoice_exit hn, markerWord]

end

section
variable (hd : s.me.drains = true) (hs : s.me.savedCount (s.reg a) ≠ 0)
include hd hs

theorem brloop_refillWaits (hj : s.me.journalLacks 2 = true) : exec (.brloop a o) s = .next (s.stallMe .journalFull) := by
  rw [exec_brloop_refill hx (State.loopChoice_exit_taken hn) hd hs, if_pos hj]

theorem brloop_refills (hj : s.me.journalLacks 2 = false) :
    ∃ t, exec (.brloop a o) s = .next t ∧ s.LoopTurned t false ∧ s.OnlyReg t a (s.me.savedCount (s.reg a) - 1) ∧
      t.me.ec = s.me.savedEpilogue ∧ t.pc = branchTarget s.pc o ∧ t.me.loop.drain = false ∧ t.me.loop.ready = true ∧
      t.vWords = s.vWords ++ [0x7F000000, BitVec.ofNat 32 (0x7F000200 + 2 * bitsOf s.me.savedEpilogue 0 4)] := by
  have hexec := exec_brloop_refill (o := o) hx (State.loopChoice_exit_taken hn) hd hs
  rw [hj, if_neg Bool.false_ne_true] at hexec
  refine ⟨_, hexec, ((State.LoopTurned.exit hn).loopDrained.loopRefilled _ _ _).retireTo _, fun q => ?_, ?_, ?_, ?_, ?_, ?_⟩
  · rw [State.reg_retireTo, State.reg_loopRefilled, State.reg_loopDrained, State.reg_loopTurn_kept (State.loopChoice_exit_a hn)]
  all_goals simp [State.loopChoice_exit hn, markerWord, refillMarker_eq]

end

end

end

/-! ### The obligation -/

/-- Settles O50: a case for each decision of R130 (kernel stage, epilogue, exit), and at the exit one for each state of the drain. -/
theorem loopBranch : Obligations.LoopBranch := by
  unfold Obligations.LoopBranch
  intro s a o hx i tgt starts drain kernel taken fits words turned
  have htaken : (s.loopChoice a).taken = true ↔ taken := loopDecide_taken_iff
  have hfits (h : fits) : transferFault tgt = none := transferFault_none h.1 h.2
  have hin {t : State} (ht : taken) (h : s.LoopTurned t true) : turned t := by
    rwa [← decide_eq_true ht] at h
  have hout {t : State} (hn : ¬ taken) (h : s.LoopTurned t false) : turned t := by
    rwa [← decide_eq_false hn] at h
  refine ⟨fun ht hs => exec_brloop_fault hx (htaken.mpr ht) (transferFault_addrSpace hs),
    fun ht hs hm => exec_brloop_fault hx (htaken.mpr ht) (transferFault_misalign hs hm),
    fun hf hj => exec_brloop_journalFull hx (fun ht => hfits (hf (htaken.mp ht))) hj, fun hj => ⟨fun hk hf => ?_, fun hk he hf => ?_,
      fun hn hd => ?_, fun hn hd => ⟨fun h0 => ?_, brloop_refillWaits hn hx hd, fun hs hj2 => ?_⟩⟩⟩
  · exact (brloop_kernelStage hx hj hk (hfits hf)).imp fun _ => And.imp_right (And.imp_left (hin (Or.inl hk)))
  · exact (brloop_epilogueStage hx hj hk he (hfits hf)).imp fun _ => And.imp_right (And.imp_left (hin (Or.inr he)))
  · exact (brloop_fallsThrough hn hx hj hd).imp fun _ => And.imp_right (And.imp_left (hout hn))
  · exact (brloop_drainEnds hn hx hj hd h0).imp fun _ => And.imp_right (And.imp_left (hout hn))
  · exact (brloop_refills hn hx hd hs hj2).imp fun _ => And.imp_right (And.imp_left (hout hn))

end Sys2Proof.Machine
end

section
/-! PROOF. O41: lines that leave the L1 for their homes (08 R182, R183, R197), lines of load blocks (R184), and the scrub engine of the page
pool (R204, R386). -/

namespace Sys2Proof.Machine

/-! ### What a write at a home leaves

It changes memory, and it may change what slots, transactions and loads know of it, the error logs, ERROR_INTERRUPT and the writes that wait
for an unlock. What decides where the next granule goes stays. -/

/-- From s to t nothing has changed of the cores, the time, the package besides its waiting writes and watches, the dies besides their error
logs, and the partitions besides a pending ERROR_INTERRUPT. -/
structure State.HomeFrame (s t : State) : Prop where
  cycle : t.cycle = s.cycle
  cores : t.cores = s.cores
  pkg : ∃ h w, t.pkg = { s.pkg with held := h, watches := w }
  die : ∀ d, ∃ e, t.dieOf d = { s.dieOf d with elog := e }
  part : ∀ p, ∃ b, t.partOf p = { s.partOf p with errPend := b }

namespace State.HomeFrame

theorem refl (s : State) : s.HomeFrame s := ⟨rfl, rfl, ⟨_, _, rfl⟩, fun _ => ⟨_, rfl⟩, fun _ => ⟨_, rfl⟩⟩

theorem trans {s t u : State} (h : s.HomeFrame t) (k : t.HomeFrame u) : s.HomeFrame u where
  cycle := k.cycle.trans h.cycle
  cores := k.cores.trans h.cores
  pkg := by
    obtain ⟨_, _, hp⟩ := h.pkg
    obtain ⟨_, _, kp⟩ := k.pkg
    exact ⟨_, _, by rw [kp, hp]⟩
  die := fun d => by
    obtain ⟨_, hd⟩ := h.die d
    obtain ⟨_, kd⟩ := k.die d
    exact ⟨_, by rw [kd, hd]⟩
  part := fun p => by
    obtain ⟨_, hp⟩ := h.part p
    obtain ⟨_, kp⟩ := k.part p
    exact ⟨_, by rw [kp, hp]⟩

/-! The writes themselves. -/

theorem putStored (s : State) (g : Nat) (y old : Granule) : s.HomeFrame (s.putStored g y old) :=
  ⟨rfl, rfl, ⟨_, _, rfl⟩, fun _ => ⟨_, rfl⟩, fun _ => ⟨_, rfl⟩⟩

theorem hbmPut (s : State) (p : Fin 16) (key : Option (Fin 16)) (g : Nat) (x : Granule) : s.HomeFrame (s.hbmPut p key g x) :=
  ⟨rfl, rfl, ⟨_, _, rfl⟩, fun _ => ⟨_, rfl⟩, fun _ => ⟨_, rfl⟩⟩

theorem hold (s : State) (h : Held) : s.HomeFrame (s.hold h) :=
  ⟨rfl, rfl, ⟨_, _, rfl⟩, fun _ => ⟨_, rfl⟩, fun _ => ⟨_, rfl⟩⟩

theorem writtenBy (s : State) (l : Loc) (i : Option SlotId) (c : Option (Fin 256)) : s.HomeFrame (s.writtenBy l i c) :=
  ⟨rfl, rfl, ⟨_, _, rfl⟩, fun _ => ⟨_, rfl⟩, fun _ => ⟨_, rfl⟩⟩

/-! The logs. -/

theorem logError (s : State) (die : Nat) (p : Fin 16) (e : LogEntry) : s.HomeFrame (s.logError die p e) where
  cycle := rfl
  cores := rfl
  pkg := ⟨_, _, rfl⟩
  part := fun _ => ⟨_, rfl⟩
  die := fun d => by
    rw [State.logError, State.dieOf_mapDie]
    split
    next h => exact ⟨_, by rw [h]⟩
    next => exact ⟨_, rfl⟩

theorem raiseError (s : State) (p : Fin 16) : s.HomeFrame (s.raiseError p) where
  cycle := rfl
  cores := rfl
  pkg := ⟨_, _, rfl⟩
  die := fun _ => ⟨_, rfl⟩
  part := fun q => by
    rw [State.raiseError, State.partOf_mapPart]
    split
    next h => exact ⟨_, by rw [h]⟩
    next => exact ⟨_, rfl⟩

theorem devFail (s : State) (p : Fin 16) : s.HomeFrame (s.devFail p) := (logError s _ p _).trans (raiseError _ p)

theorem egress (s : State) (p : Fin 16) (g : Nat) (x : Granule) : s.HomeFrame (s.egress p g x).1 := by
  unfold State.egress
  split
  next => exact logError s _ _ _
  next => exact refl s

theorem logDirty (s : State) (p : Fin 16) (dlog : Bool) (pa : Nat) : s.HomeFrame (s.logDirty p dlog pa) := by
  unfold State.logDirty
  simp only
  split
  next => exact putStored s _ _ _
  next => exact refl s

/-! A granule that reaches its home. -/

theorem homePutNow (s : State) (p : Fin 16) (key : Option (Fin 16)) (dlog : Bool) (g : Nat) (x : Granule) :
    s.HomeFrame (s.homePutNow p key dlog g x) := by
  unfold State.homePutNow
  simp only
  split
  next => exact devFail s p
  next =>
    split
    next => exact (egress s p g x).trans (putStored _ g _ _)
    next => exact (hbmPut s p key g x).trans (logDirty _ p dlog _)

theorem homePut (s : State) (p : Fin 16) (key : Option (Fin 16)) (dlog : Bool) (g : Nat) (x : Granule) :
    s.HomeFrame (s.homePut p key dlog g x) := by
  unfold State.homePut
  split
  next => exact hold s _
  next => exact homePutNow s p key dlog g x

theorem homeFrom (s : State) (c : Fin 256) (l : L1Line) (g : Nat) (x : Granule) : s.HomeFrame (s.homeFrom c l g x) := by
  unfold State.homeFrom
  split
  next => exact hold s _
  next => exact (homePutNow s _ _ _ g x).trans (writtenBy _ _ _ _)

theorem writeBackGran (s : State) (c : Fin 256) (l : L1Line) (i : Nat) (x : L1Gran) : s.HomeFrame (s.writeBackGran c l i x) := by
  unfold State.writeBackGran
  simp only
  split
  next =>
    split
    next => exact ((homeFrom s c l _ _).trans (logError _ _ _ _)).trans (raiseError _ _)
    next => exact homeFrom s c l _ _
  next => exact refl s

theorem writeBackGrans (s : State) (c : Fin 256) (l : L1Line) (i : Nat) (xs : List L1Gran) : s.HomeFrame (s.writeBackGrans c l i xs) := by
  induction xs generalizing s i with
  | nil => exact refl s
  | cons x r ih => exact (writeBackGran s c l i x).trans (ih _ _)

theorem scrubGrans (s : State) (u : PageUse) (g n : Nat) : s.HomeFrame (s.scrubGrans u g n) := by
  induction n with
  | zero => exact refl s
  | succ n ih => exact ih.trans (homePut _ _ _ _ _ _)

/-! What is read to find where a granule goes is as before. -/

section
variable {s t : State} (h : s.HomeFrame t)
include h

theorem regionOk (p : Fin 16) (pa : Nat) : t.regionOk p pa = s.regionOk p pa := by
  obtain ⟨_, _, hp⟩ := h.pkg
  simp only [State.regionOk, State.interOf, hp]

theorem keyOf (p : Fin 16) (key : Option (Fin 16)) (pa : Nat) : t.keyOf p key pa = s.keyOf p key pa := by
  obtain ⟨_, hp⟩ := h.part p
  simp only [State.keyOf, hp]

theorem isLocked (l : Loc) : t.isLocked l = s.isLocked l := by
  obtain ⟨_, _, hp⟩ := h.pkg
  simp only [State.isLocked, hp]

theorem logMode (p : Fin 16) : (t.partOf p).logMode = (s.partOf p).logMode := by
  obtain ⟨_, hp⟩ := h.part p
  rw [hp]

theorem pool (p : Fin 16) : (t.partOf p).pool = (s.partOf p).pool := by
  obtain ⟨_, hp⟩ := h.part p
  rw [hp]

theorem hit (d : Nat) (p : Fin 16) (x : Site) (n : Nat) : t.hit d p x n = s.hit d p x n := by
  obtain ⟨_, hd⟩ := h.die d
  obtain ⟨_, hp⟩ := h.part p
  simp only [State.hit, hd, hp, h.cycle, Part.testFlag, Part.word]

end

end State.HomeFrame

/-! ### Granules in memory -/

/-- R8: the bytes of a number stand lowest first. -/
theorem natBytes_getD {k j : Nat} (h : j < k) (n : Nat) : (natBytes k n).getD j 0 = BitVec.ofNat 8 (n >>> (8 * j)) := by
  induction k generalizing n j with
  | zero => omega
  | succ k ih =>
    cases j with
    | zero => rfl
    | succ j =>
      rw [natBytes, List.getD_cons_succ, ih (Nat.lt_of_succ_lt_succ h), Nat.mul_succ, Nat.add_comm, Nat.shiftRight_add, Nat.shiftRight_eq_div_pow n 8]

/-- A byte of a written granule is that of its data. -/
theorem Memory.byte_putGran_same (m : Memory) (g : Nat) (x : Granule) {j : Nat} (h : j < 32) :
    (m.putGran g x).byte (32 * g + j) = x.data.extractLsb' (8 * j) 8 := by
  have hin : 32 * g ≤ 32 * g + j ∧ 32 * g + j < 32 * g + 32 := by omega
  rw [Memory.putGran, Memory.byte_putMeta, Memory.byte_putBytes, natBytes_length, if_pos hin, Nat.add_sub_cancel_left, natBytes_getD h]
  rfl

/-! ### A home of plain HBM -/

/-- The home of a granule of a line is plain HBM of the line's partition: no key, no dirty log, no lock and no error that the injector has
chosen for it (R194, R218, R349, R377, R385). -/
structure State.PlainHome (s : State) (c : Fin 256) (l : L1Line) (g : Nat) : Prop where
  hbm : physOf (32 * g) = .hbm
  mapped : s.regionOk l.part (32 * g) = true
  unkeyed : s.keyOf l.part (some l.key) (32 * g) = none
  unhit : s.hit (dieOfCore c) l.part .l1 g = false
  unlocked : s.isLocked (.phys g) = false
  unlogged : (s.partOf l.part).logMode = 0

section
variable {s t : State} {c : Fin 256} {l : L1Line}

theorem State.PlainHome.frame {g : Nat} (h : s.PlainHome c l g) (k : s.HomeFrame t) : t.PlainHome c l g where
  hbm := h.hbm
  mapped := (k.regionOk _ _).trans h.mapped
  unkeyed := (k.keyOf _ _ _).trans h.unkeyed
  unhit := (k.hit _ _ _ _).trans h.unhit
  unlocked := (k.isLocked _).trans h.unlocked
  unlogged := (k.logMode _).trans h.unlogged

theorem State.PlainHome.mem_homeFrom {g : Nat} (h : s.PlainHome c l g) (x : Granule) : (s.homeFrom c l g x).mem = s.mem.putGran g x := by
  have hopen : s.closed l.part (32 * g) = false := by simp [State.closed, h.hbm, h.mapped]
  have hlog : ((s.hbmPut l.part (some l.key) g x).partOf l.part).logMode = 0 :=
    ((State.HomeFrame.hbmPut s l.part (some l.key) g x).logMode l.part).trans h.unlogged
  have hput : (s.hbmPut l.part (some l.key) g x).mem = s.mem.putGran g x := by
    simp [State.hbmPut, h.unkeyed, State.putStored, State.noted, State.keepPast]
  simp [State.homeFrom, h.unlocked, State.homePutNow, hopen, h.hbm, State.logDirty, hlog, hput, State.writtenBy]

/-- R182, R197: a dirty granule is in memory, with its poison bit set where the array has lost it; a clean one writes nothing. -/
theorem State.PlainHome.mem_writeBackGran {i : Nat} (h : s.PlainHome c l (4 * l.line + i)) (x : L1Gran) :
    (s.writeBackGran c l i x).mem = if x.dirty then s.mem.putGran (4 * l.line + i) (poisonIf x.bad x.g) else s.mem := by
  cases hd : x.dirty with
  | false => simp [State.writeBackGran, hd]
  | true =>
    simp only [State.writeBackGran, hd, h.unhit, injectIf, Bool.false_or, Bool.false_eq_true, if_false, if_true]
    split
    next => exact h.mem_homeFrom _
    next => exact h.mem_homeFrom _

@[simp] theorem poisonIf_data (b : Bool) (x : Granule) : (poisonIf b x).data = x.data := by
  cases b <;> rfl

theorem State.PlainHome.byte_writeBackGran_same {i b : Nat} (h : s.PlainHome c l (4 * l.line + i)) (x : L1Gran) (hb : b < 32) :
    (s.writeBackGran c l i x).mem.byte (32 * (4 * l.line + i) + b) =
      if x.dirty then x.g.data.extractLsb' (8 * b) 8 else s.mem.byte (32 * (4 * l.line + i) + b) := by
  rw [h.mem_writeBackGran]
  split
  next => rw [Memory.byte_putGran_same _ _ _ hb, poisonIf_data]
  next => rfl

theorem State.PlainHome.byte_writeBackGran_other {i a : Nat} (h : s.PlainHome c l (4 * l.line + i)) (x : L1Gran)
    (ha : a / 32 ≠ 4 * l.line + i) : (s.writeBackGran c l i x).mem.byte a = s.mem.byte a := by
  rw [h.mem_writeBackGran]
  split
  next => exact Memory.byte_putGran_other _ _ _ _ ha
  next => rfl

/-! ### The granules of a line -/

/-- The homes of m granules of a line, from the i-th on, are plain HBM of its partition. -/
def State.PlainHomes (s : State) (c : Fin 256) (l : L1Line) (i m : Nat) : Prop := ∀ k < m, s.PlainHome c l (4 * l.line + (i + k))

theorem State.PlainHomes.head {i m : Nat} (h : s.PlainHomes c l i (m + 1)) : s.PlainHome c l (4 * l.line + i) := h 0 m.succ_pos

/-- After the first granule has gone home, the homes of the rest are as they were. -/
theorem State.PlainHomes.tail {i m : Nat} (h : s.PlainHomes c l i (m + 1)) (x : L1Gran) :
    (s.writeBackGran c l i x).PlainHomes c l (i + 1) m := fun k hk => by
  have hhome := h (k + 1) (Nat.succ_lt_succ hk)
  rw [show i + (k + 1) = i + 1 + k by omega] at hhome
  exact hhome.frame (State.HomeFrame.writeBackGran s c l i x)

theorem State.PlainHomes.byte_writeBackGrans_other {xs : List L1Gran} {i a : Nat} (h : s.PlainHomes c l i xs.length)
    (ha : a / 32 < 4 * l.line + i ∨ 4 * l.line + i + xs.length ≤ a / 32) :
    (s.writeBackGrans c l i xs).mem.byte a = s.mem.byte a := by
  induction xs generalizing s i with
  | nil => rfl
  | cons x r ih =>
    rw [List.length_cons] at h ha
    calc (s.writeBackGrans c l i (x :: r)).mem.byte a
        = (s.writeBackGran c l i x).mem.byte a := ih (h.tail x) (by omega)
      _ = s.mem.byte a := h.head.byte_writeBackGran_other x (by omega)

theorem State.PlainHomes.byte_writeBackGrans {xs : List L1Gran} {i k b : Nat} {x : L1Gran} (h : s.PlainHomes c l i xs.length)
    (hx : xs[k]? = some x) (hb : b < 32) : (s.writeBackGrans c l i xs).mem.byte (32 * (4 * l.line + (i + k)) + b) =
      if x.dirty then x.g.data.extractLsb' (8 * b) 8 else s.mem.byte (32 * (4 * l.line + (i + k)) + b) := by
  induction xs generalizing s i k with
  | nil => simp at hx
  | cons y r ih =>
    rw [List.length_cons] at h
    cases k with
    | zero =>
      rw [List.getElem?_cons_zero, Option.some.injEq] at hx
      subst hx
      rw [State.writeBackGrans, (h.tail y).byte_writeBackGrans_other (by omega)]
      exact h.head.byte_writeBackGran_same y hb
    | succ k =>
      rw [State.writeBackGrans, show i + (k + 1) = i + 1 + k by omega, ih (h.tail y) hx, h.head.byte_writeBackGran_other y (by omega)]

end

/-! ### The line in the L1 (R183) -/

/-- A line none of whose granules is dirty any more. -/
def L1Line.cleaned (l : L1Line) : L1Line := { l with grans := l.grans.map fun x => { x with dirty := false } }

theorem L1Line.dirty_cleaned (l : L1Line) : ∀ x ∈ l.cleaned.grans, x.dirty = false := by
  simp [L1Line.cleaned]

theorem L1Line.g_cleaned (l : L1Line) : l.cleaned.grans.map (·.g) = l.grans.map (·.g) := by
  simp [L1Line.cleaned]

/-- What a search finds after the first match has changed into another match. -/
theorem find?_updFirst {α : Type} {p : α → Bool} {f : α → α} (hf : ∀ x, p x = true → p (f x) = true) (l : List α) :
    (updFirst p f l).find? p = (l.find? p).map f := by
  induction l with
  | nil => rfl
  | cons x r ih =>
    by_cases hx : p x = true
    · simp [updFirst, hx, hf x hx]
    · simp [updFirst, hx, ih]

section
variable {s : State} {c : Fin 256} {n : Nat}

theorem State.mem_writeBackLine_of_none (h : s.l1Line c n = none) : (s.writeBackLine c n).mem = s.mem := by
  simp only [State.writeBackLine, h, State.mapCore_mem]

section
variable {l : L1Line} (h : s.l1Line c n = some l)
include h

theorem State.mem_writeBackLine : (s.writeBackLine c n).mem = (s.writeBackGrans c l 0 l.grans).mem := by
  simp only [State.writeBackLine, h, State.mapCore_mem]

/-- The core after a line has gone home: its granules go to their homes, which changes no core. -/
theorem State.coreOf_writeBackLine : (s.writeBackLine c n).coreOf c = { s.coreOf c with
    l1 := updFirst (·.line == n) L1Line.cleaned (s.coreOf c).l1
    fifo := (s.coreOf c).fifo.filter (· != n) } := by
  have hcore : (s.writeBackGrans c l 0 l.grans).coreOf c = s.coreOf c := by
    rw [State.coreOf, (State.HomeFrame.writeBackGrans s c l 0 l.grans).cores]
    rfl
  simp only [State.writeBackLine, h, State.coreOf_mapCore, if_true, hcore]
  rfl

theorem State.l1Line_writeBackLine : (s.writeBackLine c n).l1Line c n = some l.cleaned := by
  have hfind : (s.coreOf c).l1.find? (fun l => l.line == n) = some l := h
  have hkeep : ∀ x : L1Line, (x.line == n) = true → (x.cleaned.line == n) = true := fun _ hx => hx
  simp only [State.l1Line, State.coreOf_writeBackLine h, find?_updFirst hkeep, hfind, Option.map_some]

theorem State.fifo_writeBackLine : n ∉ ((s.writeBackLine c n).coreOf c).fifo := by
  simp [State.coreOf_writeBackLine h]

end
end

/-! ### WRITE_BACK -/

theorem exec_writeBack (c : Fin 256) (n : Nat) (s : State) : exec (.writeBack c n) s = execWriteBack c n s := rfl

section
variable {s : State} {n : Nat}

theorem exec_writeBack_locked (h : s.lineLocked n = true) (c : Fin 256) : exec (.writeBack c n) s = .next s := by
  simp only [exec_writeBack, execWriteBack, h, if_true]

theorem exec_writeBack_unlocked (h : s.lineLocked n = false) (c : Fin 256) : exec (.writeBack c n) s = .next (s.writeBackLine c n) := by
  simp only [exec_writeBack, execWriteBack, h, Bool.false_eq_true, if_false]

end

/-! ### LOAD_BLOCK_FILL -/

theorem exec_loadBlockFill (i : SlotId) (h : Fin 16) (k : Fin 64) (s : State) :
    exec (.loadBlockFill i h k) s = execLoadBlockFill i h k s := rfl

section
variable {s : State} {i : SlotId} {h : Fin 16} {b : Nat × Block} (hb : (s.slotOf i).blocks.find? (fun b => b.1 == h.val) = some b)
  {k : Fin 64} {n : Nat}
include hb

theorem exec_loadBlockFill_missing (hl : s.lineLocked n = false) (hk : b.2.lines[k.val]? = some (n, false)) :
    exec (.loadBlockFill i h k) s = .next (s.fillBlockLine i h.val b.2 k.val n) := by
  simp only [exec_loadBlockFill, execLoadBlockFill, hb, hk, hl, Bool.false_eq_true, if_false]

theorem exec_loadBlockFill_filled (hk : b.2.lines[k.val]? = some (n, true)) : exec (.loadBlockFill i h k) s = .next s := by
  simp only [exec_loadBlockFill, execLoadBlockFill, hb, hk]

end

/-! ### POOL_SCRUB -/

/-- A page that has been scrubbed leaves the head of the scrub queue for the end of the scrubbed list (R204). -/
def Pool.pageScrubbed (n : Nat) (r : List Nat) (k : Pool) : Pool := { k with scrubQ := r, scrubbed := k.scrubbed ++ [n] }

theorem exec_poolScrub (p : Fin 16) (s : State) : exec (.poolScrub p) s = execPoolScrub p s := rfl

theorem State.pool_mapPool (s : State) (p : Fin 16) (f : Pool → Pool) :
    ((s.mapPool p f).partOf p).pool = (s.partOf p).pool.map f := by
  rw [State.mapPool, State.partOf_mapPart, if_pos rfl]

section
variable {s : State} {p : Fin 16}

theorem exec_poolScrub_quiescing (h : s.quiescing p = true) : exec (.poolScrub p) s = .next s := by
  simp only [exec_poolScrub, execPoolScrub, h, if_true]

variable {k : Pool} {n : Nat} {r : List Nat} {g : Page} (hp : (s.partOf p).pool = some k)
include hp

/-- A page of this device is scrubbed in place. -/
theorem exec_poolScrub_here (h : s.quiescing p = false) (hq : k.scrubQ = n :: r) (hs : s.pageSite p k n = some (.here g)) :
    exec (.poolScrub p) s =
      .next ((s.scrubGrans g.use (g.pa / 32) (2 ^ k.lg / 32)).mapPool p (Pool.pageScrubbed n r)) := by
  simp only [exec_poolScrub, execPoolScrub, State.scrubHead, h, hp, hq, hs, Option.isSome_some, Bool.false_eq_true, if_false, if_true]
  rfl

/-- The zeros that are written change no pool. -/
theorem State.pool_scrubGrans_mapPool (u : PageUse) (a m : Nat) (f : Pool → Pool) :
    (((s.scrubGrans u a m).mapPool p f).partOf p).pool = some (f k) := by
  rw [State.pool_mapPool, (State.HomeFrame.scrubGrans s u a m).pool, hp, Option.map_some]

end

/-! ### The obligation -/

/-- Settles O41: a write at a home leaves the L1, the pool and all that decides where the next granule goes (`State.HomeFrame`), so the
granules of a line reach their homes one by one, and the line and the pool then change as WRITE_BACK and POOL_SCRUB say. -/
theorem cacheSteps : Obligations.CacheSteps := by
  unfold Obligations.CacheSteps
  refine ⟨fun s c n l i h k b => ⟨fun hl => exec_writeBack_locked hl c, fun hl hn => ?_, fun hl hn => ?_,
    fun hb hl => ⟨exec_loadBlockFill_missing hb hl, exec_loadBlockFill_filled hb⟩⟩,
    fun s p k n r g => ⟨exec_poolScrub_quiescing, fun hq hp hh hs =>
      ⟨_, exec_poolScrub_here hp hq hh hs, rfl, State.pool_scrubGrans_mapPool hp _ _ _ _⟩⟩⟩
  · exact ⟨_, exec_writeBack_unlocked hl c, fun a => by rw [State.mem_writeBackLine_of_none hn]⟩
  · refine ⟨_, _, exec_writeBack_unlocked hl c, State.l1Line_writeBackLine hn, l.dirty_cleaned, l.g_cleaned, State.fifo_writeBackLine hn,
      fun hline hmode hhomes => ?_⟩
    subst hline
    have hplain : s.PlainHomes c l 0 l.grans.length := fun k hk => by
      obtain ⟨hhbm, hmap, hkey, hhit, hlock⟩ := hhomes k hk
      rw [Nat.zero_add]
      exact ⟨hhbm, hmap, hkey, hhit, hlock, hmode⟩
    rw [State.mem_writeBackLine hn]
    refine ⟨fun k x hx b hb => ?_, fun a ha => hplain.byte_writeBackGrans_other (by omega)⟩
    have hbyte := hplain.byte_writeBackGrans hx hb
    rwa [Nat.zero_add] at hbyte

end Sys2Proof.Machine
end

section
/-! PROOF. O10: a queued store reaches its home in plain memory (09 R206, 08 R167, R191): the bytes of a granule, what a home that is open to its
partition gives and takes, and STORE_PERFORM. -/

namespace Sys2Proof.Machine

/-! ### The bytes of a granule -/

theorem ofNat_bytesNat_shiftRight (l : List Byte) (j : Nat) : BitVec.ofNat 8 (bytesNat l >>> (8 * j)) = l.getD j 0 := by
  induction l generalizing j with
  | nil => simp [bytesNat]
  | cons b r ih =>
    cases j with
    | zero => exact BitVec.eq_of_toNat_eq (by simp [bytesNat, Nat.mod_eq_of_lt b.isLt])
    | succ j =>
      have hrest : bytesNat (b :: r) >>> 8 = bytesNat r := by
        rw [bytesNat, Nat.shiftRight_eq_div_pow]
        have := b.isLt
        omega
      rw [Nat.mul_succ, Nat.add_comm, Nat.shiftRight_add, hrest, ih, List.getD_cons_succ]

theorem extractLsb'_ofNat (x : Nat) {j : Nat} (h : j < 32) :
    (BitVec.ofNat 256 x).extractLsb' (8 * j) 8 = BitVec.ofNat 8 (x >>> (8 * j)) := by
  refine BitVec.eq_of_getLsbD_eq fun k hk => ?_
  have hin : 8 * j + k < 256 := by omega
  rw [BitVec.getLsbD_extractLsb', BitVec.getLsbD_ofNat, BitVec.getLsbD_ofNat, Nat.testBit_shiftRight]
  simp [hk, hin]

/-- A byte of 32 bytes that stand together, lowest first. -/
theorem byte_ofNat_bytesNat (l : List Byte) {j : Nat} (h : j < 32) :
    (BitVec.ofNat 256 (bytesNat l)).extractLsb' (8 * j) 8 = l.getD j 0 := by
  rw [extractLsb'_ofNat _ h, ofNat_bytesNat_shiftRight]

theorem byte_mergeBytes (old new : BitVec 256) (m : BitVec 32) {j : Nat} (h : j < 32) :
    (mergeBytes old new m).extractLsb' (8 * j) 8 =
      if m.getLsbD j then new.extractLsb' (8 * j) 8 else old.extractLsb' (8 * j) 8 := by
  rw [mergeBytes, byte_ofNat_bytesNat _ h]
  simp [h]

theorem getLsbD_byteMask (off size : Nat) {j : Nat} (h : j < 32) :
    (byteMask off size).getLsbD j = decide (off ≤ j ∧ j < off + size) := by
  rw [byteMask, BitVec.getLsbD_ofNat, Nat.testBit_mul_two_pow, Nat.testBit_two_pow_sub_one, Bool.eq_iff_iff]
  simp only [h, Bool.and_eq_true, decide_eq_true_eq, true_and]
  omega

theorem byte_placeAt (d : Word) {off k : Nat} (hk : k < 8) (h : off + k < 32) :
    (placeAt d off).extractLsb' (8 * (off + k)) 8 = d.extractLsb' (8 * k) 8 := by
  ext b hb
  have hin : 8 * (off + k) + b < 256 := by omega
  have hpast : ¬ 8 * (off + k) + b < 8 * off := by omega
  have hrest : 8 * (off + k) + b - 8 * off = 8 * k + b := by omega
  simp [placeAt, hin, hpast, hrest]

theorem Memory.take_getD (m : Memory) (a : Nat) {j n : Nat} (h : j < n) : (m.take a n).getD j 0 = m.byte (a + j) := by
  induction n generalizing a j with
  | zero => omega
  | succ n ih =>
    cases j with
    | zero => rfl
    | succ j => rw [Memory.take, List.getD_cons_succ, ih (a + 1) (Nat.lt_of_succ_lt_succ h), Nat.add_right_comm, Nat.add_assoc]

theorem Memory.byte_gran (m : Memory) (g : Nat) {j : Nat} (h : j < 32) :
    (m.gran g).data.extractLsb' (8 * j) 8 = m.byte (32 * g + j) := by
  rw [Memory.gran, byte_ofNat_bytesNat _ h, Memory.take_getD _ _ h]

/-! ### A granule that a store has changed -/

/-- What a queued store makes of a granule's data: its bytes in place, and a fresh seal (R191). -/
def StoreReq.stored (q : StoreReq) (d : BitVec 256) : Granule := mkGran (mergeBytes d q.bytes q.mask)

@[simp] theorem StoreReq.checkGran_stored (q : StoreReq) (d : BitVec 256) : checkGran (q.stored d) = none := by
  simp [checkGran, StoreReq.stored, mkGran]

section
variable (m : Memory) (g : Nat) (q : StoreReq)

theorem Memory.sealAt_putStored (d : BitVec 256) :
    (m.putGran g (q.stored d)).sealAt g = sealOf ((m.putGran g (q.stored d)).gran g).data := by
  have hgran := m.gran_putGran g (q.stored d)
  calc (m.putGran g (q.stored d)).sealAt g
      = ((m.putGran g (q.stored d)).gran g).code := rfl
    _ = sealOf ((m.putGran g (q.stored d)).gran g).data := by rw [hgran]; rfl

theorem Memory.byte_putStored_same {k : Nat} (hk : k < q.size) (hsize : q.size ≤ 8) (hfits : q.off + q.size ≤ 32) (d : BitVec 256) :
    (m.putGran g (q.stored d)).byte (32 * g + q.off + k) = q.data.extractLsb' (8 * k) 8 := by
  have hin : q.off + k < 32 := by omega
  have hmask : q.mask.getLsbD (q.off + k) = true := by
    rw [StoreReq.mask, getLsbD_byteMask _ _ hin, decide_eq_true_eq]
    omega
  rw [Nat.add_assoc, Memory.byte_putGran_same _ _ _ hin, StoreReq.stored, mkGran, byte_mergeBytes _ _ _ hin, if_pos hmask]
  exact byte_placeAt _ (by omega) hin

theorem Memory.byte_putStored_other {a : Nat} (ha : ¬ (32 * g + q.off ≤ a ∧ a < 32 * g + q.off + q.size)) :
    (m.putGran g (q.stored (m.gran g).data)).byte a = m.byte a := by
  by_cases hg : a / 32 = g
  · obtain ⟨j, hj, rfl⟩ : ∃ j < 32, a = 32 * g + j := ⟨a % 32, by omega, by omega⟩
    have hmask : q.mask.getLsbD j = false := by
      rw [StoreReq.mask, getLsbD_byteMask _ _ hj, decide_eq_false_iff_not]
      omega
    rw [Memory.byte_putGran_same _ _ _ hj, StoreReq.stored, mkGran, byte_mergeBytes _ _ _ hj, hmask, if_neg Bool.false_ne_true,
      Memory.byte_gran _ _ hj]
  · exact Memory.byte_putGran_other _ _ _ _ hg

end

theorem operandFault_none {l : List Byte} {crc : Option (BitVec 32)} (h : ∀ c, crc = some c → crc32c l = c) : operandFault l crc = none := by
  cases crc with
  | none => rfl
  | some c => exact if_pos (h c rfl)

theorem storeGran_ok {old : Granule} {q : StoreReq} (hold : checkGran old = none)
    (hcrc : ∀ c, q.crc = some c → crc32c (natBytes q.size q.data.toNat) = c) :
    storeGran old q.off q.size q.data q.crc = .ok (q.stored old.data) := by
  rw [storeGran, hold, operandFault_none hcrc]
  rfl

/-! ### What slots learn of a write -/

theorem tget_mapValues {α : Type} (d : α) (f : α → α) (hd : f d = d) (l : List (Nat × α)) (i : Nat) :
    tget d (l.map fun e => (e.1, f e.2)) i = f (tget d l i) := by
  induction l with
  | nil => exact hd.symm
  | cons e r ih =>
    simp only [List.map_cons, tget, ih]
    split <;> rfl

@[simp] theorem State.slotOf_noted (s : State) (l : Loc) (i : SlotId) : (s.noted l).slotOf i = (s.slotOf i).noted l :=
  tget_mapValues Slot.initial (·.noted l) rfl s.slots (slotKey i)

@[simp] theorem Slot.sq_noted (x : Slot) (l : Loc) : (x.noted l).sq = x.sq := rfl
@[simp] theorem Slot.active_noted (x : Slot) (l : Loc) : (x.noted l).active = x.active := rfl
@[simp] theorem Slot.active_dropStore (x : Slot) (k : Nat) : (x.dropStore k).active = x.active := rfl

/-- From s to t granule g of memory has become x, and every slot has learned of the write. -/
structure State.GranWritten (s t : State) (g : Nat) (x : Granule) : Prop where
  mem : t.mem = s.mem.putGran g x
  cur : t.cur = s.cur
  slots : ∀ j, t.slotOf j = (s.slotOf j).noted (.phys g)

theorem State.GranWritten.putStored (s : State) (g : Nat) (x old : Granule) : s.GranWritten (s.putStored g x old) g x :=
  ⟨rfl, rfl, State.slotOf_noted _ _⟩

section
variable {s t : State} {g : Nat} {x : Granule} (h : s.GranWritten t g x)
include h

theorem State.GranWritten.writtenBy (l : Loc) (i : Option SlotId) (c : Option (Fin 256)) : s.GranWritten (t.writtenBy l i c) g x :=
  ⟨h.mem, h.cur, h.slots⟩

theorem State.GranWritten.wakeQueues (p : Fin 16) (m : BitVec 4) : s.GranWritten (t.wakeQueues p m) g x :=
  ⟨h.mem, h.cur, h.slots⟩

/-- R107: a write that wakes the launch engine changes its partition alone. -/
theorem State.GranWritten.wakeBy (p : Fin 16) (l : Loc) (m : BitVec 32) (d : BitVec 256) : s.GranWritten (t.wakeBy p l m d) g x := by
  have hif (c : Prop) [Decidable c] (q : BitVec 4) : s.GranWritten (if c then t.wakeQueues p q else t) g x := by
    split
    next => exact h.wakeQueues p q
    next => exact h
  unfold State.wakeBy
  simp only
  split
  next => exact h
  next =>
    split
    next => exact hif _ _
    next => exact hif _ _
    next => exact h

theorem State.GranWritten.noteWake (p : Fin 16) (l : Loc) (w : Option (BitVec 32 × BitVec 256)) : s.GranWritten (t.noteWake p l w) g x := by
  cases w with
  | none => exact h
  | some w => exact h.wakeBy p l w.1 w.2

end

/-! ### A home that is open to its partition -/

/-- The home of granule g, in HBM or host memory, is open to partition p: in HBM it lies in a region of the partition, no commit holds it, its
page has no key and no dirty log, and no injector is set up on its die (R194, R218, R349, R377, R385). -/
structure State.OpenHome (s : State) (p : Fin 16) (key : Option (Fin 16)) (g : Nat) : Prop where
  present : physOf (32 * g) ≠ .hole
  mapped : physOf (32 * g) = .hbm → s.regionOk p (32 * g) = true
  unkeyed : s.keyOf p key (32 * g) = none
  unlogged : (s.partOf p).logMode = 0
  unlocked : s.isLocked (.phys g) = false
  uninjected : (s.dieOf (s.homeDie (32 * g))).injcfg = 0

theorem State.hit_uninjected {s : State} {d : Nat} (h : (s.dieOf d).injcfg = 0) (p : Fin 16) (x : Site) (n : Nat) : s.hit d p x n = false := by
  simp [State.hit, h]

namespace State.OpenHome

variable {s : State} {p : Fin 16} {key : Option (Fin 16)} {g : Nat} (h : s.OpenHome p key g)
include h

theorem not_closed : s.closed p (32 * g) = false := by
  by_cases hbm : physOf (32 * g) = .hbm
  · simp [State.closed, hbm, h.mapped hbm]
  · simp [State.closed, hbm, h.present]

theorem corrected_eq (c : Fin 256) : s.corrected c p g = s := by
  simp [State.corrected, State.hit_uninjected h.uninjected]

theorem homeGran_eq : s.homeGran p key g = s.storedGran p key g := by
  simp [State.homeGran, h.not_closed, State.hit_uninjected h.uninjected, sealFlipIf, injectIf]

theorem data_homeGran : (s.homeGran p key g).data = (s.mem.gran g).data := by
  rw [h.homeGran_eq, State.storedGran, h.unkeyed]
  split
  next => rfl
  next => rfl

/-- A granule that is good is stored as it is. -/
theorem granWritten_homePut {x : Granule} (hx : checkGran x = none) (dlog : Bool) : s.GranWritten (s.homePut p key dlog g x) g x := by
  rw [State.homePut, h.unlocked, if_neg Bool.false_ne_true]
  simp only [State.homePutNow, h.not_closed, Bool.false_eq_true, if_false]
  split
  next =>
    rw [State.egress, hx]
    exact .putStored s g x _
  next =>
    have hmode : ((s.hbmPut p key g x).partOf p).logMode = 0 := ((State.HomeFrame.hbmPut s p key g x).logMode p).trans h.unlogged
    have hlog : (s.hbmPut p key g x).logDirty p dlog (32 * g) = s.hbmPut p key g x := by simp [State.logDirty, hmode]
    rw [hlog]
    simp only [State.hbmPut, h.unkeyed]
    exact ⟨rfl, rfl, State.slotOf_noted _ _⟩

theorem mapSlot (i : SlotId) (f : Slot → Slot) : (s.mapSlot i f).OpenHome p key g :=
  ⟨h.present, h.mapped, h.unkeyed, h.unlogged, h.unlocked, h.uninjected⟩

end State.OpenHome

/-! ### A line that the L1 does not hold

Its eviction changes nothing but the core, which loses at most a place in its dirty FIFO. -/

section
variable {s : State} {c : Fin 256} {n : Nat} (hline : s.l1Line c n = none) {p : Fin 16} {key : Option (Fin 16)} {g : Nat}
include hline

theorem State.evictLine_of_none : s.evictLine c n = (s.mapCore c fun k => { k with fifo := k.fifo.filter (· != n) }).dropLine c n := by
  rw [State.evictLine, State.writeBackLine, hline]

theorem State.homeGran_evictLine : (s.evictLine c n).homeGran p key g = s.homeGran p key g := by
  rw [State.evictLine_of_none hline]
  rfl

theorem State.OpenHome.evictLine (h : s.OpenHome p key g) : (s.evictLine c n).OpenHome p key g := by
  rw [State.evictLine_of_none hline]
  exact ⟨h.present, h.mapped, h.unkeyed, h.unlogged, h.unlocked, h.uninjected⟩

theorem State.GranWritten.of_evictLine {t : State} {x : Granule} (h : (s.evictLine c n).GranWritten t g x) : s.GranWritten t g x := by
  rw [State.evictLine_of_none hline] at h
  exact ⟨h.mem, h.cur, h.slots⟩

end

/-! ### STORE_PERFORM -/

section
variable {s : State} {i : SlotId} {q : StoreReq} {n : Nat}

/-- R167, R191: a store that goes to an open home, past an L1 without its line, leaves its place in the queue and changes its granule. -/
theorem State.OpenHome.performStore (h : s.OpenHome (s.partNo i.core) (some q.key) n) (hloc : q.loc = .phys n) (hcached : q.cached = false)
    (hline : s.l1Line i.core (n / 4) = none) (hgood : checkGran (s.homeGran (s.partNo i.core) (some q.key) n) = none)
    (hcrc : ∀ c, q.crc = some c → crc32c (natBytes q.size q.data.toNat) = c) (k : Nat) :
    ∃ t, s.performStore i k q = .ok t ∧ (s.mapSlot i fun x => x.dropStore k).GranWritten t n (q.stored (s.mem.gran n).data) := by
  have hline' : (s.mapSlot i fun x => x.dropStore k).l1Line i.core (n / 4) = none := hline
  have hmiss : ¬ (q.cached = true ∨ q.uncached = false ∧ (s.l1Line i.core (n / 4)).isSome = true) := by simp [hcached, hline]
  have hhome := State.OpenHome.evictLine hline' (h.mapSlot i fun x => x.dropStore k)
  have hsame : ((s.mapSlot i fun x => x.dropStore k).evictLine i.core (n / 4)).homeGran (s.partNo i.core) (some q.key) n =
      s.homeGran (s.partNo i.core) (some q.key) n := State.homeGran_evictLine hline'
  have hgran := storeGran_ok hgood hcrc
  rw [h.data_homeGran] at hgran
  have hput := State.GranWritten.of_evictLine hline' (hhome.granWritten_homePut (q.checkGran_stored (s.mem.gran n).data) q.dlog)
  refine ⟨_, ?_, (hput.writtenBy q.loc (some i) none).noteWake (s.partNo i.core) q.loc q.wake⟩
  simp only [State.performStore, hloc, State.useOf]
  rw [if_neg hmiss, hhome.corrected_eq, hsame, hgran]

theorem State.storeLock_home (hcached : q.cached = false) (hlock : s.isLocked q.loc = false) : s.storeLock i q = none := by
  unfold State.storeLock
  split
  next => simp [hcached, hlock]
  next => simp [hlock]

theorem State.readyStores_only (hq : (s.slotOf i).sq = [q]) (hsent : q.sent = none) (hlock : s.storeLock i q = none) :
    s.readyStores i = [0] := by
  simp [State.readyStores, hq, hsent, hlock]

theorem State.performQueued_ok {t : State} {k : Nat} (hq : (s.slotOf i).sq[k]? = some q) (h : s.performStore i k q = .ok t) :
    s.performQueued i k = t := by
  simp only [State.performQueued, hq, h]

theorem exec_storePerform (i : SlotId) (s : State) : exec (.storePerform i) s = execStorePerform i s := rfl

theorem exec_storePerform_only {k : Nat} (htask : (s.slotOf i).task.isSome = true) (hready : s.readyStores i = [k]) :
    exec (.storePerform i) s = .next (s.performQueued i k) := by
  have hno : (s.slotOf i).task.isNone = false := by rw [← Option.not_isSome, htask]; rfl
  rw [exec_storePerform, execStorePerform, hready, hno, Bool.and_false, if_neg Bool.false_ne_true]

end

/-! ### The obligation -/

/-- Settles O10: the store is the one that is ready; at its home, which is open, it changes its granule alone (`State.OpenHome.performStore`), and
in it the bytes of its mask (`byte_mergeBytes`). -/
theorem storePerformed : Obligations.StorePerformed := by
  unfold Obligations.StorePerformed
  intro s i q n hq hsent hloc hcached hline hlock htask hcrc hpresent hmapped hkey hlog hgood hinj hfits hsize
  have hhome : s.OpenHome (s.partNo i.core) (some q.key) n := ⟨hpresent, hmapped, hkey, hlog, hloc ▸ hlock, hinj⟩
  obtain ⟨t, ht, hmem, hcur, hslots⟩ := hhome.performStore hloc hcached hline (State.homeGran_evictLine hline ▸ hgood) hcrc 0
  have hexec := exec_storePerform_only htask (State.readyStores_only hq hsent (State.storeLock_home hcached hlock))
  have hrun := State.performQueued_ok (k := 0) (by rw [hq]; rfl) ht
  rw [hrun] at hexec
  rw [State.mapSlot_mem] at hmem
  refine ⟨t, hexec, ?_, fun k hk => ?_, fun a ha => ?_, ?_, fun r => ?_⟩
  · simp [hslots, Slot.dropStore, hq]
  · rw [hmem, Memory.byte_putStored_same _ _ _ hk hsize hfits]
  · rw [hmem, Memory.byte_putStored_other _ _ _ ha]
  · rw [hmem, Memory.sealAt_putStored]
  · rw [State.reg, State.me, hslots, hcur, Slot.active_noted, State.slotOf_mapSlot]
    split
    next h => rw [Slot.active_dropStore, ← h]; rfl
    next => rfl

end Sys2Proof.Machine
end

section
/-! PROOF. O14: what PSPACE and PCAST say of a pointer (10 R229, R230), through the checks of DecodePtr (08 R16). -/

namespace Sys2Proof.Machine

/-! ### The cause that DecodePtr gives (R16, R230)

The checks of one byte, which is never misaligned, fail with one of the five causes that R230 lists; none of them is 0, the code of a pointer
that fails no check. -/

section
variable {s : State} {i : SlotId} {p : Word} {c : BitVec 8} {t : Word}

theorem State.decodePtr_byte_cause (h : s.decodePtr i p 1 = .error (c, t)) : c ∈ [0x04, 0x05, 0x06, 0x07, 0x09] := by
  have haligned : ¬ p.toNat % 1 ≠ 0 := by omega
  simp only [State.decodePtr, if_neg haligned] at h
  split at h
  case isTrue hglobal => split at h <;> cases h; decide
  split at h
  case isTrue hprivate => split at h <;> cases h; decide
  split at h
  case isFalse hwindow => cases h; decide
  split at h
  case isTrue hzeroField => cases h; decide
  split at h
  case isTrue hzeroFieldShared => cases h; decide
  split at h
  case isTrue hotherCore => cases h; decide
  split at h
  case isTrue hotherCluster => cases h; decide
  split at h
  case h_1 hunnamed => cases h; decide
  case h_2 g hnamed => split at h <;> cases h; decide

theorem State.decodePtr_byte_cause_ne_zero (h : s.decodePtr i p 1 = .error (c, t)) : c.setWidth 64 ≠ (0 : Word) := by
  have hlisted : ∀ c ∈ ([0x04, 0x05, 0x06, 0x07, 0x09] : List (BitVec 8)), c.setWidth 64 ≠ (0 : Word) := by decide
  exact hlisted c (State.decodePtr_byte_cause h)

theorem State.firstCause_error (h : s.decodePtr i p 1 = .error (c, t)) : s.firstCause i p = c.setWidth 64 := by
  rw [State.firstCause, h]

theorem State.firstCause_ok {x : Place} (h : s.decodePtr i p 1 = .ok x) : s.firstCause i p = 0 := by
  rw [State.firstCause, h]

end

/-! ### PCAST (R230) -/

section
variable {s : State} {d a b : Fin 32}

theorem exec_pcast (d a b : Fin 32) (s : State) : exec (.pcast d a b) s = .next (s.result d
    (if s.firstCause s.cur (s.reg a) = 0 ∧ s.reg b ≠ 0 then s.firstCause s.cur (s.reg a + s.reg b - 1)
      else s.firstCause s.cur (s.reg a))) := rfl

theorem computes_pcast_firstByte (h : s.firstCause s.cur (s.reg a) ≠ 0 ∨ s.reg b = 0) :
    Computes (.pcast d a b) s d (s.firstCause s.cur (s.reg a)) 0 :=
  computes_value (exec_pcast d a b s) (if_neg fun ⟨hpass, hn⟩ => h.elim (· hpass) hn)

theorem computes_pcast_lastByte (hpass : s.firstCause s.cur (s.reg a) = 0) (hn : s.reg b ≠ 0) :
    Computes (.pcast d a b) s d (s.firstCause s.cur (s.reg a + s.reg b - 1)) 0 :=
  computes_value (exec_pcast d a b s) (if_pos ⟨hpass, hn⟩)

theorem computes_pcast_fault {c : BitVec 8} {t : Word} (h : s.decodePtr s.cur (s.reg a) 1 = .error (c, t)) :
    Computes (.pcast d a b) s d (c.setWidth 64) 0 := by
  have hcause := State.firstCause_error h
  have hfails : s.firstCause s.cur (s.reg a) ≠ 0 := hcause ▸ State.decodePtr_byte_cause_ne_zero h
  exact hcause ▸ computes_pcast_firstByte (.inl hfails)

end

/-! ### PSPACE (R229, Table 6) -/

/-- The lowest field of a word whose other fields stand above it. -/
theorem bitsOf_word_add {m n len : Nat} (hlen : len ≤ 64) (hm : 2 ^ len ∣ m) (hn : n < 2 ^ len) : bitsOf (word (m + n)) 0 len = n := by
  obtain ⟨k, rfl⟩ := hm
  rw [bitsOf, word, BitVec.extractLsb'_toNat, BitVec.toNat_ofNat, Nat.shiftRight_zero, Nat.mod_mod_of_dvd _ (pow_dvd_pow 2 hlen),
    Nat.mul_add_mod, Nat.mod_eq_of_lt hn]

theorem dvd_ite_zero {m n : Nat} {P : Prop} [Decidable P] (h : m ∣ n) : m ∣ if P then n else 0 := by
  split
  next => exact h
  next => exact Nat.dvd_zero _

/-- Every other field of Table 6 stands above the four bits of win. -/
theorem State.pspace_win (s : State) (i : SlotId) (p : Word) : bitsOf (s.pspace i p) 0 4 = bitsOf p 60 4 := by
  have hwin : bitsOf p 60 4 < 2 ^ 4 := BitVec.isLt _
  refine bitsOf_word_add (by decide) (Nat.dvd_add (Nat.dvd_add (Nat.dvd_add (Nat.dvd_add ?room ?size) ?named) ?onCore) ?valid) hwin
  case room => exact Nat.dvd_mul_left_of_dvd (by decide) _
  case size =>
    split
    next => exact Nat.dvd_mul_left_of_dvd (by decide) _
    next => exact Nat.dvd_zero _
  case named => exact dvd_ite_zero (by decide)
  case onCore => exact dvd_ite_zero (by decide)
  case valid => exact dvd_ite_zero (by decide)

/-! ### The obligation -/

/-- Settles O14: both words end in `State.result`, which traps nothing and reads no memory (`computes_result`); that a cause of DecodePtr is not 0
(`State.decodePtr_byte_cause_ne_zero`) keeps PCAST from going on to the last byte. -/
theorem pointerInspection : Obligations.PointerInspection := by
  unfold Obligations.PointerInspection
  intro s d a b
  refine ⟨computes_result rfl, fun c t hfault => computes_pcast_fault hfault, fun x hfirst => ?_, State.pspace_win s s.cur _⟩
  have hpass : s.firstCause s.cur (s.reg a) = 0 := State.firstCause_ok hfirst
  refine ⟨fun hn => ?_, fun c t hn hlast => ?_, fun y hn hlast => ?_⟩
  · exact hpass ▸ computes_pcast_firstByte (.inr hn)
  · exact State.firstCause_error hlast ▸ computes_pcast_lastByte hpass hn
  · exact State.firstCause_ok hlast ▸ computes_pcast_lastByte hpass hn

end Sys2Proof.Machine
end

section
/-! PROOF. O38: a copy command is taken, performed unit by unit and completed (12 R251, R252; 95 R272), and the lines that it wrote leave the
issuer's L1 (09 R214). -/

namespace Sys2Proof.Machine

/-! ### C_START and COPY_UNIT -/

theorem exec_cStart (i : SlotId) (s : State) : exec (.cStart i) s = execCStart i s := rfl

/-- R251: the head word of the slot whose turn it is starts on a free channel, once the commands that waited for admission have been asked. -/
theorem exec_cStart_takes {s s1 : State} {i : SlotId} {q : QEntry} {w : CWord} {y : Slot} (hrun : s.runs i.core = true)
    (hs1 : (List.finRange 8).foldl (fun t h => t.cRetry i h) s = s1) (hhead : s1.cHead i = some (q, w)) (hturn : s1.cTurn i = true)
    (hfree : ((s1.slotOf i).chan w.chan).run = none) (htok : (s1.slotOf i).startTokens .c q.word q.popped = some y) :
    exec (.cStart i) s = .next ((s1.mapCore i.core fun k => { k with copySlot := i.slot }).cTake i q w y) := by
  simp only [exec_cStart, execCStart, hrun, hs1, hhead, hturn, hfree, htok, Option.isSome_none, Bool.true_eq_false, Bool.false_eq_true,
    if_false]

theorem exec_copyUnit (i : SlotId) (h : Fin 8) (s : State) : exec (.copyUnit i h) s = execCopyUnit i h s := rfl

/-- What the answer of a unit leaves of the device: the command at its next unit, or the place where it waits, or the command stopped with its
fault, of whose unit only the error logs keep what it met (R272, R188). -/
def State.afterUnit (s : State) (i : SlotId) (h : Fin 8) (e : Except CStop (CRun × State)) : State :=
  match e with
  | .ok (r, t) => t.setRun i h (some r)
  | .error (.wait t) => t.getD s
  | .error (.err dies inj c t0 t1 n) => ({ s with dies := dies }).cFault i h inj c t0 t1 n

/-- R272: an admitted command that no fault has stopped, with units left and room in its port, performs its next one. -/
theorem exec_copyUnit_next {s : State} {i : SlotId} {h : Fin 8} {r : CRun} {w : CWord} {k : CKind} (hrun : s.runs i.core = true)
    (hr : ((s.slotOf i).chan h).run = some r) (hadm : r.admitted = true) (hgo : r.stopped = false) (hmore : r.elem < cTotal r.img)
    (hport : (s.slotOf i).cPortOpen h r.img = true) (hw : cWordOf r.q.word = some w) (hk : w.kind = some k)
    {e : Except CStop (CRun × State)} (hunit : cRunUnit i h r w k s = e) :
    exec (.copyUnit i h) s = .next (s.afterUnit i h e) := by
  obtain ⟨c, d, b, _⟩ := w
  cases hk
  have hnext : ¬ (r.admitted = false ∨ r.stopped = true ∨ r.elem ≥ cTotal r.img ∨ (s.slotOf i).cPortOpen h r.img = false) := by
    simp [hadm, hgo, hmore, hport]
  simp only [exec_copyUnit, execCopyUnit, hrun, hr, hw, if_neg hnext, hunit]
  rfl

/-! ### What slots learn when a line leaves for its home

Writes at homes change nothing of a slot but what it knows of them (R218, R161). -/

/-- From s to t every slot has learned of some writes at homes. -/
def State.SlotsLearn (s t : State) : Prop := ∀ j, ∃ ls : List Loc, t.slotOf j = ls.foldl Slot.noted (s.slotOf j)

namespace State.SlotsLearn

theorem of_slots {s t : State} (h : t.slots = s.slots) : s.SlotsLearn t := fun j => ⟨[], by simp only [State.slotOf, h, List.foldl_nil]⟩

theorem trans {s t u : State} (h : s.SlotsLearn t) (k : t.SlotsLearn u) : s.SlotsLearn u := fun j => by
  obtain ⟨ls, hl⟩ := h j
  obtain ⟨ms, hm⟩ := k j
  exact ⟨ls ++ ms, by rw [hm, hl, List.foldl_append]⟩

theorem bank {s t : State} (h : s.SlotsLearn t) (j : SlotId) : (t.slotOf j).bank = (s.slotOf j).bank := by
  obtain ⟨ls, hl⟩ := h j
  rw [hl]
  exact List.foldlRecOn ls Slot.noted (motive := fun x : Slot => x.bank = (s.slotOf j).bank) rfl fun _ hx _ _ => hx

theorem putStored (s : State) (g : Nat) (y old : Granule) : s.SlotsLearn (s.putStored g y old) :=
  fun j => ⟨[.phys g], (State.GranWritten.putStored s g y old).slots j⟩

theorem egress (s : State) (p : Fin 16) (g : Nat) (x : Granule) : s.SlotsLearn (s.egress p g x).1 := by
  unfold State.egress
  split
  next => exact of_slots rfl
  next => exact of_slots rfl

theorem logDirty (s : State) (p : Fin 16) (dlog : Bool) (pa : Nat) : s.SlotsLearn (s.logDirty p dlog pa) := by
  unfold State.logDirty
  simp only
  split
  next => exact putStored s _ _ _
  next => exact of_slots rfl

theorem homePutNow (s : State) (p : Fin 16) (key : Option (Fin 16)) (dlog : Bool) (g : Nat) (x : Granule) :
    s.SlotsLearn (s.homePutNow p key dlog g x) := by
  have hhbm : s.SlotsLearn (s.hbmPut p key g x) := putStored _ g _ _
  unfold State.homePutNow
  simp only
  split
  next => exact of_slots rfl
  next =>
    split
    next => exact (egress s p g x).trans (putStored _ g _ _)
    next => exact hhbm.trans (logDirty _ p dlog _)

theorem homeFrom (s : State) (c : Fin 256) (l : L1Line) (g : Nat) (x : Granule) : s.SlotsLearn (s.homeFrom c l g x) := by
  unfold State.homeFrom
  split
  next => exact of_slots rfl
  next => exact (homePutNow s _ _ _ g x).trans (of_slots rfl)

theorem writeBackGran (s : State) (c : Fin 256) (l : L1Line) (i : Nat) (x : L1Gran) : s.SlotsLearn (s.writeBackGran c l i x) := by
  unfold State.writeBackGran
  simp only
  split
  next =>
    split
    next => exact (homeFrom s c l _ _).trans (of_slots rfl)
    next => exact homeFrom s c l _ _
  next => exact of_slots rfl

theorem writeBackGrans (s : State) (c : Fin 256) (l : L1Line) (i : Nat) (xs : List L1Gran) : s.SlotsLearn (s.writeBackGrans c l i xs) := by
  induction xs generalizing s i with
  | nil => exact of_slots rfl
  | cons x r ih => exact (writeBackGran s c l i x).trans (ih _ _)

theorem writeBackLine (s : State) (c : Fin 256) (n : Nat) : s.SlotsLearn (s.writeBackLine c n) := by
  unfold State.writeBackLine
  split
  next => exact of_slots rfl
  next => exact (writeBackGrans s c _ _ _).trans (of_slots rfl)

theorem leaveLine (s : State) (c : Fin 256) (n : Nat) : s.SlotsLearn (s.leaveLine c n) := (writeBackLine s c n).trans (of_slots rfl)

end State.SlotsLearn

/-! ### A line that a command wrote leaves the L1 (R214) -/

theorem map_updFirst {α β : Type} {g : α → β} {f : α → α} (hf : ∀ x, g (f x) = g x) (p : α → Bool) (l : List α) :
    (updFirst p f l).map g = l.map g := by
  induction l with
  | nil => rfl
  | cons x r ih =>
    rw [updFirst]
    split
    next => rw [List.map_cons, List.map_cons, hf]
    next => rw [List.map_cons, List.map_cons, ih]

/-- The numbers of the lines that the L1 of a core holds. -/
def State.l1Numbers (s : State) (c : Fin 256) : List Nat := (s.coreOf c).l1.map (·.line)

theorem State.l1Line_eq_none_iff {s : State} {c : Fin 256} {n : Nat} : s.l1Line c n = none ↔ n ∉ s.l1Numbers c := by
  simp [State.l1Line, State.l1Numbers]

section
variable (s : State) (c : Fin 256) (n : Nat)

/-- A line that goes home stays in the L1, where nothing but its granules changes. -/
theorem State.l1Numbers_writeBackLine : (s.writeBackLine c n).l1Numbers c = s.l1Numbers c := by
  cases hl : s.l1Line c n with
  | none => simp only [State.l1Numbers, State.writeBackLine, hl, State.coreOf_mapCore, if_true]
  | some l =>
    rw [State.l1Numbers, State.coreOf_writeBackLine hl]
    exact map_updFirst (f := L1Line.cleaned) (fun _ => rfl) _ _

theorem State.floors_writeBackLine : ((s.writeBackLine c n).coreOf c).floors = (s.coreOf c).floors := by
  cases hl : s.l1Line c n with
  | none => simp only [State.writeBackLine, hl, State.coreOf_mapCore, if_true]
  | some l => rw [State.coreOf_writeBackLine hl]

theorem State.cycle_writeBackLine : (s.writeBackLine c n).cycle = s.cycle := by
  cases hl : s.l1Line c n with
  | none => simp only [State.writeBackLine, hl, State.mapCore_cycle]
  | some l =>
    simp only [State.writeBackLine, hl, State.mapCore_cycle]
    exact (State.HomeFrame.writeBackGrans s c l 0 l.grans).cycle

theorem State.now_leaveLine : (s.leaveLine c n).now = s.now := congrArg (· + 1) (s.cycle_writeBackLine c n)

theorem State.l1Numbers_leaveLine : (s.leaveLine c n).l1Numbers c = (s.l1Numbers c).filter (· != n) := by
  rw [← s.l1Numbers_writeBackLine c n]
  simp [State.l1Numbers, State.leaveLine, State.evictLine, State.dropLine, List.filter_map, Function.comp_def]

theorem State.floors_leaveLine : ((s.leaveLine c n).coreOf c).floors = tput (s.coreOf c).floors n s.now := by
  simp [State.leaveLine, State.evictLine, State.dropLine, State.floors_writeBackLine]

end

/-- A line is not in the L1 of a core, which fills it from no point before now. -/
structure State.LineLeft (s : State) (c : Fin 256) (n : Nat) : Prop where
  gone : s.l1Line c n = none
  floor : tget 0 (s.coreOf c).floors n = s.now

theorem State.lineLeft_leaveLine (s : State) (c : Fin 256) (n : Nat) : (s.leaveLine c n).LineLeft c n where
  gone := by simp [State.l1Line_eq_none_iff, State.l1Numbers_leaveLine]
  floor := by simp [State.floors_leaveLine, State.now_leaveLine]

theorem State.LineLeft.leaveLine {s : State} {c : Fin 256} {m : Nat} (h : s.LineLeft c m) (n : Nat) : (s.leaveLine c n).LineLeft c m where
  gone := by
    have hgone := State.l1Line_eq_none_iff.mp h.gone
    simp [State.l1Line_eq_none_iff, State.l1Numbers_leaveLine, hgone]
  floor := by simp [State.floors_leaveLine, State.now_leaveLine, h.floor]

/-- Lines leave the L1 of a core one after another. -/
def State.leaveLines (s : State) (c : Fin 256) (ls : List Nat) : State := ls.foldl (fun t n => t.leaveLine c n) s

namespace State

theorem now_leaveLines (s : State) (c : Fin 256) (ls : List Nat) : (s.leaveLines c ls).now = s.now :=
  List.foldlRecOn ls _ (motive := fun t : State => t.now = s.now) rfl fun t ht n _ => (t.now_leaveLine c n).trans ht

theorem SlotsLearn.leaveLines (s : State) (c : Fin 256) (ls : List Nat) : s.SlotsLearn (s.leaveLines c ls) :=
  List.foldlRecOn ls _ (motive := s.SlotsLearn) (of_slots rfl) fun t ht n _ => ht.trans (leaveLine t c n)

theorem LineLeft.leaveLines {s : State} {c : Fin 256} {m : Nat} (h : s.LineLeft c m) (ls : List Nat) : (s.leaveLines c ls).LineLeft c m :=
  List.foldlRecOn ls _ (motive := fun t : State => t.LineLeft c m) h fun _ ht n _ => ht.leaveLine n

theorem lineLeft_leaveLines (s : State) (c : Fin 256) {ls : List Nat} {n : Nat} (hn : n ∈ ls) : (s.leaveLines c ls).LineLeft c n := by
  induction ls generalizing s with
  | nil => cases hn
  | cons m r ih =>
    rcases List.mem_cons.mp hn with rfl | hr
    · exact (s.lineLeft_leaveLine c n).leaveLines r
    · exact ih (s.leaveLine c m) hr

end State

/-! ### C_COMPLETE -/

@[simp] theorem Slot.chan_setChan (x : Slot) (h j : Fin 8) (k : Chan) : (x.setChan h k).chan j = if j = h then k else x.chan j := by
  simp [Slot.chan, Slot.setChan, Fin.ext_iff]

/-- R262: the entries of a number that is done are done. -/
theorem Slot.done_of_mem_journalDone (x : Slot) (seq c : Nat) : ∀ e ∈ (x.journalDone seq c).eng.qs.journal, e.seq = seq → e.done = true := by
  intro e he hseq
  obtain ⟨e', -, rfl⟩ := List.mem_map.mp he
  split at hseq
  next hs => rw [if_pos hs]
  next hs => exact absurd hseq hs

/-- The token that a finished command posts (R254). -/
def Slot.copyPosted (x : Slot) (r : CRun) : Slot :=
  match postEng .c r.q.word with
  | some b => x.postToken .c b
  | none => x

theorem Slot.bank_copyPosted (x : Slot) (r : CRun) : (x.copyPosted r).bank = x.bank := by
  unfold Slot.copyPosted
  split <;> rfl

theorem Slot.chan_copyPosted (x : Slot) (r : CRun) (h : Fin 8) : (x.copyPosted r).chan h = x.chan h := by
  unfold Slot.copyPosted
  split <;> rfl

/-- The command on a channel of a slot is done (R252, R268): its token, its flags, its id, and its journal entry. -/
def Slot.copyDone (x : Slot) (h : Fin 8) (r : CRun) (c : Nat) : Slot :=
  let y := x.copyPosted r
  let z := { y with bank := { y.bank with flags := y.bank.flags ||| r.flags.setWidth 12 } }
  (z.setChan h { z.chan h with doneId := r.q.tid, run := none }).journalDone r.q.seq c

section
variable (x : Slot) (h : Fin 8) (r : CRun) (c : Nat)

theorem Slot.chan_copyDone : (x.copyDone h r c).chan h = { x.chan h with doneId := r.q.tid, run := none } :=
  calc (x.copyDone h r c).chan h
    _ = ((x.copyPosted r).setChan h { (x.copyPosted r).chan h with doneId := r.q.tid, run := none }).chan h := rfl
    _ = { x.chan h with doneId := r.q.tid, run := none } := by rw [Slot.chan_setChan, if_pos rfl, Slot.chan_copyPosted]

theorem Slot.flags_copyDone : (x.copyDone h r c).bank.flags = x.bank.flags ||| r.flags.setWidth 12 :=
  congrArg (fun b : Bank => b.flags ||| r.flags.setWidth 12) (x.bank_copyPosted r)

end

theorem exec_cComplete (i : SlotId) (h : Fin 8) (s : State) : exec (.cComplete i h) s = execCComplete i h s := rfl

/-- R252, R214: a command all of whose units are acknowledged, and none of whose lines holds dirty data for a locked place, is done. -/
theorem exec_cComplete_done {s : State} {i : SlotId} {h : Fin 8} {r : CRun} (hr : ((s.slotOf i).chan h).run = some r)
    (hadm : r.admitted = true) (hall : cTotal r.img ≤ r.elem) (hack : s.cUnacked i h r = false)
    (hheld : ∀ n ∈ r.lines, s.lineHeld i.core n = false) :
    exec (.cComplete i h) s =
      .next (((s.leaveLines i.core r.lines).endCopyPins r.pins).mapSlot i fun x => x.copyDone h r s.cycle) := by
  have hdone : ¬ (r.admitted = false ∨ r.elem < cTotal r.img ∨ s.cUnacked i h r = true ∨ r.lines.any (s.lineHeld i.core) = true) := by
    simpa [hadm, hall, hack] using hheld
  simp only [exec_cComplete, execCComplete, hr, if_neg hdone]
  rfl

/-! ### The obligation -/

/-- Settles O38: C_START and COPY_UNIT are the named cases of their steps; at C_COMPLETE the command's lines leave the L1 one by one
(`State.lineLeft_leaveLines`), of which a slot learns no more than that homes were written (`State.SlotsLearn`), and the slot's command is done
(`Slot.copyDone`). -/
theorem copySteps : Obligations.CopySteps := by
  unfold Obligations.CopySteps
  intro s t i h q w y r r1 k
  refine ⟨fun hrun hhead hturn hfree htok => exec_cStart_takes hrun rfl hhead hturn hfree htok,
    fun hrun hr hadm hgo hmore hport w hw hk => ⟨exec_copyUnit_next hrun hr hadm hgo hmore hport hw hk,
      fun l e c t0 t1 n => exec_copyUnit_next hrun hr hadm hgo hmore hport hw hk⟩,
    fun hr hadm hall hack hheld => ⟨_, exec_cComplete_done hr hadm hall hack hheld, ?_⟩⟩
  have hslot : ((((s.leaveLines i.core r.lines).endCopyPins r.pins).mapSlot i fun x => x.copyDone h r s.cycle).slotOf i) =
      ((s.leaveLines i.core r.lines).slotOf i).copyDone h r s.cycle :=
    (State.slotOf_mapSlot _ i i _).trans (if_pos rfl)
  rw [hslot, Slot.chan_copyDone, Slot.flags_copyDone, (State.SlotsLearn.leaveLines s i.core r.lines).bank]
  refine ⟨rfl, rfl, rfl, Slot.done_of_mem_journalDone _ _ _, fun n hn => ?_, rfl⟩
  obtain ⟨hgone, hfloor⟩ := s.lineLeft_leaveLines i.core hn
  exact ⟨hgone, hfloor.trans (s.now_leaveLines i.core r.lines)⟩

end Sys2Proof.Machine
end

section
/-! PROOF. O39: an M command is taken, stepped, stopped and completed, and a lease that stays idle ends (12 R278, R286 to R289; 95 R303). -/

namespace Sys2Proof.Machine

/-! ### M_START and MICRO_STEP -/

theorem exec_mStart (i : SlotId) (s : State) : exec (.mStart i) s = execMStart i s := rfl

/-- R251, R303: under the lease, the head word of a queue that is not stopped starts when no command is in progress, its stores and its partners
are ready, and its tokens are there. -/
theorem exec_mStart_takes {s s1 : State} {i : SlotId} {q : QEntry} {l : List QEntry} {y : Slot} (hrun : s.runs i.core = true)
    (hlease : s.takeLease i = some s1) (hstop : (s1.slotOf i).eng.qs.mStop = false) (hfree : (s1.slotOf i).eng.mrun = none)
    (hhead : (s1.slotOf i).eng.qs.mq = q :: l) (hwithin : s1.withinLease (clusterOfCore i.core) q = true)
    (hstores : s1.lockedStores i = false) (hbands : (s1.bandSlots i (wordParts q.word)).isSome = true)
    (htok : (s1.slotOf i).startTokens .m q.word q.popped = some y) : exec (.mStart i) s = .next (s1.mTake i q y) := by
  have hready : ¬ (s1.withinLease (clusterOfCore i.core) q = false ∨ s1.lockedStores i = true ∨
      (s1.bandSlots i (wordParts q.word)).isNone = true) := by
    simpa [hwithin, hstores, ← Option.isSome_iff_ne_none] using hbands
  simp only [exec_mStart, execMStart, hrun, hlease, hstop, hfree, hhead, if_neg hready, htok, Bool.true_eq_false, Bool.false_eq_true,
    if_false]

theorem exec_microStep (i : SlotId) (s : State) : exec (.microStep i) s = execMicroStep i s := rfl

/-- What the answer of a step leaves of the device: the command at its next step, counted in the lease, or the command stopped with its fault,
with nothing of the step (R286, R303 step 7). -/
def State.afterStep (s : State) (i : SlotId) (p : MPlan) (e : Except MErr (State × Sticky)) : State :=
  match e with
  | .ok (t, f) => (t.mapRun i fun r => { p.advance r with flags := r.flags ||| f }).mapCluster (clusterOfCore i.core) fun k =>
      { k with steps := k.steps + p.parts }
  | .error e => s.mErr i e

section
variable {s : State} {i : SlotId} {r : MRun} {fw : BitVec 32} {fq : List (BitVec 32)} {p : MPlan}
  (hrun : s.runs i.core = true) (hholder : (s.clusterOf (clusterOfCore i.core)).holder = some i)
  (hr : (s.slotOf i).eng.mrun = some r) (hfq : (s.slotOf i).eng.qs.fq = fw :: fq)
include hrun hholder hr hfq

/-- R218: a step waits while a commit holds a granule of the command's segments locked. -/
theorem exec_microStep_waits (hlock : s.segLocked r.pins = true) : exec (.microStep i) s = .next s := by
  simp only [exec_microStep, execMicroStep, hrun, hholder, hr, hfq, hlock, or_true, if_true, ne_eq, not_true_eq_false, Bool.true_eq_false,
    or_self, if_false]

/-- R286: the lease holder's admitted command performs its next step. -/
theorem exec_microStep_next (hadm : r.admitted = true) (hmore : r.finished = false) (hplan : (s.slotOf i).planOf r.q fw = some p)
    (hlock : s.segLocked r.pins = false) : exec (.microStep i) s = .next (s.afterStep i p (s.mStep i p r)) := by
  simp only [exec_microStep, execMicroStep, hrun, hholder, hr, hfq, hadm, hmore, hlock, hplan, ne_eq, not_true_eq_false, Bool.true_eq_false,
    Bool.false_eq_true, or_self, if_false]
  cases s.mStep i p r <;> rfl

end

/-! ### What ends beside a slot -/

theorem core_of_mem_slotsOf {c : Fin 256} {j : SlotId} (h : j ∈ slotsOf c) : j.core = c := by
  simp only [slotsOf, List.mem_cons, List.not_mem_nil, or_false] at h
  rcases h with rfl | rfl | rfl | rfl <;> rfl

/-- From s to t neither slot i nor memory has changed. -/
structure State.KeptAt (s t : State) (i : SlotId) : Prop where
  slot : t.slotOf i = s.slotOf i
  mem : t.mem = s.mem

namespace State.KeptAt

theorem trans {s t u : State} {i : SlotId} (h : s.KeptAt t i) (k : t.KeptAt u i) : s.KeptAt u i :=
  ⟨k.slot.trans h.slot, k.mem.trans h.mem⟩

theorem mapSlot_ne (s : State) {i j : SlotId} (h : i ≠ j) (f : Slot → Slot) : s.KeptAt (s.mapSlot j f) i :=
  ⟨(s.slotOf_mapSlot j i f).trans (if_neg h), rfl⟩

theorem mapCluster (s : State) (c : Fin 64) (f : Cluster → Cluster) (i : SlotId) : s.KeptAt (s.mapCluster c f) i := ⟨rfl, rfl⟩

theorem endLease (s : State) (c : Fin 64) (i : SlotId) : s.KeptAt (s.endLease c) i := mapCluster s c _ i

theorem releaseIfDone (s : State) (c : Fin 64) (i : SlotId) : s.KeptAt (s.releaseIfDone c) i := by
  unfold State.releaseIfDone
  simp only
  split
  next =>
    split
    next => exact ⟨rfl, rfl⟩
    next => exact endLease s c i
  next => exact ⟨rfl, rfl⟩

theorem countCommand (s : State) (c : Fin 64) (i : SlotId) : s.KeptAt (s.countCommand c) i := by
  unfold State.countCommand
  simp only
  split
  next => exact (mapCluster s c _ i).trans (endLease _ c i)
  next => exact (mapCluster s c _ i).trans (releaseIfDone _ c i)

theorem sweepBands (s : State) (l : List (SlotId × Nat)) (i : SlotId) : s.KeptAt (s.sweepBands l) i :=
  List.foldlRecOn l _ (motive := fun t : State => s.KeptAt t i) ⟨rfl, rfl⟩ fun _ ht _ _ => ht.trans ⟨rfl, rfl⟩

/-- R279: grant tokens go to the slots of other cores than the leader's. -/
theorem grantTokens (s : State) (i : SlotId) (l : List (SlotId × Nat)) : s.KeptAt (s.grantTokens i l) i := by
  induction l generalizing s with
  | nil => exact ⟨rfl, rfl⟩
  | cons e l ih =>
    obtain ⟨b, n⟩ := e
    have hother (hb : b.core ≠ i.core) {j : SlotId} (hj : j ∈ slotsOf b.core) : i ≠ j := by
      rintro rfl
      exact hb (core_of_mem_slotsOf hj).symm
    refine KeptAt.trans ?_ (ih _)
    split
    next => exact ⟨rfl, rfl⟩
    next hb =>
      split
      next j hj => exact mapSlot_ne s (hother hb (List.mem_of_find?_eq_some hj)) _
      next =>
        exact KeptAt.trans (List.foldlRecOn (slotsOf b.core) _ (motive := fun t : State => s.KeptAt t i) ⟨rfl, rfl⟩
          fun t ht j hj => ht.trans (mapSlot_ne t (hother hb hj) _)) ⟨rfl, rfl⟩

end State.KeptAt

/-! ### M_COMPLETE -/

/-- The token that a finished command posts (R254). -/
def Slot.matrixPosted (x : Slot) (r : MRun) : Slot :=
  match postEng .m r.q.word with
  | some b => x.postToken .m b
  | none => x

theorem Slot.bank_matrixPosted (x : Slot) (r : MRun) : (x.matrixPosted r).bank = x.bank := by
  unfold Slot.matrixPosted
  split <;> rfl

theorem Slot.qs_matrixPosted (x : Slot) (r : MRun) : (x.matrixPosted r).eng.qs = x.eng.qs := by
  unfold Slot.matrixPosted
  split <;> rfl

/-- The M command of a slot is done (R252, R289): its token, its flags, its format word, and its journal entry. -/
def Slot.matrixDone (x : Slot) (r : MRun) (c : Nat) : Slot :=
  let y := x.matrixPosted r
  let z := { y with
    bank := { y.bank with flags := y.bank.flags ||| r.flags.setWidth 12 }
    eng := { y.eng with mrun := none, mupc := 0, qs := { y.eng.qs with fq := y.eng.qs.fq.tail } } }
  z.journalDone r.q.seq c

section
variable (x : Slot) (r : MRun) (c : Nat)

theorem Slot.mrun_matrixDone : (x.matrixDone r c).eng.mrun = none := rfl

theorem Slot.mupc_matrixDone : (x.matrixDone r c).eng.mupc = 0 := rfl

theorem Slot.fq_matrixDone : (x.matrixDone r c).eng.qs.fq = x.eng.qs.fq.tail :=
  congrArg (fun q : Queues => q.fq.tail) (x.qs_matrixPosted r)

theorem Slot.flags_matrixDone : (x.matrixDone r c).bank.flags = x.bank.flags ||| r.flags.setWidth 12 :=
  congrArg (fun b : Bank => b.flags ||| r.flags.setWidth 12) (x.bank_matrixPosted r)

end

/-- The state in which a completed command has left its slot, its segments, its partners and its banks (R289, R279, R343). -/
def State.matrixLeft (s : State) (i : SlotId) (r : MRun) : State :=
  (((s.unpinAll r.pins).mapSlot i fun x => x.matrixDone r s.cycle).grantTokens i r.bands).sweepBands r.bands

theorem State.mFinish_eq (s : State) (i : SlotId) (r : MRun) : s.mFinish i r =
    if ((s.matrixLeft i r).clusterOf (clusterOfCore i.core)).holder = some i then (s.matrixLeft i r).countCommand (clusterOfCore i.core)
    else s.matrixLeft i r := rfl

/-- R289, R279: of its own slot and of memory, a completion leaves what its command left. -/
theorem State.keptAt_mFinish (s : State) (i : SlotId) (r : MRun) :
    ((s.unpinAll r.pins).mapSlot i fun x => x.matrixDone r s.cycle).KeptAt (s.mFinish i r) i := by
  have hends := (State.KeptAt.grantTokens ((s.unpinAll r.pins).mapSlot i fun x => x.matrixDone r s.cycle) i r.bands).trans
    (State.KeptAt.sweepBands _ r.bands i)
  rw [s.mFinish_eq]
  split
  next => exact hends.trans (State.KeptAt.countCommand _ _ i)
  next => exact hends

theorem State.slotOf_mFinish (s : State) (i : SlotId) (r : MRun) : (s.mFinish i r).slotOf i = (s.slotOf i).matrixDone r s.cycle :=
  (s.keptAt_mFinish i r).slot.trans ((State.slotOf_mapSlot _ i i _).trans (if_pos rfl))

theorem State.mem_mFinish (s : State) (i : SlotId) (r : MRun) : (s.mFinish i r).mem = s.mem := (s.keptAt_mFinish i r).mem

theorem exec_mComplete (i : SlotId) (s : State) : exec (.mComplete i) s = execMComplete i s := rfl

theorem exec_mComplete_finished {s : State} {i : SlotId} {r : MRun} (hr : (s.slotOf i).eng.mrun = some r) (hdone : r.finished = true) :
    exec (.mComplete i) s = .next (s.mFinish i r) := by
  simp only [exec_mComplete, execMComplete, hr, hdone, Bool.true_eq_false, if_false]

/-! ### QUIESCENT_POINT -/

/-- R288: of its own slot, a stop changes MUPC, and of memory nothing. -/
theorem State.keptAt_stopCampion {s : State} {i : SlotId} {r : MRun} (hr : (s.slotOf i).eng.mrun = some r) :
    (s.mapSlot i fun x => { x with eng := { x.eng with mupc := mupcWord r.q.seq r.mb r.nb r.ks } }).KeptAt (s.stopCampion i) i := by
  simp only [State.stopCampion, hr]
  split
  next => exact State.KeptAt.endLease _ _ i
  next => exact ⟨rfl, rfl⟩

theorem State.mrun_stopCampion {s : State} {i : SlotId} {r : MRun} (hr : (s.slotOf i).eng.mrun = some r) :
    ((s.stopCampion i).slotOf i).eng.mrun = some r := by
  rw [(State.keptAt_stopCampion hr).slot, State.slotOf_mapSlot, if_pos rfl, hr]

theorem State.mrun_mapRun (s : State) (i : SlotId) (f : MRun → MRun) :
    ((s.mapRun i f).slotOf i).eng.mrun = (s.slotOf i).eng.mrun.map f := by
  rw [State.mapRun, State.slotOf_mapSlot, if_pos rfl]

theorem exec_quiescentPoint (i : SlotId) (s : State) : exec (.quiescentPoint i) s = execQuiescentPoint i s := rfl

/-- R288, R330: an unfinished admitted command stops between steps when its core does not run. -/
theorem exec_quiescentPoint_stops {s : State} {i : SlotId} {r : MRun} (hr : (s.slotOf i).eng.mrun = some r)
    (hcore : s.runs i.core = false) (hadm : r.admitted = true) (hmore : r.finished = false) :
    exec (.quiescentPoint i) s = .next ((s.stopCampion i).mapRun i fun r => { r with admitted := false }) := by
  simp only [exec_quiescentPoint, execQuiescentPoint, hr, hcore, hadm, hmore, Bool.true_eq_false, Bool.false_eq_true, or_self, if_false]

/-! ### LEASE_IDLE_TIMEOUT -/

theorem exec_leaseIdleTimeout (c : Fin 64) (s : State) : exec (.leaseIdleTimeout c) s = execLeaseIdleTimeout c s := rfl

section
variable {s : State} {c : Fin 64} {h : SlotId} {t : Nat} (hholder : (s.clusterOf c).holder = some h)
  (hidle : (s.clusterOf c).idleSince = some t)
include hholder hidle

/-- R278: a lease stays before it has been idle for 256 cycles. -/
theorem exec_leaseIdleTimeout_early (hearly : s.cycle < t + 256) : exec (.leaseIdleTimeout c) s = .next s := by
  simp only [exec_leaseIdleTimeout, execLeaseIdleTimeout, hholder, hidle, ge_iff_le, Nat.not_le.mpr hearly, false_and, and_false, if_false]

/-- R278: a lease whose holder's queue is empty ends after 256 idle cycles for another slot that asks for it. -/
theorem exec_leaseIdleTimeout_ends (hempty : (s.slotOf h).eng.qs.mq = []) (hlate : t + 256 ≤ s.cycle)
    (hasked : ∃ r ∈ (s.clusterOf c).reqs, r.1 ≠ h) : exec (.leaseIdleTimeout c) s = .next (s.endLease c) := by
  have hwaits : ((s.clusterOf c).waiting.any fun r => r.1 ≠ h) = true := by
    obtain ⟨r, hr, hne⟩ := hasked
    exact List.any_eq_true.mpr ⟨r, List.mem_append_left _ hr, decide_eq_true hne⟩
  simp only [exec_leaseIdleTimeout, execLeaseIdleTimeout, hholder, hidle, hempty, ge_iff_le, hlate, hwaits, and_self, if_true]

end

theorem State.holder_endLease (s : State) (c : Fin 64) : ((s.endLease c).clusterOf c).holder = none := by
  rw [State.endLease, State.clusterOf_mapCluster, if_pos rfl]
  split
  next hnone => exact hnone
  next => rfl

/-! ### The obligation -/

/-- Settles O39: each step is a named case of its event; a completion and a stop touch their own slot only through `Slot.matrixDone` and MUPC, for
what follows in them goes to other slots, cores and clusters (`State.KeptAt`), and none of it to memory. -/
theorem matrixSteps : Obligations.MatrixSteps := by
  unfold Obligations.MatrixSteps
  refine ⟨fun s s1 t i q l y r fw fq p f e => ⟨exec_mStart_takes, ?_, ?_, ?_⟩, fun s c h t hholder hidle => ⟨?_, ?_⟩⟩
  · intro hrun hholder hr hfq hadm hmore hplan
    have hnext := exec_microStep_next hrun hholder hr hfq hadm hmore hplan
    exact ⟨exec_microStep_waits hrun hholder hr hfq, fun hlock hstep => (hnext hlock).trans (by rw [hstep]; rfl),
      fun hlock hstep => (hnext hlock).trans (by rw [hstep]; rfl)⟩
  · intro hr hdone
    refine ⟨_, exec_mComplete_finished hr hdone, ?_⟩
    rw [s.slotOf_mFinish, s.mem_mFinish, Slot.fq_matrixDone, Slot.flags_matrixDone]
    exact ⟨Slot.mrun_matrixDone _ _ _, Slot.mupc_matrixDone _ _ _, rfl, Slot.done_of_mem_journalDone _ _ _, rfl, fun _ => rfl⟩
  · intro hr hcore hadm hmore
    refine ⟨_, exec_quiescentPoint_stops hr hcore hadm hmore, ⟨{ r with admitted := false }, ?_, rfl⟩, fun a => ?_⟩
    · rw [State.mrun_mapRun, State.mrun_stopCampion hr, Option.map_some]
    · exact congrArg (fun m : Memory => m.byte a) (State.keptAt_stopCampion hr).mem
  · exact exec_leaseIdleTimeout_early hholder hidle
  · intro hempty hlate hasked
    exact ⟨_, exec_leaseIdleTimeout_ends hholder hidle hempty hlate hasked, s.holder_endLease c, rfl, rfl⟩

end Sys2Proof.Machine
end

section
/-! PROOF. O45: stealing and the spilled end of the deque (05 R111, R112), and the records and tasks of cancelled scopes that a core drops or
kills (16 R342, R344). -/

namespace Sys2Proof.Machine

theorem State.recSeen_mapCore (s : State) (v c : Fin 256) (f : Core → Core) (r : Rec) : (s.mapCore v f).recSeen c r = s.recSeen c r := rfl

theorem State.recSeen_setDeque (s : State) (v c : Fin 256) (l : List Rec) (r : Rec) : (s.setDeque v l).recSeen c r = s.recSeen c r := rfl

theorem State.deque_setDeque (s : State) (c : Fin 256) (l : List Rec) : ((s.setDeque c l).coreOf c).deque = l := by
  rw [State.setDeque, State.coreOf_mapCore, if_pos rfl]

/-! ### STEAL (R112) -/

theorem exec_steal (c : Fin 256) (s : State) : exec (.steal c) s = execSteal c s := rfl

/-- The cores that a thief may ask. -/
def State.stealVictims (s : State) (c : Fin 256) : List (Fin 256) := (s.coresOf (s.partNo c)).filter (· != c)

/-- The one that the next number of its LFSR names. -/
def State.stealVictim (s : State) (c : Fin 256) : Fin 256 :=
  (s.stealVictims c).getD ((lfsrStep (s.coreOf c).lfsr).toNat % (s.stealVictims c).length) c

/-- Its LFSR has made that step. -/
def State.lfsrMoved (s : State) (c : Fin 256) : State := s.mapCore c fun k => { k with lfsr := lfsrStep (s.coreOf c).lfsr }

section
variable {s : State} {c : Fin 256} (hstart : s.starts c = true) (hdom : s.stealVictims c ≠ []) (hempty : (s.coreOf c).deque = [])
  (hback : (s.coreOf c).backoff ≤ s.cycle) (hfree : ∃ i ∈ slotsOf c, (s.slotOf i).status = .free)
include hstart hdom hempty hback hfree

/-- None of what keeps a core from stealing holds of it. -/
theorem State.maySteal : ¬ (s.starts c = false ∨ (s.stealVictims c).isEmpty = true ∨ (s.coreOf c).deque.isEmpty = false ∨
    s.cycle < (s.coreOf c).backoff ∨ (slotsOf c).all (fun i => !decide ((s.slotOf i).status = .free)) = true) := by
  have hslots : ¬ (slotsOf c).all (fun i => !decide ((s.slotOf i).status = .free)) = true := by
    obtain ⟨i, hi, hst⟩ := hfree
    intro hall
    simpa [hst] using List.all_eq_true.mp hall i hi
  rintro (h | h | h | h | h)
  · exact Bool.false_ne_true (h.symm.trans hstart)
  · exact hdom (List.isEmpty_iff.mp h)
  · rw [hempty] at h
    exact Bool.false_ne_true h.symm
  · omega
  · exact hslots h

/-- The victim's oldest record goes to the head of the thief's deque. -/
theorem exec_steal_takes {r : Rec} (hv : s.stealable (s.stealVictim c) c = some r) (hseen : s.recSeen c r = false) :
    exec (.steal c) s =
      .next ((((s.lfsrMoved c).setDeque (s.stealVictim c) (((s.lfsrMoved c).coreOf (s.stealVictim c)).deque.dropLast)).mapCore c
        fun k => { k with tries := 0 }).pushHead c { r with spilled := false }) := by
  have hmay := State.maySteal hstart hdom hempty hback hfree
  unfold State.stealVictims at hmay
  unfold State.stealVictim State.stealVictims at hv ⊢
  simp only [exec_steal, execSteal, if_neg hmay, hv, State.recSeen_mapCore, State.recSeen_setDeque, hseen, Bool.false_eq_true, if_false,
    State.lfsrMoved]

/-- A first failure is counted. -/
theorem exec_steal_misses (hv : s.stealable (s.stealVictim c) c = none) (htries : (s.coreOf c).tries = 0) :
    exec (.steal c) s = .next ((s.lfsrMoved c).mapCore c fun k => { k with tries := k.tries + 1 }) := by
  have hmay := State.maySteal hstart hdom hempty hback hfree
  have hfirst : ¬ 1 ≤ (s.coreOf c).tries := by omega
  unfold State.stealVictims at hmay
  unfold State.stealVictim State.stealVictims at hv
  simp only [exec_steal, execSteal, if_neg hmay, hv, ge_iff_le, if_neg hfirst, State.lfsrMoved]

/-- A second one makes the thief back off for 1,024 cycles. -/
theorem exec_steal_backsOff (hv : s.stealable (s.stealVictim c) c = none) (htries : 1 ≤ (s.coreOf c).tries) :
    exec (.steal c) s = .next ((s.lfsrMoved c).mapCore c fun k => { k with tries := 0, backoff := s.cycle + 1024 }) := by
  have hmay := State.maySteal hstart hdom hempty hback hfree
  unfold State.stealVictims at hmay
  unfold State.stealVictim State.stealVictims at hv
  simp only [exec_steal, execSteal, if_neg hmay, hv, ge_iff_le, if_pos htries, State.lfsrMoved]

end

/-! ### DEQUE_REFILL (R111) -/

theorem exec_dequeRefill (c : Fin 256) (s : State) : exec (.dequeRefill c) s = execDequeRefill c s := rfl

/-- The first element that satisfies a test stands after those that do not. -/
theorem updFirst_append_cons {α : Type} {p : α → Bool} {x : α} (hx : p x = true) (f : α → α) (m : List α) {l : List α}
    (hl : ∀ y ∈ l, p y = false) : updFirst p f (l ++ x :: m) = l ++ f x :: m := by
  induction l with
  | nil => simp [updFirst, hx]
  | cons y l ih =>
    obtain ⟨hy, hl⟩ := List.forall_mem_cons.mp hl
    simp [updFirst, hy, ih hl]

/-- The oldest record is the last one of the deque. -/
theorem exec_dequeRefill_oldest {s : State} {c : Fin 256} {r : Rec} {l₁ l₂ : List Rec} (hdeque : (s.coreOf c).deque = l₁ ++ r :: l₂)
    (hr : r.spilled = true) (hl : ∀ y ∈ l₂, y.spilled = false)
    (hroom : ((s.coreOf c).deque.filter fun r => !r.spilled).length < 32) :
    exec (.dequeRefill c) s = .next (s.setDeque c (l₁ ++ { r with spilled := false } :: l₂)) := by
  have hrev : (l₁ ++ r :: l₂).reverse = l₂.reverse ++ r :: l₁.reverse := by simp
  have hupd : updFirst (fun r : Rec => r.spilled) (fun r => { r with spilled := false }) (l₂.reverse ++ r :: l₁.reverse) =
      l₂.reverse ++ { r with spilled := false } :: l₁.reverse :=
    updFirst_append_cons hr _ _ fun y hy => hl y (List.mem_reverse.mp hy)
  simp only [exec_dequeRefill, execDequeRefill, if_pos hroom]
  rw [hdeque, hrev, hupd]
  simp

/-! ### SPILL_SWEEP (R344) -/

theorem exec_spillSweep (c : Fin 256) (s : State) : exec (.spillSweep c) s = execSpillSweep c s := rfl

/-- Where the core sees no mark for a spilled record, every record stays. -/
theorem exec_spillSweep_unseen {s : State} {c : Fin 256} (h : ∀ r ∈ (s.coreOf c).deque, r.spilled = true → s.recSeen c r = false) :
    exec (.spillSweep c) s = .next (s.setDeque c (s.coreOf c).deque) := by
  have hbad : ∀ r ∈ (s.coreOf c).deque, (r.spilled && s.recSeen c r) = false := by
    intro r hr
    rw [Bool.and_eq_false_imp]
    exact h r hr
  have hkept : ((s.coreOf c).deque.filter fun r => !(r.spilled && s.recSeen c r)) = (s.coreOf c).deque :=
    List.filter_eq_self.mpr fun r hr => by rw [hbad r hr, Bool.not_false]
  have hdropped : ((s.coreOf c).deque.filter fun r => r.spilled && s.recSeen c r) = [] :=
    List.filter_eq_nil_iff.mpr fun r hr => by rw [hbad r hr]; exact Bool.false_ne_true
  simp only [exec_spillSweep, execSpillSweep, hkept, hdropped, State.dropRecs]

/-- A spilled record of a cancelled scope that is alone in the deque is dropped. -/
theorem exec_spillSweep_alone {s : State} {c : Fin 256} {r : Rec} (hdeque : (s.coreOf c).deque = [r]) (hr : r.spilled = true)
    (hseen : s.recSeen c r = true) : exec (.spillSweep c) s = .next ((s.setDeque c []).dropSaved c r) := by
  have hbad : (r.spilled && s.recSeen c r) = true := by rw [hr, hseen, Bool.and_self]
  simp only [exec_spillSweep, execSpillSweep, hdeque, List.filter_cons, List.filter_nil, hbad, Bool.not_true, Bool.false_eq_true, if_false,
    if_true, State.dropRecs]

/-! ### Marks that a core is told of (R342) -/

/-- A scope of whose mark, if it has one, a core has been told. -/
def Scope.told (c : Fin 256) (z : Scope) : Scope := if z.mark && !z.seen.contains c.val then { z with seen := z.seen ++ [c.val] } else z

theorem Scope.told_cases (c : Fin 256) (z : Scope) : z.told c = { z with seen := (z.told c).seen } := by
  unfold Scope.told
  split <;> rfl

theorem Scope.id_told (c : Fin 256) (z : Scope) : (z.told c).id = z.id := by rw [Scope.told_cases]

theorem Scope.parent_told (c : Fin 256) (z : Scope) : (z.told c).parent = z.parent := by rw [Scope.told_cases]

theorem Scope.mark_told (c : Fin 256) (z : Scope) : (z.told c).mark = z.mark := by rw [Scope.told_cases]

theorem Scope.seen_told {c : Fin 256} {z : Scope} (hz : z.mark = true) : (z.told c).seen.contains c.val = true := by
  unfold Scope.told
  split
  next => simp
  next h => simpa [hz] using h

/-- A partition of whose marks a core has been told. -/
def Part.told (c : Fin 256) (q : Part) : Part := { q with scopes := q.scopes.map (Scope.told c) }

section
variable (c : Fin 256) (q : Part)

theorem Part.scope_told (id : Nat) : (q.told c).scope id = (q.scope id).map (Scope.told c) := by
  have hid : (fun x : Scope => x.id == id) ∘ Scope.told c = fun x => x.id == id := funext fun x => by
    rw [Function.comp_apply, Scope.id_told]
  rw [Part.scope, Part.scope, Part.told, List.find?_map, hid]

theorem Part.lineage_told (n id : Nat) : (q.told c).lineage n id = q.lineage n id := by
  induction n generalizing id with
  | zero => rfl
  | succ n ih =>
    simp only [Part.lineage, Part.scope_told]
    cases q.scope id with
    | none => rfl
    | some x => simp only [Option.map_some, Scope.parent_told, ih]

theorem Part.line_told (id : Nat) : (q.told c).line id = q.line id := q.lineage_told c 4098 id

/-- Being told of marks cancels nothing. -/
theorem Part.cancelled_told (id : Nat) : (q.told c).cancelled id = q.cancelled id := by
  unfold Part.cancelled
  rw [Part.line_told]
  congr 1
  funext x
  rw [Part.scope_told]
  cases q.scope x with
  | none => rfl
  | some z => simp only [Option.map_some, Scope.mark_told]

/-- R342: a core that has been told of the marks sees cancelled what is cancelled. -/
theorem Part.cancelSeen_told (now id : Nat) : (q.told c).cancelSeen c now id = q.cancelled id := by
  unfold Part.cancelSeen Part.cancelled
  rw [Part.line_told]
  congr 1
  funext x
  rw [Part.scope_told]
  cases q.scope x with
  | none => rfl
  | some z =>
    simp only [Option.map_some, Scope.mark_told]
    cases hz : z.mark with
    | false => rfl
    | true => rw [Scope.seen_told hz, Bool.true_or, Bool.and_self]

end

theorem State.seeMarks_eq (s : State) (c : Fin 256) : s.seeMarks c = s.mapPart (s.partNo c) (Part.told c) := rfl

/-- A change of a partition that keeps its descriptor moves no core to another partition (R379). -/
theorem State.partNo_mapPart {f : Part → Part} (hf : ∀ q, (f q).desc = q.desc) (s : State) (p : Fin 16) (c : Fin 256) :
    (s.mapPart p f).partNo c = s.partNo c := by
  simp only [State.partNo, Part.valid, Part.lmask, Part.word, State.desc_mapPart hf]

theorem State.partNo_seeMarks (s : State) (c d : Fin 256) : (s.seeMarks c).partNo d = s.partNo d :=
  State.partNo_mapPart (f := Part.told c) (fun _ => rfl) s (s.partNo c) d

theorem State.insts_seeMarks (s : State) (c : Fin 256) (p : Fin 16) : ((s.seeMarks c).partOf p).insts = (s.partOf p).insts := by
  rw [State.seeMarks_eq, State.partOf_mapPart]
  split
  next h => rw [h]; rfl
  next => rfl

theorem State.recCancelled_seeMarks (s : State) (c : Fin 256) (r : Rec) : (s.seeMarks c).recCancelled r = s.recCancelled r := by
  rw [State.recCancelled, State.recCancelled, State.seeMarks_eq, State.partOf_mapPart]
  split
  next h => rw [Part.cancelled_told, h]
  next => rfl

theorem State.cancelledNodes_seeMarks (s : State) (c : Fin 256) (p : Fin 16) :
    (s.seeMarks c).cancelledNodes p = s.cancelledNodes p := by
  simp only [State.cancelledNodes, State.insts_seeMarks, State.recCancelled_seeMarks]

/-! ### KILL (R344) -/

theorem exec_kill (c : Fin 256) (s : State) : exec (.kill c) s = .next (s.killCore c) := rfl

/-- A task at its boundary at task level whose core sees its scope cancelled is killed. -/
theorem State.killAt_of_cancelSeen {s : State} {i : SlotId} {t : TaskInfo} (ht : (s.slotOf i).task = some t)
    (hlevel : (s.slotOf i).level = .task) (hbound : (s.slotOf i).atBoundary = true)
    (hseen : (s.partOf t.part).cancelSeen i.core s.cycle t.scope = true) : s.killAt i = s.killSlot i := by
  simp only [State.killAt, ht, hseen, Bool.not_true, Bool.and_false, Bool.false_eq_true, if_false, hlevel, if_true, hbound]

/-- A slot that holds neither a task nor a preload has nothing to kill. -/
theorem State.killAt_of_empty {s : State} {i : SlotId} (ht : (s.slotOf i).task = none) (hnext : (s.slotOf i).next = none) :
    s.killAt i = s := by
  simp only [State.killAt, ht, hnext]

theorem State.dropNodes_of_none {s : State} {p : Fin 16} (h : s.cancelledNodes p = []) (n : Nat) : s.dropNodes p n = s := by
  cases n with
  | zero => rfl
  | succ n => simp only [State.dropNodes, h]

/-- KILL of a core that holds nothing, where no unplaced node is cancelled, leaves it told of the marks. -/
theorem State.killCore_of_empty {s : State} {c : Fin 256}
    (hslots : ∀ i ∈ slotsOf c, (s.slotOf i).task = none ∧ (s.slotOf i).next = none) (hdeque : (s.coreOf c).deque = [])
    (hnodes : s.cancelledNodes (s.partNo c) = []) : s.killCore c = (s.seeMarks c).setDeque c [] := by
  have hkill : (slotsOf c).foldl (fun t i => t.killAt i) (s.seeMarks c) = s.seeMarks c :=
    List.foldlRecOn (slotsOf c) _ (motive := fun t => t = s.seeMarks c) rfl fun t ht i hi => by
      obtain ⟨htask, hnext⟩ := hslots i hi
      rw [ht]
      exact State.killAt_of_empty htask hnext
  have hnodes' : ((s.seeMarks c).setDeque c []).cancelledNodes (((s.seeMarks c).setDeque c []).partNo c) = [] :=
    calc ((s.seeMarks c).setDeque c []).cancelledNodes (((s.seeMarks c).setDeque c []).partNo c)
      _ = (s.seeMarks c).cancelledNodes ((s.seeMarks c).partNo c) := rfl
      _ = s.cancelledNodes (s.partNo c) := by rw [State.cancelledNodes_seeMarks, State.partNo_seeMarks]
      _ = [] := hnodes
  have hl : ((s.seeMarks c).coreOf c).deque = [] := hdeque
  simp only [State.killCore, hkill, hl, List.filter_nil, State.dropRecs, State.dropNodes_of_none hnodes']

/-! ### The obligation -/

/-- Settles O45: each clause is a case of its event; a core told of the marks sees cancelled exactly what is cancelled
(`Part.cancelSeen_told`), and a core that holds nothing has nothing to kill (`State.killCore_of_empty`). -/
theorem dequeSteps : Obligations.DequeSteps := by
  unfold Obligations.DequeSteps
  intro s c r
  refine ⟨fun hstart hdom hempty hback hfree => ⟨exec_steal_takes hstart hdom hempty hback hfree,
      exec_steal_misses hstart hdom hempty hback hfree, exec_steal_backsOff hstart hdom hempty hback hfree⟩,
    fun l₁ l₂ hdeque hr hl hroom => ⟨_, exec_dequeRefill_oldest hdeque hr hl hroom, State.deque_setDeque s c _, rfl, rfl⟩,
    fun hunseen => ⟨_, exec_spillSweep_unseen hunseen, State.deque_setDeque s c _, rfl, rfl⟩,
    fun y _ hseen hspilled hdeque => exec_spillSweep_alone hdeque hspilled hseen,
    fun i t ht hlevel hbound hseen => State.killAt_of_cancelSeen ht hlevel hbound hseen, fun n => ?_,
    ⟨_, exec_kill c s, rfl, fun hslots hdeque hnodes => ?_⟩⟩
  · rw [State.seeMarks_eq, State.partOf_mapPart, if_pos rfl, Part.cancelSeen_told]
  · rw [State.killCore_of_empty hslots hdeque hnodes]
    exact ⟨rfl, rfl⟩

end Sys2Proof.Machine
end

section
/-! PROOF. O48: the delivery of asynchronous causes at a boundary, in the order of 16 Table 3 (16 R326 to R328, R344, R348; 20 R381). -/

namespace Sys2Proof.Machine

theorem State.slotOf_mapSlot_self (s : State) (i : SlotId) (f : Slot → Slot) : (s.mapSlot i f).slotOf i = f (s.slotOf i) := by
  rw [State.slotOf_mapSlot, if_pos rfl]

theorem State.partOf_mapPart_self (s : State) (p : Fin 16) (f : Part → Part) : (s.mapPart p f).partOf p = f (s.partOf p) := by
  rw [State.partOf_mapPart, if_pos rfl]

/-! ### Entering the handler from a boundary (R324, R325) -/

theorem tcauseOf_async (eng : Nat) (cause : BitVec 8) : tcauseOf true eng cause = BitVec.ofNat 11 (1024 + 256 * eng + cause.toNat) := by
  rw [tcauseOf, if_pos rfl, Nat.mul_comm]

/-- The low bits of TCAUSE are the cause. -/
theorem setWidth_tcauseOf (async : Bool) (eng : Nat) (cause : BitVec 8) : (tcauseOf async eng cause).setWidth 8 = cause := by
  apply BitVec.eq_of_toNat_eq
  rw [tcauseOf, BitVec.toNat_setWidth, BitVec.toNat_ofNat]
  have := cause.isLt
  split <;> omega

/-- R324: the handler's word is at TVB + 64 x cause, cut to the bits of a PC. -/
theorem Slot.pc_enter (x : Slot) (n eng : Nat) (async : Bool) (cause : BitVec 8) (tepc t0 t1 t2 t3 : Word) (tx : Bool) :
    (x.enter n (tcauseOf async eng cause) tepc t0 t1 t2 t3 tx).pc =
      BitVec.ofNat 64 ((x.frame.tvb.toNat + 64 * cause.toNat) % 2 ^ 48) := by
  rw [Slot.enter, setWidth_tcauseOf]
  apply BitVec.eq_of_toNat_eq
  have h64 : (64 : Word).toNat = 64 := rfl
  have := cause.isLt
  simp only [BitVec.toNat_setWidth, BitVec.toNat_add, BitVec.toNat_mul, BitVec.toNat_ofNat, h64]
  omega

theorem State.partOf_dropTicket (s : State) (u : TicketUser) (p : Fin 16) : (s.dropTicket u).partOf p = s.partOf p := by
  rw [State.dropTicket_eq]; rfl

section
variable {s : State} {i : SlotId} (htx : (s.slotOf i).tx = none)
include htx

theorem State.enterAsync_eq (eng : Nat) (cause : BitVec 8) (t0 t1 t2 t3 : Word) : s.enterAsync i eng cause t0 t1 t2 t3 =
    (s.dropTicket (.control i)).setSlot i
      ((s.slotOf i).enter s.cycle (tcauseOf true eng cause) (s.slotOf i).pc t0 t1 t2 t3 false) := by
  obtain ⟨x, henter, hx⟩ := s.enterTrap_eq i (tcauseOf true eng cause) (s.slotOf i).pc t0 t1 t2 t3
  rw [State.enterAsync, henter, hx, htx]
  rfl

theorem State.slotOf_enterAsync (eng : Nat) (cause : BitVec 8) (t0 t1 t2 t3 : Word) : (s.enterAsync i eng cause t0 t1 t2 t3).slotOf i =
    (s.slotOf i).enter s.cycle (tcauseOf true eng cause) (s.slotOf i).pc t0 t1 t2 t3 false := by
  rw [State.enterAsync_eq htx, State.slotOf_setSlot, if_pos rfl]

theorem State.mem_enterAsync (eng : Nat) (cause : BitVec 8) (t0 t1 t2 t3 : Word) :
    (s.enterAsync i eng cause t0 t1 t2 t3).mem = s.mem := by
  rw [State.enterAsync_eq htx, State.setSlot_mem, State.mem_dropTicket]

theorem State.partOf_enterAsync (eng : Nat) (cause : BitVec 8) (t0 t1 t2 t3 : Word) (p : Fin 16) :
    (s.enterAsync i eng cause t0 t1 t2 t3).partOf p = s.partOf p := by
  rw [State.enterAsync_eq htx, State.partOf_setSlot, State.partOf_dropTicket]

end

/-- Trap information that the spec leaves open takes free values (log 41). -/
theorem State.enterOpen_eq (s : State) (i : SlotId) (cause : BitVec 8) (t0 : Option Word) : s.enterOpen i cause t0 =
    { s with free := s.free + 2 + 2 }.enterAsync i 0 cause (t0.getD (Config.freeValue s.free)) (Config.freeValue (s.free + 1))
      (Config.freeValue (s.free + 2)) (Config.freeValue (s.free + 2 + 1)) := rfl

section
variable {s : State} {i : SlotId} (htx : (s.slotOf i).tx = none) (cause : BitVec 8) (t0 : Option Word)
include htx

theorem State.slotOf_enterOpen : (s.enterOpen i cause t0).slotOf i =
    (s.slotOf i).enter s.cycle (tcauseOf true 0 cause) (s.slotOf i).pc (t0.getD (Config.freeValue s.free)) (Config.freeValue (s.free + 1))
      (Config.freeValue (s.free + 2)) (Config.freeValue (s.free + 2 + 1)) false :=
  State.slotOf_enterAsync (s := { s with free := s.free + 2 + 2 }) htx 0 cause _ _ _ _

theorem State.mem_enterOpen : (s.enterOpen i cause t0).mem = s.mem :=
  State.mem_enterAsync (s := { s with free := s.free + 2 + 2 }) htx 0 cause _ _ _ _

theorem State.partOf_enterOpen (p : Fin 16) : (s.enterOpen i cause t0).partOf p = s.partOf p :=
  State.partOf_enterAsync (s := { s with free := s.free + 2 + 2 }) htx 0 cause _ _ _ _ p

end

section
variable {s u : State} {i : SlotId} {p : Pend} {l : Loop} {eng : Nat} {cause : BitVec 8} {post : State → Prop}
  (htx : (s.slotOf i).tx = none) (hslot : u.slotOf i = { s.slotOf i with pend := p, loop := l }) (hmem : u.mem = s.mem)
include htx hslot hmem

/-- What is done before the trap leaves of the slot all but its pending causes and its loop, and memory: the trap is one from the slot's
boundary. -/
theorem delivers_of_enterAsync {t0 t1 t2 t3 : Word} (hexec : exec (.asyncDelivery i) s = .next (u.enterAsync i eng cause t0 t1 t2 t3))
    (hpost : post (u.enterAsync i eng cause t0 t1 t2 t3)) : Delivers s i eng cause post := by
  have htx' : (u.slotOf i).tx = none := by rw [hslot]; exact htx
  have hentered := State.slotOf_enterAsync htx' eng cause t0 t1 t2 t3
  rw [hslot] at hentered
  refine ⟨_, hexec, ?_, ?_, ?_, ?_, ?_, ?_, ?_, fun a => by rw [State.mem_enterAsync htx', hmem], hpost⟩ <;> rw [hentered]
  case refine_5 => exact tcauseOf_async eng cause
  case refine_6 => exact Slot.pc_enter _ _ _ _ _ _ _ _ _ _ _
  all_goals rfl

theorem delivers_of_enterOpen {t0 : Option Word} (hexec : exec (.asyncDelivery i) s = .next (u.enterOpen i cause t0))
    (hpost : post (u.enterOpen i cause t0)) : Delivers s i 0 cause post :=
  delivers_of_enterAsync (u := { u with free := u.free + 2 + 2 }) htx hslot hmem hexec hpost

end

/-! ### The cause of a task (R326, R342, R373, R381) -/

section
variable {s : State} {i : SlotId} {t : TaskInfo}

theorem State.taskCause_kill (h : (s.slotOf i).pend.kill.isSome = true ∨ (s.partOf t.part).cancelSeen i.core s.cycle t.scope = true) :
    s.taskCause i t = some .kill := by
  rw [State.taskCause, if_pos (Bool.or_eq_true_iff.mpr h)]

section
variable (hseen : (s.partOf t.part).cancelSeen i.core s.cycle t.scope = false) (hkill : (s.slotOf i).pend.kill = none)
include hseen hkill

theorem State.taskCause_quiesce (hquiesce : s.quiescing t.part = true) (hcan : s.canQuiesce i = true) :
    s.taskCause i t = some .quiesce := by
  simp only [State.taskCause, hseen, hkill, Option.isSome_none, Bool.or_self, Bool.false_eq_true, if_false, hquiesce, if_true, hcan]

section
variable (hrun : s.quiescing t.part = false) (htrap : (s.slotOf i).frame.inTrap = false)
include hrun htrap

/-- A task that is neither killed nor saved, outside a handler, takes its store faults first, then the oldest fault of its engines. -/
theorem State.taskCause_store {f : PendFault} {r : List PendFault} (hstores : (s.slotOf i).pend.stores = f :: r) :
    s.taskCause i t = some (.store f) := by
  simp only [State.taskCause, hseen, hkill, hrun, htrap, hstores, Option.isSome_none, Bool.or_self, Bool.false_eq_true, if_false]

theorem State.taskCause_engine {f : PendFault} (hstores : (s.slotOf i).pend.stores = []) (hengine : (s.slotOf i).oldestFault = some f) :
    s.taskCause i t = some (.engine f) := by
  simp only [State.taskCause, hseen, hkill, hrun, htrap, hstores, hengine, Option.isSome_none, Bool.or_self, Bool.false_eq_true, if_false]

theorem State.taskCause_none (hstores : (s.slotOf i).pend.stores = []) (hengine : (s.slotOf i).oldestFault = none) :
    s.taskCause i t = none := by
  simp only [State.taskCause, hseen, hkill, hrun, htrap, hstores, hengine, Option.isSome_none, Bool.or_self, Bool.false_eq_true, if_false]

end

end

end

/-! ### The cause of a boundary (R326, R327, Table 3) -/

section
variable {s : State} {i : SlotId} {t : TaskInfo} (hbound : (s.slotOf i).atBoundary = true) (ht : (s.slotOf i).task = some t)
  (hlevel : (s.slotOf i).level = .task)
include hbound ht hlevel

theorem State.nextCause_of_taskCause {c : Cause} (hown : s.taskCause i t = some c) : s.nextCause i = some c := by
  simp only [State.nextCause, hbound, ht, hlevel, hown, Bool.true_eq_false, if_false, if_true, Option.isSome_some]

/-- Where the task has no cause of its own, what else a boundary of its outside a handler delivers. -/
theorem State.nextCause_of_quietTask (hown : s.taskCause i t = none) (htrap : (s.slotOf i).frame.inTrap = false) : s.nextCause i =
    if s.eventFor i.core (·.errPend) then some .error
    else if (s.slotOf i).pend.wdog then some .wdog
    else if (s.slotOf i).pend.preempt && (s.slotOf i).loop.ready then some .preempt
    else if s.eventFor i.core (·.devPend) then some .device
    else none := by
  simp only [State.nextCause, hbound, ht, hlevel, hown, htrap, Bool.true_eq_false, Bool.false_eq_true, if_false, if_true, Option.isSome_none,
    Option.isSome_some, and_self]

end

/-- A supervisor slot without a task takes the two events (R327). -/
theorem State.nextCause_of_supervisor {s : State} {i : SlotId} (hbound : (s.slotOf i).atBoundary = true) (ht : (s.slotOf i).task = none)
    (hlevel : (s.slotOf i).level = .supervisor) (htrap : (s.slotOf i).frame.inTrap = false) : s.nextCause i =
    if s.eventFor i.core (·.errPend) then some .error
    else if s.eventFor i.core (·.devPend) then some .device
    else none := by
  simp only [State.nextCause, hbound, ht, hlevel, htrap, Bool.true_eq_false, Bool.false_eq_true, if_false, if_true, Option.isSome_none,
    Option.isNone_none, and_self, reduceCtorEq]

/-! ### A core whose slots are all Free (R327, log 41) -/

theorem mem_slotsOf (i : SlotId) : i ∈ slotsOf i.core := by
  obtain ⟨c, n⟩ := i
  fin_cases n <;> simp [slotsOf]

theorem Slot.occupied_of_atBoundary {x : Slot} (h : x.atBoundary = true) : x.status ≠ .free := by
  intro hfree
  simp [Slot.atBoundary, hfree] at h

theorem State.wakeIcore_of_occupied {s : State} {i : SlotId} (h : (s.slotOf i).status ≠ .free) : s.wakeIcore i.core = s := by
  refine if_neg fun hall => h ?_
  simpa using List.all_eq_true.mp hall.2 i (mem_slotsOf i)

theorem State.eventFor_iff (s : State) (c : Fin 256) (pick : Part → Bool) :
    s.eventFor c pick = true ↔ (s.partOf (s.partNo c)).icore = c ∧ pick (s.partOf (s.partNo c)) = true := by
  rw [State.eventFor, Bool.and_eq_true, decide_eq_true_iff]

/-- For a pending event slot 0 becomes a supervisor slot at the partition's sventry. -/
theorem State.wakeIcore_of_free {s : State} {i : SlotId} (hzero : i.slot = 0) (hfree : ∀ j ∈ slotsOf i.core, (s.slotOf j).status = .free)
    (hevent : s.eventFor i.core (·.errPend) = true ∨ s.eventFor i.core (·.devPend) = true) : s.wakeIcore i.core =
      s.mapSlot i fun x => x.supervisor i ((s.partOf (s.partNo i.core)).word 9) s.cycle := by
  obtain ⟨c, n⟩ := i
  obtain rfl : n = 0 := hzero
  rw [State.eventFor_iff, State.eventFor_iff, ← and_or_left] at hevent
  have hall : (slotsOf c).all (fun j => decide ((s.slotOf j).status = .free)) = true :=
    List.all_eq_true.mpr fun j hj => decide_eq_true (hfree j hj)
  exact if_pos ⟨hevent, hall⟩

/-! ### ASYNC_DELIVERY -/

theorem exec_asyncDelivery (i : SlotId) (s : State) : exec (.asyncDelivery i) s = execAsyncDelivery i s := rfl

/-- The boundary of a slot that issues delivers its cause. -/
theorem exec_asyncDelivery_of_nextCause {s : State} {i : SlotId} {c : Cause} (hissues : s.issues i = true)
    (hbound : (s.slotOf i).atBoundary = true) (hc : s.nextCause i = some c) : exec (.asyncDelivery i) s = .next (s.deliver i c) := by
  have hwake : (if i.slot = 0 then s.wakeIcore i.core else s) = s := by
    rw [State.wakeIcore_of_occupied (Slot.occupied_of_atBoundary hbound), ite_self]
  simp only [exec_asyncDelivery, execAsyncDelivery, hissues, Bool.true_or, if_true, State.deliverAt, hwake, hc]

/-- Slot 0 of a running core delivers the cause that its start gives it. -/
theorem exec_asyncDelivery_of_wakeIcore {s : State} {i : SlotId} {c : Cause} (hruns : s.runs i.core = true) (hslot : i.slot = 0)
    (hc : (s.wakeIcore i.core).nextCause i = some c) : exec (.asyncDelivery i) s = .next ((s.wakeIcore i.core).deliver i c) := by
  simp only [exec_asyncDelivery, execAsyncDelivery, hruns, hslot, decide_true, Bool.and_self, Bool.or_true, if_true, State.deliverAt, hc]

/-! ### Each cause -/

section
variable {s : State} {i : SlotId} {f : PendFault}

theorem State.deliver_kill {t : TaskInfo} (ht : (s.slotOf i).task = some t) (hlevel : (s.slotOf i).level = .task)
    (hbound : (s.slotOf i).atBoundary = true)
    (h : (s.slotOf i).pend.kill.isSome = true ∨ (s.partOf t.part).cancelSeen i.core s.cycle t.scope = true) :
    s.deliver i .kill = s.killSlot i := by
  have hkeeps : ((s.slotOf i).pend.kill.isNone && !(s.partOf t.part).cancelSeen i.core s.cycle t.scope) = false := by
    rcases h with h | h
    · rw [Option.isNone_eq_false_iff.mpr h, Bool.false_and]
    · rw [h, Bool.not_true, Bool.and_false]
  simp only [State.deliver, State.killAt, ht, hkeeps, hlevel, hbound, Bool.false_eq_true, if_false, if_true]

/-- The slot without its first pending store fault, and the frames of its core's preloads without their pins (R191, R340). -/
def State.storeTaken (s : State) (i : SlotId) : State :=
  (s.unpinPreloads i.core).mapSlot i fun x => { x with pend := { x.pend with stores := x.pend.stores.drop 1 } }

theorem State.slotOf_storeTaken (s : State) (i : SlotId) : (s.storeTaken i).slotOf i =
    { s.slotOf i with pend := { (s.slotOf i).pend with stores := (s.slotOf i).pend.stores.drop 1 } } := by
  rw [State.storeTaken, State.slotOf_mapSlot_self, State.slotOf_unpinPreloads]

theorem State.deliver_store_enters (h : (s.slotOf i).redoes f.cause = false) : s.deliver i (.store f) =
    (s.storeTaken i).enterAsync i 0 f.cause f.tinfo0 f.tinfo1 f.tinfo2 f.tinfo3 := by
  simp only [State.deliver, State.deliverStore, h, Bool.false_eq_true, if_false, State.storeTaken]

theorem State.deliver_store_redoes (h : (s.slotOf i).redoes f.cause = true) :
    s.deliver i (.store f) = (s.storeTaken i).rerun i := by
  simp only [State.deliver, State.deliverStore, h, if_true, State.storeTaken]

/-- R348: what is redone is a consumed error in the first run of an idempotent task. -/
theorem Slot.redoes_iff {x : Slot} {t : TaskInfo} (ht : x.task = some t) (hlevel : x.level = .task) (cause : BitVec 8) :
    x.redoes cause = true ↔ (cause = 0x0C ∨ cause = 0x0D) ∧ t.idem = true ∧ t.rerun = false := by
  simp [Slot.redoes, ht, hlevel]

/-- R348: what is not redone. -/
theorem Slot.redoes_eq_false {x : Slot} {t : TaskInfo} (ht : x.task = some t) (hlevel : x.level = .task) {cause : BitVec 8}
    (h : cause ≠ 0x0C ∧ cause ≠ 0x0D ∨ t.idem = false ∨ t.rerun = true) : x.redoes cause = false := by
  rw [← Bool.not_eq_true, Slot.redoes_iff ht hlevel]
  rintro ⟨hbad, hidem, hfirst⟩
  rcases h with ⟨hc, hd⟩ | h | h
  · exact hbad.elim hc hd
  · exact Bool.false_ne_true (h.symm.trans hidem)
  · exact Bool.false_ne_true (hfirst.symm.trans h)

end

section
variable {s : State} {i : SlotId} (hissues : s.issues i = true) (hbound : (s.slotOf i).atBoundary = true) (htx : (s.slotOf i).tx = none)
include hissues hbound htx

theorem delivers_store {f : PendFault} {r : List PendFault} (hc : s.nextCause i = some (.store f))
    (hstores : (s.slotOf i).pend.stores = f :: r) (hredoes : (s.slotOf i).redoes f.cause = false) :
    Delivers s i 0 f.cause fun u => (u.slotOf i).pend.stores = r ∧ (u.slotOf i).frame.tinfo0 = f.tinfo0 ∧
      (u.slotOf i).frame.tinfo1 = f.tinfo1 ∧ (u.slotOf i).frame.tinfo2 = f.tinfo2 ∧ (u.slotOf i).frame.tinfo3 = f.tinfo3 := by
  have hslot := s.slotOf_storeTaken i
  rw [hstores] at hslot
  have htx' : ((s.storeTaken i).slotOf i).tx = none := by rw [hslot]; exact htx
  refine delivers_of_enterAsync htx hslot rfl
    ((exec_asyncDelivery_of_nextCause hissues hbound hc).trans (by rw [State.deliver_store_enters hredoes])) ?_
  rw [State.slotOf_enterAsync htx', hslot]
  exact ⟨rfl, rfl, rfl, rfl, rfl⟩

theorem delivers_engine {f : PendFault} (hc : s.nextCause i = some (.engine f)) :
    Delivers s i f.eng.code f.cause fun u => (u.slotOf i).pend.engines = (s.slotOf i).pend.engines.erase f ∧
      (u.slotOf i).frame.tinfo0 = f.tinfo0 ∧ (u.slotOf i).frame.tinfo1 = f.tinfo1 ∧ (u.slotOf i).frame.tinfo2 = f.tinfo2 ∧
      (u.slotOf i).frame.tinfo3 = f.tinfo3 := by
  have hslot := s.slotOf_mapSlot_self i fun x => { x with pend := { x.pend with engines := x.pend.engines.erase f } }
  refine delivers_of_enterAsync htx hslot rfl (exec_asyncDelivery_of_nextCause hissues hbound hc) ?_
  rw [State.slotOf_enterAsync (by rw [hslot]; exact htx), hslot]
  exact ⟨rfl, rfl, rfl, rfl, rfl⟩

theorem delivers_wdog (hc : s.nextCause i = some .wdog) : Delivers s i 0 0x14 fun u => (u.slotOf i).pend.wdog = false := by
  have hslot := s.slotOf_mapSlot_self i fun x => { x with pend := { x.pend with wdog := false } }
  refine delivers_of_enterOpen htx hslot rfl (exec_asyncDelivery_of_nextCause hissues hbound hc) ?_
  rw [State.slotOf_enterOpen (by rw [hslot]; exact htx), hslot]
  rfl

theorem delivers_preempt (hc : s.nextCause i = some .preempt) :
    Delivers s i 0 0x15 fun u => (u.slotOf i).pend.preempt = false ∧ (u.slotOf i).loop.ready = false := by
  have hslot := s.slotOf_mapSlot_self i fun x =>
    { x with pend := { x.pend with preempt := false }, loop := { x.loop with ready := false } }
  refine delivers_of_enterOpen htx hslot rfl (exec_asyncDelivery_of_nextCause hissues hbound hc) ?_
  rw [State.slotOf_enterOpen (by rw [hslot]; exact htx), hslot]
  exact ⟨rfl, rfl⟩

/-- An event stops pending in its partition; the slot is as it was. -/
theorem delivers_error (hc : s.nextCause i = some .error) :
    Delivers s i 0 0x19 fun u => (u.partOf (s.partNo i.core)).errPend = false := by
  have hslot : (s.mapPart (s.partNo i.core) fun q => { q with errPend := false }).slotOf i = s.slotOf i := rfl
  refine delivers_of_enterOpen htx hslot rfl (exec_asyncDelivery_of_nextCause hissues hbound hc) ?_
  rw [State.partOf_enterOpen (by exact htx), State.partOf_mapPart_self]

theorem delivers_device (hc : s.nextCause i = some .device) :
    Delivers s i 0 0x1A fun u => (u.partOf (s.partNo i.core)).devPend = false ∧
      (u.slotOf i).frame.tinfo0 = (s.partOf (s.partNo i.core)).doorbell := by
  have hslot : (s.mapPart (s.partNo i.core) fun q => { q with devPend := false, doorbell := 0 }).slotOf i = s.slotOf i := rfl
  refine delivers_of_enterOpen htx hslot rfl (exec_asyncDelivery_of_nextCause hissues hbound hc) ?_
  rw [State.partOf_enterOpen (by exact htx), State.partOf_mapPart_self, State.slotOf_enterOpen (by exact htx)]
  exact ⟨rfl, rfl⟩

end

/-- An event that starts a supervisor slot traps before its first instruction: TEPC is sventry (R327, R379). -/
theorem State.enterOpen_of_supervisor {v : State} {i : SlotId} {x : Slot} {entry : Word} {n : Nat}
    (hslot : v.slotOf i = x.supervisor i entry n) (cause : BitVec 8) (t0 : Option Word) :
    ((v.enterOpen i cause t0).slotOf i).level = .supervisor ∧ ((v.enterOpen i cause t0).slotOf i).task = none ∧
      ((v.enterOpen i cause t0).slotOf i).frame.tepc = entry ∧
      ((v.enterOpen i cause t0).slotOf i).frame.tcause = BitVec.ofNat 11 (1024 + cause.toNat) ∧
      ∀ a, (v.enterOpen i cause t0).mem.byte a = v.mem.byte a := by
  have htx : (v.slotOf i).tx = none := by rw [hslot]; rfl
  rw [State.slotOf_enterOpen htx, State.mem_enterOpen htx, hslot]
  exact ⟨rfl, rfl, rfl, tcauseOf_async 0 cause, fun _ => rfl⟩

/-- Slot 0 of a running core whose slots are all Free takes the pending event, the error first. -/
theorem exec_asyncDelivery_of_free {s : State} {i : SlotId} (hruns : s.runs i.core = true) (hzero : i.slot = 0)
    (hfree : ∀ j ∈ slotsOf i.core, (s.slotOf j).status = .free)
    (hevent : s.eventFor i.core (·.errPend) = true ∨ s.eventFor i.core (·.devPend) = true) :
    ∃ u, exec (.asyncDelivery i) s = .next u ∧ (u.slotOf i).level = .supervisor ∧ (u.slotOf i).task = none ∧
      (u.slotOf i).frame.tepc = (s.partOf (s.partNo i.core)).word 9 ∧
      (u.slotOf i).frame.tcause = BitVec.ofNat 11 (1024 + if s.eventFor i.core (·.errPend) = true then 0x19 else 0x1A) ∧
      ∀ a, u.mem.byte a = s.mem.byte a := by
  have hwake := State.wakeIcore_of_free hzero hfree hevent
  have hstart : (s.wakeIcore i.core).slotOf i = (s.slotOf i).supervisor i ((s.partOf (s.partNo i.core)).word 9) s.cycle := by
    rw [hwake, State.slotOf_mapSlot_self]
  have hnext : (s.wakeIcore i.core).nextCause i = if s.eventFor i.core (·.errPend) then some .error
      else if s.eventFor i.core (·.devPend) then some .device
      else none := by
    have hsup := State.nextCause_of_supervisor (s := s.wakeIcore i.core) (i := i) (by rw [hstart]; rfl) (by rw [hstart]; rfl)
      (by rw [hstart]; rfl) (by rw [hstart]; rfl)
    rw [hsup, hwake]
    rfl
  have hmem : (s.wakeIcore i.core).mem = s.mem := by rw [hwake, State.mapSlot_mem]
  by_cases herr : s.eventFor i.core (·.errPend) = true
  · rw [if_pos herr] at hnext ⊢
    refine ⟨_, exec_asyncDelivery_of_wakeIcore hruns hzero hnext, ?_⟩
    rw [← hmem]
    exact State.enterOpen_of_supervisor (v := (s.wakeIcore i.core).mapPart ((s.wakeIcore i.core).partNo i.core) _) hstart 0x19 none
  · rw [if_neg herr, if_pos (hevent.resolve_left herr)] at hnext
    rw [if_neg herr]
    refine ⟨_, exec_asyncDelivery_of_wakeIcore hruns hzero hnext, ?_⟩
    rw [← hmem]
    exact State.enterOpen_of_supervisor (v := (s.wakeIcore i.core).mapPart ((s.wakeIcore i.core).partNo i.core) _) hstart 0x1A _

/-! ### The clauses of a task -/

section
variable {s : State} {i : SlotId} {t : TaskInfo} (hissues : s.issues i = true) (hbound : (s.slotOf i).atBoundary = true)
  (ht : (s.slotOf i).task = some t) (hlevel : (s.slotOf i).level = .task)
include hissues hbound ht hlevel

theorem exec_asyncDelivery_of_taskCause {c : Cause} (hown : s.taskCause i t = some c) :
    exec (.asyncDelivery i) s = .next (s.deliver i c) :=
  exec_asyncDelivery_of_nextCause hissues hbound (State.nextCause_of_taskCause hbound ht hlevel hown)

/-- R342, R373: a task whose scope its core sees cancelled, or whose kill is pending, is killed. -/
theorem exec_asyncDelivery_kills
    (h : (s.slotOf i).pend.kill.isSome = true ∨ (s.partOf t.part).cancelSeen i.core s.cycle t.scope = true) :
    exec (.asyncDelivery i) s = .next (s.killSlot i) := by
  rw [exec_asyncDelivery_of_taskCause hissues hbound ht hlevel (State.taskCause_kill h), State.deliver_kill ht hlevel hbound h]

/-- R381: one that stays alive, of a partition that is quiesced, is saved. -/
theorem exec_asyncDelivery_saves (hseen : (s.partOf t.part).cancelSeen i.core s.cycle t.scope = false)
    (hkill : (s.slotOf i).pend.kill = none) (hquiesce : s.quiescing t.part = true) (hcan : s.canQuiesce i = true) :
    exec (.asyncDelivery i) s = .next (s.quiesceSlot i) := by
  rw [exec_asyncDelivery_of_taskCause hissues hbound ht hlevel (State.taskCause_quiesce hseen hkill hquiesce hcan), State.deliver]

/-- R348: a consumed error of a store in the first run of an idempotent task is redone. -/
theorem exec_asyncDelivery_redoes {f : PendFault} (hown : s.taskCause i t = some (.store f)) (hbad : f.cause = 0x0C ∨ f.cause = 0x0D)
    (hidem : t.idem = true) (hfirst : t.rerun = false) : exec (.asyncDelivery i) s = .next ((s.storeTaken i).rerun i) := by
  rw [exec_asyncDelivery_of_taskCause hissues hbound ht hlevel hown,
    State.deliver_store_redoes ((Slot.redoes_iff ht hlevel f.cause).mpr ⟨hbad, hidem, hfirst⟩)]

end

/-! ### The obligation -/

/-- Settles O48: each cause is named by `State.taskCause` of the task or by `State.nextCause` of the boundary, and its delivery is the kill, the
save or the redo itself, or enters the handler from a slot that differs only in its pending causes and its loop (`delivers_of_enterAsync`). -/
theorem asyncDelivered : Obligations.AsyncDelivered := by
  unfold Obligations.AsyncDelivered
  intro s i x err dev error device
  refine ⟨?task, ?supervisor, fun hruns hzero hfree hevent _ => exec_asyncDelivery_of_free hruns hzero hfree hevent⟩
  case task =>
    intro hissues hbound htx t ht hlevel
    have hnext {c : Cause} (hown : s.taskCause i t = some c) := State.nextCause_of_taskCause hbound ht hlevel hown
    refine ⟨fun h => exec_asyncDelivery_kills hissues hbound ht hlevel (.inl h),
      fun h => exec_asyncDelivery_kills hissues hbound ht hlevel (.inr h), exec_asyncDelivery_saves hissues hbound ht hlevel,
      fun hseen hkill hrun htrap => ⟨?stores, ?engines, ?quiet⟩⟩
    case stores =>
      intro f r hstores
      have hown := State.taskCause_store hseen hkill hrun htrap hstores
      exact ⟨fun hno => delivers_store hissues hbound htx (hnext hown) hstores (Slot.redoes_eq_false ht hlevel hno),
        exec_asyncDelivery_redoes hissues hbound ht hlevel hown⟩
    case engines =>
      intro hstores f hengine
      exact delivers_engine hissues hbound htx (hnext (State.taskCause_engine hseen hkill hrun htrap hstores hengine))
    case quiet =>
      intro hstores hengine
      have hnext := State.nextCause_of_quietTask hbound ht hlevel (State.taskCause_none hseen hkill hrun htrap hstores hengine) htrap
      refine ⟨fun herr => delivers_error hissues hbound htx ?_, fun herr hwdog => delivers_wdog hissues hbound htx ?_,
        fun herr hwdog hpre hready => delivers_preempt hissues hbound htx ?_,
        fun herr hwdog hpre hdev => delivers_device hissues hbound htx ?_⟩
      · rw [hnext, if_pos herr]
      · rw [hnext, if_neg herr, if_pos hwdog]
      · rw [hnext, if_neg herr, hwdog, hpre, hready]
        rfl
      · rw [hnext, if_neg herr, hwdog, hpre, if_pos hdev]
        rfl
  case supervisor =>
    intro hissues hbound htx ht hlevel htrap
    have hnext := State.nextCause_of_supervisor hbound ht hlevel htrap
    refine ⟨fun herr => delivers_error hissues hbound htx ?_, fun herr hdev => delivers_device hissues hbound htx ?_⟩
    · rw [hnext, if_pos herr]
    · rw [hnext, if_neg herr, if_pos hdev]

end Sys2Proof.Machine
end

section
/-! PROOF. O53: Falran flits at their ports (20 R387, R388), and what is served at a home for another device (R389, R218, R191, R390). -/

namespace Sys2Proof.Machine

/-! ### Flits (R387, Table 6) -/

theorem bitsOf_ofNat {lo len : Nat} (h : lo + len ≤ 64) (x : Nat) : bitsOf (BitVec.ofNat 64 x) lo len = x / 2 ^ lo % 2 ^ len := by
  obtain ⟨rest, hrest⟩ := Nat.exists_eq_add_of_le h
  rw [bitsOf, BitVec.extractLsb'_toNat, BitVec.toNat_ofNat, Nat.shiftRight_eq_div_pow, hrest, Nat.add_assoc, pow_add,
    Nat.mod_mul_right_div_self, pow_add, Nat.mod_mul_right_mod]

section
variable {seq ack type vc : Nat} {payload : BitVec 1920} (htype : type < 16) (hvc : vc < 4)
include htype hvc

theorem flitType_mkFlit : flitType (mkFlit seq ack type vc payload) = type := by
  rw [flitType, mkFlit, bitsOf_ofNat (by decide)]
  omega

theorem flitSeq_mkFlit (hack : ack < 4096) : flitSeq (mkFlit seq ack type vc payload) = seq % 4096 := by
  rw [flitSeq, mkFlit, bitsOf_ofNat (by decide)]
  omega

end

/-! ### A port after a flit (R388) -/

namespace FPort

@[simp] theorem acked_rxSeq (k : FPort) (a : Nat) : (k.acked a).rxSeq = k.rxSeq := by unfold FPort.acked; split <;> rfl

@[simp] theorem acked_rxDrop (k : FPort) (a : Nat) : (k.acked a).rxDrop = k.rxDrop := by unfold FPort.acked; split <;> rfl

@[simp] theorem acked_down (k : FPort) (a : Nat) : (k.acked a).down = k.down := by unfold FPort.acked; split <;> rfl

@[simp] theorem lose_rxSeq (k : FPort) : k.lose.rxSeq = k.rxSeq := rfl

@[simp] theorem lose_rxDrop (k : FPort) : k.lose.rxDrop = true := rfl

@[simp] theorem lose_replay (k : FPort) : k.lose.replay = k.replay := rfl

/-- The retry request of a port that has lost a flit names the first lost number. -/
theorem lose_retry (k : FPort) : ∃ y, k.lose.retry = some y ∧ flitType y = 5 ∧ flitSeq y = k.rxSeq % 4096 :=
  ⟨_, rfl, flitType_mkFlit (by decide) (by decide), flitSeq_mkFlit (by decide) (by decide) (Nat.mod_lt _ (by decide))⟩

variable {k : FPort} {f : Flit} {bad : Bool}

theorem receive_of_down (hdown : k.down = true) : k.receive f bad = (k, false) := if_pos hdown

theorem receive_of_failed (hdown : k.down = false) (hok : flitOk f = false) : k.receive f bad = (k.lose, false) := by
  simp [FPort.receive, hdown, hok]

section
variable (hdown : k.down = false) (hok : flitOk f = true)
include hdown hok

theorem receive_of_noType (htype : 5 < flitType f) : k.receive f false = (k, false) := by
  simp [FPort.receive, hdown, hok, htype]

/-- A request, data flit or response in sequence. -/
theorem receive_of_inSeq (htype : 1 ≤ flitType f ∧ flitType f ≤ 3) (hseq : flitSeq f = k.rxSeq) : k.receive f false =
    (({ k with rxSeq := (k.rxSeq + 1) % 4096, rxDrop := false, retry := none }).acked (flitAck f), true) := by
  have hknown : ¬ 5 < flitType f := by omega
  have hcarries : ¬ (flitType f = 0 ∨ flitType f = 4 ∨ flitType f = 5) := by omega
  simp [FPort.receive, hdown, hok, hknown, htype, hseq, hcarries]

/-- One out of sequence is dropped, or counts as lost. -/
theorem receive_of_outOfSeq (htype : 1 ≤ flitType f ∧ flitType f ≤ 3) (hseq : flitSeq f ≠ k.rxSeq) :
    k.receive f false = (k, false) ∨ k.receive f false = (k.lose, false) := by
  have hknown : ¬ 5 < flitType f := by omega
  have hcarries : ¬ (flitType f = 0 ∨ flitType f = 4 ∨ flitType f = 5) := by omega
  by_cases hdrop : k.rxDrop = true
  · exact .inl (by simp [FPort.receive, hdown, hok, hdrop, hseq])
  · by_cases hlate : (k.rxSeq + 4096 - flitSeq f) % 4096 ≤ replayWindow
    · exact .inl (by simp [FPort.receive, hdown, hok, hknown, hdrop, hcarries, hseq, hlate])
    · exact .inr (by simp [FPort.receive, hdown, hok, hknown, hdrop, hcarries, hseq, hlate])

/-- An idle or ack-only flit, or a retry request. -/
theorem receive_of_control (htype : flitType f = 0 ∨ flitType f = 4 ∨ flitType f = 5) (hdrop : k.rxDrop = false) :
    k.receive f false = (k.acked (flitAck f), true) := by
  have hknown : ¬ 5 < flitType f := by omega
  simp [FPort.receive, hdown, hok, hknown, hdrop, htype]

end

/-- A port that drops flits until the replay makes nothing of an acknowledgement. -/
theorem receive_of_dropping (htype : flitType f = 0 ∨ flitType f = 4 ∨ flitType f = 5) (hdrop : k.rxDrop = true) :
    k.receive f bad = (k, false) ∨ k.receive f bad = (k.lose, false) := by
  have hno : ¬ (1 ≤ flitType f ∧ flitType f ≤ 3) := by omega
  by_cases hdown : k.down = true
  · exact .inl (receive_of_down hdown)
  · by_cases hbad : (bad || !flitOk f) = true
    · exact .inr (by rw [FPort.receive, if_neg hdown, if_pos hbad])
    · exact .inl (by rw [FPort.receive, if_neg hdown, if_neg hbad, if_pos (by simp [hdrop, hno])])

end FPort

/-! ### The ports of the package -/

@[simp] theorem State.portOf_mapPort (s : State) (n j : Nat) (f : FPort → FPort) :
    (s.mapPort n f).portOf j = if j = n then f (s.portOf n) else s.portOf j := by
  simp [State.portOf, State.mapPort]

@[simp] theorem State.mapPort_mem (s : State) (n : Nat) (f : FPort → FPort) : (s.mapPort n f).mem = s.mem := rfl

@[simp] theorem State.mapPort_slots (s : State) (n : Nat) (f : FPort → FPort) : (s.mapPort n f).slots = s.slots := rfl

@[simp] theorem State.mapPort_remotes (s : State) (n : Nat) (f : FPort → FPort) : (s.mapPort n f).pkg.remotes = s.pkg.remotes := rfl

@[simp] theorem State.targetPart_mapPort (s : State) (n : Nat) (f : FPort → FPort) (q : FalranReq) :
    (s.mapPort n f).targetPart q = s.targetPart q := rfl

/-- What the port makes of a flit is what is left of it, where the injector does not hit. -/
theorem State.receive_of_port {s : State} {n : Nat} {f : Flit} {p : Option (Fin 16)} {k : FPort} {b : Bool}
    (hhit : ∀ x, p = some x → s.hit (portDie n) x .flit n = false) (hport : (s.portOf n).receive f false = (k, b)) :
    s.receive n f p = (s.mapPort n fun _ => k, b) := by
  have hmap : (s.mapPort n fun k => (k.receive f false).1) = s.mapPort n fun _ => ((s.portOf n).receive f false).1 := rfl
  cases p with
  | none => simp only [State.receive, hmap, hport]
  | some x => simp only [State.receive, hhit x rfl, hmap, hport]

/-- A flit for no partition is left to the port. -/
theorem State.receive_none {s : State} {n : Nat} {f : Flit} {k : FPort} {b : Bool} (hport : (s.portOf n).receive f false = (k, b)) :
    s.receive n f none = (s.mapPort n fun _ => k, b) :=
  State.receive_of_port (fun _ h => absurd h (by simp)) hport

/-- A port that is down stays as it is, whomever the flit is for. -/
theorem State.receive_of_down {s : State} {n : Nat} (f : Flit) (p : Option (Fin 16)) (hdown : (s.portOf n).down = true) :
    s.receive n f p = (s.mapPort n fun k => k, false) := by
  have hmap (bad : Bool) : (s.mapPort n fun k => (k.receive f bad).1) = s.mapPort n fun _ => ((s.portOf n).receive f bad).1 := rfl
  simp only [State.receive, hmap, FPort.receive_of_down hdown]
  rfl

/-! ### The events of Falran -/

theorem exec_falranRequest (n : Fin 64) (f : Flit) (q : FalranReq) (s : State) :
    exec (.falranRequest n f q) s = execFalranRequest n f q s := rfl

theorem exec_falranData (n : Fin 64) (f : Flit) (s : State) : exec (.falranData n f) s = execFalranData n f s := rfl

theorem exec_falranResponse (n : Fin 64) (f : Flit) (r : FalranResp) (s : State) :
    exec (.falranResponse n f r) s = execFalranResponse n f r s := rfl

theorem exec_falranAck (n : Fin 64) (f : Flit) (s : State) : exec (.falranAck n f) s = execFalranAck n f s := rfl

theorem exec_falranRetryRequest (n : Fin 64) (f : Flit) (s : State) :
    exec (.falranRetryRequest n f) s = execFalranRetryRequest n f s := rfl

/-! ### Flits that carry no request and no response -/

theorem exec_falranData_of_otherType {s : State} {n : Fin 64} {f : Flit} (htype : flitType f ≠ 2) : exec (.falranData n f) s = .next s := by
  rw [exec_falranData, execFalranData, if_pos (.inr htype)]

section
variable {s : State} {n : Fin 64} {f : Flit} (hup : s.up = true)
include hup

theorem exec_falranData_of_port {k : FPort} {b : Bool} (htype : flitType f = 2) (hport : (s.portOf n.val).receive f false = (k, b)) :
    exec (.falranData n f) s = .next (s.mapPort n.val fun _ => k) := by
  simp [exec_falranData, execFalranData, hup, htype, State.receive_none hport]

theorem exec_falranAck_of_port {k : FPort} {b : Bool} (htype : flitType f = 4 ∨ flitType f = 0 ∨ 5 < flitType f)
    (hport : (s.portOf n.val).receive f false = (k, b)) : exec (.falranAck n f) s = .next (s.mapPort n.val fun _ => k) := by
  have hmine : ¬ (s.up = false ∨ (flitType f ≠ 4 ∧ flitType f ≠ 0 ∧ flitType f ≤ 5)) := by simp [hup]; omega
  rw [exec_falranAck, execFalranAck, if_neg hmine, State.receive_none hport]

/-- A retry request leaves what is not acknowledged to be sent again, and counts a failure. -/
theorem exec_falranRetryRequest_of_port {k : FPort} (htype : flitType f = 5) (hport : (s.portOf n.val).receive f false = (k, true))
    (hrest : k.replay ≠ []) (hfails : k.fails < replayLimit) :
    exec (.falranRetryRequest n f) s = .next ((s.mapPort n.val fun _ => k).mapPort n.val fun k => { k with fails := k.fails + 1 }) := by
  simp [exec_falranRetryRequest, execFalranRetryRequest, hup, htype, State.receive_none hport, hrest, hfails]

end

/-! ### Responses (R388, R389) -/

theorem exec_falranResponse_of_down {s : State} {n : Fin 64} (f : Flit) (r : FalranResp) (hdown : (s.portOf n.val).down = true) :
    ∃ t, exec (.falranResponse n f r) s = .next t ∧ t.mem = s.mem ∧ t.slots = s.slots ∧ t.pkg.remotes = s.pkg.remotes := by
  by_cases hmine : s.up = false ∨ flitType f ≠ 3
  · exact ⟨s, by rw [exec_falranResponse, execFalranResponse, if_pos hmine], rfl, rfl, rfl⟩
  · refine ⟨s.mapPort n.val fun k => k, ?_, rfl, rfl, rfl⟩
    rw [exec_falranResponse, execFalranResponse, if_neg hmine, State.receive_of_down f _ hdown]

theorem exec_falranResponse_of_accepted {s t : State} {n : Fin 64} {f : Flit} {r : FalranResp} {x : Remote} (hup : s.up = true)
    (htype : flitType f = 3) (hfind : s.pkg.remotes.find? (fun q => q.tag == r.tag) = some x)
    (haccept : s.receive n.val f (some (s.partNo x.slot.core)) = (t, true)) :
    exec (.falranResponse n f r) s = .next (t.answer x (unmarkReply r.reply)) := by
  simp [exec_falranResponse, execFalranResponse, hup, htype, hfind, haccept]

/-! ### Requests that are served at a home -/

/-- A state whose port, or another that leads to its sender, has answered a request (R388). -/
def State.replied (u : State) (port : Nat) (q : FalranReq) (a : Reply) : State :=
  match u.responsePort port q.dev.toNat with
  | some j => u.mapPort j fun k => k.send q.dev.toNat 3 1 (Config.responsePayload ⟨q.tag, a⟩)
  | none => u

theorem State.respond_eq (s : State) (port : Nat) (q : FalranReq) :
    s.respond port q = (s.serveRequest q).1.replied port q (s.serveRequest q).2 := rfl

theorem State.responsePort_of_up {s : State} {port : Nat} (dev : Nat) (hdown : (s.portOf port).down = false) :
    s.responsePort port dev = some port := by
  simp [State.responsePort, hdown]

/-- An answer changes a replay buffer and the number of the next flit, and nothing that a port has received. -/
theorem State.replied_keeps (u : State) (port : Nat) (q : FalranReq) (a : Reply) :
    (u.replied port q a).mem = u.mem ∧ (u.replied port q a).slots = u.slots ∧
      ∀ j, ((u.replied port q a).portOf j).rxSeq = (u.portOf j).rxSeq := by
  unfold State.replied
  split
  next m _ =>
    refine ⟨rfl, rfl, fun j => ?_⟩
    rw [State.portOf_mapPort]
    split
    next hj => rw [hj]; rfl
    next => rfl
  next => exact ⟨rfl, rfl, fun _ => rfl⟩

theorem exec_falranRequest_of_otherType {s : State} {n : Fin 64} {f : Flit} {q : FalranReq} (htype : flitType f ≠ 1) :
    exec (.falranRequest n f q) s = .next s := by
  rw [exec_falranRequest, execFalranRequest, if_pos (.inr htype)]

theorem exec_falranRequest_of_down {s : State} {n : Fin 64} (f : Flit) (q : FalranReq) (hdown : (s.portOf n.val).down = true) :
    ∃ t, exec (.falranRequest n f q) s = .next t ∧ t.mem = s.mem ∧ t.slots = s.slots ∧ t.portOf n.val = s.portOf n.val := by
  by_cases hmine : s.up = false ∨ flitType f ≠ 1
  · exact ⟨s, by rw [exec_falranRequest, execFalranRequest, if_pos hmine], rfl, rfl, rfl⟩
  · refine ⟨s.mapPort n.val fun k => k, ?_, rfl, rfl, by simp⟩
    rw [exec_falranRequest, execFalranRequest, if_neg hmine, State.receive_of_down f _ hdown]

section
variable {s t : State} {n : Fin 64} {f : Flit} {q : FalranReq} (hup : s.up = true) (htype : flitType f = 1)
  (haccept : s.receive n.val f (s.targetPart q) = (t, true))
include hup htype haccept

/-- At a home that another commit has locked it waits (R218). -/
theorem exec_falranRequest_waits (hwait : t.mustWait q = true) :
    exec (.falranRequest n f q) s = .next (t.mapPkg fun k => { k with waiting := k.waiting ++ [(n.val, q)] }) := by
  simp [exec_falranRequest, execFalranRequest, hup, htype, haccept, hwait]

theorem exec_falranRequest_responds (hwait : t.mustWait q = false) : exec (.falranRequest n f q) s = .next (t.respond n.val q) := by
  simp [exec_falranRequest, execFalranRequest, hup, htype, haccept, hwait]

/-- What serving it leaves is answered. -/
theorem exec_falranRequest_replies {u : State} {a : Reply} (hwait : t.mustWait q = false) (hserve : t.serveRequest q = (u, a)) :
    exec (.falranRequest n f q) s = .next (u.replied n.val q a) := by
  rw [exec_falranRequest_responds hup htype haccept hwait, State.respond_eq, hserve]

end

/-- A request to an address that no partition owns leaves memory and slots, also where it waits. -/
theorem exec_falranRequest_of_noOwner {s t : State} {n : Fin 64} {f : Flit} {q : FalranReq} (hup : s.up = true) (htype : flitType f = 1)
    (haccept : s.receive n.val f (s.targetPart q) = (t, true)) (hnone : t.targetPart q = none) :
    ∃ u, exec (.falranRequest n f q) s = .next u ∧ u.mem = t.mem ∧ u.slots = t.slots ∧ (u.portOf n.val).rxSeq = (t.portOf n.val).rxSeq := by
  by_cases hwait : t.mustWait q = true
  · exact ⟨_, exec_falranRequest_waits hup htype haccept hwait, rfl, rfl, rfl⟩
  · have hserve : t.serveRequest q = (t, ⟨poisoned, 0⟩) := by simp only [State.serveRequest, hnone]
    obtain ⟨hmem, hslots, hseq⟩ := t.replied_keeps n.val q ⟨poisoned, 0⟩
    exact ⟨_, exec_falranRequest_replies hup htype haccept (Bool.eq_false_iff.mpr hwait) hserve, hmem, hslots, hseq _⟩

/-! ### Who is served (R389, R390) -/

section
variable {s : State} {q : FalranReq} {p : Fin 16} (hpart : s.targetPart q = some p)
include hpart

theorem State.serveRequest_of_not_peered (hpeer : s.peered p q.dev q.endpoint = false) : s.serveRequest q = (s, ⟨poisoned, 0⟩) := by
  simp [State.serveRequest, hpart, hpeer]

variable (hpeer : s.peered p q.dev q.endpoint = true)
include hpeer

theorem State.serveRequest_dom {h id task : Nat} {m : DomMsg} (hop : q.op = .dom h id task m) :
    s.serveRequest q = s.serveDom p q.dev.toNat id task m := by
  simp [State.serveRequest, hpart, hpeer, hop]

variable (hdom : ∀ h id task m, q.op ≠ .dom h id task m)
include hdom

theorem State.serveRequest_of_keyed (hkey : s.keyedAt q.pa.toNat = true) : s.serveRequest q = (s, ⟨poisoned, 0⟩) := by
  cases hop : q.op with
  | dom h id task m => exact absurd hop (hdom h id task m)
  | _ => simp [State.serveRequest, hpart, hpeer, hop, hkey]

theorem State.serveRequest_home (hkey : s.keyedAt q.pa.toNat = false) : s.serveRequest q = s.serveHome p q := by
  cases hop : q.op with
  | dom h id task m => exact absurd hop (hdom h id task m)
  | _ => simp [State.serveRequest, hpart, hpeer, hop, hkey]

end

/-! ### A granule that another device writes (R190, R191) -/

theorem writeGran_of_failed {g : Granule} (x : Granule) {m : BitVec 32} (c : Option (BitVec 32)) (hm : m ≠ BitVec.allOnes 32)
    (hg : checkGran g ≠ none) : writeGran g x m c = .error ⟨g, 1⟩ := by
  rw [writeGran, if_neg hm, if_pos (Option.isSome_iff_ne_none.mpr hg)]

theorem writeGran_of_badOperand {g x : Granule} {m : BitVec 32} {c : Option (BitVec 32)} {e : StoreFault} (hm : m ≠ BitVec.allOnes 32)
    (hg : checkGran g = none) (he : operandFault (namedBytes x.data m) c = some e) :
    writeGran g x m c = .error ⟨mkGran (e.t1.setWidth 256), 2⟩ := by
  simp only [writeGran, if_neg hm, hg, he, Option.isSome_none, Bool.false_eq_true, if_false, operandReply]

section
variable {g : Granule} {op : Fin 16} {off : Fin 4} {v e : BitVec 64} {c : BitVec 32}

theorem serveGran_atom_of_failed (hg : checkGran g ≠ none) : serveGran g (.atom op off v e c) = (none, ⟨g, 1⟩) := by
  rw [serveGran, if_pos (Option.isSome_iff_ne_none.mpr hg)]

theorem serveGran_atom_of_badOperand {h : StoreFault} (hg : checkGran g = none)
    (hbad : operandFault (natBytes 8 v.toNat) (some c) = some h) :
    serveGran g (.atom op off v e c) = (none, ⟨mkGran (h.t1.setWidth 256), 2⟩) := by
  simp [serveGran, hg, hbad, operandReply]

/-- A granule with a double word replaced. -/
def putWordAt (g : Granule) (off : Fin 4) (w : Word) : Granule :=
  mkGran (mergeBytes g.data (placeAt w (8 * off.val)) (byteMask (8 * off.val) 8))

variable (hg : checkGran g = none) (hbad : operandFault (natBytes 8 v.toNat) (some c) = none)
include hg hbad

theorem serveGran_atom (hop : op ≠ 15) :
    serveGran g (.atom op off v e c) = (some (putWordAt g off (atomValue op.val (takeAt g.data (8 * off.val) 8) v)), ⟨g, 0⟩) := by
  simp [serveGran, hg, hbad, hop, putWordAt]

theorem serveGran_cas_of_eq (hop : op = 15) (hold : takeAt g.data (8 * off.val) 8 = e) :
    serveGran g (.atom op off v e c) = (some (putWordAt g off v), ⟨g, 0⟩) := by
  simp [serveGran, hg, hbad, hop, hold, putWordAt]

theorem serveGran_cas_of_ne (hop : op = 15) (hold : takeAt g.data (8 * off.val) 8 ≠ e) :
    serveGran g (.atom op off v e c) = (none, ⟨g, 0⟩) := by
  simp [serveGran, hg, hbad, hop, hold]

end

/-! ### What each request does at its home (R389, R218) -/

section
variable {s : State} {q : FalranReq} {p : Fin 16}

theorem State.serveHome_read (hop : q.op = .read) : s.serveHome p q = (s, ⟨s.homeGran p none (q.pa.toNat / 32), 0⟩) := by
  simp only [State.serveHome, hop, serveGran, State.noteTx]

section
variable {m : BitVec 32} {x : Granule} {c : Option (BitVec 32)} (hop : q.op = .write m x c)
include hop

theorem State.serveHome_write_ok {y : Granule} (hw : writeGran (s.homeGran p none (q.pa.toNat / 32)) x m c = .ok y) :
    s.serveHome p q =
      ((s.homePutNow p none q.dlog (q.pa.toNat / 32) y).wakeBy p (.phys (q.pa.toNat / 32)) m x.data, ⟨zeroGran, 0⟩) := by
  simp only [State.serveHome, hop, serveGran, hw, served, State.peerWake, State.noteTx]

theorem State.serveHome_write_error {e : Reply} (hw : writeGran (s.homeGran p none (q.pa.toNat / 32)) x m c = .error e) :
    s.serveHome p q = (s, e) := by
  simp only [State.serveHome, hop, serveGran, hw, served, State.noteTx]

end

section
variable {op : Fin 16} {off : Fin 4} {v e : BitVec 64} {c : BitVec 32} {a : Reply} (hop : q.op = .atom op off v e c)
include hop

theorem State.serveHome_atom_puts {y : Granule}
    (hserve : serveGran (s.homeGran p none (q.pa.toNat / 32)) (.atom op off v e c) = (some y, a)) :
    s.serveHome p q = (s.homePutNow p none q.dlog (q.pa.toNat / 32) y, a) := by
  simp only [State.serveHome, hop, hserve, State.peerWake, State.noteTx]

theorem State.serveHome_atom_keeps (hserve : serveGran (s.homeGran p none (q.pa.toNat / 32)) (.atom op off v e c) = (none, a)) :
    s.serveHome p q = (s, a) := by
  simp only [State.serveHome, hop, hserve, State.noteTx]

end

section
variable {o : Nat} {rd : Bool} {m : BitVec 32} {x : BitVec 256} {c : BitVec 32} (hop : q.op = .txLock o rd m x c) (hm : m ≠ 0)
  (hhit : s.txHit q = false)
include hop hm hhit

/-- A lock that brings bytes keeps what it makes of them, and is answered with what the checks find. -/
theorem State.serveHome_txLock : s.serveHome p q =
    (if s.pkg.locks.any fun l => l.heldBy q o then s
      else s.mapPkg fun k => { k with locks := k.locks ++ [⟨.phys (q.pa.toNat / 32), q.dev, q.endpoint, o,
        (writeSetGran (s.homeGran p none (q.pa.toNat / 32)) m x c).toOption.map fun y => (m, y)⟩] },
      lockReply (s.homeGran p none (q.pa.toNat / 32)) (writeSetGran (s.homeGran p none (q.pa.toNat / 32)) m x c)) := by
  simp only [State.serveHome, hop, State.serveLock, if_neg hm, hhit, Bool.false_eq_true, if_false]

/-- A lock keeps the bytes that the commit's write will perform. -/
theorem State.serveHome_txLock_ok {y : Granule} (hfree : ∀ l ∈ s.pkg.locks, l.heldBy q o = false)
    (hw : writeSetGran (s.homeGran p none (q.pa.toNat / 32)) m x c = .ok y) :
    s.serveHome p q = (s.mapPkg fun k =>
      { k with locks := k.locks ++ [⟨.phys (q.pa.toNat / 32), q.dev, q.endpoint, o, some (m, y)⟩] }, ⟨zeroGran, 0⟩) := by
  have hnone : (s.pkg.locks.any fun l => l.heldBy q o) = false := by simpa using hfree
  rw [State.serveHome_txLock hop hm hhit, hw, hnone]
  rfl

/-- A check that fails is told, and memory and slots stay. -/
theorem State.serveHome_txLock_error {e : StoreFault} (hw : writeSetGran (s.homeGran p none (q.pa.toNat / 32)) m x c = .error e) :
    ∃ u, s.serveHome p q = (u, if e.code = 2 then ⟨mkGran (e.t1.setWidth 256), 2⟩ else ⟨s.homeGran p none (q.pa.toNat / 32), 1⟩) ∧
      u.mem = s.mem ∧ u.slots = s.slots := by
  rw [State.serveHome_txLock hop hm hhit, hw]
  refine ⟨_, rfl, ?_, ?_⟩ <;> split <;> rfl

end

/-- The commit's write performs what its lock keeps. -/
theorem State.serveHome_txWrite {o : Nat} {l : Lock} {m : BitVec 32} {y : Granule} (hop : q.op = .txWrite o)
    (hlock : s.pkg.locks.find? (fun l => l.heldBy q o) = some l) (hw : l.write = some (m, y)) :
    s.serveHome p q =
      ((s.homePutNow p none q.dlog (q.pa.toNat / 32) y).wakeBy p (.phys (q.pa.toNat / 32)) m y.data, ⟨zeroGran, 0⟩) := by
  simp [State.serveHome, hop, State.serveCommit, hlock, hw]

end

/-! ### The obligation -/

/-- Settles O53: each clause is a case of what a port makes of a flit, or of what a request does at its home. -/
theorem falranSteps : Obligations.FalranSteps := by
  unfold Obligations.FalranSteps
  intro s n f q r x hup k good
  refine ⟨fun hdown => ⟨?downRequest, ?downResponse, ?downData⟩, ?dataFailed, ?ackFailed, ?ackNoType, ?dataInSeq, ?dataOutOfSeq,
    ?noOwner, exec_falranRequest_of_otherType, ?served, ?response, ?acked, ?dropping, ?retry⟩
  case downRequest => exact exec_falranRequest_of_down f q hdown
  case downResponse => exact exec_falranResponse_of_down f r hdown
  case downData =>
    by_cases htype : flitType f = 2
    · exact ⟨_, exec_falranData_of_port hup htype (FPort.receive_of_down hdown), rfl, rfl, by simp [k]⟩
    · exact ⟨s, exec_falranData_of_otherType htype, rfl, rfl, rfl⟩
  case dataFailed =>
    intro htype hdown hok
    exact ⟨_, exec_falranData_of_port hup htype (FPort.receive_of_failed hdown hok), by simp, by simp [k], by simpa using k.lose_retry,
      by simp [k], rfl, rfl⟩
  case ackFailed =>
    intro htype hdown hok
    exact ⟨_, exec_falranAck_of_port hup htype (FPort.receive_of_failed hdown hok), by simp, by simpa using k.lose_retry, rfl, rfl⟩
  case ackNoType =>
    intro htype ⟨hdown, hok⟩
    exact ⟨_, exec_falranAck_of_port hup (.inr (.inr htype)) (FPort.receive_of_noType hdown hok htype), by simp [k], rfl, rfl⟩
  case dataInSeq =>
    intro htype ⟨hdown, hok⟩ hseq
    exact ⟨_, exec_falranData_of_port hup htype (FPort.receive_of_inSeq hdown hok (by omega) hseq), by simp [k], by simp, rfl, rfl⟩
  case dataOutOfSeq =>
    intro htype ⟨hdown, hok⟩ hseq
    rcases FPort.receive_of_outOfSeq hdown hok (by omega) hseq with hport | hport <;>
      exact ⟨_, exec_falranData_of_port hup htype hport, by simp [k], by simp [k], rfl, rfl⟩
  case noOwner =>
    intro htype ⟨hdown, hok⟩ hseq hnone
    have haccept := State.receive_of_port (p := s.targetPart q) (fun _ h => absurd (hnone.symm.trans h) (by simp))
      (FPort.receive_of_inSeq hdown hok (by omega) hseq)
    obtain ⟨u, hu, hmem, hslots, hrx⟩ := exec_falranRequest_of_noOwner hup htype haccept hnone
    exact ⟨u, hu, hmem, hslots, by simp [hrx, k]⟩
  case served =>
    intro htype ⟨hdown, hok⟩ hseq p hpart hhit t a g reply
    have hport := State.receive_of_port (p := some p) (fun _ h => Option.some.inj h ▸ hhit)
      (FPort.receive_of_inSeq hdown hok (by omega) hseq)
    have ht : s.receive n.val f (some p) = (t, true) := Prod.ext rfl (by rw [hport])
    have haccept : s.receive n.val f (s.targetPart q) = (t, true) := hpart ▸ ht
    have htarget : t.targetPart q = some p := hpart
    refine ⟨State.responsePort_of_up _, exec_falranRequest_waits hup htype haccept, fun hwait => ?_⟩
    have hreply {u : State} {b : Reply} (hserve : t.serveRequest q = (u, b)) : reply u b :=
      exec_falranRequest_replies hup htype haccept hwait hserve
    refine ⟨fun hpeer => hreply (State.serveRequest_of_not_peered htarget hpeer), fun hpeer =>
      ⟨fun h id task m hop => hreply (State.serveRequest_dom htarget hpeer hop),
        fun hdom hkey => hreply (State.serveRequest_of_keyed htarget hpeer hdom hkey), fun hkey => ?_⟩⟩
    have hhome {u : State} {b : Reply} {o : RemoteOp} (hop : q.op = o) (hdom : ∀ h id task m, o ≠ .dom h id task m)
        (hserve : t.serveHome p q = (u, b)) : reply u b :=
      hreply ((State.serveRequest_home htarget hpeer (hop ▸ hdom) hkey).trans hserve)
    refine ⟨?read, ?write, ?atom, ?lock, ?lockFails, ?commit⟩
    case read => exact fun hop => hhome hop (by simp) (State.serveHome_read hop)
    case write =>
      exact fun m x c hop => ⟨fun y hw => hhome hop (by simp) (State.serveHome_write_ok hop hw),
        fun e hw => hhome hop (by simp) (State.serveHome_write_error hop hw), writeGran_of_failed x c, fun e => writeGran_of_badOperand⟩
    case atom =>
      intro op off v e c hop bad
      have hkeeps {b : Reply} (h : serveGran g (.atom op off v e c) = (none, b)) : reply t b :=
        hhome hop (by simp) (State.serveHome_atom_keeps hop h)
      have hputs {y : Granule} {b : Reply} (h : serveGran g (.atom op off v e c) = (some y, b)) :
          reply (t.homePutNow p none q.dlog a y) b :=
        hhome hop (by simp) (State.serveHome_atom_puts hop h)
      exact ⟨fun hg => hkeeps (serveGran_atom_of_failed hg), fun h hg hbad => hkeeps (serveGran_atom_of_badOperand hg hbad),
        fun hg hbad => ⟨fun hne => hputs (serveGran_atom hg hbad hne), fun hcas hold => hputs (serveGran_cas_of_eq hg hbad hcas hold),
          fun hcas hold => hkeeps (serveGran_cas_of_ne hg hbad hcas hold)⟩⟩
    case lock =>
      exact fun o rd m x c y hop hm htx hfree hw => hhome hop (by simp) (State.serveHome_txLock_ok hop hm htx hfree hw)
    case lockFails =>
      intro o rd m x c e hop hm htx hw
      obtain ⟨u, hserve, hmem, hslots⟩ := State.serveHome_txLock_error hop hm htx hw
      exact ⟨u, hhome hop (by simp) hserve, hmem, hslots⟩
    case commit => exact fun o l m y hop hlock hw => hhome hop (by simp) (State.serveHome_txWrite hop hlock hw)
  case response =>
    intro htype haccept hfind
    rw [hfind] at haccept
    exact exec_falranResponse_of_accepted hup htype hfind haccept
  case acked =>
    intro htype ⟨hdown, hok⟩ hdrop
    exact ⟨_, exec_falranAck_of_port hup (by omega) (FPort.receive_of_control hdown hok (by omega) hdrop), by simp [k], rfl, rfl⟩
  case dropping =>
    intro htype hdrop
    rcases FPort.receive_of_dropping (f := f) (bad := false) (by omega) hdrop with hport | hport <;>
      exact ⟨_, exec_falranAck_of_port hup (by omega) hport, by simp [k], by simp [k], rfl, rfl⟩
  case retry =>
    intro htype ⟨hdown, hok⟩ hdrop hrest hfails
    exact ⟨_, exec_falranRetryRequest_of_port hup htype (FPort.receive_of_control hdown hok (.inr (.inr htype)) hdrop) hrest hfails,
      by simp [k], by simpa using hdown, by simp [k], rfl⟩

end Sys2Proof.Machine
end

section
/-! PROOF. O51: configuration transactions, and running, stopping and resetting a partition (20 R378, R380 to R384, R386). -/

namespace Sys2Proof.Machine

/-! ### Looking at launch queues of other devices (R398) -/

/-- Partitions forget what was read for them. -/
def State.forgetAll (s : State) (l : List (Fin 16)) : State := l.foldl (fun t p => t.forget p) s

/-- What was read for a partition stands beside the transaction, slots and memory. -/
theorem State.forgetAll_keeps (s : State) (l : List (Fin 16)) :
    (s.forgetAll l).pkg.cfg = s.pkg.cfg ∧ (s.forgetAll l).slots = s.slots ∧ (s.forgetAll l).mem = s.mem :=
  List.foldlRecOn (motive := fun t : State => t.pkg.cfg = s.pkg.cfg ∧ t.slots = s.slots ∧ t.mem = s.mem) l _ ⟨rfl, rfl, rfl⟩
    fun _ ht _ _ => ht

/-- An action that wants nothing of other devices is done at once. -/
theorem State.lookingAt_of_noWants {s : State} {l : List Nat} (f : State → State)
    (h : ∀ p ∈ l.map (Fin.ofNat 16), ∀ k ∈ [0, 1, 2, 3], s.queueWants p k = []) :
    s.lookingAt l f = (f s).forgetAll (l.map (Fin.ofNat 16)) := by
  have hnone : (l.map (Fin.ofNat 16)).all (fun p => ([0, 1, 2, 3].flatMap fun k => s.queueWants p k).isEmpty) = true :=
    List.all_eq_true.mpr fun p hp => List.isEmpty_iff.mpr (List.flatMap_eq_nil_iff.mpr (h p hp))
  exact if_pos hnone

/-! ### Configuration transactions (R381 to R383) -/

/-- The end of a transaction has its status, and gives work back to the partitions that it held. -/
theorem State.endConfig_keeps (s : State) (status : Nat) :
    (s.endConfig status).pkg.cfg.status = status ∧ (s.endConfig status).slots = s.slots ∧ (s.endConfig status).mem = s.mem := by
  refine List.foldlRecOn (motive := fun t : State => t.pkg.cfg.status = status ∧ t.slots = s.slots ∧ t.mem = s.mem) _ _ ⟨rfl, rfl, rfl⟩ ?_
  intro t ht p _
  split
  next => exact ht
  next => exact ht

theorem State.commit_status (s : State) : s.commit.pkg.cfg.status = 0 := (State.endConfig_keeps _ 0).1

theorem State.allQuiet_iff (s : State) : s.allQuiet = true ↔ ∀ p ∈ s.pkg.cfg.affected, s.quiet (Fin.ofNat 16 p) = true :=
  List.all_eq_true

/-- The time at which every task was saved is noted. -/
theorem State.noteSaved_start {s : State} (hon : s.pkg.cfg.status = 3) (hnone : s.pkg.cfg.start = none)
    (hsaved : ∀ p ∈ s.pkg.cfg.affected, s.allSaved (Fin.ofNat 16 p) = true) : s.noteSaved.pkg.cfg.start = some s.cycle := by
  have hcond : s.pkg.cfg.status = 3 ∧ s.pkg.cfg.start.isNone = true ∧
      s.pkg.cfg.affected.all (fun p => s.allSaved (Fin.ofNat 16 p)) = true :=
    ⟨hon, by rw [hnone]; rfl, List.all_eq_true.mpr hsaved⟩
  rw [State.noteSaved, if_pos hcond]
  rfl

theorem exec_cfgCtl (s : State) : exec .cfgCtl s = execCfgCtl s := rfl

theorem exec_configCommit (s : State) : exec .configCommit s = execConfigCommit s := rfl

theorem exec_cfgTmo (s : State) : exec .cfgTmo s = execCfgTmo s := rfl

section
variable {s : State}

theorem exec_cfgCtl_of_on (hon : s.pkg.cfg.status = 3) : exec .cfgCtl s = .next s := by
  rw [exec_cfgCtl, execCfgCtl, State.startConfig, if_pos hon, ite_self]

theorem exec_cfgCtl_of_invalid (hup : s.up = true) (hoff : s.pkg.cfg.status ≠ 3) (hbad : s.layoutOk = false) :
    exec .cfgCtl s = .next (s.mapPkg fun k => { k with cfg := { k.cfg with status := 2 } }) := by
  rw [exec_cfgCtl, execCfgCtl, if_pos hup, State.startConfig, if_neg hoff, if_pos hbad]

theorem exec_cfgCtl_of_valid (hup : s.up = true) (hoff : s.pkg.cfg.status ≠ 3) (hok : s.layoutOk = true) : exec .cfgCtl s =
    .next (((s.mapPkg fun k => { k with cfg := ⟨3, none, s.affectedParts⟩ }).quiesceAll s.affectedParts).noteSaved) := by
  have hvalid : ¬ s.layoutOk = false := by simp [hok]
  rw [exec_cfgCtl, execCfgCtl, if_pos hup, State.startConfig, if_neg hoff, if_neg hvalid]

theorem exec_configCommit_of_off (hoff : s.pkg.cfg.status ≠ 3) : exec .configCommit s = .next s := by
  rw [exec_configCommit, execConfigCommit, if_neg hoff]

theorem exec_cfgTmo_of_off (hoff : s.pkg.cfg.status ≠ 3) : exec .cfgTmo s = .next s := by
  rw [exec_cfgTmo, execCfgTmo]
  split
  next => rw [if_neg fun h => hoff h.1]
  next => rfl

theorem exec_cfgTmo_of_unsaved (hstart : s.pkg.cfg.start = none) : exec .cfgTmo s = .next s := by
  simp only [exec_cfgTmo, execCfgTmo, hstart]

theorem exec_cfgTmo_of_early {t : Nat} (hstart : s.pkg.cfg.start = some t) (h : s.cycle < t + 1600 * (s.pfReg 0x10).toNat) :
    exec .cfgTmo s = .next s := by
  have hearly : ¬ (s.pkg.cfg.status = 3 ∧ t + wakeWindow * (s.pfReg 0x10).toNat ≤ s.cycle) := fun hlate =>
    absurd hlate.2 (Nat.not_le.mpr h)
  simp only [exec_cfgTmo, execCfgTmo, hstart, if_neg hearly]

section
variable (hon : s.pkg.cfg.status = 3)
  (hlook : ∀ p ∈ s.pkg.cfg.affected.map (Fin.ofNat 16), ∀ k ∈ [0, 1, 2, 3], s.queueWants p k = [])
include hon hlook

theorem exec_configCommit_eq : exec .configCommit s =
    .next ((if s.allQuiet then s.commit else s).forgetAll (s.pkg.cfg.affected.map (Fin.ofNat 16))) := by
  rw [exec_configCommit, execConfigCommit, if_pos hon, State.lookingAt_of_noWants _ hlook]

/-- Once CFG_TMO has passed, a transaction whose partitions are not quiet ends BUSY. -/
theorem exec_cfgTmo_eq {t : Nat} (hstart : s.pkg.cfg.start = some t) (hlate : t + 1600 * (s.pfReg 0x10).toNat ≤ s.cycle) : exec .cfgTmo s =
    .next ((if s.allQuiet then s else s.endConfig 1).forgetAll (s.pkg.cfg.affected.map (Fin.ofNat 16))) := by
  have hpassed : s.pkg.cfg.status = 3 ∧ t + wakeWindow * (s.pfReg 0x10).toNat ≤ s.cycle := ⟨hon, hlate⟩
  simp only [exec_cfgTmo, execCfgTmo, hstart, if_pos hpassed, State.lookingAt_of_noWants _ hlook]

end

end

/-! ### Running, stopping and resetting (R384, R386) -/

theorem exec_partRun (p : Fin 16) (s : State) : exec (.partRun p) s = execPartRun p s := rfl

theorem exec_partStop (p : Fin 16) (s : State) : exec (.partStop p) s = execPartStop p s := rfl

theorem exec_partReset (p : Fin 16) (s : State) : exec (.partReset p) s = execPartReset p s := rfl

theorem exec_coreRun (c : Fin 256) (s : State) : exec (.coreRun c) s = execCoreRun c s := rfl

section
variable {s : State} {p : Fin 16}

theorem exec_part_of_invalid (hinvalid : (s.partOf p).valid = false) :
    exec (.partRun p) s = .next s ∧ exec (.partStop p) s = .next s ∧ exec (.partReset p) s = .next s := by
  have hno : ¬ (s.up && (s.partOf p).valid) = true := by simp [hinvalid]
  refine ⟨?_, ?_, ?_⟩
  · rw [exec_partRun, execPartRun, if_neg hno]
  · rw [exec_partStop, execPartStop, if_neg hno]
  · rw [exec_partReset, execPartReset, if_neg hno]

section
variable (hup : s.up = true) (hvalid : (s.partOf p).valid = true)
include hup hvalid

theorem exec_partRun_of_valid (hwants : (List.range (s.partOf p).envCount).flatMap (s.adoptWants p) = []) : exec (.partRun p) s =
    .next (((s.mapPart p fun q => { q with frozen := false, stopped := false }).adoptAll p (s.partOf p).envCount).forget p) := by
  rw [exec_partRun, execPartRun, hup, hvalid, hwants, State.reading_nil]
  rfl

theorem exec_partStop_of_valid :
    let z := ((s.mapPart p fun q => { q with stopped := true }).flushSupervisors ((s.coresOf p).flatMap slotsOf)).quiesce p
    exec (.partStop p) s = .next (z.evictUnpinned p (z.segs.map (·.id))) := by
  intro z
  rw [exec_partStop, execPartStop, hup, hvalid]
  rfl

theorem exec_partReset_of_valid : exec (.partReset p) s = .next (s.resetPart p) := by
  rw [exec_partReset, execPartReset, hup, hvalid]
  rfl

end

/-- PART_RESET clears the key slots and marks the partition before it looks whether its supervisor may start. -/
theorem State.resetPart_restarts (s : State) (p : Fin 16) :
    ∃ u : State, s.resetPart p = u.restart p ∧ (u.partOf p).resetting = true ∧ (u.partOf p).keys = [] :=
  ⟨_, rfl, by rw [State.partOf_mapPart_self], by rw [State.partOf_mapPart_self]⟩

/-- A partition that becomes valid runs, with its key slots empty. -/
theorem newPart_fields (q : Part) (d : List Word) :
    (newPart q d).resetting = false ∧ (newPart q d).frozen = false ∧ (newPart q d).keys = [] := by
  unfold newPart Part.withRoot
  dsimp only
  split <;> exact ⟨rfl, rfl, rfl⟩

theorem State.partOf_startSupervisor (s : State) (p j : Fin 16) : (s.startSupervisor p).partOf j = s.partOf j :=
  State.partOf_setSlot _ _ _ _

/-- The supervisor of a partition starts at sventry, on slot 0 of the interrupt core. -/
theorem State.slotOf_startSupervisor (s : State) (p : Fin 16) :
    ((s.startSupervisor p).slotOf ⟨(s.partOf p).icore, 0⟩).level = .supervisor ∧
      ((s.startSupervisor p).slotOf ⟨(s.partOf p).icore, 0⟩).pc = (s.partOf p).word 9 := by
  rw [State.startSupervisor, State.slotOf_setSlot, if_pos rfl]
  exact ⟨rfl, rfl⟩

theorem State.restart_of_unacknowledged (hack : s.ackReady p 0 = false) : s.restart p = s := by
  rw [State.restart, hack, Bool.and_false]
  rfl

/-- The partition as in one that becomes valid, and its supervisor. -/
theorem State.restart_of_acknowledged (hreset : (s.partOf p).resetting = true) (hack : s.ackReady p 0 = true) :
    ((s.restart p).partOf p).resetting = false ∧ ((s.restart p).partOf p).frozen = false ∧ ((s.restart p).partOf p).keys = [] ∧
      ((s.restart p).slotOf ⟨((s.restart p).partOf p).icore, 0⟩).level = .supervisor ∧
      ((s.restart p).slotOf ⟨((s.restart p).partOf p).icore, 0⟩).pc = ((s.restart p).partOf p).word 9 := by
  have hready : ((s.partOf p).resetting && s.ackReady p 0) = true := by rw [hreset, hack]; rfl
  rw [State.restart, if_pos hready]
  dsimp only
  obtain ⟨hresetting, hfrozen, hkeys⟩ := newPart_fields ((s.acknowledgeAll p ((s.partOf p).scopes.map (·.id))).partOf p)
    ((s.acknowledgeAll p ((s.partOf p).scopes.map (·.id))).partOf p).desc
  rw [State.partOf_startSupervisor]
  exact ⟨by rwa [State.partOf_mapPart_self], by rwa [State.partOf_mapPart_self], by rwa [State.partOf_mapPart_self],
    State.slotOf_startSupervisor _ p⟩

end

section
variable {s : State} {c : Fin 256}

theorem exec_coreRun_of_some {l : Fin 256} (hup : s.up = true) (hl : s.logicalCore c = some l) :
    exec (.coreRun c) s = .next (s.mapCore l fun k => { k with halted := false }) := by
  simp only [exec_coreRun, execCoreRun, hup, hl]

theorem exec_coreRun_of_none (hl : s.logicalCore c = none) : exec (.coreRun c) s = .next s := by
  rw [exec_coreRun, execCoreRun, hl]
  split
  next h => exact absurd h (by simp)
  next => rfl

end

/-! ### The obligation -/

/-- Settles O51: each clause is a case of one of the seven actions; what looks at launch queues does so where nothing is left to ask. -/
theorem partitionSteps : Obligations.PartitionSteps := by
  unfold Obligations.PartitionSteps
  refine ⟨fun s => ?config, fun s p c l hup => ?control⟩
  case config =>
    intro cfg parts limit forgets
    refine ⟨exec_cfgCtl_of_on, fun hup hoff hbad => ⟨_, exec_cfgCtl_of_invalid hup hoff hbad, rfl⟩, exec_cfgCtl_of_valid,
      State.noteSaved_start, fun hon hlook => ⟨?quiet, ?busy⟩, fun t => exec_cfgTmo_of_early, exec_cfgTmo_of_unsaved,
      fun hoff => ⟨exec_configCommit_of_off hoff, exec_cfgTmo_of_off hoff⟩⟩
    case quiet =>
      intro hquiet
      have hall : s.allQuiet = true := s.allQuiet_iff.mpr hquiet
      refine ⟨?_, s.commit_status, fun t hstart hlate => ?_⟩
      · rw [exec_configCommit_eq hon hlook, if_pos hall]
        rfl
      · rw [exec_cfgTmo_eq hon hlook hstart hlate, if_pos hall]
        rfl
    case busy =>
      intro hbusy
      have hall : ¬ s.allQuiet = true := fun h => hbusy (s.allQuiet_iff.mp h)
      refine ⟨?_, fun t hstart hlate => ?_⟩
      · rw [exec_configCommit_eq hon hlook, if_neg hall]
        rfl
      · obtain ⟨hcfg, hslots, hmem⟩ := (s.endConfig 1).forgetAll_keeps parts
        obtain ⟨hstatus, hslots', hmem'⟩ := s.endConfig_keeps 1
        exact ⟨_, by rw [exec_cfgTmo_eq hon hlook hstart hlate, if_neg hall], by rw [hcfg, hstatus], hslots.trans hslots',
          hmem.trans hmem'⟩
  case control =>
    refine ⟨exec_part_of_invalid, fun hvalid => ?valid, fun u hreset =>
      ⟨State.restart_of_unacknowledged, State.restart_of_acknowledged hreset⟩, fun hl => ?core, exec_coreRun_of_none⟩
    case valid =>
      exact ⟨exec_partRun_of_valid hup hvalid, exec_partStop_of_valid hup hvalid, exec_partReset_of_valid hup hvalid,
        s.resetPart_restarts p⟩
    case core =>
      exact ⟨_, exec_coreRun_of_some hup hl, by rw [State.coreOf_mapCore, if_pos rfl], rfl, rfl⟩

end Sys2Proof.Machine
end

section
/-! PROOF. How a program over the state ends an instruction, stated once for the sections that follow. -/

namespace Sys2Proof.Machine

section
variable {m : Op Unit} {s t : State}

/-- A program that completes. -/
theorem runOp_ok (h : m s = .ok ((), t)) : runOp m s = .next t := by rw [runOp, h]

/-- One that stalls, waits, or takes a trap of its own. -/
theorem runOp_become (h : m s = .error (.become t)) : runOp m s = .next t := by rw [runOp, h]

/-- One that traps. -/
theorem runOp_trap {x : TrapInfo} (h : m s = .error (.trap x)) : runOp m s = .next (s.trapMe x) := by rw [runOp, h]

/-- One that aborts the transaction it is in (R234). -/
theorem runOp_abort {c : Nat} (h : m s = .error (.abort c)) : runOp m s = .next (s.setMe ((s.me.abortTx c 0).issued s.cycle)) := by
  rw [runOp, h]

end

/-- The rest of a program runs on from where its first part has ended. -/
theorem Op.bind_ok {α β : Type} {m : Op α} {f : α → Op β} {s t : State} {a : α} (h : m s = .ok (a, t)) : (m >>= f) s = f a t := by
  rw [Op.bind_apply, h]

/-- A first part that stops ends the program. -/
theorem Op.bind_error {α β : Type} {m : Op α} {f : α → Op β} {s : State} {e : Stop} (h : m s = .error e) : (m >>= f) s = .error e := by
  rw [Op.bind_apply, h]

end Sys2Proof.Machine
end

section
/-! PROOF. O56: the decoder reads what the encoder writes. The round trip of each constructor stands in Laws/PerInstr.lean. -/

namespace Sys2Proof.Machine

/-- Every term of the instruction type has its round trip, by cases on the constructor. -/
theorem roundTrip : ∀ i : Instr, Laws.RoundTrip.Statement i
  | .illegal a b => Laws.RoundTrip.illegal a b
  | .add a b c => Laws.RoundTrip.add a b c
  | .sub a b c => Laws.RoundTrip.sub a b c
  | .and a b c => Laws.RoundTrip.and a b c
  | .or a b c => Laws.RoundTrip.or a b c
  | .xor a b c => Laws.RoundTrip.xor a b c
  | .andn a b c => Laws.RoundTrip.andn a b c
  | .orn a b c => Laws.RoundTrip.orn a b c
  | .sll a b c => Laws.RoundTrip.sll a b c
  | .srl a b c => Laws.RoundTrip.srl a b c
  | .sra a b c => Laws.RoundTrip.sra a b c
  | .mul a b c => Laws.RoundTrip.mul a b c
  | .mulh a b c => Laws.RoundTrip.mulh a b c
  | .mulhu a b c => Laws.RoundTrip.mulhu a b c
  | .div a b c => Laws.RoundTrip.div a b c
  | .divu a b c => Laws.RoundTrip.divu a b c
  | .rem a b c => Laws.RoundTrip.rem a b c
  | .remu a b c => Laws.RoundTrip.remu a b c
  | .slt a b c => Laws.RoundTrip.slt a b c
  | .sltu a b c => Laws.RoundTrip.sltu a b c
  | .min a b c => Laws.RoundTrip.min a b c
  | .max a b c => Laws.RoundTrip.max a b c
  | .minu a b c => Laws.RoundTrip.minu a b c
  | .maxu a b c => Laws.RoundTrip.maxu a b c
  | .clz a b => Laws.RoundTrip.clz a b
  | .ctz a b => Laws.RoundTrip.ctz a b
  | .popc a b => Laws.RoundTrip.popc a b
  | .rol a b c => Laws.RoundTrip.rol a b c
  | .ror a b c => Laws.RoundTrip.ror a b c
  | .sext a b c => Laws.RoundTrip.sext a b c
  | .zext a b c => Laws.RoundTrip.zext a b c
  | .bext a b c => Laws.RoundTrip.bext a b c
  | .bins a b c => Laws.RoundTrip.bins a b c
  | .addi a b c => Laws.RoundTrip.addi a b c
  | .andi a b c => Laws.RoundTrip.andi a b c
  | .ori a b c => Laws.RoundTrip.ori a b c
  | .xori a b c => Laws.RoundTrip.xori a b c
  | .slti a b c => Laws.RoundTrip.slti a b c
  | .sltiu a b c => Laws.RoundTrip.sltiu a b c
  | .muli a b c => Laws.RoundTrip.muli a b c
  | .slli a b c => Laws.RoundTrip.slli a b c
  | .srli a b c => Laws.RoundTrip.srli a b c
  | .srai a b c => Laws.RoundTrip.srai a b c
  | .roli a b c => Laws.RoundTrip.roli a b c
  | .bexti a b c d => Laws.RoundTrip.bexti a b c d
  | .binsi a b c d => Laws.RoundTrip.binsi a b c d
  | .lui a b => Laws.RoundTrip.lui a b
  | .auipc a b => Laws.RoundTrip.auipc a b
  | .beq a b c => Laws.RoundTrip.beq a b c
  | .bne a b c => Laws.RoundTrip.bne a b c
  | .blt a b c => Laws.RoundTrip.blt a b c
  | .bge a b c => Laws.RoundTrip.bge a b c
  | .bltu a b c => Laws.RoundTrip.bltu a b c
  | .bgeu a b c => Laws.RoundTrip.bgeu a b c
  | .bbs a b c => Laws.RoundTrip.bbs a b c
  | .bbc a b c => Laws.RoundTrip.bbc a b c
  | .j a => Laws.RoundTrip.j a
  | .jal a => Laws.RoundTrip.jal a
  | .jalr a b c => Laws.RoundTrip.jalr a b c
  | .brloop a b => Laws.RoundTrip.brloop a b
  | .fadd a b c => Laws.RoundTrip.fadd a b c
  | .fsub a b c => Laws.RoundTrip.fsub a b c
  | .fmul a b c => Laws.RoundTrip.fmul a b c
  | .ffma a b c => Laws.RoundTrip.ffma a b c
  | .fmin a b c => Laws.RoundTrip.fmin a b c
  | .fmax a b c => Laws.RoundTrip.fmax a b c
  | .fcmp a b c d => Laws.RoundTrip.fcmp a b c d
  | .fcvt a b c => Laws.RoundTrip.fcvt a b c
  | .ld a b c d e => Laws.RoundTrip.ld a b c d e
  | .st a b c d => Laws.RoundTrip.st a b c d
  | .ldS a b c d e f => Laws.RoundTrip.ldS a b c d e f
  | .stS a b c d e => Laws.RoundTrip.stS a b c d e
  | .atom a b c d e f => Laws.RoundTrip.atom a b c d e f
  | .cas a b c d e => Laws.RoundTrip.cas a b c d e
  | .mark => Laws.RoundTrip.mark
  | .fenceRel a => Laws.RoundTrip.fenceRel a
  | .fenceAcq a => Laws.RoundTrip.fenceAcq a
  | .fenceAr a => Laws.RoundTrip.fenceAr a
  | .lblk a b c d => Laws.RoundTrip.lblk a b c d
  | .lblkRel a b => Laws.RoundTrip.lblkRel a b
  | .blkwait a b => Laws.RoundTrip.blkwait a b
  | .pspace a b => Laws.RoundTrip.pspace a b
  | .pcast a b c => Laws.RoundTrip.pcast a b c
  | .txb a => Laws.RoundTrip.txb a
  | .txe a => Laws.RoundTrip.txe a
  | .txa a => Laws.RoundTrip.txa a
  | .pgalloc a => Laws.RoundTrip.pgalloc a
  | .pgallocNb a => Laws.RoundTrip.pgallocNb a
  | .pgfree a b => Laws.RoundTrip.pgfree a b
  | .sgnew a b => Laws.RoundTrip.sgnew a b
  | .sgnewCl a b => Laws.RoundTrip.sgnewCl a b
  | .sgfree a b => Laws.RoundTrip.sgfree a b
  | .sgpin a b => Laws.RoundTrip.sgpin a b
  | .sgunpin a b => Laws.RoundTrip.sgunpin a b
  | .sgpref a b => Laws.RoundTrip.sgpref a b
  | .sginfo a b => Laws.RoundTrip.sginfo a b
  | .sgquota a b => Laws.RoundTrip.sgquota a b
  | .sgsched a b c => Laws.RoundTrip.sgsched a b c
  | .spawn a b => Laws.RoundTrip.spawn a b
  | .tend => Laws.RoundTrip.tend
  | .yield => Laws.RoundTrip.yield
  | .await a b c => Laws.RoundTrip.await a b c
  | .domjoin a b c => Laws.RoundTrip.domjoin a b c
  | .domleave a b => Laws.RoundTrip.domleave a b
  | .bardecl a b c => Laws.RoundTrip.bardecl a b c
  | .bararr a b => Laws.RoundTrip.bararr a b
  | .barwait a b => Laws.RoundTrip.barwait a b
  | .scnew a b => Laws.RoundTrip.scnew a b
  | .cancel a b => Laws.RoundTrip.cancel a b
  | .cancelwait a b => Laws.RoundTrip.cancelwait a b
  | .grun a b => Laws.RoundTrip.grun a b
  | .tkpost a => Laws.RoundTrip.tkpost a
  | .tkwait a => Laws.RoundTrip.tkwait a
  | .qpush a => Laws.RoundTrip.qpush a
  | .qpop a => Laws.RoundTrip.qpop a
  | .fmtq a => Laws.RoundTrip.fmtq a
  | .mlease => Laws.RoundTrip.mlease
  | .mleaseG a b => Laws.RoundTrip.mleaseG a b
  | .mrelease => Laws.RoundTrip.mrelease
  | .chwait a b c => Laws.RoundTrip.chwait a b c
  | .chid a b => Laws.RoundTrip.chid a b
  | .tdset a b c => Laws.RoundTrip.tdset a b c
  | .cdset a b c => Laws.RoundTrip.cdset a b c
  | .agset a b c => Laws.RoundTrip.agset a b c
  | .portbind a b c => Laws.RoundTrip.portbind a b c
  | .trap a => Laws.RoundTrip.trap a
  | .tret a b => Laws.RoundTrip.tret a b
  | .srd a b c => Laws.RoundTrip.srd a b c
  | .swr a b c => Laws.RoundTrip.swr a b c
  | .swrFlags a => Laws.RoundTrip.swrFlags a
  | .swrVtype a => Laws.RoundTrip.swrVtype a
  | .swrRrb a => Laws.RoundTrip.swrRrb a
  | .swrEc a => Laws.RoundTrip.swrEc a
  | .swrSrseed a => Laws.RoundTrip.swrSrseed a
  | .swrPreempt a => Laws.RoundTrip.swrPreempt a
  | .swrEnvcb a => Laws.RoundTrip.swrEnvcb a
  | .swrInjcfg a => Laws.RoundTrip.swrInjcfg a
  | .accspill a b c => Laws.RoundTrip.accspill a b c
  | .accfill a b c => Laws.RoundTrip.accfill a b c
  | .ctxsave a b => Laws.RoundTrip.ctxsave a b
  | .ctxload a b c => Laws.RoundTrip.ctxload a b c
  | .tlbinv a b c => Laws.RoundTrip.tlbinv a b c
  | .elogrd a b c => Laws.RoundTrip.elogrd a b c
  | .moncall a b c => Laws.RoundTrip.moncall a b c
  | .halt => Laws.RoundTrip.halt
  | .vnop a => Laws.RoundTrip.vnop a
  | .vadd a b c d => Laws.RoundTrip.vadd a b c d
  | .vsub a b c d => Laws.RoundTrip.vsub a b c d
  | .vmul a b c d => Laws.RoundTrip.vmul a b c d
  | .vfma a b c d => Laws.RoundTrip.vfma a b c d
  | .vfms a b c d => Laws.RoundTrip.vfms a b c d
  | .vmin a b c d => Laws.RoundTrip.vmin a b c d
  | .vmax a b c d => Laws.RoundTrip.vmax a b c d
  | .vabs a b c => Laws.RoundTrip.vabs a b c
  | .vneg a b c => Laws.RoundTrip.vneg a b c
  | .vand a b c d => Laws.RoundTrip.vand a b c d
  | .vor a b c d => Laws.RoundTrip.vor a b c d
  | .vxor a b c d => Laws.RoundTrip.vxor a b c d
  | .vshl a b c d => Laws.RoundTrip.vshl a b c d
  | .vshr a b c d => Laws.RoundTrip.vshr a b c d
  | .vshra a b c d => Laws.RoundTrip.vshra a b c d
  | .vcmpeq a b c d => Laws.RoundTrip.vcmpeq a b c d
  | .vcmplt a b c d => Laws.RoundTrip.vcmplt a b c d
  | .vcmple a b c d => Laws.RoundTrip.vcmple a b c d
  | .vsel a b c d => Laws.RoundTrip.vsel a b c d
  | .vcvt a b c d => Laws.RoundTrip.vcvt a b c d
  | .vqmax a b c => Laws.RoundTrip.vqmax a b c
  | .vqcvt a b c d => Laws.RoundTrip.vqcvt a b c d
  | .vdq a b c => Laws.RoundTrip.vdq a b c
  | .vred a b c d => Laws.RoundTrip.vred a b c d
  | .vany a b => Laws.RoundTrip.vany a b
  | .vall a b => Laws.RoundTrip.vall a b
  | .vbcast a b c d => Laws.RoundTrip.vbcast a b c d
  | .vperm a b c d => Laws.RoundTrip.vperm a b c d
  | .viota a b => Laws.RoundTrip.viota a b
  | .vmov a b c => Laws.RoundTrip.vmov a b c
  | .vsplat a b c => Laws.RoundTrip.vsplat a b c
  | .vexp2 a b c => Laws.RoundTrip.vexp2 a b c
  | .vrcp a b c => Laws.RoundTrip.vrcp a b c
  | .vrsqrt a b c => Laws.RoundTrip.vrsqrt a b c
  | .vcsum a b c => Laws.RoundTrip.vcsum a b c
  | .vcsumSet a b c => Laws.RoundTrip.vcsumSet a b c
  | .vcsumClr a b => Laws.RoundTrip.vcsumClr a b
  | .vchk a b c => Laws.RoundTrip.vchk a b c
  | .kand a b c d => Laws.RoundTrip.kand a b c d
  | .kor a b c d => Laws.RoundTrip.kor a b c d
  | .kxor a b c d => Laws.RoundTrip.kxor a b c d
  | .knot a b c => Laws.RoundTrip.knot a b c
  | .vcfg a b => Laws.RoundTrip.vcfg a b
  | .vxtr a b => Laws.RoundTrip.vxtr a b
  | .vpack a b c d => Laws.RoundTrip.vpack a b c d
  | .vunpk a b c d => Laws.RoundTrip.vunpk a b c d
  | .mnop a => Laws.RoundTrip.mnop a
  | .mma a b c d e f g h i j => Laws.RoundTrip.mma a b c d e f g h i j
  | .mzero a b => Laws.RoundTrip.mzero a b
  | .mdrain a b c => Laws.RoundTrip.mdrain a b c
  | .mloadc a b c => Laws.RoundTrip.mloadc a b c
  | .cnop a b => Laws.RoundTrip.cnop a b
  | .cpy a b c d => Laws.RoundTrip.cpy a b c d
  | .cred a b c d e => Laws.RoundTrip.cred a b c d e
  | .cgath a b c d => Laws.RoundTrip.cgath a b c d
  | .cscat a b c d => Laws.RoundTrip.cscat a b c d
  | .cmcast a b c d => Laws.RoundTrip.cmcast a b c d
  | .cfill a b c d e => Laws.RoundTrip.cfill a b c d e
  | .allowanceRefill a => Laws.RoundTrip.allowanceRefill a
  | .kill a => Laws.RoundTrip.kill a
  | .vFinish a => Laws.RoundTrip.vFinish a
  | .markerApply a => Laws.RoundTrip.markerApply a
  | .agEntry a b => Laws.RoundTrip.agEntry a b
  | .cStart a => Laws.RoundTrip.cStart a
  | .copyUnit a b => Laws.RoundTrip.copyUnit a b
  | .cComplete a b => Laws.RoundTrip.cComplete a b
  | .mStart a => Laws.RoundTrip.mStart a
  | .microStep a => Laws.RoundTrip.microStep a
  | .mComplete a => Laws.RoundTrip.mComplete a
  | .quiescentPoint a => Laws.RoundTrip.quiescentPoint a
  | .leaseIdleTimeout a => Laws.RoundTrip.leaseIdleTimeout a
  | .ticketServe a => Laws.RoundTrip.ticketServe a
  | .poolScrub a => Laws.RoundTrip.poolScrub a
  | .storePerform a => Laws.RoundTrip.storePerform a
  | .loadBlockFill a b c => Laws.RoundTrip.loadBlockFill a b c
  | .taskStart a => Laws.RoundTrip.taskStart a
  | .resume a => Laws.RoundTrip.resume a
  | .taskEnd a => Laws.RoundTrip.taskEnd a
  | .graphNodePlace a => Laws.RoundTrip.graphNodePlace a
  | .launchScan a => Laws.RoundTrip.launchScan a
  | .periodicWake a => Laws.RoundTrip.periodicWake a
  | .wakeWindowEnd a => Laws.RoundTrip.wakeWindowEnd a
  | .steal a => Laws.RoundTrip.steal a
  | .dequeRefill a => Laws.RoundTrip.dequeRefill a
  | .spillSweep a => Laws.RoundTrip.spillSweep a
  | .preload a => Laws.RoundTrip.preload a
  | .preloadComplete a => Laws.RoundTrip.preloadComplete a
  | .yieldTimeout a => Laws.RoundTrip.yieldTimeout a
  | .waitSatisfied a => Laws.RoundTrip.waitSatisfied a
  | .awaitReread a => Laws.RoundTrip.awaitReread a
  | .barrierLanding a => Laws.RoundTrip.barrierLanding a
  | .barwaitReturn a => Laws.RoundTrip.barwaitReturn a
  | .asyncDelivery a => Laws.RoundTrip.asyncDelivery a
  | .watchdog a => Laws.RoundTrip.watchdog a
  | .preemptBudget a => Laws.RoundTrip.preemptBudget a
  | .loopDrainTimeout a => Laws.RoundTrip.loopDrainTimeout a
  | .saveTorn a => Laws.RoundTrip.saveTorn a
  | .cfgCtl => Laws.RoundTrip.cfgCtl
  | .partRun a => Laws.RoundTrip.partRun a
  | .partStop a => Laws.RoundTrip.partStop a
  | .partReset a => Laws.RoundTrip.partReset a
  | .coreRun a => Laws.RoundTrip.coreRun a
  | .dma => Laws.RoundTrip.dma
  | .logSwap a => Laws.RoundTrip.logSwap a
  | .powerCap a => Laws.RoundTrip.powerCap a
  | .pfRegisterWrite a b => Laws.RoundTrip.pfRegisterWrite a b
  | .doorbell a b => Laws.RoundTrip.doorbell a b
  | .keyLoad a b c => Laws.RoundTrip.keyLoad a b c
  | .keyClear a b => Laws.RoundTrip.keyClear a b
  | .linkCrcError a b => Laws.RoundTrip.linkCrcError a b
  | .falranRequest a b c => Laws.RoundTrip.falranRequest a b c
  | .falranData a b => Laws.RoundTrip.falranData a b
  | .falranResponse a b c => Laws.RoundTrip.falranResponse a b c
  | .falranAck a b => Laws.RoundTrip.falranAck a b
  | .falranRetryRequest a b => Laws.RoundTrip.falranRetryRequest a b
  | .thermalTrip => Laws.RoundTrip.thermalTrip
  | .clockThrottle a => Laws.RoundTrip.clockThrottle a
  | .coldReset a => Laws.RoundTrip.coldReset a
  | .spdmRequest a b => Laws.RoundTrip.spdmRequest a b
  | .wake a b => Laws.RoundTrip.wake a b
  | .slotReselect a => Laws.RoundTrip.slotReselect a
  | .stallEnd a => Laws.RoundTrip.stallEnd a
  | .compaction a => Laws.RoundTrip.compaction a
  | .segmentEvict a => Laws.RoundTrip.segmentEvict a
  | .configCommit => Laws.RoundTrip.configCommit
  | .cfgTmo => Laws.RoundTrip.cfgTmo
  | .freshFill a => Laws.RoundTrip.freshFill a
  | .segmentRecall a => Laws.RoundTrip.segmentRecall a
  | .writeBack a b => Laws.RoundTrip.writeBack a b

/-- Settles O56: the round trip of the instruction's constructor. -/
theorem encodeDecode : Obligations.EncodeDecode := by
  unfold Obligations.EncodeDecode
  exact roundTrip

end Sys2Proof.Machine
end

section
/-! PROOF. O4, O5, O6, O55, O58: the frame of a result, register g0, scalar FP32, words written out, and the state at reset. -/

namespace Sys2Proof.Machine

/-! ### Completion -/

/-- R8: PC + 4 where it stays in the 48 bits of an address. -/
theorem nextPc_of_lt {p : Word} (h : p.toNat + 4 < 2 ^ 48) : nextPc p = p + 4 := by
  apply BitVec.eq_of_toNat_eq
  simp only [nextPc, BitVec.toNat_setWidth, BitVec.toNat_add, show BitVec.toNat (4 : BitVec 48) = 4 from rfl,
    show BitVec.toNat (4 : BitVec 64) = 4 from rfl]
  omega

/-- Settles O4: the frame of `State.result` and `State.retire` by the laws of their parts. -/
theorem resultFrame : Obligations.ResultFrame := by
  unfold Obligations.ResultFrame
  refine ⟨fun p => nextPc_of_lt, fun s d v => ⟨fun r => s.reg_result d r v, s.flags_result d v, s.pc_result d v, .result s d v, ?_,
    s.reg_retire, s.flags_retire, s.pc_retire, .retire s, ?_⟩⟩
  · rw [State.me_result]
    exact Slot.CoreKept.bank _ _ _
  · exact (State.me_retireTo s _) ▸ Slot.CoreKept.retire _ _ _

/-- Settles O5: what a register reads after a write, by `State.reg_setReg`. -/
theorem registerZero : Obligations.RegisterZero := by
  unfold Obligations.RegisterZero
  intro s r d v
  refine ⟨s.reg_zero, ?_, fun hd => ?_, fun hr => ?_⟩
  · rw [State.reg_setReg, if_neg fun h => h.2 h.1]
  · rw [State.reg_setReg, if_pos ⟨rfl, hd⟩]
  · rw [State.reg_setReg, if_neg fun h => hr h.1]

/-! ### Scalar FP32 (R89 to R92) -/

/-- Settles O6: each word ends in `State.result` after the sticky bits of its rounding; the mode and the operands are those that the
statement writes out. -/
theorem scalarFp : Obligations.ScalarFp := by
  unfold Obligations.ScalarFp
  intro s d a b p k m v r
  exact ⟨computes_stick rfl, computes_stick rfl, computes_stick rfl, computes_stick rfl, computes_stick rfl, computes_stick rfl,
    computes_stick rfl, computes_stick rfl⟩

/-! ### Words of 02 -/

/-- Settles O55: the decoder, run on each word. -/
theorem decodeWords : Obligations.DecodeWords := by
  unfold Obligations.DecodeWords
  exact ⟨rfl, rfl, rfl, rfl, rfl, rfl, rfl, rfl, rfl, rfl, rfl, rfl, rfl, rfl, rfl, rfl, rfl⟩

/-! ### Reset -/

/-- No partition has a descriptor at reset. -/
theorem valid_reset (p : Fin 16) : (State.reset.partOf p).valid = false := by
  show Part.initial.valid = false
  decide

theorem runs_reset (c : Fin 256) : State.reset.runs c = false := by
  rw [State.runs, State.coreValid, valid_reset]
  rfl

/-- No unit has work at reset, so that the turn is that of time. -/
theorem turn_reset : State.reset.turn = .tick 1 := rfl

/-- Nothing follows from a step that changes nothing but the cycle. -/
theorem after_reset : ({ State.reset with cycle := 2 } : State).after State.reset = { State.reset with cycle := 2 } := by
  decide +kernel

theorem step_reset : step State.reset = .next { State.reset with cycle := 2 } :=
  congrArg Host.Outcome.next after_reset

/-- Settles O58: tables are empty at reset, so that every part of the state is its initial one. -/
theorem resetState : Obligations.ResetState := by
  unfold Obligations.ResetState
  exact ⟨valid_reset, runs_reset, fun _ => ⟨rfl, rfl⟩, rfl, rfl, rfl, rfl, rfl, ⟨Memory.empty_wf, fun _ h => nomatch h⟩, step_reset⟩

end Sys2Proof.Machine
end

section
/-! PROOF. O7, O9: loads and stores of the control core, from the answer of the access on (04 R93, R94; 10 R222, R232). -/

namespace Sys2Proof.Machine

/-! ### Loaded values (R93) -/

theorem sextLow_bits (v : Word) {n k : Nat} (hn : 0 < n) (hn' : n ≤ 64) (hk : k < 64) :
    (sextLow v n).getLsbD k = v.getLsbD (min k (n - 1)) := by
  rw [sextLow, BitVec.getLsbD_sshiftRight, BitVec.msb_eq_getLsbD_last]
  simp only [BitVec.getLsbD_shiftLeft]
  by_cases h : k < n
  · simp [hk, show 64 - n + k < 64 by omega, show min k (n - 1) = k by omega]
  · simp [show ¬ 64 - n + k < 64 by omega, show ¬ 63 < 64 - n by omega, show ¬ 64 ≤ k by omega, show min k (n - 1) = n - 1 by omega,
      show 63 - (64 - n) = n - 1 by omega]

/-- Bits of a value past its bytes are zero. -/
theorem getLsbD_of_toNat_lt {v : Word} {n k : Nat} (h : v.toNat < 2 ^ n) (hk : n ≤ k) : v.getLsbD k = false := by
  rw [← BitVec.testBit_toNat]
  exact Nat.testBit_lt_two_pow (h.trans_le (Nat.pow_le_pow_right (by decide) hk))

theorem extendLoad_bits {v : Word} {sz : Fin 4} {z : Bool} (h : v.toNat < 2 ^ (8 * 2 ^ sz.val)) {k : Nat} (hk : k < 64) :
    (extendLoad v sz z).getLsbD k =
      if k < 8 * 2 ^ sz.val then v.getLsbD k else (!z && decide (sz ≠ 3) && v.getLsbD (8 * 2 ^ sz.val - 1)) := by
  unfold extendLoad sizeBytes
  have hsz : 2 ^ sz.val ≤ 8 := Nat.pow_le_pow_right (n := 2) (by decide) (Nat.le_of_lt_succ sz.isLt)
  have hpos : 0 < 2 ^ sz.val := Nat.two_pow_pos _
  by_cases hz : z = true ∨ sz = 3
  · rw [if_pos hz]
    split
    · rfl
    next hn =>
      rw [getLsbD_of_toNat_lt h (Nat.le_of_not_lt hn)]
      rcases hz with hz | hz <;> simp [hz]
  · rw [if_neg hz, sextLow_bits v (by omega) (by omega) hk]
    obtain ⟨hz, hs⟩ := not_or.mp hz
    split
    · congr 1
      omega
    · rw [show min k (8 * 2 ^ sz.val - 1) = 8 * 2 ^ sz.val - 1 by omega]
      simp [hz, hs]

/-! ### Loads that are answered -/

section
variable {s t : State} {d a : Fin 32} {sz o : Fin 4} {z : Bool} {v : Word}

theorem exec_ld_of_loadOp {i : BitVec 11} (h : loadOp (effPtr (s.reg a) i) (sizeBytes sz) false s = .ok (v, t)) :
    exec (.ld d a sz z i) s = .next (t.result d (extendLoad v sz z)) :=
  runOp_ok (Op.bind_ok h)

theorem exec_ldS_of_loadOp {i : BitVec 9} (h : loadOp (effPtr (s.reg a) i) (sizeBytes sz) true s = .ok (v, t)) :
    exec (.ldS d a sz z o i) s =
      .next ((if o = 1 ∧ s.me.tx = none then t.acquire t.cur 5 t.me.binds.last else t).result d (extendLoad v sz z)) := by
  refine runOp_ok ((Op.bind_ok h).trans ?_)
  by_cases hacq : o = 1 ∧ s.me.tx = none
  · rw [if_pos hacq]
    simp [hacq.1, hacq.2]
  · rw [if_neg hacq, if_neg (by simpa using hacq)]
    rfl

end

/-- Settles O7: a load completes from the answer of `loadOp`, and its value is extended bit by bit. -/
theorem loadsComplete : Obligations.LoadsComplete := by
  unfold Obligations.LoadsComplete
  exact ⟨fun s t d a sz o z i j v => ⟨exec_ld_of_loadOp, exec_ldS_of_loadOp⟩, fun v sz z h k hk => extendLoad_bits h hk⟩

/-! ### Stores that their checks let through -/

section
variable {s u w : State} {p v : Word} {n : Nat} {strong : Bool} {t : Target} {x : Tx}

/-- Outside a transaction the store joins the queue (R206). -/
theorem storeOp_queued (h : locate p n .store s = .ok (t, u)) (hx : u.me.tx = none) :
    storeOp p n strong v s = .ok ((), u.issueStore (storeReq t n strong p u.pc v)) := by
  refine (Op.bind_ok h).trans ?_
  simp [hx]

/-- Inside one it joins the write set (R232). -/
theorem storeOp_written (h : locate p n .store s = .ok (t, u)) (hx : u.me.tx = some x) (hw : txStore x t n p v u = .ok ((), w)) :
    storeOp p n strong v s = .ok ((), w.retire) := by
  refine (Op.bind_ok h).trans ?_
  simp [hx, hw]

end

section
variable {s r u : State} {b a : Fin 32} {sz o : Fin 4}

theorem exec_st_of_storeOp {i : BitVec 11} (h : storeOp (effPtr (s.reg a) i) (sizeBytes sz) false (s.reg b) s = .ok ((), u)) :
    exec (.st b a sz i) s = .next u := runOp_ok h

/-- ST.S.rel is a release first, but inside a transaction. -/
theorem exec_stS_of_storeOp {i : BitVec 9} (hr : (if o = 2 ∧ s.me.tx = none then releaseOp 5 s else .ok ((), s)) = .ok ((), r))
    (h : storeOp (effPtr (s.reg a) i) (sizeBytes sz) true (s.reg b) r = .ok ((), u)) : exec (.stS b a sz o i) s = .next u := by
  refine runOp_ok ?_
  by_cases hrel : o = 2 ∧ s.me.tx = none
  · rw [if_pos hrel] at hr
    simp [hrel.1, hrel.2, hr, h]
  · rw [if_neg hrel] at hr
    cases hr
    rw [if_neg (by simpa using hrel)]
    exact h

end

/-- Issuing a store: the instruction completes, and the request stands at the end of the queue. -/
theorem State.me_issueStore (s : State) (q : StoreReq) :
    (s.issueStore q).me = { s.me.issued s.cycle with
      pc := nextPc s.pc, sq := (s.me.sq.map fun x => { x with later := true }) ++ [q] } := by
  simp [State.issueStore, Slot.issued]

theorem State.RestKept.issueStore (s : State) (q : StoreReq) : s.RestKept (s.issueStore q) := (State.RestKept.retire s).setMe _

/-- Settles O9: `storeOp` by the two cases of an open transaction; what the issue leaves from the slot it makes. -/
theorem storesComplete : Obligations.StoresComplete := by
  unfold Obligations.StoresComplete
  refine ⟨fun s r u w b a sz o i j t x => ?_, fun s q => ?_⟩
  · intro p q
    refine ⟨fun hl hx => exec_st_of_storeOp (storeOp_queued hl hx), fun hl hx hw => exec_st_of_storeOp (storeOp_written hl hx hw),
      fun hr hl hx => exec_stS_of_storeOp hr (storeOp_queued hl hx), fun hs hl hx hw => exec_stS_of_storeOp ?_ (storeOp_written hl hx hw)⟩
    exact if_neg fun h => by simp [h.2] at hs
  · intro t
    have hme := s.me_issueStore q
    refine ⟨fun r => ?_, ?_, congrArg Slot.pc hme, .issueStore s q, congrArg Slot.sq hme, ?_⟩
    · show t.me.active.get r = s.me.active.get r
      rw [hme]
      rfl
    · show t.me.active.flags = s.me.active.flags
      rw [hme]
      rfl
    · rw [hme]
      refine ⟨?_, fun _ => rfl, fun _ => rfl, ?_, ?_⟩
      · simp [Slot.issued]
      · simp
      · simp [State.pc]

end Sys2Proof.Machine
end

section
/-! PROOF. O24, O25, O27, O28: taking a trap, DOUBLE, the TRAP instruction and the return from a trap (16 R324, R330; 17 R353, R354;
10 R234). -/

namespace Sys2Proof.Machine

/-! ### Entering the handler (R324) -/

theorem tcauseOf_sync (c : BitVec 8) : tcauseOf false 0 c = c.setWidth 11 := by
  apply BitVec.eq_of_toNat_eq
  have := c.isLt
  simp only [tcauseOf, BitVec.toNat_ofNat, BitVec.toNat_setWidth, Bool.false_eq_true, if_false]
  omega

section
variable {s : State} {i : SlotId} {p : Word} {x : TrapInfo} (hmon : (s.slotOf i).level ≠ .monitor)
  (hsup : (s.slotOf i).level = .supervisor → (s.slotOf i).frame.inTrap = false) (hseal : x.cause ≠ 0x0C) (hpoison : x.cause ≠ 0x0D)
include hmon hsup hseal hpoison

/-- A trap changes its slot, and of the rest only the tickets and pins of what the slot waited for. -/
theorem State.syncTrap_eq_of_closed (htx : (s.slotOf i).tx = none) :
    s.syncTrap i p x = ((s.unpinPreloads i.core).dropTicket (.control i)).setSlot i
      ((s.slotOf i).enter s.cycle (tcauseOf false 0 x.cause) p x.t0 x.t1 x.t2 x.t3 false) := by
  obtain ⟨y, henter, hy⟩ := (s.unpinPreloads i.core).enterTrap_eq i (tcauseOf false 0 x.cause) p x.t0 x.t1 x.t2 x.t3
  rw [State.syncTrap_enter hmon hsup hseal hpoison, henter, hy, State.slotOf_unpinPreloads, htx]
  rfl

/-- Inside a transaction the abort comes first, and TEPC is where it leaves the slot (R234). -/
theorem State.slotOf_syncTrap_of_open {y : Tx} (htx : (s.slotOf i).tx = some y) :
    (s.syncTrap i p x).slotOf i = ((s.slotOf i).abortTx 4 0).enter s.cycle (tcauseOf false 0 x.cause) ((s.slotOf i).abortTx 4 0).pc
      x.t0 x.t1 x.t2 x.t3 true := by
  obtain ⟨z, henter, hz⟩ := (s.unpinPreloads i.core).enterTrap_eq i (tcauseOf false 0 x.cause) p x.t0 x.t1 x.t2 x.t3
  rw [State.syncTrap_enter hmon hsup hseal hpoison, henter, hz, State.slotOf_setSlot, if_pos rfl, State.slotOf_unpinPreloads, htx]
  rfl

end

theorem State.cur_unpinDrop (s : State) (c : Fin 256) (u : TicketUser) : ((s.unpinPreloads c).dropTicket u).cur = s.cur := by
  rw [State.cur_dropTicket, State.cur_unpinPreloads]

/-- Settles O24: the slot that `Slot.enter` makes, from the level and bank of the trap, or from those that the abort has restored. -/
theorem trapEntry : Obligations.TrapEntry := by
  unfold Obligations.TrapEntry
  refine ⟨fun s c t0 t1 t2 t3 hmon hsup hseal hpoison htx => ?_, fun s x c t0 t1 t2 t3 htask htx hseal hpoison => ?_⟩
  · intro t
    have ht : t = _ := State.syncTrap_eq_of_closed (p := s.pc) (x := ⟨c, t0, t1, t2, t3⟩) hmon hsup hseal hpoison htx
    have hcur : t.cur = s.cur := by rw [ht]; exact s.cur_unpinDrop _ _
    have hme : t.me = (s.slotOf s.cur).enter s.cycle (tcauseOf false 0 c) s.pc t0 t1 t2 t3 false := by
      rw [State.me, hcur, ht, State.slotOf_setSlot, if_pos rfl]
    refine ⟨?_, ?_, ?_, ?_, ?_, ?_, ?_, ?_, hcur, fun i hi => ?_, fun a => ?_⟩
    case refine_2 => exact (congrArg Slot.pc hme).trans (Slot.pc_enter _ _ _ _ _ _ _ _ _ _ _)
    case refine_3 => rw [hme, tcauseOf_sync]; rfl
    case refine_9 => rw [ht, State.slotOf_setSlot, if_neg hi, State.slotOf_dropTicket, State.slotOf_unpinPreloads]
    case refine_10 => rw [ht, State.setSlot_mem, State.mem_dropTicket, State.mem_unpinPreloads]
    all_goals rw [hme]; rfl
  · intro t
    have hsup : (s.slotOf s.cur).level = .supervisor → (s.slotOf s.cur).frame.inTrap = false := fun h => nomatch htask.symm.trans h
    have hmon : (s.slotOf s.cur).level ≠ .monitor := fun h => nomatch htask.symm.trans h
    have hcur : t.cur = s.cur := by
      obtain ⟨y, henter, -⟩ := (s.unpinPreloads s.cur.core).enterTrap_eq s.cur (tcauseOf false 0 c) s.pc t0 t1 t2 t3
      have ht : t = _ := State.syncTrap_enter (p := s.pc) (t := ⟨c, t0, t1, t2, t3⟩) hmon hsup hseal hpoison
      rw [ht, henter]
      exact s.cur_unpinDrop _ _
    have hme : t.me = (s.me.abortTx 4 0).enter s.cycle (tcauseOf false 0 c) (s.me.abortTx 4 0).pc t0 t1 t2 t3 true := by
      rw [State.me, hcur]
      exact State.slotOf_syncTrap_of_open (p := s.pc) (x := ⟨c, t0, t1, t2, t3⟩) hmon hsup hseal hpoison htx
    have habort : s.me.abortTx 4 0 = { s.me with bank := x.bank.set x.dst (txStatus 1 4 0), pc := x.resume, tx := none } := by
      simp [Slot.abortTx, htx, Slot.setActive, htask]
    rw [hme, habort]
    exact ⟨rfl, rfl, rfl, rfl, rfl⟩

/-! ### DOUBLE (R330) -/

/-- A core is where the descriptors of the partitions have it. -/
theorem State.partNo_congr {s t : State} (h : ∀ p, (t.partOf p).desc = (s.partOf p).desc) (c : Fin 256) : t.partNo c = s.partNo c := by
  simp only [State.partNo, Part.valid, Part.lmask, Part.word, h]

/-- What the escalation of a slot leaves of its frame and its package: from s to t the current slot, the
descriptors, the mailbox and the frames are as before. -/
structure State.FramesKept (s t : State) : Prop where
  cur : t.cur = s.cur
  desc : ∀ p, (t.partOf p).desc = (s.partOf p).desc
  mbox : t.pkg.mbox = s.pkg.mbox
  frame : ∀ i, (t.slotOf i).frame = (s.slotOf i).frame

namespace State.FramesKept

theorem refl (s : State) : s.FramesKept s := ⟨rfl, fun _ => rfl, rfl, fun _ => rfl⟩

theorem trans {s t u : State} (h : s.FramesKept t) (k : t.FramesKept u) : s.FramesKept u :=
  ⟨k.cur.trans h.cur, fun p => (k.desc p).trans (h.desc p), k.mbox.trans h.mbox, fun i => (k.frame i).trans (h.frame i)⟩

theorem partNo {s t : State} (h : s.FramesKept t) (c : Fin 256) : t.partNo c = s.partNo c := State.partNo_congr h.desc c

theorem putStored (s : State) (g : Nat) (y old : Granule) : s.FramesKept (s.putStored g y old) :=
  ⟨rfl, fun _ => rfl, rfl, fun i => by rw [(State.GranWritten.putStored s g y old).slots i]; rfl⟩

theorem logDirty (s : State) (p : Fin 16) (dlog : Bool) (pa : Nat) : s.FramesKept (s.logDirty p dlog pa) := by
  unfold State.logDirty
  simp only
  split
  · exact putStored s _ _ _
  · exact refl s

theorem logMonitor (s : State) (pa : Nat) : s.FramesKept (s.logMonitor pa) := by
  unfold State.logMonitor
  split
  · exact logDirty s _ _ _
  · exact refl s

theorem monWrite (s : State) (pa : Nat) (ws : List Word) : s.FramesKept (s.monWrite pa ws) := by
  induction ws generalizing s pa with
  | nil => exact refl s
  | cons w r ih =>
    refine trans ?_ (ih _ _)
    split
    · exact refl s
    · exact (putStored s _ _ _).trans (logMonitor _ _)

theorem logError (s : State) (d : Nat) (p : Fin 16) (e : LogEntry) : s.FramesKept (s.logError d p e) := ⟨rfl, fun _ => rfl, rfl, fun _ => rfl⟩

theorem logConsumed (s : State) (i : SlotId) (inj : Bool) (c : BitVec 8) (e n : Nat) : s.FramesKept (s.logConsumed i inj c e n) := by
  unfold State.logConsumed
  split
  · exact refl s
  · exact logError s _ _ _

end State.FramesKept

/-- A transaction that ends changes no slot, no mailbox and no partition but its scans (R381). -/
theorem State.endConfig_leaves (s : State) (status : Nat) : (s.endConfig status).cur = s.cur ∧
    (s.endConfig status).pkg.mbox = s.pkg.mbox ∧ ∀ p, ((s.endConfig status).partOf p).frozen = (s.partOf p).frozen := by
  refine List.foldlRecOn (motive := fun t : State => t.cur = s.cur ∧ t.pkg.mbox = s.pkg.mbox ∧
    ∀ p, (t.partOf p).frozen = (s.partOf p).frozen) _ _ ⟨rfl, rfl, fun _ => rfl⟩ fun t ht p _ => ?_
  obtain ⟨hcur, hmbox, hfrozen⟩ := ht
  split
  · refine ⟨hcur, hmbox, fun q => ?_⟩
    rw [State.partOf_mapPart]
    split
    next hq => rw [← hfrozen q, hq]
    next => exact hfrozen q
  · exact ⟨hcur, hmbox, hfrozen⟩

theorem State.cfgBusy_leaves (s : State) (p : Fin 16) : (s.cfgBusy p).cur = s.cur ∧ (s.cfgBusy p).slots = s.slots ∧
    (s.cfgBusy p).pkg.mbox = s.pkg.mbox ∧ ∀ q, ((s.cfgBusy p).partOf q).frozen = (s.partOf q).frozen := by
  obtain ⟨hcur, hmbox, hfrozen⟩ := s.endConfig_leaves 1
  unfold State.cfgBusy
  split
  · exact ⟨hcur, (s.endConfig_keeps 1).2.1, hmbox, hfrozen⟩
  · exact ⟨rfl, rfl, rfl, fun _ => rfl⟩

/-- The step of DOUBLE that takes the slot to monitor level and freezes its partition. -/
def State.frozenAt (s : State) (i : SlotId) (p : Fin 16) : State :=
  (s.mapSlot i fun x => { x with level := .monitor, sched := { x.sched with stall := none } }).mapPart p fun q => { q with frozen := true }

theorem State.frozenAt_partNo (s : State) (i : SlotId) (p : Fin 16) (c : Fin 256) : (s.frozenAt i p).partNo c = s.partNo c :=
  State.partNo_congr (fun q => by
    rw [State.frozenAt, State.partOf_mapPart]
    split
    next h => rw [h]; rfl
    next => rfl) c

/-- From s to t the slot has come to monitor level with its frame, its partition is frozen, and the mailbox has the report (R330). -/
structure State.Escalated (s t : State) (i : SlotId) : Prop where
  cur : t.cur = s.cur
  frame : (t.slotOf i).frame = (s.slotOf i).frame
  level : (t.slotOf i).level = .monitor
  frozen : (t.partOf (s.partNo i.core)).frozen = true
  mbox : t.pkg.mbox = s.pkg.mbox ++ [[0x17, (s.partNo i.core).val, i.core.val, i.slot.val]]

theorem State.double_escalates (s : State) (i : SlotId) (p : Word) (x : TrapInfo) (tx : Bool) : s.Escalated (s.double i p x tx) i := by
  unfold State.double
  simp only
  generalize hu : s.monWrite _ _ = u
  have hkept : s.FramesKept u := hu ▸ State.FramesKept.monWrite s _ _
  generalize hv : (if (s.slotOf i).level = .monitor then _ else _ : State) = v
  have hfrozen : v.cur = u.cur ∧ v.slots = (u.frozenAt i (s.partNo i.core)).slots ∧ v.parts = (u.frozenAt i (s.partNo i.core)).parts ∧
      v.pkg = u.pkg := by
    rw [← hv]
    split <;> exact ⟨rfl, rfl, rfl, rfl⟩
  obtain ⟨hcur, hslots, hparts, hpkg⟩ := hfrozen
  obtain ⟨hcur', hslots', hmbox', hfrozen'⟩ := (v.report 0x17 i).cfgBusy_leaves (s.partNo i.core)
  have hslot : ((v.report 0x17 i).cfgBusy (s.partNo i.core)).slotOf i =
      { u.slotOf i with level := .monitor, sched := { (u.slotOf i).sched with stall := none } } := by
    rw [State.slotOf, hslots']
    show tget Slot.initial v.slots (slotKey i) = _
    rw [hslots]
    exact State.slotOf_mapSlot_self u i fun x => { x with level := .monitor, sched := { x.sched with stall := none } }
  have hpart (q : Fin 16) : v.partOf q = (u.frozenAt i (s.partNo i.core)).partOf q := by rw [State.partOf, hparts]; rfl
  have hno : v.partNo i.core = s.partNo i.core := by
    rw [State.partNo_congr (fun q => congrArg Part.desc (hpart q)), State.frozenAt_partNo, hkept.partNo]
  refine ⟨hcur'.trans (hcur.trans hkept.cur), ?_, ?_, ?_, ?_⟩
  · rw [hslot]
    exact hkept.frame i
  · rw [hslot]
  · rw [hfrozen']
    show (v.partOf _).frozen = true
    rw [hpart, State.frozenAt, State.partOf_mapPart_self]
  · rw [hmbox', ← hkept.mbox, ← hpkg, ← hno]
    rfl

/-- A synchronous fault in a handler. -/
theorem State.syncTrap_escalates {s : State} {i : SlotId} (p : Word) (x : TrapInfo) (hlevel : (s.slotOf i).level = .supervisor)
    (hin : (s.slotOf i).frame.inTrap = true) : s.Escalated (s.syncTrap i p x) i := by
  rw [State.syncTrap_double hlevel hin]
  have hkept := State.FramesKept.logConsumed (s.unpinPreloads i.core) i false x.cause 0 0
  generalize (s.unpinPreloads i.core).logConsumed i false x.cause 0 0 = u at hkept ⊢
  have hno : u.partNo i.core = s.partNo i.core := hkept.partNo i.core
  obtain ⟨hcur, hframe, hmon, hfrozen, hmbox⟩ := (u.setSlot i ((s.slotOf i).abortTx 4 0)).double_escalates i
    (if (s.slotOf i).tx.isSome then ((s.slotOf i).abortTx 4 0).pc else p) x (s.slotOf i).tx.isSome
  have hno' : (u.setSlot i ((s.slotOf i).abortTx 4 0)).partNo i.core = s.partNo i.core := hno
  rw [hno'] at hfrozen hmbox
  refine ⟨hcur.trans hkept.cur, ?_, hmon, hfrozen, ?_⟩
  · rw [hframe, State.slotOf_setSlot, if_pos rfl, Slot.abortTx_frame]
  · rw [hmbox, State.setSlot_pkg, hkept.mbox]
    rfl

/-- The slot that escalates stays the current one. -/
theorem State.Escalated.me {s t : State} (h : s.Escalated t s.cur) : t.me.frame = s.me.frame ∧ t.me.level = .monitor := by
  rw [State.me, h.cur]
  exact ⟨h.frame, h.level⟩

/-- Settles O25: the escalation of the current slot. -/
theorem doubleFault : Obligations.DoubleFault := by
  unfold Obligations.DoubleFault
  intro s c t0 t1 t2 t3 hlevel hin t
  have h : s.Escalated t s.cur := State.syncTrap_escalates s.pc ⟨c, t0, t1, t2, t3⟩ hlevel hin
  exact ⟨h.me.1, h.me.2, h.frozen, h.mbox⟩

/-! ### TRAP (R353) -/

theorem exec_trap_of_closed {s : State} {c : BitVec 10} (htx : s.me.tx = none) :
    exec (.trap c) s = .next (s.syncTrap s.cur (nextPc s.pc) ⟨0x13, c.setWidth 64, 0, 0, 0⟩) :=
  runOp_become (Op.bind_ok (noTx_closed htx))

/-- Settles O27: the entry with cause 0x13 from the next word, and the escalation in a handler. -/
theorem trapInstruction : Obligations.TrapInstruction := by
  unfold Obligations.TrapInstruction
  intro s c htx
  refine ⟨fun hmon hsup => ⟨_, exec_trap_of_closed htx, ?_⟩, fun hlevel hin => ⟨_, exec_trap_of_closed htx, ?_⟩⟩
  · generalize ht : s.syncTrap s.cur (nextPc s.pc) _ = t
    rw [State.syncTrap_eq_of_closed hmon hsup (show (0x13 : BitVec 8) ≠ 0x0C by decide)
      (show (0x13 : BitVec 8) ≠ 0x0D by decide) htx] at ht
    have hcur : t.cur = s.cur := by rw [← ht]; exact s.cur_unpinDrop _ _
    have hme : t.me = (s.slotOf s.cur).enter s.cycle (tcauseOf false 0 0x13) (nextPc s.pc) (c.setWidth 64) 0 0 0 false := by
      rw [State.me, hcur, ← ht, State.slotOf_setSlot, if_pos rfl]
    refine ⟨?_, ?_, ?_, ?_, ?_, fun a => ?_⟩
    case refine_2 => exact (congrArg Slot.pc hme).trans (Slot.pc_enter _ _ _ _ _ _ _ _ _ _ _)
    case refine_6 => rw [← ht, State.setSlot_mem, State.mem_dropTicket, State.mem_unpinPreloads]
    all_goals rw [hme]; rfl
  · have h := State.syncTrap_escalates (nextPc s.pc) ⟨0x13, c.setWidth 64, 0, 0, 0⟩ hlevel hin
    exact ⟨h.me.2, h.me.1, h.frozen, h.mbox⟩

/-! ### TRET (R354) -/

/-- From x to y the frame, the supervisor bank and the registers of the task bank are as before. -/
structure Slot.RegsKept (x y : Slot) : Prop where
  frame : y.frame = x.frame
  sup : y.sup = x.sup
  g : y.bank.g = x.bank.g

namespace Slot.RegsKept

theorem refl (x : Slot) : x.RegsKept x := ⟨rfl, rfl, rfl⟩

theorem trans {x y z : Slot} (h : x.RegsKept y) (k : y.RegsKept z) : x.RegsKept z :=
  ⟨k.frame.trans h.frame, k.sup.trans h.sup, k.g.trans h.g⟩

/-- Words in issue complete: of the registers they change FLAGS alone (R138). -/
theorem finishV (x : Slot) (f : VFlight) (c : Nat) : x.RegsKept (x.finishV f c) := by
  unfold Slot.finishV Slot.giveUpPost
  simp only
  split
  · split <;> exact ⟨rfl, rfl, rfl⟩
  · split <;> split <;> exact ⟨rfl, rfl, rfl⟩

theorem finishAll (x : Slot) (c : Nat) (l : List VFlight) : x.RegsKept (x.finishAll c l) := by
  induction l generalizing x with
  | nil => exact refl x
  | cons f r ih => exact (finishV x f c).trans (ih _)

theorem applyMarkers (x : Slot) (c : Nat) (l : List QEntry) : x.RegsKept (x.applyMarkers c l) := by
  induction l generalizing x with
  | nil => exact refl x
  | cons q r ih =>
    unfold Slot.applyMarkers
    split
    · exact (show x.RegsKept (x.applyMarker q c) from ⟨rfl, rfl, rfl⟩).trans (ih _)
    · exact ih x

/-- The place kept for the post token of a word that is dropped. -/
theorem giveUp (x : Slot) (e : Eng) (w : BitVec 32) : x.RegsKept (match postEng e w with
    | some b => x.unreserve e b
    | none => x) := by
  split <;> exact ⟨rfl, rfl, rfl⟩

theorem dropResv (x : Slot) : x.RegsKept x.dropResv := by
  unfold Slot.dropResv
  simp only
  refine List.foldlRecOn (motive := fun y => x.RegsKept y) _ _ ?_ fun y hy e _ => ?_
  · split
    · exact giveUp x _ _
    · exact refl x
  · split
    · exact hy.trans (giveUp y _ _)
    · exact hy

end Slot.RegsKept

/-- A slot whose unfinished engine words are dropped (R354). -/
def Slot.withoutWords (x : Slot) (c : Nat) : Slot :=
  let y := x.finishAll c x.eng.vec.flight
  let y := (y.applyMarkers c y.eng.qs.vq).dropResv
  { y with eng := { y.eng with
      mrun := none
      mupc := 0
      chans := y.eng.chans.map fun e => (e.1, { e.2 with doneId := e.2.given, run := none })
      qs := { y.eng.qs with
        vq := []
        mq := []
        cq := []
        vStop := false
        mStop := false
        cStop := false
        journal := y.eng.qs.journal.map fun e => { e with done := true } } } }

theorem Slot.RegsKept.withoutWords (x : Slot) (c : Nat) : x.RegsKept (x.withoutWords c) :=
  ((finishAll x c _).trans (applyMarkers _ c _)).trans ((dropResv _).trans ⟨rfl, rfl, rfl⟩)

/-- The pins of the M command that a slot drops are released. -/
def State.withoutRun (s : State) : Option MRun → State
  | some r => s.unpinAll r.pins
  | none => s

/-- The tickets of the M and C words that a slot drops end. -/
def State.withoutTickets (s : State) (i : SlotId) : State :=
  (List.finRange 8).foldl (fun t h => t.dropTicket (.c i h)) (s.dropTicket (.m i))

theorem State.dropEngines_eq (s : State) (i : SlotId) : s.dropEngines i =
    ((((((s.withoutRun (s.slotOf i).eng.mrun).endRuns (s.slotOf i).eng.chans).withoutTickets i).orphanCopies i).mapSlot i
      fun x => x.withoutWords s.cycle)).idleLease i := by
  have hrun : (match (s.slotOf i).eng.mrun with
    | some r => s.unpinAll r.pins
    | none => s) = s.withoutRun (s.slotOf i).eng.mrun := by
    cases (s.slotOf i).eng.mrun <;> rfl
  rw [← hrun]
  rfl

/-- From s to t the current slot is the same one, and slot i has its frame and registers. -/
structure State.RegsKeptAt (s t : State) (i : SlotId) : Prop where
  cur : t.cur = s.cur
  regs : (s.slotOf i).RegsKept (t.slotOf i)

namespace State.RegsKeptAt

theorem trans {s t u : State} {i : SlotId} (h : s.RegsKeptAt t i) (k : t.RegsKeptAt u i) : s.RegsKeptAt u i :=
  ⟨k.cur.trans h.cur, h.regs.trans k.regs⟩

theorem of_slots {s t : State} {i : SlotId} (hcur : t.cur = s.cur) (hslots : t.slots = s.slots) : s.RegsKeptAt t i :=
  ⟨hcur, by rw [State.slotOf, State.slotOf, hslots]; exact .refl _⟩

theorem mapSlot {s : State} {i : SlotId} {f : Slot → Slot} (h : (s.slotOf i).RegsKept (f (s.slotOf i))) : s.RegsKeptAt (s.mapSlot i f) i :=
  ⟨rfl, by rw [State.slotOf_mapSlot_self]; exact h⟩

theorem dropTicket (s : State) (u : TicketUser) (i : SlotId) : s.RegsKeptAt (s.dropTicket u) i :=
  of_slots (s.cur_dropTicket u) (by rw [State.dropTicket_eq])

theorem endRuns (s : State) (l : List (Nat × Chan)) (i : SlotId) : s.RegsKeptAt (s.endRuns l) i := by
  induction l generalizing s with
  | nil => exact of_slots rfl rfl
  | cons e r ih =>
    refine trans ?_ (ih _)
    split <;> exact of_slots rfl rfl

theorem releaseIfDone (s : State) (c : Fin 64) (i : SlotId) : s.RegsKeptAt (s.releaseIfDone c) i := by
  unfold State.releaseIfDone
  simp only
  split
  · split <;> exact of_slots rfl rfl
  · exact of_slots rfl rfl

theorem idleLease (s : State) (j i : SlotId) : s.RegsKeptAt (s.idleLease j) i := by
  unfold State.idleLease
  simp only
  split
  · refine trans ?_ (releaseIfDone _ _ i)
    exact of_slots rfl rfl
  · exact of_slots rfl rfl

theorem withoutRun (s : State) (r : Option MRun) (i : SlotId) : s.RegsKeptAt (s.withoutRun r) i := by
  cases r <;> exact of_slots rfl rfl

theorem withoutTickets (s : State) (i : SlotId) : s.RegsKeptAt (s.withoutTickets i) i :=
  List.foldlRecOn (motive := fun u : State => s.RegsKeptAt u i) _ _ (dropTicket s _ i) fun u hu _ _ => hu.trans (dropTicket u _ i)

/-- R354: dropping the unfinished words of a slot ends them in the engines, not in the registers. -/
theorem dropEngines (s : State) (i : SlotId) : s.RegsKeptAt (s.dropEngines i) i := by
  rw [State.dropEngines_eq]
  generalize hu : ((s.withoutRun (s.slotOf i).eng.mrun).endRuns (s.slotOf i).eng.chans).withoutTickets i = u
  have hbefore : s.RegsKeptAt u i := hu ▸ ((withoutRun s _ i).trans (endRuns _ _ i)).trans (withoutTickets _ i)
  refine (hbefore.trans (u := u.orphanCopies i) (of_slots rfl rfl)).trans ((mapSlot ?_).trans (idleLease _ i i))
  exact .withoutWords _ _

theorem dropWords (s : State) (i : SlotId) : s.RegsKeptAt (s.dropWords i) i :=
  (dropEngines s i).trans (List.foldlRecOn (motive := fun t : State => (s.dropEngines i).RegsKeptAt t i) _ _ (of_slots rfl rfl)
    fun _ ht _ _ => ht.trans (of_slots rfl rfl))

end State.RegsKeptAt

/-- The slot that returns, from the one whose words have been dropped or not. -/
def Slot.returned (x : Slot) (c : Nat) (skip : Bool) : Slot :=
  let waits := fun (e : Eng) => x.pend.engines.any fun f => decide (f.eng = e)
  let y := (x.issued c).mapQs fun q =>
    { q with vStop := q.vStop && waits .v, mStop := q.mStop && waits .m, cStop := q.cStop && waits .c }
  let z := if waits .c then y else y.resumeCopies
  { z.retryWalks with
    pc := if skip then x.frame.tepc + 4 else x.frame.tepc
    bare := false
    level := x.frame.plev
    frame := { x.frame with inTrap := false, drop := false }
    sched := { y.sched with readySince := c } }

theorem Slot.banks_returned (x : Slot) (c : Nat) (skip : Bool) : (x.returned c skip).bank = x.bank ∧ (x.returned c skip).sup = x.sup := by
  unfold Slot.returned
  simp only
  split <;> exact ⟨rfl, rfl⟩

theorem State.trapReturn_of_alive {s : State} {i : SlotId} (hkill : (s.slotOf i).pend.kill = none) (skip drop : Bool) :
    s.trapReturn i skip drop = (if (drop || (s.slotOf i).frame.drop) = true then s.dropWords i else s).mapSlot i
      fun x => x.returned s.cycle skip := by
  unfold State.trapReturn
  simp only [hkill]
  rfl

theorem supervisor_le {x : Level} (h : x ≠ .task) : ¬ x.code < Level.supervisor.code := by
  cases x
  · exact absurd rfl h
  · exact Nat.lt_irrefl 1
  · exact Nat.not_lt.mpr (Nat.le_succ_of_le (Nat.le_succ 1))

theorem exec_tret_of_closed {s : State} {k r : Bool} (hlevel : s.me.level ≠ .task) (htx : s.me.tx = none) :
    exec (.tret k r) s = .next (s.trapReturn s.cur k r) :=
  runOp_ok ((Op.bind_ok (needLevel_ok _ (supervisor_le hlevel))).trans (Op.bind_ok (noTx_closed htx)))

/-- Settles O28: the slot that `Slot.returned` makes, of the slot itself or of one that has kept its frame and registers. -/
theorem trapReturn : Obligations.TrapReturn := by
  unfold Obligations.TrapReturn
  intro s k r hlevel htx hkill
  refine ⟨_, exec_tret_of_closed hlevel htx, ?_⟩
  rw [State.trapReturn_of_alive hkill]
  generalize hu : (if (r || (s.slotOf s.cur).frame.drop) = true then s.dropWords s.cur else s : State) = u
  obtain ⟨hcur, hframe, hsup, hg⟩ : s.RegsKeptAt u s.cur := by
    rw [← hu]
    split
    · exact .dropWords s s.cur
    · exact .of_slots rfl rfl
  have hme : (u.mapSlot s.cur fun x => x.returned s.cycle k).me = (u.slotOf s.cur).returned s.cycle k := by
    rw [State.me, show (u.mapSlot s.cur fun x => x.returned s.cycle k).cur = s.cur from hcur, State.slotOf_mapSlot_self]
  obtain ⟨hbank, hsup'⟩ := (u.slotOf s.cur).banks_returned s.cycle k
  refine ⟨?_, ?_, ?_, ?_, ?_, fun hr hdrop => ?_, hcur⟩
  · refine (congrArg Slot.pc hme).trans ?_
    show (if k = true then (u.slotOf s.cur).frame.tepc + 4 else _) = _
    rw [hframe]
    rfl
  · rw [hme]
    exact congrArg Frame.plev hframe
  · rw [hme]
    show ({ (u.slotOf s.cur).frame with inTrap := false, drop := false } : Frame) = _
    rw [hframe]
    rfl
  · rw [hme, hsup', hsup]
    rfl
  · rw [hme, hbank, hg]
    rfl
  · rw [hme, hbank, ← hu, if_neg (by simp [hr, show (s.slotOf s.cur).frame.drop = false from hdrop])]
    rfl

end Sys2Proof.Machine
end

section
/-! PROOF. O29, O30: special registers, read and written (17 R355, R356; 01 R10; 06 R128, R129; 16 R325, R332; 05 R102). -/

namespace Sys2Proof.Machine

/-! ### The checks of a number (R41, R11) -/

/-- A level suffices for a number whose range asks for no more. -/
theorem sregLevel_le {x : Level} {n : Nat} (hsup : 0x100 ≤ n → x ≠ .task) (hmon : 0x200 ≤ n → x = .monitor) :
    ¬ x.code < (sregLevel n).code := by
  unfold sregLevel
  split
  · exact Nat.not_lt_zero _
  next h =>
    split
    · have := hsup (Nat.le_of_not_lt h)
      cases x <;> simp_all [Level.code]
    next h' =>
      rw [hmon (Nat.le_of_not_lt h')]
      exact Nat.lt_irrefl _

theorem sregOp_ok {s : State} {w : IWord} {n : Nat} (hn : sregNumbers.contains n = true) (hlevel : ¬ s.me.level.code < (sregLevel n).code) :
    sregOp w n 0 s = .ok ((), s) := by
  unfold sregOp
  rw [if_neg (not_or.mpr ⟨not_not.mpr rfl, by rw [hn]; exact Bool.noConfusion⟩)]
  exact (Op.bind_ok (Op.pure_apply _ s)).trans (needLevel_ok w hlevel)

/-- A level that does not suffice. -/
theorem sregOp_low {s : State} {w : IWord} {n : Nat} (hn : sregNumbers.contains n = true) (hlevel : s.me.level.code < (sregLevel n).code) :
    sregOp w n 0 s = .error (.trap ⟨0x02, w.setWidth 64, word (sregLevel n).code, 0, 0⟩) := by
  unfold sregOp
  rw [if_neg (not_or.mpr ⟨not_not.mpr rfl, by rw [hn]; exact Bool.noConfusion⟩)]
  exact (Op.bind_ok (Op.pure_apply _ s)).trans (needLevel_low w hlevel)

/-! ### SRD -/

section
variable {s : State} {d : Fin 32} {n : Fin 1024} (hn : sregNumbers.contains n.val = true)
  (hlevel : ¬ s.me.level.code < (sregLevel n.val).code) (htx : 0x100 ≤ n.val → s.me.tx = none)
include hn hlevel htx

theorem exec_srd : exec (.srd d n 0) s = .next
    ((if isDone n.val then s.acquire s.cur 0 s.now else s).result d
      ((if isDone n.val then s.acquire s.cur 0 s.now else s).sreg s.cur n.val)) := by
  refine runOp_ok ((Op.bind_ok (sregOp_ok hn hlevel)).trans ?_)
  split
  next h => exact Op.bind_ok (noTx_closed (htx h))
  next => rfl

end

theorem isDone_chan (k : Fin 8) : isDone (0x20 + k.val) = true := by
  have := k.isLt
  simp only [isDone, decide_eq_true_eq]
  omega

theorem State.sreg_chan (s : State) (i : SlotId) (k : Fin 8) : s.sreg i (0x20 + k.val) = word ((s.slotOf i).chan k).doneId := by
  have := k.isLt
  have hrow : s.ctxReg i (0x20 + k.val) = word (tget ⟨0, 0, none⟩ (s.slotOf i).eng.chans (0x20 + k.val - 0x20)).doneId :=
    (if_neg (by omega)).trans (if_pos (by omega))
  rw [State.sreg, if_neg (by omega), if_neg (by omega), if_pos (by omega), hrow, Nat.add_sub_cancel_left]
  rfl

/-- A number of CHDONE is one of a channel. -/
theorem chan_of_isDone {n : Nat} (h : isDone n = true) : ∃ k : Fin 8, n = 0x20 + k.val := by
  obtain ⟨h₁, h₂⟩ := of_decide_eq_true h
  exact ⟨⟨n - 0x20, by omega⟩, by simp only; omega⟩

/-- An acquire at .core moves no transfer of the slot on. -/
theorem State.sreg_acquire_of_isDone (s : State) {n t : Nat} (h : isDone n = true) :
    (s.acquire s.cur 0 t).sreg s.cur n = s.sreg s.cur n := by
  obtain ⟨k, rfl⟩ := chan_of_isDone h
  rw [State.sreg_chan, State.sreg_chan]
  show word (((s.mapSlot s.cur fun x => x.loadsFrom t).slotOf s.cur).chan k).doneId = _
  rw [State.slotOf_mapSlot_self]
  rfl

/-- Settles O29: the value that SRD puts in its register, and the rows of the table. -/
theorem specialRegisterReads : Obligations.SpecialRegisterReads := by
  unfold Obligations.SpecialRegisterReads
  intro s d n hn hsup hmon htx
  have hexec := exec_srd (d := d) hn (sregLevel_le hsup hmon) htx
  refine ⟨fun hdone => computes_result ?_, fun hdone => ?_, fun k => ⟨isDone_chan k, s.sreg_chan s.cur k⟩, rfl, rfl, rfl, rfl, rfl, rfl,
    rfl, rfl, rfl, rfl, rfl, rfl, rfl, rfl⟩
  · rw [hexec, hdone]
    rfl
  · rw [hexec, if_pos hdone, s.sreg_acquire_of_isDone hdone]

/-! ### SWR that completes -/

/-- From s to t an instruction has completed that writes no general register and no memory. -/
def State.Resumed (s t : State) : Prop := t.pc = nextPc s.pc ∧ (∀ r, t.reg r = s.reg r) ∧ ∀ b, t.mem.byte b = s.mem.byte b

theorem State.Resumed.retire {s t : State} (hpc : t.pc = s.pc) (hreg : ∀ r, t.reg r = s.reg r) (hmem : t.mem = s.mem) :
    s.Resumed t.retire :=
  ⟨by rw [State.pc_retire, hpc], fun r => by rw [State.reg_retire, hreg], fun b => by rw [State.retire_mem, hmem]⟩

/-- The current slot is replaced by one with its PC and registers. -/
theorem State.Resumed.setMe {s : State} {x : Slot} (hpc : x.pc = s.me.pc) (hreg : ∀ r, x.active.get r = s.me.active.get r) :
    s.Resumed (s.setMe x).retire :=
  .retire (by rw [State.pc_setMe, hpc]; rfl) (fun r => by rw [State.reg_setMe, hreg]; rfl) rfl

theorem State.me_setMe_retire (s : State) (x : Slot) : (s.setMe x).retire.me = { x.issued s.cycle with pc := nextPc x.pc } := by
  simp

/-- R355: a plain write that the level and the number allow. -/
theorem exec_swr_plain {s u : State} {a : Fin 32} {n : Fin 1024} (hn : sregNumbers.contains n.val = true)
    (hlevel : ¬ s.me.level.code < (sregLevel n.val).code) (htx : s.me.tx = none) (hu : s.plainWrite n.val (s.reg a) = some u) :
    exec (.swr a n 0) s = .next u.retire := by
  refine runOp_ok ((Op.bind_ok (sregOp_ok hn hlevel)).trans ((Op.bind_ok (noTx_closed htx)).trans ?_))
  rw [hu]
  rfl

/-- R355: a read-only number. -/
theorem exec_swr_readOnly {s : State} {a : Fin 32} {n : Fin 1024} (hn : sregNumbers.contains n.val = true)
    (hlevel : ¬ s.me.level.code < (sregLevel n.val).code) (htx : s.me.tx = none) (hu : s.plainWrite n.val (s.reg a) = none) :
    Traps (.swr a n 0) s 0x01 ((encode (.swr a n 0)).setWidth 64) 2 0 0 := by
  refine runOp_trap ((Op.bind_ok (sregOp_ok hn hlevel)).trans ((Op.bind_ok (noTx_closed htx)).trans ?_))
  rw [hu]
  rfl

theorem sregLevel_task (x : Level) {n : Nat} (h : n < 0x100) : ¬ x.code < (sregLevel n).code :=
  sregLevel_le (fun h' => absurd h' (Nat.not_le.mpr h)) fun h' => absurd h' (by omega)

theorem sregLevel_supervisor {x : Level} (hx : x ≠ .task) {n : Nat} (h : n < 0x200) : ¬ x.code < (sregLevel n).code :=
  sregLevel_le (fun _ => hx) fun h' => absurd h' (Nat.not_le.mpr h)

section
variable {s : State} {a : Fin 32} {n : Fin 1024} {x : Slot} (hn : sregNumbers.contains n.val = true)
  (hlevel : ¬ s.me.level.code < (sregLevel n.val).code) (htx : s.me.tx = none) (hx : s.plainWrite n.val (s.reg a) = some (s.setMe x))
  (hpc : x.pc = s.me.pc) (hreg : ∀ r, x.active.get r = s.me.active.get r)
include hn hlevel htx hx hpc hreg

/-- A plain write of the slot: what holds of the slot it makes holds after the instruction. -/
theorem exec_swr_slot {post : State → Prop} (hpost : post (s.setMe x).retire) : ∃ t, exec (.swr a n 0) s = .next t ∧ t.pc = nextPc s.pc ∧
    (∀ r, t.reg r = s.reg r) ∧ (∀ b, t.mem.byte b = s.mem.byte b) ∧ post t := by
  obtain ⟨hpc', hreg', hmem⟩ := State.Resumed.setMe hpc hreg
  exact ⟨_, exec_swr_plain hn hlevel htx hx, hpc', hreg', hmem, hpost⟩

end

/-- R355: the registers with a plain write. -/
theorem swr_plainRegisters (s : State) (a : Fin 32) (htx : s.me.tx = none) :
    let v := s.reg a
    let sets := fun (n : Fin 1024) (f : State → Prop) => ∃ t, exec (.swr a n 0) s = .next t ∧ t.pc = nextPc s.pc ∧
      (∀ r, t.reg r = s.reg r) ∧ (∀ b, t.mem.byte b = s.mem.byte b) ∧ f t
    sets 0x016 (fun t => t.me.tol = v.setWidth 32 ∧ t.flags = s.flags ∧ t.me.frame = s.me.frame) ∧
    (s.me.level ≠ .task →
      sets 0x100 (fun t => t.me.frame = { s.me.frame with tvb := v &&& ~~~(0xFFF : Word) } ∧ t.me.level = s.me.level) ∧
      sets 0x101 (fun t => t.me.frame = { s.me.frame with tepc := v }) ∧
      sets 0x103 (fun t => t.me.frame = { s.me.frame with tinfo0 := v }) ∧
      sets 0x107 (fun t => t.me.frame.inTrap = v.getLsbD 2 ∧ t.me.frame.drop = v.getLsbD 4 ∧ t.me.frame.tvb = s.me.frame.tvb) ∧
      sets 0x108 (fun t => t.me.vlw = v.getLsbD 0) ∧ sets 0x109 (fun t => t.me.loop.wdog = v.setWidth 32)) ∧
    (s.me.level = .monitor → sets 0x200 (fun t => (t.dieOf (dieOfCore s.cur.core)).mframe = v &&& 0xFFFFFFFFFC000)) := by
  intro v sets
  have hslot (n : Fin 1024) (x : Slot) {post : State → Prop} (hn : sregNumbers.contains n.val = true) (hlow : n.val < 0x200)
      (hlevel : 0x100 ≤ n.val → s.me.level ≠ .task) (hx : s.plainWrite n.val v = some (s.setMe x)) (hpc : x.pc = s.me.pc)
      (hreg : ∀ r, x.active.get r = s.me.active.get r) (hpost : post (s.setMe x).retire) : sets n post :=
    exec_swr_slot hn (sregLevel_le hlevel fun h => absurd h (Nat.not_le.mpr hlow)) htx hx hpc hreg hpost
  refine ⟨?_, fun hsup => ⟨?_, ?_, ?_, ?_, ?_, ?_⟩, fun hmon => ?_⟩
  case refine_1 =>
    refine hslot 0x016 { s.me with tol := v.setWidth 32 } rfl (by decide) (fun h => absurd h (by decide)) rfl rfl (fun _ => rfl) ?_
    rw [State.me_setMe_retire, State.flags_retire, State.flags_setMe]
    exact ⟨rfl, rfl, rfl⟩
  case refine_8 =>
    have hlevel : ¬ s.me.level.code < (sregLevel 0x200).code := sregLevel_le (fun _ => by rw [hmon]; exact Level.noConfusion) fun _ => hmon
    obtain ⟨hpc, hreg, hmem⟩ := State.Resumed.retire (s := s)
      (t := s.mapDie (dieOfCore s.cur.core) fun d => { d with mframe := v &&& 0xFFFFFFFFFC000 }) rfl (fun _ => rfl) rfl
    refine ⟨_, exec_swr_plain rfl hlevel htx rfl, hpc, hreg, hmem, ?_⟩
    refine (congrArg Die.mframe (State.dieOf_retire _ _)).trans ?_
    rw [State.dieOf_mapDie, if_pos rfl]
  case refine_2 =>
    refine hslot 0x100 { s.me with frame := { s.me.frame with tvb := v &&& ~~~(0xFFF : Word) } } rfl (by decide) (fun _ => hsup) rfl rfl
      (fun _ => rfl) ?_
    rw [State.me_setMe_retire]
    exact ⟨rfl, rfl⟩
  case refine_3 =>
    refine hslot 0x101 { s.me with frame := { s.me.frame with tepc := v } } rfl (by decide) (fun _ => hsup) rfl rfl (fun _ => rfl) ?_
    rw [State.me_setMe_retire]
    rfl
  case refine_4 =>
    refine hslot 0x103 { s.me with frame := { s.me.frame with tinfo0 := v } } rfl (by decide) (fun _ => hsup) rfl rfl (fun _ => rfl) ?_
    rw [State.me_setMe_retire]
    rfl
  case refine_5 =>
    refine hslot 0x107 { s.me with frame := s.me.frame.writeStatus v } rfl (by decide) (fun _ => hsup) rfl rfl (fun _ => rfl) ?_
    rw [State.me_setMe_retire]
    exact ⟨rfl, rfl, rfl⟩
  case refine_6 =>
    refine hslot 0x108 { s.me with vlw := v.getLsbD 0 } rfl (by decide) (fun _ => hsup) rfl rfl (fun _ => rfl) ?_
    rw [State.me_setMe_retire]
    rfl
  case refine_7 =>
    refine hslot 0x109 { s.me with loop := { s.me.loop with wdog := v.setWidth 32 } } rfl (by decide) (fun _ => hsup) rfl rfl
      (fun _ => rfl) ?_
    rw [State.me_setMe_retire]
    rfl

/-! ### SWR to the registers with a row of their own -/

/-- A marker is sent where the journal has room (R266). -/
theorem markerOp_ok {t : State} {w : BitVec 32} (h : t.me.journalFull = false) : markerOp w t = .ok ((), t.sendMarker w) := by
  unfold markerOp
  simp only [Op.bind_apply, Op.get_apply, h]
  rfl

section
variable {s : State} {a : Fin 32} (htx : s.me.tx = none)
include htx

theorem exec_swrFlags : exec (.swrFlags a) s =
    .next (s.setMe (s.me.setActive { s.me.active with flags := writeFlags s.me.active.flags (s.reg a) })).retire :=
  runOp_ok (Op.bind_ok (noTx_closed htx))

theorem exec_swrVtype_ok (hj : s.me.journalFull = false) (hv : vtypeOk (s.reg a) = true) : exec (.swrVtype a) s = .next
    ((s.sendMarker (markerWord 1 (bitsOf (s.reg a) 0 10))).setMe
      { (s.sendMarker (markerWord 1 (bitsOf (s.reg a) 0 10))).me with vtype := (s.reg a).setWidth 10 }).retire := by
  refine runOp_ok ((Op.bind_ok (noTx_closed htx)).trans ?_)
  rw [if_pos hv]
  exact Op.bind_ok (markerOp_ok hj)

theorem exec_swrVtype_refused (hv : vtypeOk (s.reg a) = false) : exec (.swrVtype a) s = .next s.retire := by
  refine runOp_ok ((Op.bind_ok (noTx_closed htx)).trans ?_)
  rw [if_neg (by rw [hv]; exact Bool.false_ne_true)]
  rfl

theorem exec_swrRrb (hj : s.me.journalFull = false) : exec (.swrRrb a) s = .next
    ((s.sendMarker (markerWord 2 (bitsOf (s.reg a) 0 4))).setMe
      { (s.sendMarker (markerWord 2 (bitsOf (s.reg a) 0 4))).me with rrb := bitsOf (s.reg a) 0 4 }).retire :=
  runOp_ok ((Op.bind_ok (noTx_closed htx)).trans (Op.bind_ok (markerOp_ok hj)))

theorem exec_swrEc (hj : s.me.journalFull = false) : exec (.swrEc a) s = .next
    ((s.sendMarker (markerWord 3 0)).setMe { (s.sendMarker (markerWord 3 0)).me with ec := (s.sendMarker (markerWord 3 0)).reg a }).retire :=
  runOp_ok ((Op.bind_ok (noTx_closed htx)).trans (Op.bind_ok (markerOp_ok hj)))

theorem exec_swrSrseed (hv : s.me.busyWith .v = false) (hm : s.me.busyWith .m = false) : exec (.swrSrseed a) s = .next
    (s.setMe { s.me with
      srseed := s.reg a
      eng := { s.me.eng with vec := { s.me.eng.vec with seed := s.reg a, gens := [] } } }).retire := by
  refine runOp_ok ((Op.bind_ok (noTx_closed htx)).trans ?_)
  rw [if_neg (by rw [hv, hm]; exact Bool.false_ne_true)]
  rfl

theorem exec_swrPreempt (hlevel : s.me.level ≠ .task) : exec (.swrPreempt a) s = .next
    (s.setMe (if (s.reg a).getLsbD 32 = true then ({ s.me with
        loop := { s.me.loop with ld := (s.reg a).getLsbD 33, budget := (s.reg a).setWidth 32, spent := false }
        sched := { s.me.sched with budgetUsed := 0 } } : Slot).request s.cycle
      else { s.me with
        loop := { s.me.loop with ld := (s.reg a).getLsbD 33, budget := (s.reg a).setWidth 32, spent := false }
        sched := { s.me.sched with budgetUsed := 0 } })).retire :=
  runOp_ok ((Op.bind_ok (needLevel_ok _ (supervisor_le hlevel))).trans (Op.bind_ok (noTx_closed htx)))

/-- R102: the pool of environments changes while no task holds one, by a block that is here to read. -/
theorem exec_swrEnvcb_pool {base n : Nat} (hlevel : s.me.level ≠ .task) (hfree : s.anyEnv (s.partNo s.cur.core) = false)
    (hhere : s.wants (s.partNo s.cur.core) (s.partOf (s.partNo s.cur.core)).root (s.reg a).toNat 3 = [])
    (hpool : s.envPool (s.partNo s.cur.core) (s.reg a) = some (base, n)) : exec (.swrEnvcb a) s = .next
    ((s.forget (s.partNo s.cur.core)).mapPart (s.partNo s.cur.core) fun q =>
      { q with envcb := s.reg a, envBase := base, envCount := n }).retire := by
  refine runOp_ok ((Op.bind_ok (needLevel_ok _ (supervisor_le hlevel))).trans ((Op.bind_ok (noTx_closed htx)).trans ?_))
  have hask : askOp (s.partNo s.cur.core) (if (s.reg a).toNat % 8 = 0 then
      s.wants (s.partNo s.cur.core) (s.partOf (s.partNo s.cur.core)).root (s.reg a).toNat 3 else []) s = .ok ((), s) := by
    rw [hhere, ite_self]
    rfl
  simp only [hfree, Bool.false_eq_true, if_false]
  refine (Op.bind_ok hask).trans ?_
  simp only [Op.modify_apply, hpool]

theorem exec_swrEnvcb_held (hlevel : s.me.level ≠ .task) (hheld : s.anyEnv (s.partNo s.cur.core) = true) :
    exec (.swrEnvcb a) s = .next s.retire := by
  refine runOp_ok ((Op.bind_ok (needLevel_ok _ (supervisor_le hlevel))).trans ((Op.bind_ok (noTx_closed htx)).trans ?_))
  rw [if_pos hheld]
  rfl

theorem exec_swrInjcfg (hlevel : s.me.level = .monitor) : exec (.swrInjcfg a) s = .next
    (s.mapDie (dieOfCore s.cur.core) fun d => { d with injcfg := s.injWord (s.reg a) }).retire :=
  runOp_ok ((Op.bind_ok (needLevel_ok _ (by rw [hlevel]; exact Nat.lt_irrefl _))).trans (Op.bind_ok (noTx_closed htx)))

end

/-- R10: the bits of FLAGS after a write. -/
theorem writeFlags_bits (old : BitVec 12) (v : Word) : ∀ k < 12, (writeFlags old v).getLsbD k =
    if 6 ≤ k ∧ k < 8 then false else if 8 ≤ k ∧ k < 11 ∧ 6 ≤ bitsOf v 8 3 then old.getLsbD k else v.getLsbD k := by
  intro k hk
  unfold writeFlags
  simp only
  split
  next hrm => interval_cases k <;> simp [hrm]
  next hrm => interval_cases k <;> simp [hrm]

theorem State.resumed_marker (s : State) (w : BitVec 32) {x : Slot} (hpc : x.pc = (s.sendMarker w).me.pc)
    (hactive : x.active = (s.sendMarker w).me.active) : s.Resumed ((s.sendMarker w).setMe x).retire :=
  .retire (by rw [State.pc_setMe, hpc]; exact s.pc_sendMarker w)
    (fun r => by rw [State.reg_setMe, hactive, State.active_sendMarker]; rfl) rfl

/-- R332: a request leaves the registers, and it is pending. -/
theorem Slot.request_leaves (x : Slot) (c : Nat) : (x.request c).pc = x.pc ∧ (x.request c).active = x.active ∧
    (x.request c).loop.budget = x.loop.budget ∧ (x.request c).loop.ld = x.loop.ld ∧ (x.request c).pend.preempt = true := by
  unfold Slot.request
  split
  next h => exact ⟨rfl, rfl, rfl, rfl, h⟩
  next => exact ⟨rfl, rfl, rfl, rfl, rfl⟩

/-- Settles O30: each register by its own write, and what every one of them leaves. -/
theorem specialRegisterWrites : Obligations.SpecialRegisterWrites := by
  unfold Obligations.SpecialRegisterWrites
  refine ⟨fun s a htx => ?_, fun s a htx => ?_⟩
  · intro v sets
    obtain ⟨htol, hsup, hmon⟩ := swr_plainRegisters s a htx
    exact ⟨htol, hsup, hmon, exec_swr_readOnly rfl (sregLevel_task _ (by decide)) htx rfl,
      exec_swr_readOnly rfl (sregLevel_task _ (by decide)) htx rfl⟩
  · intro v same
    refine ⟨⟨_, exec_swrFlags htx, ?_, ?_⟩, fun hj => ⟨fun hv => ⟨_, exec_swrVtype_ok htx hj hv, ?_, ?_, ?_⟩,
      ⟨_, exec_swrRrb htx hj, ?_, ?_, ?_⟩, ⟨_, exec_swrEc htx hj, ?_, ?_, ?_⟩⟩,
      fun hv => continues_retire (exec_swrVtype_refused htx hv), fun hv hm => ⟨_, exec_swrSrseed htx hv hm, ?_, ?_, ?_, ?_⟩,
      fun hlevel => ⟨_, exec_swrPreempt htx hlevel, ?_⟩, fun hlevel hfree hhere base n hpool =>
        ⟨_, exec_swrEnvcb_pool htx hlevel hfree hhere hpool, ?_, ?_⟩, fun hlevel hheld => continues_retire (exec_swrEnvcb_held htx hlevel hheld),
      fun hlevel => ⟨_, exec_swrInjcfg htx hlevel, ?_, ?_⟩⟩
    case refine_1 => exact State.Resumed.setMe (by simp) fun r => by simp [Bank.get]
    case refine_2 =>
      rw [State.flags_retire, State.flags_setMe, Slot.active_setActive]
      exact writeFlags_bits _ _
    case refine_3 => exact s.resumed_marker _ rfl rfl
    case refine_4 => rw [State.me_setMe_retire]; rfl
    case refine_5 => rw [State.flags_retire, State.flags_setMe]; exact s.flags_sendMarker _
    case refine_6 => exact s.resumed_marker _ rfl rfl
    case refine_7 => rw [State.me_setMe_retire]; rfl
    case refine_8 => rw [State.flags_retire, State.flags_setMe]; exact s.flags_sendMarker _
    case refine_9 => exact s.resumed_marker _ rfl rfl
    case refine_10 => rw [State.me_setMe_retire]; exact s.reg_sendMarker _ a
    case refine_11 => rw [State.flags_retire, State.flags_setMe]; exact s.flags_sendMarker _
    case refine_12 => exact State.Resumed.setMe rfl fun _ => rfl
    case refine_13 => rw [State.me_setMe_retire]; rfl
    case refine_14 => rw [State.me_setMe_retire]; rfl
    case refine_15 => rw [State.me_setMe_retire]; rfl
    case refine_16 =>
      split
      next hv =>
        obtain ⟨hpc, hactive, hbudget, hld, hpend⟩ := Slot.request_leaves { s.me with
          loop := { s.me.loop with ld := v.getLsbD 33, budget := v.setWidth 32, spent := false }
          sched := { s.me.sched with budgetUsed := 0 } } s.cycle
        refine ⟨State.Resumed.setMe hpc fun r => congrArg (·.get r) hactive, ?_⟩
        rw [State.me_setMe_retire]
        exact ⟨hbudget, hld, by rw [show v.getLsbD 32 = true from hv, Bool.or_true]; exact hpend⟩
      next hv =>
        refine ⟨State.Resumed.setMe rfl fun _ => rfl, ?_⟩
        rw [State.me_setMe_retire]
        exact ⟨rfl, rfl, by rw [show v.getLsbD 32 = false by simpa using hv, Bool.or_false]; rfl⟩
    case refine_17 => exact State.Resumed.retire rfl (fun _ => rfl) rfl
    case refine_18 => rw [State.partOf_retire, State.partOf_mapPart_self]; exact ⟨rfl, rfl, rfl⟩
    case refine_19 => exact State.Resumed.retire rfl (fun _ => rfl) rfl
    case refine_20 => rw [State.dieOf_retire, State.dieOf_mapDie, if_pos rfl]

end Sys2Proof.Machine
end

section
/-! PROOF. O26: ILLEGAL, PRIVILEGE, and the words that abort a transaction (02 R41, R42; 01 R11; 10 R233, R234). -/

namespace Sys2Proof.Machine

/-! ### Instructions that ask for a level -/

section
variable {i : Instr} {s : State} {f : Unit → Op Unit}

/-- An instruction whose first check is the level traps below it, and has no effect. -/
theorem traps_of_supervisor (h : exec i s = runOp (needLevel .supervisor (encode i) >>= f) s) (hlow : s.me.level.code < Level.supervisor.code) :
    Traps i s 0x02 ((encode i).setWidth 64) 1 0 0 :=
  h.trans (runOp_trap (Op.bind_error (needLevel_low (encode i) hlow)))

theorem traps_of_monitor (h : exec i s = runOp (needLevel .monitor (encode i) >>= f) s) (hlow : s.me.level.code < Level.monitor.code) :
    Traps i s 0x02 ((encode i).setWidth 64) 3 0 0 :=
  h.trans (runOp_trap (Op.bind_error (needLevel_low (encode i) hlow)))

/-- SRD and SWR ask for the level of the number's range. -/
theorem traps_of_sregOp {n : Nat} {l : Level} (h : exec i s = runOp (sregOp (encode i) n 0 >>= f) s)
    (hn : sregNumbers.contains n = true) (hl : sregLevel n = l) (hlow : s.me.level.code < l.code) {t1 : Word} (ht : t1 = word l.code) :
    Traps i s 0x02 ((encode i).setWidth 64) t1 0 0 := by
  subst hl ht
  exact h.trans (runOp_trap (Op.bind_error (sregOp_low hn hlow)))

end

theorem exec_moncall (d a b : Fin 32) (s : State) : exec (.moncall d a b) s = execMoncall d a b s := rfl

theorem traps_moncall {d a b : Fin 32} {s : State} (hlow : s.me.level.code < Level.supervisor.code) :
    Traps (.moncall d a b) s 0x02 ((encode (.moncall d a b)).setWidth 64) 1 0 0 := by
  rw [Traps, exec_moncall, execMoncall]
  exact runOp_trap (Op.bind_error (needLevel_low _ hlow))

theorem sregLevel_eq_supervisor {n : Nat} (h : 0x100 ≤ n) (h' : n < 0x200) : sregLevel n = .supervisor := by
  rw [sregLevel, if_neg (Nat.not_lt.mpr h), if_pos h']

theorem sregLevel_eq_monitor {n : Nat} (h : 0x200 ≤ n) : sregLevel n = .monitor := by
  rw [sregLevel, if_neg (by omega), if_neg (by omega)]

theorem lt_monitor {x : Level} (h : x ≠ .monitor) : x.code < Level.monitor.code := by
  cases x
  · exact Nat.zero_lt_succ 2
  · exact Nat.succ_lt_succ (Nat.zero_lt_succ 1)
  · exact absurd rfl h

/-! ### Words that R233 does not name -/

/-- From s to t an open transaction has been aborted with the status v, by the instruction and nothing else (R234). -/
def State.Aborted (s : State) (x : Tx) (v : Word) (t : State) : Prop := t.me.tx = none ∧ t.pc = x.resume ∧
  (∀ r, t.reg r = if r = x.dst ∧ r ≠ 0 then v else x.bank.get r) ∧ t.flags = x.bank.flags ∧ s.RestKept t

theorem State.aborted_abortTx {s : State} {x : Tx} (htx : s.me.tx = some x) (code byte : Nat) :
    s.Aborted x (txStatus 1 code byte) (s.setMe ((s.me.abortTx code byte).issued s.cycle)) := by
  have habort : s.me.abortTx code byte =
      { s.me.setActive (x.bank.set x.dst (txStatus 1 code byte)) with pc := x.resume, tx := none } := by
    rw [Slot.abortTx, htx]
  have hactive : ((s.me.abortTx code byte).issued s.cycle).active = x.bank.set x.dst (txStatus 1 code byte) := by
    rw [habort]
    exact Slot.active_setActive s.me _
  refine ⟨?_, ?_, fun r => ?_, ?_, (State.RestKept.refl s).setMe _⟩
  · rw [State.me_setMe, habort]
    rfl
  · rw [State.pc_setMe, habort]
    rfl
  · rw [State.reg_setMe, hactive]
    simp
  · rw [State.flags_setMe, hactive]
    simp

/-- From s to t an open transaction has been aborted with code nesting (R233). -/
def State.Nested (s : State) (x : Tx) (t : State) : Prop := t.me.tx = none ∧ t.pc = x.resume ∧ t.flags = x.bank.flags ∧
  (∀ r, t.reg r = if r = x.dst ∧ r ≠ 0 then 0x301 else x.bank.get r) ∧ s.RestKept t

theorem State.nested_abort {s : State} {x : Tx} (htx : s.me.tx = some x) : s.Nested x (s.setMe ((s.me.abortTx 3 0).issued s.cycle)) := by
  obtain ⟨hopen, hpc, hreg, hflags, hrest⟩ := State.aborted_abortTx htx 3 0
  exact ⟨hopen, hpc, hflags, hreg, hrest⟩

/-- A word whose first check is that no transaction is open. -/
theorem nested_of_noTx {i : Instr} {s : State} {x : Tx} {f : Unit → Op Unit} (htx : s.me.tx = some x) (h : exec i s = runOp (noTx >>= f) s) :
    ∃ t, exec i s = .next t ∧ s.Nested x t :=
  ⟨_, h.trans (runOp_abort (Op.bind_error (noTx_open htx))), State.nested_abort htx⟩

/-- R41: the trap of a word that is no instruction. -/
theorem exec_illegal (w : BitVec 32) (r : Reason) (s : State) :
    exec (.illegal w r) s = .next (s.trapMe ⟨0x01, w.setWidth 64, word (Reason.code r), 0, 0⟩) := rfl

/-- Settles O26: the first check of each word. -/
theorem illegalAndPrivilege : Obligations.IllegalAndPrivilege := by
  unfold Obligations.IllegalAndPrivilege
  refine ⟨fun s w => ⟨exec_illegal w .reservedOpcode s, exec_illegal w .undefinedSelector s, exec_illegal w .mustBeZero s,
    exec_illegal w .forbiddenOperand s⟩, fun s d a b k r n => ?_, fun s x d a sc e c htx => ?_⟩
  · intro w sup
    refine ⟨fun htask => ?_, fun hmon => ?_⟩
    · have hlow : s.me.level.code < Level.supervisor.code := by rw [htask]; exact Nat.zero_lt_one
      exact ⟨traps_of_supervisor rfl hlow, traps_of_supervisor rfl hlow, traps_of_supervisor rfl hlow, traps_of_supervisor rfl hlow,
        traps_of_supervisor rfl hlow, traps_of_supervisor rfl hlow, traps_of_supervisor rfl hlow, traps_of_supervisor rfl hlow,
        traps_of_supervisor rfl hlow, traps_moncall hlow, fun hn h h' =>
          ⟨traps_of_sregOp rfl hn (sregLevel_eq_supervisor h h') hlow rfl, traps_of_sregOp rfl hn (sregLevel_eq_supervisor h h') hlow rfl⟩⟩
    · have hlow := lt_monitor hmon
      exact ⟨traps_of_monitor rfl hlow, traps_of_monitor rfl hlow, fun hn h =>
        ⟨traps_of_sregOp rfl hn (sregLevel_eq_monitor h) hlow rfl, traps_of_sregOp rfl hn (sregLevel_eq_monitor h) hlow rfl⟩⟩
  · intro aborts
    exact ⟨nested_of_noTx htx rfl, nested_of_noTx htx rfl, nested_of_noTx htx rfl, nested_of_noTx htx rfl, nested_of_noTx htx rfl,
      nested_of_noTx htx rfl, nested_of_noTx htx rfl, nested_of_noTx htx rfl, nested_of_noTx htx rfl, nested_of_noTx htx rfl,
      nested_of_noTx htx rfl, nested_of_noTx htx rfl, nested_of_noTx htx rfl, nested_of_noTx htx rfl, nested_of_noTx htx rfl,
      nested_of_noTx htx rfl⟩

end Sys2Proof.Machine
end

section
/-! PROOF. The words of the engines: each vector word issues as its definition says (O35), a finished word and a marker (O36), and the
forwarding of every engine word (O34). -/

namespace Sys2Proof.Machine

/-! ### Vector words issue (O35) -/

/-- A word whose meaning is `vExec` issues with the registers, target, latency and lane computation that `vExec` is given. -/
theorem issues_of_vExec {i : Instr} {w : VWord} (h : ∀ s, s.actor = .vector → exec i s = vExec i w s) : Issues i w := by
  intro s q y hactor hhead hplaces htok z hcheck r
  rw [h s hactor, vExec, hactor]
  simp only [State.vIssue, hhead, hplaces, htok]
  simp only [z] at hcheck
  rw [if_neg (by decide)]
  refine congrArg Host.Outcome.next ?_
  split
  next he => exact nomatch he.symm.trans hcheck
  next => rfl

/-- VCFG at the engine is a word like the others. -/
theorem exec_vcfg_vector (x : BitVec 10) (t : Tok) (s : State) (h : s.actor = .vector) :
    exec (.vcfg x t) s = vExec (.vcfg x t) (bareWord [] .config 0 (cfgWord x)) s := by
  have e : exec (.vcfg x t) s = execVcfg x t s := rfl
  rw [e, execVcfg, h]

/-- Settles O35: each word is `vExec` with its registers, target, latency and lane computation. -/
theorem vectorWordsIssue : Obligations.VectorWordsIssue := by
  unfold Obligations.VectorWordsIssue
  refine ⟨fun d a b p l i t => ?_, fun d a b p q r n m k l o i t u => ?_⟩
  · refine ⟨?_, ?_, ?_, ?_, ?_, ?_, ?_, ?_, ?_, ?_, ?_, ?_, ?_, ?_, ?_, ?_, ?_, ?_, ?_, ?_, ?_, ?_, ?_, ?_⟩ <;>
      exact issues_of_vExec fun _ _ => rfl
  · refine ⟨?_, ?_, ?_, ?_, ?_, ?_, ?_, ?_, ?_, ?_, ?_, ?_, ?_, ?_, ?_, ?_, ?_, ?_, ?_, ?_, ?_, ?_, ?vcfg⟩
    case vcfg => exact issues_of_vExec (exec_vcfg_vector i u)
    all_goals exact issues_of_vExec fun _ _ => rfl

/-! ### A finished word and a marker (O36) -/

/-- Of the bank, the vector engine and the PC, the end of a word that has not failed its check changes the sticky flags and the words in
flight. -/
theorem Slot.finishV_passed (x : Slot) (f : VFlight) (c : Nat) (h : f.chk ≠ some false) :
    (x.finishV f c).bank.flags = x.bank.flags ||| f.flags.setWidth 12 ∧
      (x.finishV f c).eng.vec.flight = x.eng.vec.flight.filter (fun g => g.seq != f.seq) ∧ (x.finishV f c).pc = x.pc := by
  cases hchk : f.chk with
  | none =>
    by_cases hp : f.post = .v
    · simp only [Slot.finishV, hchk, hp]
      exact ⟨rfl, rfl, rfl⟩
    · simp only [Slot.finishV, hchk, hp]
      exact ⟨rfl, rfl, rfl⟩
  | some ok =>
    cases ok with
    | false => exact absurd hchk h
    | true =>
      by_cases hp : f.post = .v
      · simp only [Slot.finishV, hchk, hp]
        exact ⟨rfl, rfl, rfl⟩
      · simp only [Slot.finishV, hchk, hp]
        exact ⟨rfl, rfl, rfl⟩

theorem exec_vFinish_idle (s : State) (i : SlotId) (h : (s.slotOf i).eng.vec.firstDue s.cycle = none) : exec (.vFinish i) s = .next s := by
  have e : exec (.vFinish i) s = execVFinish i s := rfl
  rw [e, execVFinish, h]

theorem exec_vFinish_passed (s : State) (i : SlotId) (f : VFlight) (h : (s.slotOf i).eng.vec.firstDue s.cycle = some f)
    (hchk : f.chk ≠ some false) : exec (.vFinish i) s = .next (s.mapSlot i fun x => x.finishV f s.cycle) := by
  have e : exec (.vFinish i) s = execVFinish i s := rfl
  rw [e, execVFinish, h]
  exact congrArg Host.Outcome.next (if_neg hchk)

theorem exec_markerApply_head (s : State) (i : SlotId) (q : QEntry) (r : List QEntry) (hq : (s.slotOf i).eng.qs.vq = q :: r)
    (hm : isMarker q.word = true) (hr : s.runs i.core = true) :
    exec (.markerApply i) s = .next (s.mapSlot i fun x => (x.setQueue .v r).applyMarker q s.cycle) := by
  have e : exec (.markerApply i) s = execMarkerApply i s := rfl
  rw [e, execMarkerApply, hq]
  refine congrArg Host.Outcome.next (if_pos ?_)
  rw [hm, hr, Bool.and_self]

/-- Settles O36. -/
theorem vectorFinish : Obligations.VectorFinish := by
  unfold Obligations.VectorFinish
  refine ⟨fun s i f => ⟨exec_vFinish_idle s i, fun hdue hchk => ?_⟩, exec_markerApply_head⟩
  obtain ⟨hflags, hflight, hpc⟩ := (s.slotOf i).finishV_passed f s.cycle hchk
  refine ⟨_, exec_vFinish_passed s i f hdue hchk, ?_, ?_, ?_, fun j hj => by rw [State.slotOf_mapSlot, if_neg hj], fun a => rfl⟩
  · rw [State.slotOf_mapSlot_self, hflags]
  · rw [State.slotOf_mapSlot_self, hflight]
  · rw [State.slotOf_mapSlot_self, hpc]

/-! ### Engine words are forwarded (O34) -/

/-- What a word is to the control core: its class from bits 31:30 (R22), and what its execution there does. -/
inductive WordForm (i : Instr) : Prop
  | scalar (h : encodeNat i / 2 ^ 30 = 0)
  | vector (h : encodeNat i / 2 ^ 30 = 1) (n : ∀ x t, i ≠ .vcfg x t)
      (e : ∀ s, s.actor = .control → exec i s = runOp (forwardOp .v (encode i) none) s)
  | config (x : BitVec 10) (t : Tok) (h : encodeNat i / 2 ^ 30 = 1) (n : i = .vcfg x t)
  | matrix (h : encodeNat i / 2 ^ 30 = 2) (e : ∀ s, exec i s = runOp (forwardOp .m (encode i) none) s)
  | copy (c : Fin 8) (h : encodeNat i / 2 ^ 30 = 3) (hc : encodeNat i / 2 ^ 22 % 8 = c)
      (e : ∀ s, exec i s = runOp (forwardOp .c (encode i) (some c)) s)

theorem runOp_forward_of_vExec {i : Instr} {w : VWord} (h : ∀ s, exec i s = vExec i w s) (s : State) (hs : s.actor = .control) :
    exec i s = runOp (forwardOp .v (encode i) none) s := by
  rw [h s, vExec, hs]

theorem put_nil (F : Nat) : put F [] = F := rfl

theorem put_cons (F v l : Nat) (fs : List (Nat × Nat)) : put F ((v, l) :: fs) = put (F + v * 2 ^ l) fs := rfl

/-- The fixed bits of an opcode and its fields add up. -/
theorem put_eq_add (F : Nat) (fs : List (Nat × Nat)) : put F fs = F + put 0 fs := by
  induction fs generalizing F with
  | nil => rfl
  | cons f fs ih =>
    rw [put_cons, put_cons, ih, ih (0 + _)]
    omega

/-- The class of a word is that of its fixed bits, as no field reaches bit 25 (R24 to R40). -/
theorem class_of {i : Instr} {F : Nat} {fs : List (Nat × Nat)} (c : Nat) (he : encodeNat i = put F fs) (hF : F / 2 ^ 30 = c)
    (h : put 0 fs < 2 ^ 25) (hlow : F % 2 ^ 30 + 2 ^ 25 ≤ 2 ^ 30) : encodeNat i / 2 ^ 30 = c := by
  rw [he, put_eq_add]
  omega

/-- The channel of a C word: its bits 24:22. -/
theorem channel_of {i : Instr} {F c : Nat} {fs : List (Nat × Nat)} (he : encodeNat i = put F ((c, 22) :: fs)) (hF : F / 2 ^ 22 % 8 = 0)
    (hc : c < 8) (h : F % 2 ^ 22 + put 0 fs < 2 ^ 22) : encodeNat i / 2 ^ 22 % 8 = c := by
  rw [he, put_cons, put_eq_add]
  omega

/-- The class of a word from its fields: none of them reaches bit 30. -/
theorem wordForm (i : Instr) : WordForm i := by
  cases i
  case vnop | vadd | vsub | vmul | vfma | vfms | vmin | vmax | vabs | vneg | vand | vor | vxor | vshl | vshr | vshra | vcmpeq | vcmplt |
    vcmple | vsel | vcvt | vqmax | vqcvt | vdq | vred | vany | vall | vbcast | vperm | viota | vmov | vsplat | vexp2 | vrcp | vrsqrt |
    vcsum | vcsumSet | vcsumClr | vchk | kand | kor | kxor | knot | vxtr | vpack | vunpk =>
    exact .vector (class_of 1 rfl (by decide) (by
      simp only [put_cons, put_nil, Nat.zero_add, ← BitVec.toNat_ofBool]; omega) (by decide)) nofun
      (runOp_forward_of_vExec fun _ => rfl)
  case vcfg x t => exact .config x t (class_of 1 rfl (by decide) (by
      simp only [put_cons, put_nil, Nat.zero_add]; omega) (by decide)) rfl
  case mnop | mma | mzero | mdrain | mloadc =>
    exact .matrix (class_of 2 rfl (by decide) (by
      simp only [put_cons, put_nil, Nat.zero_add, ← BitVec.toNat_ofBool]; omega) (by decide)) fun _ => rfl
  case cnop | cpy | cred | cgath | cscat | cmcast | cfill =>
    exact .copy _ (class_of 3 rfl (by decide) (by
      simp only [put_cons, put_nil, Nat.zero_add, ← BitVec.toNat_ofBool]; omega) (by decide))
      (channel_of rfl (by decide) (Fin.isLt _) (by
      simp only [put_cons, put_nil, Nat.zero_add, ← BitVec.toNat_ofBool]; omega)) fun _ => rfl
  case add | sub | and | or | xor | andn | orn | sll | srl | sra | mul | mulh | mulhu | div | divu | rem | remu | slt | sltu | min |
    max | minu | maxu | clz | ctz | popc | rol | ror | sext | zext | bext | bins | addi | andi | ori | xori | slti | sltiu | muli |
    slli | srli | srai | roli | bexti | binsi | lui | auipc | beq | bne | blt | bge | bltu | bgeu | bbs | bbc | j | jal | jalr | brloop |
    fadd | fsub | fmul | ffma | fmin | fmax | fcmp | fcvt | ld | st | ldS | stS | atom | cas | mark | fenceRel | fenceAcq | fenceAr |
    lblk | lblkRel | blkwait | pspace | pcast | txb | txe | txa | pgalloc | pgallocNb | pgfree | sgnew | sgnewCl | sgfree | sgpin |
    sgunpin | sgpref | sginfo | sgquota | sgsched | spawn | tend | yield | await | domjoin | domleave | bardecl | bararr | barwait |
    scnew | cancel | cancelwait | grun | tkpost | tkwait | qpush | qpop | fmtq | mlease | mleaseG | mrelease | chwait | chid | tdset |
    cdset | agset | portbind | trap | tret | srd | swr | swrFlags | swrVtype | swrRrb | swrEc | swrSrseed | swrPreempt | swrEnvcb |
    swrInjcfg | accspill | accfill | ctxsave | ctxload | tlbinv | elogrd | moncall | halt =>
    exact .scalar (class_of 0 rfl (by decide) (by
      simp only [put_cons, put_nil, Nat.zero_add, ← BitVec.toNat_ofBool]; omega) (by decide))
  case vFinish | markerApply | agEntry | cStart | copyUnit | cComplete | mStart | microStep | mComplete | quiescentPoint |
    leaseIdleTimeout | ticketServe | segmentEvict | segmentRecall | freshFill | compaction | poolScrub | storePerform | writeBack |
    loadBlockFill | taskStart | resume | taskEnd | graphNodePlace | launchScan | periodicWake | wake | wakeWindowEnd | steal |
    dequeRefill | spillSweep | preload | preloadComplete | slotReselect | yieldTimeout | waitSatisfied | stallEnd | awaitReread |
    barrierLanding | barwaitReturn | asyncDelivery | watchdog | preemptBudget | loopDrainTimeout | saveTorn | kill | cfgCtl |
    configCommit | cfgTmo | partRun | partStop | partReset | coreRun | dma | logSwap | powerCap | pfRegisterWrite | doorbell | keyLoad |
    keyClear | linkCrcError | falranRequest | falranData | falranResponse | falranAck | falranRetryRequest | thermalTrip |
    clockThrottle | coldReset | illegal | allowanceRefill | spdmRequest =>
    exact .scalar (Nat.zero_div _)


/-- A handler forwards nothing (R324). -/
theorem forwardOp_handler {e : Eng} {w : IWord} {c : Option (Fin 8)} {s : State} (h : s.me.level ≠ .task) :
    forwardOp e w c s = .error (.trap ⟨0x01, w.setWidth 64, 2, 0, 0⟩) := by
  simp only [forwardOp, Op.bind_apply, Op.get_apply, if_pos h, trapOp_apply]

section
variable {e : Eng} {w : IWord} {s : State} (hl : s.me.level = .task) (htx : s.me.tx = none)
include hl htx

theorem forwardOp_queueFull (c : Option (Fin 8)) (h : s.me.depthLimit e ≤ s.me.depth e) :
    forwardOp e w c s = .error (.become (s.stallMe (.queueFull e))) := by
  simp only [forwardOp, Op.bind_apply, Op.get_apply, if_neg (not_not_intro hl), noTx_closed htx, ge_iff_le, if_pos h,
    stallOp_apply]

theorem forwardOp_journalFull (c : Option (Fin 8)) (h : s.me.depth e < s.me.depthLimit e) (hj : s.me.journalFull = true) :
    forwardOp e w c s = .error (.become (s.stallMe .journalFull)) := by
  simp only [forwardOp, Op.bind_apply, Op.get_apply, if_neg (not_not_intro hl), noTx_closed htx, ge_iff_le,
    if_neg (Nat.not_le.mpr h), if_pos hj, stallOp_apply]

variable (h : s.me.depth e < s.me.depthLimit e) (hj : s.me.journalFull = false)
include h hj

theorem forwardOp_queued : forwardOp e w none s = .ok ((), (s.enqueue s.cur e w 0).retire) := by
  simp only [forwardOp, Op.bind_apply, Op.get_apply, if_neg (not_not_intro hl), noTx_closed htx, ge_iff_le,
    if_neg (Nat.not_le.mpr h), hj, Bool.false_eq_true, if_false, Op.modify_apply]

theorem forwardOp_transfer (c : Fin 8) :
    forwardOp e w (some c) s = .ok ((), ((s.enqueue s.cur e w (((s.me.chan c).given + 1) % 2 ^ 48)).mapSlot s.cur fun x =>
      x.setChan c { x.chan c with given := ((s.me.chan c).given + 1) % 2 ^ 48 }).retire) := by
  simp only [forwardOp, Op.bind_apply, Op.get_apply, if_neg (not_not_intro hl), noTx_closed htx, ge_iff_le,
    if_neg (Nat.not_le.mpr h), hj, Bool.false_eq_true, if_false, Op.modify_apply]
  rfl

end

/-- VCFG at the control core (R129). -/
theorem exec_vcfg_control {x : BitVec 10} {t : Tok} {s : State} (h : s.actor = .control) :
    exec (.vcfg x t) s =
      runOp (forwardOp .v (encode (.vcfg x t)) none >>= fun _ => modify fun s => s.setMe { s.me with vtype := x }) s := by
  have e : exec (.vcfg x t) s = execVcfg x t s := rfl
  rw [e, execVcfg, h]

theorem Eng.eq_of_code {a b : Eng} (h : a.code = b.code) : a = b := by
  cases a <;> cases b <;> simp_all [Eng.code]

section
variable {i : Instr} {s : State} {e : Eng} (hact : s.actor = .control) (hclass : encodeNat i / 2 ^ 30 = e.code)
include hact hclass

/-- Where `forwardOp` does not complete, the word ends as it does. -/
theorem exec_of_forward_error {r : Stop} (hne : e ≠ .s) (h : ∀ c, forwardOp e (encode i) c s = .error r) :
    exec i s = runOp (throw r) s := by
  have hrun {m : Op Unit} (hm : m s = .error r) : runOp m s = runOp (throw r) s := by rw [runOp, hm]; rfl
  cases wordForm i with
  | scalar h0 => exact absurd (Eng.eq_of_code (b := .s) (hclass.symm.trans h0)) hne
  | vector h1 _ hexec =>
    obtain rfl := Eng.eq_of_code (b := .v) (hclass.symm.trans h1)
    rw [hexec s hact, hrun (h none)]
  | config x t h1 hi =>
    obtain rfl := Eng.eq_of_code (b := .v) (hclass.symm.trans h1)
    subst hi
    rw [exec_vcfg_control hact, hrun (Op.bind_error (h none))]
  | matrix h2 hexec =>
    obtain rfl := Eng.eq_of_code (b := .m) (hclass.symm.trans h2)
    rw [hexec s, hrun (h none)]
  | copy c h3 _ hexec =>
    obtain rfl := Eng.eq_of_code (b := .c) (hclass.symm.trans h3)
    rw [hexec s, hrun (h (some c))]

end

section
variable {s : State} {i : Instr} (hl : s.me.level = .task) (htx : s.me.tx = none)
  (hj : s.me.journalFull = false)
include hl htx hj

theorem exec_vector_queued (hact : s.actor = .control) (hclass : encodeNat i / 2 ^ 30 = 1) (hd : s.me.depth .v < s.me.depthLimit .v)
    (hn : ∀ x t, i ≠ .vcfg x t) :
    exec i s = .next (s.enqueue s.cur .v (encode i) 0).retire := by
  cases wordForm i with
  | vector _ _ hexec => rw [hexec s hact, runOp_ok (forwardOp_queued hl htx hd hj)]
  | config x t _ hi => exact absurd hi (hn x t)
  | scalar h | matrix h _ | copy _ h _ _ => omega

theorem exec_vcfg_queued (hact : s.actor = .control) (hd : s.me.depth .v < s.me.depthLimit .v) {x : BitVec 10} {t : Tok} (hi : i = .vcfg x t) :
    exec i s = .next ((s.enqueue s.cur .v (encode i) 0).retire.setMe { (s.enqueue s.cur .v (encode i) 0).retire.me with vtype := x }) := by
  subst hi
  rw [exec_vcfg_control hact, runOp_ok (Op.bind_ok (forwardOp_queued hl htx hd hj))]

theorem exec_matrix_queued (hclass : encodeNat i / 2 ^ 30 = 2) (hd : s.me.depth .m < s.me.depthLimit .m) :
    exec i s = .next (s.enqueue s.cur .m (encode i) 0).retire := by
  cases wordForm i with
  | matrix _ hexec => rw [hexec s, runOp_ok (forwardOp_queued hl htx hd hj)]
  | scalar h | vector h _ _ | config _ _ h _ | copy _ h _ _ => omega

theorem exec_copy_queued (hclass : encodeNat i / 2 ^ 30 = 3) (hd : s.me.depth .c < s.me.depthLimit .c) :
    let h := Fin.ofNat 8 (encodeNat i / 2 ^ 22)
    let n := ((s.me.chan h).given + 1) % 2 ^ 48
    exec i s = .next ((s.enqueue s.cur .c (encode i) n).mapSlot s.cur fun x => x.setChan h { x.chan h with given := n }).retire := by
  intro h n
  cases wordForm i with
  | copy c _ hc hexec =>
    have hch : h = c := Fin.ext hc
    rw [hexec s, runOp_ok (forwardOp_transfer hl htx hd hj c), ← hch]
  | scalar h | vector h _ _ | config _ _ h _ | matrix h _ => omega

end

/-- Settles O34. -/
theorem engineWordsForwarded : Obligations.EngineWordsForwarded := by
  unfold Obligations.EngineWordsForwarded
  refine ⟨fun s i hact hl htx hj => ⟨fun hc hd => ⟨?_, fun x t => ?_⟩, ?_, ?_⟩, fun s i e hact hc hne => ?_⟩
  · exact exec_vector_queued hl htx hj hact hc hd
  · exact exec_vcfg_queued hl htx hj hact hd
  · exact exec_matrix_queued hl htx hj
  · exact exec_copy_queued hl htx hj
  · have hcode : encodeNat i / 2 ^ 30 = e.code := by rw [hc]; cases e <;> rfl
    refine ⟨fun hl => ?_, fun hl htx => ⟨fun hd => ?_, fun hd hj => ?_⟩⟩
    · exact exec_of_forward_error hact hcode hne fun _ => forwardOp_handler hl
    · exact exec_of_forward_error hact hcode hne fun c => forwardOp_queueFull hl htx c hd
    · exact exec_of_forward_error hact hcode hne fun c => forwardOp_journalFull hl htx c hd hj

end Sys2Proof.Machine
end

section
/-! PROOF. O59: granules of HBM under a key slot (08 R194; 20 R394). -/

namespace Sys2Proof.Machine

/-- What was put under a key is what is found there. -/
theorem find_tput {α : Type} (l : List (Nat × α)) (i : Nat) (v : α) : (tput l i v).find? (fun e => e.1 == i) = some (i, v) := by
  induction l with
  | nil => simp [tput]
  | cons e r ih =>
    obtain ⟨k, w⟩ := e
    rw [tput]
    split
    · simp
    · next hk =>
      split
      · simp
      · simp [hk, ih]

@[simp] theorem poison_ofUnit36 (u : BitVec 288) (p i : Bool) : (ofUnit36 u p i).poison = p := rfl
@[simp] theorem inj_ofUnit36 (u : BitVec 288) (p i : Bool) : (ofUnit36 u p i).inj = i := rfl

/-- A unit that is decrypted under the key it was encrypted under is the granule again (R194). -/
theorem eq_of_decrypt {key : BitVec 512} {n : Nat} {x raw : Granule} (h : raw = ofUnit36 (xtsEncrypt key n (unit36 x)) x.poison x.inj) :
    ofUnit36 (xtsDecrypt key n (unit36 raw)) raw.poison raw.inj = x := by
  rw [h, poison_ofUnit36, inj_ofUnit36, unit36_ofUnit36, xtsDecrypt_xtsEncrypt, ofUnit36_unit36]

/-- A granule that is stored under the key of the read is decrypted; one stored under another key is read as it stands. -/
theorem State.underKey_of_stored {s : State} {k key : BitVec 512} {n : Nat} (h : s.under.find? (fun e => e.1 == n) = some (n, key)) :
    s.underKey k n = if key = k then ofUnit36 (xtsDecrypt k n (unit36 (s.mem.gran n))) (s.mem.gran n).poison (s.mem.gran n).inj
      else s.mem.gran n := by
  rw [State.underKey, h]

section
variable {s : State} {p : Fin 16} {n : Nat} (hbm : physOf (32 * n) = .hbm) (hmine : s.regionOk p (32 * n) = true)
include hbm hmine

theorem State.closed_of_regionOk : s.closed p (32 * n) = false := by simp [State.closed, hbm, hmine]

/-- Without an injected error, a granule of the partition's HBM is read as its store holds it. -/
theorem State.homeGran_of_hbm (hseal : s.hit (s.homeDie (32 * n)) p .seal n = false) (hhbm : s.hit (s.homeDie (32 * n)) p .hbmu n = false)
    (key : Option (Fin 16)) : s.homeGran p key n = match s.keyOf p key (32 * n) with
      | none => s.mem.gran n
      | some k => s.underKey k n := by
  cases hk : s.keyOf p key (32 * n) <;>
    simp only [State.homeGran, State.closed_of_regionOk hbm hmine, hseal, hhbm, Bool.and_false, sealFlipIf, injectIf, Bool.false_eq_true,
      if_false, State.storedGran, hbm, reduceCtorEq, hk]

/-- A write to the partition's HBM that no dirty log records. -/
theorem State.homePutNow_of_hbm (hlog : (s.partOf p).logMode = 0) (key : Option (Fin 16)) (d : Bool) (x : Granule) :
    s.homePutNow p key d n x = s.hbmPut p key n x := by
  have hmode : ((s.hbmPut p key n x).partOf p).logMode = 0 := ((State.HomeFrame.hbmPut s p key n x).logMode p).trans hlog
  simp [State.homePutNow, State.closed_of_regionOk hbm hmine, hbm, State.logDirty, hmode]

end

section
variable {s : State} {p k : Fin 16} {n : Nat} {key : BitVec 512} (hkey : s.keyOf p (some k) (32 * n) = some key) (x : Granule)
include hkey

theorem State.mem_hbmPut_keyed :
    (s.hbmPut p (some k) n x).mem = s.mem.putGran n (ofUnit36 (xtsEncrypt key n (unit36 x)) x.poison x.inj) := by
  simp [State.hbmPut, hkey, State.putStored, State.noted, State.keepPast]

theorem State.under_hbmPut_keyed : (s.hbmPut p (some k) n x).under = tput s.under n key := by
  simp [State.hbmPut, hkey, State.putStored, State.noted, State.keepPast]

theorem State.gran_hbmPut_keyed : (s.hbmPut p (some k) n x).mem.gran n = ofUnit36 (xtsEncrypt key n (unit36 x)) x.poison x.inj := by
  rw [State.mem_hbmPut_keyed hkey, Memory.gran_putGran]

theorem State.stored_hbmPut_keyed : (s.hbmPut p (some k) n x).under.find? (fun e => e.1 == n) = some (n, key) := by
  rw [State.under_hbmPut_keyed hkey, find_tput]

theorem State.underKey_hbmPut_same : (s.hbmPut p (some k) n x).underKey key n = x := by
  rw [State.underKey_of_stored (State.stored_hbmPut_keyed hkey x), if_pos rfl]
  exact eq_of_decrypt (State.gran_hbmPut_keyed hkey x)

theorem State.underKey_hbmPut_other {other : BitVec 512} (h : other ≠ key) :
    (s.hbmPut p (some k) n x).underKey other n = ofUnit36 (xtsEncrypt key n (unit36 x)) x.poison x.inj := by
  rw [State.underKey_of_stored (State.stored_hbmPut_keyed hkey x), if_neg h.symm, State.gran_hbmPut_keyed hkey]

end

theorem State.mem_hbmPut_plain {s : State} {p k : Fin 16} {n : Nat} (hkey : s.keyOf p (some k) (32 * n) = none) (x : Granule) :
    (s.hbmPut p (some k) n x).mem = s.mem.putGran n x := by
  simp [State.hbmPut, hkey, State.putStored, State.noted, State.keepPast]

/-- A write in HBM changes no other granule. -/
theorem State.byte_hbmPut_other (s : State) (p : Fin 16) (key : Option (Fin 16)) (n : Nat) (x : Granule) (a : Nat) (h : a / 32 ≠ n) :
    (s.hbmPut p key n x).mem.byte a = s.mem.byte a :=
  Memory.byte_putGran_other _ _ _ _ h

/-- Settles O59. -/
theorem keyedMemory : Obligations.KeyedMemory := by
  unfold Obligations.KeyedMemory
  intro s p k j n x key other d hbm hmine hlog hseal hhbm t raw
  have ht : t = s.hbmPut p (some k) n x := State.homePutNow_of_hbm hbm hmine hlog (some k) d x
  clear_value t
  subst ht
  have hread (w : Option (Fin 16)) := State.homeGran_of_hbm (s := s.hbmPut p (some k) n x) hbm hmine hseal hhbm w
  have hkeys (w : Option (Fin 16)) : (s.hbmPut p (some k) n x).keyOf p w (32 * n) = s.keyOf p w (32 * n) := rfl
  have hnone : s.keyOf p none (32 * n) = none := rfl
  refine ⟨fun hkey => ⟨?_, ?_, fun hother hne => ?_⟩, fun hkey => ⟨?_, ?_⟩, State.byte_hbmPut_other s p (some k) n x⟩
  · rw [hread, hkeys, hkey]
    exact State.underKey_hbmPut_same hkey x
  · rw [hread, hkeys, hnone]
    exact State.gran_hbmPut_keyed hkey x
  · rw [hread, hkeys, hother]
    exact State.underKey_hbmPut_other hkey x hne
  · rw [hread, hkeys, hkey, State.mem_hbmPut_plain hkey, Memory.gran_putGran]
  · rw [hread, hkeys, hnone, State.mem_hbmPut_plain hkey, Memory.gran_putGran]

end Sys2Proof.Machine
end

section
/-! PROOF. O46: the ends of waits and stalls (05 R97, R109; 07 R161; 12 R261). -/

namespace Sys2Proof.Machine

section
variable {s : State} {i : SlotId}

theorem exec_waitSatisfied_yield (h : (s.slotOf i).status = .waiting .yield) :
    exec (.waitSatisfied i) s = .next (if s.otherIssued i then s.setSlot i ((s.slotOf i).readyAt (nextPc (s.slotOf i).pc) s.cycle) else s) := by
  have e : exec (.waitSatisfied i) s = execWaitSatisfied i s := rfl
  rw [e, execWaitSatisfied]
  simp only [h]

theorem exec_waitSatisfied_chwait {c : Fin 8} {n : Nat} (h : (s.slotOf i).status = .waiting (.chwait c n))
    (hdone : doneReached ((s.slotOf i).chan c).doneId n = true) :
    exec (.waitSatisfied i) s = .next (s.setSlot i ((s.slotOf i).readyAt (s.slotOf i).pc s.cycle)) := by
  have e : exec (.waitSatisfied i) s = execWaitSatisfied i s := rfl
  rw [e, execWaitSatisfied]
  simp only [h]
  exact congrArg Host.Outcome.next (if_pos hdone)

theorem exec_waitSatisfied_tkwait {e : Eng} (h : (s.slotOf i).status = .waiting (.tkwait e)) (htok : 0 < ((s.slotOf i).token e .s).n) :
    exec (.waitSatisfied i) s = .next (s.setSlot i ((s.slotOf i).readyAt (s.slotOf i).pc s.cycle)) := by
  have e : exec (.waitSatisfied i) s = execWaitSatisfied i s := rfl
  rw [e, execWaitSatisfied]
  simp only [h]
  exact congrArg Host.Outcome.next (if_pos htok)

theorem exec_yieldTimeout (h : (s.slotOf i).status = .waiting .yield) :
    exec (.yieldTimeout i) s = .next (if s.cycle ≥ (s.slotOf i).sched.since + 64 ∧ s.otherReady i = false then
      s.mapSlot i fun x => x.readyAt (nextPc x.pc) s.cycle else s) := by
  have e : exec (.yieldTimeout i) s = execYieldTimeout i s := rfl
  rw [e, execYieldTimeout, h]

theorem exec_stallEnd_over {r : Stall} (h : (s.slotOf i).sched.stall = some r) (hf : s.stallFree i r = true) :
    exec (.stallEnd i) s = .next (s.mapSlot i fun x => { x with sched := { x.sched with stall := none, since := s.cycle } }) := by
  have e : exec (.stallEnd i) s = execStallEnd i s := rfl
  rw [e, execStallEnd, h]
  exact congrArg Host.Outcome.next (if_pos hf)

theorem exec_stallEnd_stays {r : Stall} (h : (s.slotOf i).sched.stall = some r) (hf : s.stallFree i r = false) :
    exec (.stallEnd i) s = .next s := by
  have e : exec (.stallEnd i) s = execStallEnd i s := rfl
  rw [e, execStallEnd, h]
  exact congrArg Host.Outcome.next (if_neg (hf ▸ Bool.false_ne_true))

/-- The slot as it reads the word of its AWAIT again, and the state with it as the current one. -/
def State.rereading (s : State) (i : SlotId) : State :=
  { s.setSlot i { s.slotOf i with
    status := .ready
    sched := { (s.slotOf i).sched with readySince := s.cycle, awaitHit := false } } with cur := i }

section
variable {d : Fin 32} {p goal : Word} {l : Loc} (h : (s.slotOf i).status = .waiting (.await d p goal l))
include h

theorem exec_awaitReread_early (hhit : (s.slotOf i).sched.awaitHit = false) (hc : s.cycle < (s.slotOf i).sched.since + 4096) :
    exec (.awaitReread i) s = .next s := by
  have e : exec (.awaitReread i) s = execAwaitReread i s := rfl
  rw [e, execAwaitReread]
  simp only [h]
  refine congrArg Host.Outcome.next (if_neg ?_)
  rintro (ht | ht)
  · exact absurd ht (hhit ▸ Bool.false_ne_true)
  · exact absurd ht (Nat.not_le.mpr hc)

theorem exec_awaitReread_done (hdue : (s.slotOf i).sched.awaitHit = true ∨ (s.slotOf i).sched.since + 4096 ≤ s.cycle) {t : State}
    (ht : awaitOp d p goal (s.rereading i) = .ok ((), t)) (hready : (t.slotOf i).status = .ready) :
    exec (.awaitReread i) s = .next { t with cur := s.cur } := by
  have e : exec (.awaitReread i) s = execAwaitReread i s := rfl
  have hrun : (s.rereading i).runMe (awaitOp d p goal) = t := by rw [State.runMe, ht]
  rw [State.rereading] at hrun
  rw [e, execAwaitReread]
  simp only [h]
  refine congrArg Host.Outcome.next ((if_pos hdue).trans ?_)
  rw [State.asSlot, hrun]
  exact if_pos hready

end

end

section
variable {s : State} {c : Fin 256} {r : Stall} (hissue : (s.slotOf (s.curOf c)).canIssue = true)
  (hstall : (s.slotOf (s.curOf c)).sched.stall = some r)
include hissue hstall

theorem exec_slotReselect_early (hc : s.cycle ≤ (s.slotOf (s.curOf c)).sched.since + 64) : exec (.slotReselect c) s = .next s := by
  have e : exec (.slotReselect c) s = execSlotReselect c s := rfl
  rw [e, execSlotReselect]
  simp [hissue, hstall, Nat.not_lt.mpr hc]

theorem exec_slotReselect_turns {j : SlotId} (hc : (s.slotOf (s.curOf c)).sched.since + 64 < s.cycle) (hj : s.chooseSlot c = some j) :
    exec (.slotReselect c) s = .next (s.turnTo j) := by
  have e : exec (.slotReselect c) s = execSlotReselect c s := rfl
  rw [e, execSlotReselect]
  simp [hissue, hstall, hc, hj]

end

/-- Settles O46. -/
theorem waitEnds : Obligations.WaitEnds := by
  unfold Obligations.WaitEnds
  intro s i c h n e r d va goal l j x
  refine ⟨fun hy => ⟨fun ho => ?_, fun ho => ?_, fun hc hr => ?_, fun hc => ?_⟩, exec_waitSatisfied_chwait, exec_waitSatisfied_tkwait,
    fun hs => ⟨fun hf => ?_, exec_stallEnd_stays hs⟩, exec_awaitReread_early, fun ha hdue t ht hr => exec_awaitReread_done ha hdue ht hr,
    fun hi hs => ⟨exec_slotReselect_early hi hs, exec_slotReselect_turns hi hs⟩⟩
  · rw [exec_waitSatisfied_yield hy, if_pos ho]
  · rw [exec_waitSatisfied_yield hy, if_neg (ho ▸ Bool.false_ne_true)]
  · rw [exec_yieldTimeout hy, if_pos ⟨hc, hr⟩]
    rfl
  · rw [exec_yieldTimeout hy, if_neg fun hn => absurd hn.1 (Nat.not_le.mpr hc)]
  · refine ⟨_, exec_stallEnd_over hs hf, ?_, ?_, ?_, rfl⟩ <;> rw [State.slotOf_mapSlot_self]

end Sys2Proof.Machine
end

section
/-! PROOF. O49: the counters of the watchdog, the budget and the loop drain, and SAVE_TORN (16 R332 to R334, R338). -/

namespace Sys2Proof.Machine

/-! ### What a task leaves as it is taken away

The device's own writes, what leaves the L1, and the end of a task's memberships change nothing of a slot but what it knows of writes at
homes, and no partition's descriptor. -/

def State.DescsKept (s t : State) : Prop := ∀ p, (t.partOf p).desc = (s.partOf p).desc

namespace State.DescsKept

theorem of_parts {s t : State} (h : t.parts = s.parts) : s.DescsKept t := fun p => by rw [State.partOf, State.partOf, h]

theorem trans {s t u : State} (h : s.DescsKept t) (k : t.DescsKept u) : s.DescsKept u := fun p => (k p).trans (h p)

theorem of_homeFrame {s t : State} (h : s.HomeFrame t) : s.DescsKept t := fun p => by
  obtain ⟨_, hp⟩ := h.part p
  rw [hp]

theorem mapPart {f : Part → Part} (hf : ∀ q, (f q).desc = q.desc) (s : State) (p : Fin 16) : s.DescsKept (s.mapPart p f) :=
  fun j => State.desc_mapPart hf s p j

theorem foldl {α : Type} {f : State → α → State} (hf : ∀ (t : State) a, t.DescsKept (f t a)) (s : State) (l : List α) : s.DescsKept (l.foldl f s) :=
  List.foldlRecOn l f (motive := fun t : State => s.DescsKept t) (fun _ => rfl) fun _ ht a _ => ht.trans (hf _ a)

end State.DescsKept

structure State.Aside (s t : State) : Prop where
  learn : s.SlotsLearn t
  desc : s.DescsKept t

theorem Part.desc_mapScope (q : Part) (id : Nat) (f : Scope → Scope) : (q.mapScope id f).desc = q.desc := rfl

theorem Part.desc_exit (q : Part) (id : Nat) (killed : Bool) : (q.exit id killed).desc = q.desc := by
  unfold Part.exit
  simp only
  split <;> rfl

theorem Part.desc_markScope (q : Part) (id now : Nat) : (q.markScope id now).desc = q.desc := by
  unfold Part.markScope
  split <;> rfl

theorem Part.desc_withRoot (q : Part) : q.withRoot.desc = q.desc := by
  unfold Part.withRoot
  split <;> rfl

theorem State.SlotsLearn.status {s t : State} (h : s.SlotsLearn t) (j : SlotId) : (t.slotOf j).status = (s.slotOf j).status := by
  obtain ⟨ls, hl⟩ := h j
  rw [hl]
  exact List.foldlRecOn ls Slot.noted (motive := fun x : Slot => x.status = (s.slotOf j).status) rfl fun _ hx _ _ => hx

theorem State.DescsKept.writeBackLine (s : State) (c : Fin 256) (n : Nat) : s.DescsKept (s.writeBackLine c n) := by
  unfold State.writeBackLine
  split
  next => exact .of_parts rfl
  next => exact trans (of_homeFrame (.writeBackGrans s c _ _ _)) (of_parts rfl)

namespace State.Aside

theorem of_eq {s t : State} (h : t.slots = s.slots) (k : t.parts = s.parts) : s.Aside t := ⟨.of_slots h, .of_parts k⟩

theorem trans {s t u : State} (h : s.Aside t) (k : t.Aside u) : s.Aside u := ⟨h.learn.trans k.learn, h.desc.trans k.desc⟩

theorem mapPart {s t : State} (h : s.Aside t) {p : Fin 16} {f : Part → Part} (hf : ∀ q, (f q).desc = q.desc) : s.Aside (t.mapPart p f) :=
  ⟨h.learn, h.desc.trans (.mapPart hf t p)⟩

theorem devFail (s : State) (p : Fin 16) : s.Aside (s.devFail p) := ⟨.of_slots rfl, .of_homeFrame (.devFail s p)⟩

theorem homePut (s : State) (p : Fin 16) (key : Option (Fin 16)) (dlog : Bool) (g : Nat) (x : Granule) :
    s.Aside (s.homePut p key dlog g x) := by
  refine ⟨?_, .of_homeFrame (.homePut s p key dlog g x)⟩
  unfold State.homePut
  split
  next => exact .of_slots rfl
  next => exact .homePutNow s p key dlog g x

theorem devWrite (s : State) (p : Fin 16) (root va : Nat) (w : DevWrite) (report : Bool) : s.Aside (s.devWrite p root va w report) := by
  unfold State.devWrite
  split
  next => exact devFail s p
  next =>
    split
    next => exact devFail s p
    next => exact of_eq rfl rfl
  next =>
    simp only
    split
    next => exact of_eq rfl rfl
    next =>
      split
      next => exact devFail s p
      next =>
        split
        next => exact (homePut s _ _ _ _ _).trans (of_eq rfl rfl)
        next => exact homePut s _ _ _ _ _

theorem devAdd (s : State) (p : Fin 16) (root ptr : Nat) (n : Word) : s.Aside (s.devAdd p root ptr n) := by
  unfold State.devAdd
  split
  next => exact of_eq rfl rfl
  next => exact devWrite s p root _ _ true

theorem drainLines (s : State) (c : Fin 256) (l : List Nat) : s.Aside (s.drainLines c l) := by
  induction l generalizing s with
  | nil => exact of_eq rfl rfl
  | cons n r ih => exact trans ⟨.writeBackLine s c n, .writeBackLine s c n⟩ (ih _)

theorem drainFifo (s : State) (c : Fin 256) : s.Aside (s.drainFifo c) := drainLines s c _

theorem sendDom (s : State) (p : Fin 16) (dev id task : Nat) (m : DomMsg) : s.Aside (s.sendDom p dev id task m) := by
  unfold State.sendDom
  split
  next => exact devFail s p
  next => exact of_eq rfl rfl

theorem mapDom (s : State) (p : Fin 16) (level id : Nat) (f : Dom → Dom) : s.Aside (s.mapDom p level id f) :=
  (of_eq rfl rfl).mapPart fun _ => rfl

theorem leaveDom (s : State) (p : Fin 16) (t level id : Nat) (killed : Bool) : s.Aside (s.leaveDom p t level id killed) := by
  unfold State.leaveDom
  split
  next => exact (mapDom s p level id (·.without t)).trans (sendDom _ p _ id t _)
  next => exact mapDom s p level id _

theorem leaveAll (s : State) (p : Fin 16) (t : Nat) (killed : Bool) (l : List (Nat × Nat)) : s.Aside (s.leaveAll p t killed l) := by
  induction l generalizing s with
  | nil => exact of_eq rfl rfl
  | cons e r ih =>
    refine trans ?_ (ih _)
    split
    next => exact of_eq rfl rfl
    next => exact leaveDom s p t _ _ killed

theorem acknowledge (s : State) (p : Fin 16) (id : Nat) : s.Aside (s.acknowledge p id) := by
  unfold State.acknowledge
  split
  next => exact of_eq rfl rfl
  next x _ =>
    split
    next => exact of_eq rfl rfl
    next =>
      have hmark : s.Aside (s.mapPart p fun q => q.mapScope id fun x => { x with acked := true }) :=
        (of_eq rfl rfl).mapPart fun _ => rfl
      simp only
      split
      next => exact hmark
      next => exact hmark.trans (devWrite _ p _ _ _ true)

theorem reapScopes (s : State) (p : Fin 16) (n : Nat) : s.Aside (s.reapScopes p n) := by
  induction n generalizing s with
  | zero => exact of_eq rfl rfl
  | succ n ih =>
    rw [State.reapScopes]
    split
    next => exact of_eq rfl rfl
    next x _ =>
      refine trans ?_ (ih _)
      refine mapPart ?_ fun _ => rfl
      split
      next => exact acknowledge s p x.id
      next => exact of_eq rfl rfl

theorem leaveTask (s : State) (t : TaskInfo) (doms : List (Nat × Nat)) (killed : Bool) : s.Aside (s.leaveTask t doms killed) := by
  unfold State.leaveTask
  refine trans ?_ (reapScopes _ _ _)
  exact mapPart (leaveAll s t.part _ killed doms) fun _ => Part.desc_exit _ _ _

theorem putCtrs (s : State) (p : Fin 16) (g : GInst) (l : List Nat) : s.Aside (s.putCtrs p g l) := by
  induction l generalizing s with
  | nil => exact of_eq rfl rfl
  | cons d r ih =>
    refine trans ?_ (ih _)
    split
    next => exact devWrite s p _ _ _ false
    next => exact of_eq rfl rfl

theorem settleInst (s : State) (p : Fin 16) (graph index : Nat) : s.Aside (s.settleInst p graph index) := by
  unfold State.settleInst
  split
  next => exact of_eq rfl rfl
  next =>
    split
    next =>
      refine trans ?_ (devAdd _ p _ _ _)
      exact mapPart (of_eq rfl rfl) fun _ => rfl
    next => exact of_eq rfl rfl

theorem dropUnplaced (s : State) (p : Fin 16) (graph index : Nat) (l : List Rec) : s.Aside (s.dropUnplaced p graph index l) := by
  induction l generalizing s with
  | nil => exact of_eq rfl rfl
  | cons r l ih =>
    rw [State.dropUnplaced]
    refine trans ?_ (ih _)
    exact mapPart (leaveTask s r.info [] _) fun _ => rfl

theorem nodeEnded (s : State) (t : TaskInfo) (ended : Bool) : s.Aside (s.nodeEnded t ended) := by
  have hcounters (b : Bool) (g : GInst) (l : List Nat) : s.Aside (if b then s else s.putCtrs t.part g l) := by
    split
    next => exact of_eq rfl rfl
    next => exact putCtrs s t.part g l
  unfold State.nodeEnded
  split
  next => exact of_eq rfl rfl
  next graph n _ =>
    simp only
    split
    next => exact of_eq rfl rfl
    next g _ =>
      refine trans ?_ (settleInst _ t.part _ _)
      generalize (if (g.broken || !ended || !ended) = true then _ else _ : GInst) = g2
      have hmarked := mapPart (hcounters (g.broken || !ended || !ended) g2
        ((s.depList t.part g.root 65536 (bitsOf (t.record.getD 5 0) 16 48)).getD [])) (p := t.part)
          (f := fun q => q.mapInst graph (n / 65536) fun _ => g2) fun _ => rfl
      split
      next =>
        refine mapPart ?_ fun _ => rfl
        exact trans hmarked (dropUnplaced _ _ _ _ _)
      next => exact hmarked

end State.Aside

namespace State.DescsKept

/-! What the end of a slot's work leaves (R343). -/

theorem mapSlot {s t : State} (h : s.DescsKept t) {i : SlotId} {f : Slot → Slot} : s.DescsKept (t.mapSlot i f) := h

theorem orphanCopies {s t : State} (h : s.DescsKept t) (i : SlotId) : s.DescsKept (t.orphanCopies i) := h

theorem freeSegs {s t : State} (h : s.DescsKept t) (key : Nat) : s.DescsKept (t.freeSegs key) := h

theorem freeBanks {s t : State} (h : s.DescsKept t) (c : Fin 256) (key : Nat) : s.DescsKept (t.freeBanks c key) := h

theorem sendUnlock (s : State) (i : SlotId) (l : Loc) : s.DescsKept (s.sendUnlock i l) := by
  unfold State.sendUnlock
  split
  next => split <;> exact .of_parts rfl
  next => exact .of_parts rfl

theorem unlockOf (s : State) (i : SlotId) : s.DescsKept (s.unlockOf i) := by
  unfold State.unlockOf
  split
  next => exact .of_parts rfl
  next t _ =>
    split
    next => exact .of_parts rfl
    next => exact foldl (fun u l => sendUnlock u i l) s (s.txLocs t)

theorem stopCampion (s : State) (i : SlotId) : s.DescsKept (s.stopCampion i) := by
  unfold State.stopCampion
  split
  next => exact .of_parts rfl
  next => simp only; split <;> exact .of_parts rfl

theorem grantTokens (s : State) (i : SlotId) (l : List (SlotId × Nat)) : s.DescsKept (s.grantTokens i l) := by
  induction l generalizing s with
  | nil => exact .of_parts rfl
  | cons e r ih =>
    obtain ⟨b, n⟩ := e
    refine trans ?_ (ih _)
    split
    next => exact .of_parts rfl
    next =>
      split
      next => exact .of_parts rfl
      next => exact trans (foldl (fun _ _ => .of_parts rfl) s (slotsOf b.core)) (of_parts rfl)

theorem dropTicket (s : State) (u : TicketUser) : s.DescsKept (s.dropTicket u) := by
  unfold State.dropTicket
  split <;> exact .of_parts rfl

theorem endRuns (s : State) (l : List (Nat × Chan)) : s.DescsKept (s.endRuns l) := by
  induction l generalizing s with
  | nil => exact .of_parts rfl
  | cons e r ih =>
    refine trans ?_ (ih _)
    split <;> exact .of_parts rfl

theorem releaseIfDone (s : State) (c : Fin 64) : s.DescsKept (s.releaseIfDone c) := by
  unfold State.releaseIfDone
  simp only
  split
  next => split <;> exact .of_parts rfl
  next => exact .of_parts rfl

theorem idleLease (s : State) (i : SlotId) : s.DescsKept (s.idleLease i) := by
  unfold State.idleLease
  simp only
  split
  next => exact releaseIfDone _ _
  next => exact .of_parts rfl

theorem withoutRun (s : State) (r : Option MRun) : s.DescsKept (s.withoutRun r) := by
  cases r <;> exact .of_parts rfl

theorem withoutTickets (s : State) (i : SlotId) : s.DescsKept (s.withoutTickets i) :=
  (dropTicket s (.m i)).trans (foldl (fun t h => dropTicket t (.c i h)) _ _)

theorem dropEngines (s : State) (i : SlotId) : s.DescsKept (s.dropEngines i) := by
  rw [State.dropEngines_eq]
  refine trans (mapSlot (orphanCopies ?_ i)) (idleLease _ i)
  exact trans (trans (withoutRun s _) (endRuns _ _)) (withoutTickets _ i)

theorem dropLease (s : State) (i : SlotId) : s.DescsKept (s.dropLease i) := by
  unfold State.dropLease
  simp only
  split <;> exact .of_parts rfl

theorem evictLines (s : State) (c : Fin 256) (l : List (Nat × Bool)) : s.DescsKept (s.evictLines c l) := by
  induction l generalizing s with
  | nil => exact .of_parts rfl
  | cons m r ih => exact trans (t := s.evictLine c m.1) (writeBackLine s c m.1) (ih _)

theorem evictBlocks (s : State) (i : SlotId) (l : List (Nat × Block)) : s.DescsKept (s.evictBlocks i l) := by
  induction l generalizing s with
  | nil => exact .of_parts rfl
  | cons b r ih =>
    refine trans (t := s.evictBlock i b.1) ?_ (ih _)
    unfold State.evictBlock
    split
    next => exact .of_parts rfl
    next => exact evictLines s i.core _

theorem dropTickets (s : State) (i : SlotId) : s.DescsKept (s.dropTickets i) :=
  ((dropTicket s _).trans (dropTicket _ _)).trans
    (foldl (fun t h => (dropTicket t (.c i h)).trans (dropTicket _ (.ag i h))) _ _)

theorem sweepBands (s : State) (l : List (SlotId × Nat)) : s.DescsKept (s.sweepBands l) := by
  unfold State.sweepBands
  refine foldl ?_ s l
  exact fun _ _ => .of_parts rfl

theorem stopWork (s : State) (i : SlotId) : s.DescsKept (s.stopWork i) := by
  unfold State.stopWork
  simp only
  refine trans (freeBanks (freeSegs (trans (trans (mapSlot ?_) (evictBlocks _ i _)) (dropTickets _ i)) _) _ _) (sweepBands _ _)
  exact trans (trans (trans (trans (unlockOf s i) (stopCampion _ i)) (grantTokens _ i _)) (dropEngines _ i)) (dropLease _ i)

theorem killSlot (s : State) (i : SlotId) : s.DescsKept (s.killSlot i) := by
  have hstop := (stopWork s i).trans (State.Aside.drainFifo ((s.stopWork i).freeSlot i) i.core).desc
  unfold State.killSlot
  simp only
  split
  next => exact hstop
  next t _ => exact hstop.trans ((State.Aside.leaveTask _ t _ true).trans (State.Aside.nodeEnded _ t false)).desc

end State.DescsKept

/-! ### What a killed slot is -/

/-- The slot of a killed task is Free (R344). -/
theorem State.status_killSlot (s : State) (i : SlotId) : ((s.killSlot i).slotOf i).status = .free := by
  have hfree : (((s.stopWork i).freeSlot i).slotOf i).status = .free := by
    rw [State.freeSlot, State.slotOf_mapSlot_self]
    rfl
  have hdrain := (State.Aside.drainFifo ((s.stopWork i).freeSlot i) i.core).learn.status i
  unfold State.killSlot
  simp only
  split
  next => exact hdrain.trans hfree
  next t _ =>
    refine ((State.Aside.nodeEnded _ t false).learn.status i).trans (((State.Aside.leaveTask _ t _ true).learn.status i).trans ?_)
    exact hdrain.trans hfree

/-! ### A scope that takes its mark -/

theorem Part.scope_mapScope_self (q : Part) (id : Nat) (f : Scope → Scope) (hf : ∀ x, (f x).id = x.id) :
    (q.mapScope id f).scope id = (q.scope id).map f := by
  unfold Part.mapScope Part.scope
  simp only
  induction q.scopes with
  | nil => rfl
  | cons x r ih =>
    by_cases h : x.id = id
    · simp [updFirst, h, hf]
    · simp [updFirst, h, ih]

/-- A scope with its mark is cancelled (R122). -/
theorem Part.cancelled_of_mark {q : Part} {id : Nat} {z : Scope} (h : q.scope id = some z) (hz : z.mark = true) : q.cancelled id = true := by
  have hmem : id ∈ q.line id := by
    unfold Part.line Part.lineage
    split
    next h0 => simp [h0]
    next => simp
  rw [Part.cancelled, List.any_eq_true]
  exact ⟨id, hmem, by rw [h]; exact hz⟩

theorem Part.cancelled_markScope {q : Part} {id : Nat} (h : (q.scope id).isSome = true) (now : Nat) :
    (q.markScope id now).cancelled id = true := by
  unfold Part.markScope
  split
  next hc => exact hc
  next =>
    obtain ⟨z, hz⟩ := Option.isSome_iff_exists.mp h
    refine Part.cancelled_of_mark (z := { z with mark := true, markedAt := now, seen := [] }) ?_ rfl
    rw [Part.scope_mapScope_self, hz]
    · rfl
    · exact fun _ => rfl

/-- The root scope is there, and so is every scope that was. -/
theorem Part.scope_withRoot {q : Part} {id : Nat} (h : id = 0 ∨ (q.scope id).isSome = true) : (q.withRoot.scope id).isSome = true := by
  unfold Part.withRoot
  split
  next h0 => exact h.elim (fun e => e ▸ h0) fun e => e
  next =>
    rcases h with rfl | h
    · rfl
    · unfold Part.scope
      rw [List.find?_cons]
      split
      · rfl
      · exact h

/-- The state as the save of a task has been found torn: its scope marked, and the error logged. -/
def State.torn (s : State) (i : SlotId) (t : TaskInfo) : State :=
  (s.mapPart t.part fun q => q.withRoot.markScope t.scope s.cycle).logError (dieOfCore i.core) t.part
    ⟨logWord 7 (some (s.slotOf i).ctx.ctx) false i.core 6, 0, word s.cycle, 0⟩

/-! ### The counters -/

section
variable {s : State} {i : SlotId}

theorem exec_watchdog_due (hi : s.issues i = true) (ht : (s.slotOf i).task.isSome = true) (hw : (s.slotOf i).loop.wdog ≠ 0)
    (hc : (s.slotOf i).sched.wdogSince + 1024 * (s.slotOf i).loop.wdog.toNat ≤ s.cycle) :
    exec (.watchdog i) s = .next (s.setSlot i { s.slotOf i with
      pend := { (s.slotOf i).pend with wdog := true }
      sched := { (s.slotOf i).sched with wdogSince := s.cycle } }) := by
  have e : exec (.watchdog i) s = execWatchdog i s := rfl
  rw [e, execWatchdog]
  exact congrArg Host.Outcome.next (if_pos ⟨hi, ht, hw, hc⟩)

theorem exec_watchdog_early (hc : s.cycle < (s.slotOf i).sched.wdogSince + 1024 * (s.slotOf i).loop.wdog.toNat) :
    exec (.watchdog i) s = .next s := by
  have e : exec (.watchdog i) s = execWatchdog i s := rfl
  rw [e, execWatchdog]
  exact congrArg Host.Outcome.next (if_neg fun h => absurd h.2.2.2 (Nat.not_le.mpr hc))

theorem exec_preemptBudget_due (ht : (s.slotOf i).task.isSome = true) (hb : (s.slotOf i).loop.budget ≠ 0)
    (hs : (s.slotOf i).loop.spent = false) (hu : 1024 * (s.slotOf i).loop.budget.toNat ≤ (s.slotOf i).sched.budgetUsed) :
    exec (.preemptBudget i) s = .next ((s.unpinPreloads i.core).setSlot i { (s.slotOf i).request s.cycle with
      loop := { ((s.slotOf i).request s.cycle).loop with spent := true } }) := by
  have e : exec (.preemptBudget i) s = execPreemptBudget i s := rfl
  rw [e, execPreemptBudget]
  exact congrArg Host.Outcome.next (if_pos ⟨ht, hb, hs, hu⟩)

theorem exec_preemptBudget_early (hu : (s.slotOf i).sched.budgetUsed < 1024 * (s.slotOf i).loop.budget.toNat) :
    exec (.preemptBudget i) s = .next s := by
  have e : exec (.preemptBudget i) s = execPreemptBudget i s := rfl
  rw [e, execPreemptBudget]
  exact congrArg Host.Outcome.next (if_neg fun h => absurd h.2.2.2 (Nat.not_le.mpr hu))

theorem exec_loopDrainTimeout_due (hp : (s.slotOf i).pend.preempt = true) (hr : (s.slotOf i).loop.ready = false)
    (hc : (s.slotOf i).loop.reqCycle + 65536 ≤ s.cycle) :
    exec (.loopDrainTimeout i) s = .next (s.setSlot i { s.slotOf i with loop := { (s.slotOf i).loop with ready := true } }) := by
  have e : exec (.loopDrainTimeout i) s = execLoopDrainTimeout i s := rfl
  rw [e, execLoopDrainTimeout]
  exact congrArg Host.Outcome.next (if_pos ⟨hp, hr, hc⟩)

theorem exec_loopDrainTimeout_early (hc : s.cycle < (s.slotOf i).loop.reqCycle + 65536) : exec (.loopDrainTimeout i) s = .next s := by
  have e : exec (.loopDrainTimeout i) s = execLoopDrainTimeout i s := rfl
  rw [e, execLoopDrainTimeout]
  exact congrArg Host.Outcome.next (if_neg fun h => absurd h.2.2 (Nat.not_le.mpr hc))

/-! ### SAVE_TORN -/

theorem exec_saveTorn_idle (h : s.saving i = false) : exec (.saveTorn i) s = .next s := by
  have e : exec (.saveTorn i) s = execSaveTorn i s := rfl
  rw [e, execSaveTorn]
  split
  next => rfl
  next => rw [if_neg (h ▸ Bool.false_ne_true)]

theorem exec_saveTorn_saving {t : TaskInfo} (ht : (s.slotOf i).task = some t) (h : s.saving i = true) :
    exec (.saveTorn i) s = .next ((((s.torn i t).killSlot i).report 0x18 i).cfgBusy t.part) := by
  have e : exec (.saveTorn i) s = execSaveTorn i s := rfl
  rw [e, execSaveTorn, ht]
  exact congrArg Host.Outcome.next (if_pos h)

end

/-- The torn task's core is still that of its partition when it is reported. -/
theorem State.partNo_torn_killSlot (s : State) (i : SlotId) (t : TaskInfo) : ((s.torn i t).killSlot i).partNo i.core = s.partNo i.core := by
  have hmark : s.DescsKept (s.torn i t) :=
    .mapPart (f := fun q => q.withRoot.markScope t.scope s.cycle)
      (fun q => (Part.desc_markScope _ _ _).trans (Part.desc_withRoot q)) s t.part
  exact State.partNo_congr (hmark.trans (.killSlot _ i)) i.core

/-- Settles O49. -/
theorem countersExpire : Obligations.CountersExpire := by
  unfold Obligations.CountersExpire
  intro s i t x
  obtain ⟨hpc, -, -, -, hpend⟩ := (s.slotOf i).request_leaves s.cycle
  obtain ⟨-, hslots, hmbox, -⟩ := (((s.torn i t).killSlot i).report 0x18 i).cfgBusy_leaves t.part
  refine ⟨fun hi ht hw hc => ⟨_, exec_watchdog_due hi ht hw hc, ?_, ?_, rfl⟩, exec_watchdog_early,
    fun ht hb hs hu => ⟨_, exec_preemptBudget_due ht hb hs hu, ?_, ?_, rfl⟩, exec_preemptBudget_early,
    fun hp hr hc => ⟨_, exec_loopDrainTimeout_due hp hr hc, ?_, rfl⟩, exec_loopDrainTimeout_early,
    fun ht hs => ⟨_, exec_saveTorn_saving ht hs, ?_, ?_, fun hscope => ?_, rfl⟩, exec_saveTorn_idle⟩
  · rw [State.slotOf_setSlot, if_pos rfl]
  · rw [State.slotOf_setSlot, if_pos rfl]
  · rw [State.slotOf_setSlot, if_pos rfl]
    exact hpend
  · rw [State.slotOf_setSlot, if_pos rfl]
    exact hpc
  · rw [State.slotOf_setSlot, if_pos rfl]
  · rw [State.slotOf, hslots]
    exact State.status_killSlot _ i
  · rw [hmbox]
    refine ⟨_, List.mem_append_right _ (List.mem_singleton.mpr rfl), ?_⟩
    rw [State.partNo_torn_killSlot]
  · rw [State.partOf_mapPart_self]
    exact Part.cancelled_markScope (Part.scope_withRoot hscope) s.cycle

end Sys2Proof.Machine
end

section
/-! PROOF. O42: a core starts, resumes or preloads the record at the head of its deque (05 R97, R101, R102, R111; 16 R336, R340). -/

namespace Sys2Proof.Machine

section
variable {s t : State} {i : SlotId} {r : Rec} {l : List Rec} (hs : s.starts i.core = true) (hf : (s.slotOf i).status = .free)
  (hh : s.headRec i.core = some (r, l))
include hs hf hh

/-- A record that is no resume record starts with a free environment, once nothing is left to ask of other devices. -/
theorem exec_taskStart_starts {e : Nat} (hk : r.kind = .fresh ∨ r.kind = .rerun) (hc : s.recSeen i.core r = false)
    (he : s.freeEnv r.info.part = some e) (hw : s.startWants r e = []) (ht : (s.setDeque i.core l).startRec i r e = some t) :
    exec (.taskStart i) s = .next (t.forget r.info.part) := by
  have hstart : s.startIn i r e (fun s => s.setDeque i.core l) = t.forget r.info.part := State.startIn_of_startRec hw ht
  have e : exec (.taskStart i) s = execTaskStart i s := rfl
  rcases hk with hk | hk <;> simp [e, execTaskStart, State.taskStart, hs, hf, hh, hk, hc, he, hstart]

theorem exec_taskStart_drops (hk : r.kind = .fresh ∨ r.kind = .rerun) (hc : s.recSeen i.core r = true) :
    exec (.taskStart i) s = .next ((s.setDeque i.core l).dropRec r) := by
  have e : exec (.taskStart i) s = execTaskStart i s := rfl
  rcases hk with hk | hk <;> simp [e, execTaskStart, State.taskStart, hs, hf, hh, hk, hc]

theorem exec_taskStart_resumeRecord {a : Nat} {v : Option Nat} {x : Extra} (hk : r.kind = .resume a v x) :
    exec (.taskStart i) s = .next s := by
  have e : exec (.taskStart i) s = execTaskStart i s := rfl
  simp [e, execTaskStart, State.taskStart, hs, hf, hh, hk]

theorem exec_resume_head {a : Nat} {v : Option Nat} {x : Extra} (hk : r.kind = .resume a v x) :
    exec (.resume i) s = .next ((s.setDeque i.core l).resumeRec i r) := by
  have e : exec (.resume i) s = execResume i s := rfl
  simp [e, execResume, State.taskResume, hs, hf, hh, hk]

theorem exec_preload_record (hk : r.kind = .fresh ∨ r.kind = .rerun) :
    exec (.preload i) s = .next ((s.setDeque i.core l).mapSlot i fun x => { x with status := .preloaded, next := some r }) := by
  have e : exec (.preload i) s = execPreload i s := rfl
  rcases hk with hk | hk <;> simp [e, execPreload, hs, hf, hh, hk]

theorem exec_preload_saved {a e : Nat} {x : Extra} (hk : r.kind = .resume a (some e) x) :
    let t := (s.setDeque i.core l).mapSlot i fun x =>
      { x with status := .preloaded, next := some r, quota := r.quota, ctx := { Ctx.none with key := envKey r.info.part e } }
    exec (.preload i) s =
      .next (t.preloadSegs ((t.chargedTo (envKey r.info.part e)).filter fun g => g.atSave && decide (g.state = .absent))) := by
  have e : exec (.preload i) s = execPreload i s := rfl
  simp [e, execPreload, hs, hf, hh, hk]

end

/-- R13: the registers of a task at its start. -/
theorem get_startBank (arg g2 : Word) (n : Nat) (q : Fin 32) : (startBank arg n g2).get q =
    if q = 30 then 0x4000000000000000 + word n else if q = 2 then g2 else if q = 1 then arg else 0 := by
  have hzero : Bank.zero.get q = 0 := by simp [Bank.get, Bank.zero]
  simp only [startBank, Bank.get_set, hzero]
  by_cases h0 : q = 0
  · simp [h0]
  · simp [h0]

/-- Settles O42. -/
theorem taskStarts : Obligations.TaskStarts := by
  unfold Obligations.TaskStarts
  refine ⟨fun s t i r l e a x v hs hf hh => ⟨exec_taskStart_starts hs hf hh, exec_taskStart_drops hs hf hh,
    fun hk => ⟨exec_resume_head hs hf hh hk, exec_taskStart_resumeRecord hs hf hh hk⟩, fun hk => ?_,
    fun hk => ⟨_, exec_preload_saved hs hf hh hk, rfl⟩⟩, fun x r c v n => ?_⟩
  · refine ⟨_, exec_preload_record hs hf hh hk, ?_, ?_, ?_, rfl⟩
    · rw [State.slotOf_mapSlot_self]
    · rw [State.slotOf_mapSlot_self]
    · exact State.deque_setDeque s i.core l
  · refine ⟨rfl, get_startBank _ _ _ _, get_startBank _ _ _ _, fun q h1 h30 => ?_, rfl, rfl, rfl, rfl, rfl, rfl, rfl, rfl, rfl, rfl, rfl, rfl,
      rfl⟩
    have h := get_startBank (imgWord r.info.record 1) 0 c.privSize q
    rw [if_neg h30, if_neg h1, ite_self] at h
    exact h

end Sys2Proof.Machine
end

section
/-! PROOF. O44: graph nodes and the launch engine (05 R106 to R108, R114). -/

namespace Sys2Proof.Machine

section
variable {s : State} {p : Fin 16}

theorem exec_graphNodePlace_next {g : GInst} {n : Nat} {l : List Nat} {r : Rec}
    (hg : (s.partOf p).insts.find? (fun g => !g.unplaced.isEmpty && !g.broken) = some g) (hu : g.unplaced = n :: l)
    (hr : g.recs.find? (fun r => r.info.node = some (g.graph, g.index * 65536 + n)) = some r) :
    let s1 := s.mapPart p fun q => q.mapInst g.graph g.index fun g => { g with unplaced := l }
    exec (.graphNodePlace p) s = .next (if s1.recCancelled r then s1.dropRec r else s1.place r) := by
  have e : exec (.graphNodePlace p) s = execGraphNodePlace p s := rfl
  simp only [e, execGraphNodePlace, hg, hu, hr]

theorem exec_launchScan (hl : s.launches p = true) (hm : (s.partOf p).scanMask ≠ 0) :
    exec (.launchScan p) s =
      .next (match (s.mapPart p fun q => { q with scanMask := 0, lastScan := s.cycle }).scanQueues p (s.partOf p).scanMask [0, 1, 2, 3] with
        | .error l => s.ask p l
        | .ok t => (t.mapPart p fun q => { q with scanMask := q.scanMask ||| q.wakeAgain, wakeAgain := 0 }).forget p) := by
  have e : exec (.launchScan p) s = execLaunchScan p s := rfl
  rw [e, execLaunchScan]
  exact congrArg Host.Outcome.next (if_neg fun h => h.elim (fun h => absurd hl (h ▸ Bool.false_ne_true)) hm)

theorem exec_launchScan_idle (hm : (s.partOf p).scanMask = 0) : exec (.launchScan p) s = .next s := by
  have e : exec (.launchScan p) s = execLaunchScan p s := rfl
  rw [e, execLaunchScan]
  exact congrArg Host.Outcome.next (if_pos (.inr hm))

theorem exec_periodicWake_due (hv : (s.partOf p).valid = true) (hc : (s.partOf p).lastScan + 65536 ≤ s.cycle) :
    exec (.periodicWake p) s = .next (s.wakeQueues p 15) := by
  have e : exec (.periodicWake p) s = execPeriodicWake p s := rfl
  rw [e, execPeriodicWake, if_pos ⟨hv, hc⟩]

theorem exec_periodicWake_early (hc : s.cycle < (s.partOf p).lastScan + 65536) : exec (.periodicWake p) s = .next s := by
  have e : exec (.periodicWake p) s = execPeriodicWake p s := rfl
  rw [e, execPeriodicWake, if_neg fun h => absurd h.2 (Nat.not_le.mpr hc)]

theorem exec_wake_first (m : BitVec 4) (hcfg : s.pkg.cfg.status ≠ 3) (hw : (s.partOf p).lastWake = none) :
    exec (.wake p m) s = .next ((s.mapPart p fun q => { q with lastWake := some s.cycle }).wakeQueues p m) := by
  have e : exec (.wake p m) s = execWake p m s := rfl
  simp [e, execWake, State.hostWake, hcfg, hw]

theorem exec_wake_merged (m : BitVec 4) {w : Nat} (hw : (s.partOf p).lastWake = some w) (hc : s.cycle < w + 1600) :
    exec (.wake p m) s = .next (s.mapPart p fun q => { q with wakeAgain := q.wakeAgain ||| m }) := by
  have e : exec (.wake p m) s = execWake p m s := rfl
  simp [e, execWake, State.hostWake, hw, wakeWindow, hc]

theorem exec_wakeWindowEnd_over {w : Nat} (hw : (s.partOf p).lastWake = some w) (hc : w + 1600 ≤ s.cycle)
    (ha : (s.partOf p).wakeAgain ≠ 0) (hm : (s.partOf p).scanMask = 0) (hl : s.launches p = true) :
    exec (.wakeWindowEnd p) s =
      .next ((s.mapPart p fun q => { q with wakeAgain := 0, lastWake := some s.cycle }).wakeQueues p (s.partOf p).wakeAgain) := by
  have e : exec (.wakeWindowEnd p) s = execWakeWindowEnd p s := rfl
  rw [e, execWakeWindowEnd]
  simp only [hw]
  exact congrArg Host.Outcome.next (if_pos ⟨hc, ha, hm, hl⟩)

end

/-- Settles O44. -/
theorem launchSteps : Obligations.LaunchSteps := by
  unfold Obligations.LaunchSteps
  intro s p m g n w l r
  refine ⟨exec_graphNodePlace_next, fun hl hm => ⟨fun t ht => ?_, fun l hl' => ?_⟩, exec_launchScan_idle,
    fun hv hc => ⟨_, exec_periodicWake_due hv hc, ?_, rfl, rfl⟩, exec_periodicWake_early,
    fun hcfg hw => ⟨_, exec_wake_first m hcfg hw, ?_, ?_, rfl, rfl⟩, fun hw hc => ⟨_, exec_wake_merged m hw hc, ?_, ?_, rfl, rfl⟩,
    fun hw hc ha hm hl => ⟨_, exec_wakeWindowEnd_over hw hc ha hm hl, ?_, ?_, ?_, rfl, rfl⟩⟩
  · rw [exec_launchScan hl hm, ht]
  · rw [exec_launchScan hl hm, hl']
  · rw [State.wakeQueues, State.partOf_mapPart_self]
    exact BitVec.or_allOnes
  · rw [State.wakeQueues, State.partOf_mapPart_self, State.partOf_mapPart_self]
  · rw [State.wakeQueues, State.partOf_mapPart_self, State.partOf_mapPart_self]
  · rw [State.partOf_mapPart_self]
  · rw [State.partOf_mapPart_self]
  · rw [State.wakeQueues, State.partOf_mapPart_self, State.partOf_mapPart_self]
    show (s.partOf p).scanMask ||| (s.partOf p).wakeAgain = _
    rw [hm]
    exact BitVec.zero_or
  · rw [State.wakeQueues, State.partOf_mapPart_self, State.partOf_mapPart_self]
  · rw [State.wakeQueues, State.partOf_mapPart_self, State.partOf_mapPart_self]

end Sys2Proof.Machine
end

section
/-! PROOF. Granules on their way between the L1s, the homes and the stores (08 R166, R182, R183, R191): what such a move leaves. -/

namespace Sys2Proof.Machine

/-- From s to t granules have moved: the byte stores stay in their canonical form, the current slot is the same one, and what slots have changed is
what they know of writes at homes (R218, R161). -/
structure State.Moves (s t : State) : Prop where
  canonical : s.Canonical → t.Canonical
  cur : t.cur = s.cur
  learn : s.SlotsLearn t

/-- A byte store of a segment that is changed in its canonical form. -/
theorem State.Canonical.mapSeg {s : State} (h : s.Canonical) (i : SegId) {f : Seg → Seg}
    (hf : ∀ g, g.data.wf = true → (f g).data.wf = true) : (s.mapSeg i f).Canonical := by
  refine ⟨h.1, ?_⟩
  have hmem {p : Seg → Bool} (l : List Seg) (hl : ∀ g ∈ l, g.data.wf = true) : ∀ g ∈ updFirst p f l, g.data.wf = true := by
    induction l with
    | nil => exact hl
    | cons x r ih =>
      obtain ⟨hx, hr⟩ := List.forall_mem_cons.mp hl
      rw [updFirst]
      split
      next => exact List.forall_mem_cons.mpr ⟨hf x hx, hr⟩
      next => exact List.forall_mem_cons.mpr ⟨hx, ih hr⟩
  exact hmem s.segs h.2

namespace State.Moves

/-- A change of the memory, the segments and the slots alone is a move of granules if nothing in it is. -/
theorem of_eq {s t : State} (hm : t.mem = s.mem) (hg : t.segs = s.segs) (hc : t.cur = s.cur) (hs : t.slots = s.slots) : s.Moves t :=
  ⟨fun h => ⟨hm ▸ h.1, hg ▸ h.2⟩, hc, .of_slots hs⟩

theorem refl (s : State) : s.Moves s := of_eq rfl rfl rfl rfl

theorem trans {s t u : State} (h : s.Moves t) (k : t.Moves u) : s.Moves u :=
  ⟨fun c => k.canonical (h.canonical c), k.cur.trans h.cur, h.learn.trans k.learn⟩

theorem foldl {α : Type} {f : State → α → State} (hf : ∀ (t : State) a, t.Moves (f t a)) (s : State) (l : List α) : s.Moves (l.foldl f s) :=
  List.foldlRecOn l f (motive := fun t : State => s.Moves t) (refl s) fun _ ht a _ => ht.trans (hf _ a)

theorem logError (s : State) (die : Nat) (p : Fin 16) (e : LogEntry) : s.Moves (s.logError die p e) := of_eq rfl rfl rfl rfl

theorem logArray (s : State) (die : Nat) (p : Fin 16) (c : Fin 256) (site : Nat) (corrected inj : Bool) (pa : Nat) :
    s.Moves (s.logArray die p c site corrected inj pa) := of_eq rfl rfl rfl rfl

theorem raiseError (s : State) (p : Fin 16) : s.Moves (s.raiseError p) := of_eq rfl rfl rfl rfl

theorem mapCore (s : State) (c : Fin 256) (f : Core → Core) : s.Moves (s.mapCore c f) := of_eq rfl rfl rfl rfl

theorem writtenBy (s : State) (l : Loc) (i : Option SlotId) (c : Option (Fin 256)) : s.Moves (s.writtenBy l i c) := of_eq rfl rfl rfl rfl

theorem keepStored (s : State) (l : Loc) (m : BitVec 32) (d : BitVec 256) : s.Moves (s.keepStored l m d) := of_eq rfl rfl rfl rfl

/-! Writes at homes. -/

theorem putStored (s : State) (g : Nat) (y old : Granule) : s.Moves (s.putStored g y old) :=
  ⟨fun h => ⟨Memory.putGran_wf _ _ _ h.1, h.2⟩, rfl, .putStored s g y old⟩

theorem logDirty (s : State) (p : Fin 16) (dlog : Bool) (pa : Nat) : s.Moves (s.logDirty p dlog pa) := by
  unfold State.logDirty
  simp only
  split
  next => exact putStored s _ _ _
  next => exact refl s

theorem hbmPut (s : State) (p : Fin 16) (key : Option (Fin 16)) (g : Nat) (x : Granule) : s.Moves (s.hbmPut p key g x) := by
  unfold State.hbmPut
  refine trans ?_ (putStored _ _ _ _)
  exact of_eq rfl rfl rfl rfl

theorem egress (s : State) (p : Fin 16) (g : Nat) (x : Granule) : s.Moves (s.egress p g x).1 := by
  unfold State.egress
  split
  next => exact of_eq rfl rfl rfl rfl
  next => exact refl s

theorem homePutNow (s : State) (p : Fin 16) (key : Option (Fin 16)) (dlog : Bool) (g : Nat) (x : Granule) :
    s.Moves (s.homePutNow p key dlog g x) := by
  unfold State.homePutNow
  simp only
  split
  next => exact of_eq rfl rfl rfl rfl
  next =>
    split
    next => exact (egress s p g x).trans (putStored _ g _ _)
    next => exact (hbmPut s p key g x).trans (logDirty _ p dlog _)

theorem homePut (s : State) (p : Fin 16) (key : Option (Fin 16)) (dlog : Bool) (g : Nat) (x : Granule) :
    s.Moves (s.homePut p key dlog g x) := by
  unfold State.homePut
  split
  next => exact of_eq rfl rfl rfl rfl
  next => exact homePutNow s p key dlog g x

/-! Lines of an L1. -/

theorem homeFrom (s : State) (c : Fin 256) (l : L1Line) (g : Nat) (x : Granule) : s.Moves (s.homeFrom c l g x) := by
  unfold State.homeFrom
  split
  next => exact of_eq rfl rfl rfl rfl
  next => exact (homePutNow s _ _ _ g x).trans (writtenBy _ _ _ _)

theorem writeBackGran (s : State) (c : Fin 256) (l : L1Line) (i : Nat) (x : L1Gran) : s.Moves (s.writeBackGran c l i x) := by
  unfold State.writeBackGran
  simp only
  split
  next =>
    split
    next => exact ((homeFrom s c l _ _).trans (logError _ _ _ _)).trans (raiseError _ _)
    next => exact homeFrom s c l _ _
  next => exact refl s

theorem writeBackGrans (s : State) (c : Fin 256) (l : L1Line) (i : Nat) (xs : List L1Gran) : s.Moves (s.writeBackGrans c l i xs) := by
  induction xs generalizing s i with
  | nil => exact refl s
  | cons x r ih => exact (writeBackGran s c l i x).trans (ih _ _)

theorem writeBackLine (s : State) (c : Fin 256) (n : Nat) : s.Moves (s.writeBackLine c n) := by
  unfold State.writeBackLine
  split
  next => exact mapCore s c _
  next => exact (writeBackGrans s c _ _ _).trans (mapCore _ c _)

theorem dropLine (s : State) (c : Fin 256) (n : Nat) : s.Moves (s.dropLine c n) := mapCore s c _

theorem evictLine (s : State) (c : Fin 256) (n : Nat) : s.Moves (s.evictLine c n) := (writeBackLine s c n).trans (dropLine _ c n)

theorem evictLines (s : State) (c : Fin 256) (l : List (Nat × Bool)) : s.Moves (s.evictLines c l) := by
  induction l generalizing s with
  | nil => exact refl s
  | cons m r ih => exact (evictLine s c m.1).trans (ih _)

theorem evictSome (s : State) (c : Fin 256) (l : List Nat) : s.Moves (s.evictSome c l) := by
  induction l generalizing s with
  | nil => exact refl s
  | cons n r ih => exact (evictLine s c n).trans (ih _)

theorem drainLines (s : State) (c : Fin 256) (l : List Nat) : s.Moves (s.drainLines c l) := by
  induction l generalizing s with
  | nil => exact refl s
  | cons n r ih => exact (writeBackLine s c n).trans (ih _)

theorem drainFifo (s : State) (c : Fin 256) : s.Moves (s.drainFifo c) := drainLines s c _

theorem corrected (s : State) (c : Fin 256) (p : Fin 16) (g : Nat) : s.Moves (s.corrected c p g) := by
  unfold State.corrected
  simp only
  split
  next => exact refl s
  next =>
    have hlog : s.Moves (if s.hit (s.homeDie (32 * g)) p .hbmc g then s.logArray (s.homeDie (32 * g)) p c 4 true true (32 * g) else s) := by
      split
      next => exact logArray s _ _ _ _ _ _ _
      next => exact refl s
    split
    next => exact hlog.trans (logArray _ _ _ _ _ _ _ _)
    next => exact hlog

theorem l1FillAt (s : State) (c : Fin 256) (u : PageUse) (ctx : BitVec 8) (n t : Nat) : s.Moves (s.l1FillAt c u ctx n t) := by
  unfold State.l1FillAt
  split
  next => exact mapCore s c _
  next =>
    refine trans (trans ?_ (foldl (fun t i => corrected t c u.part (4 * n + i)) _ (List.range 4))) (mapCore _ c _)
    split
    next => exact refl s
    next v _ => exact evictLine s c v.line

theorem l1Fill (s : State) (c : Fin 256) (u : PageUse) (ctx : BitVec 8) (n : Nat) : s.Moves (s.l1Fill c u ctx n) := l1FillAt s c u ctx n _

theorem l1Errors (s : State) (c : Fin 256) (p : Fin 16) (g : Nat) : s.Moves (s.l1Errors c p g) := by
  unfold State.l1Errors
  simp only
  split
  next => exact logArray s _ _ _ _ _ _ _
  next => exact refl s

theorem l1Store (s : State) (c : Fin 256) (u : PageUse) (ctx : BitVec 8) (g : Nat) (x : Granule) : s.Moves (s.l1Store c u ctx g x) := by
  unfold State.l1Store
  refine trans ?_ (mapCore _ c _)
  split
  next o r _ =>
    split
    next => exact writeBackLine s c o
    next => exact refl s
  next => exact refl s

/-! Segments at their stores. -/

theorem storeErrors (s : State) (i : SegId) (g : Nat) : s.Moves (s.storeErrors i g) := by
  unfold State.storeErrors
  split
  next => exact refl s
  next =>
    simp only
    split
    next => exact logArray s _ _ _ _ _ _ _
    next => exact refl s

theorem segPut (s : State) (i : SegId) (g : Nat) (v : Granule) : s.Moves (s.segPut i g v) := by
  refine ⟨fun h => State.Canonical.mapSeg h i fun x hx => Memory.putGran_wf _ _ _ hx, rfl, fun j => ⟨[.seg i g], ?_⟩⟩
  exact State.slotOf_noted _ _ j

/-! Requests to other devices, and wakes of the launch engine. -/

theorem lostWrite (s : State) (i : SlotId) (l : Loc) : s.Moves (s.lostWrite i l) := of_eq rfl rfl rfl rfl

theorem sendStore (s : State) (i : SlotId) (dev pa : Nat) (op : RemoteOp) (dlog : Bool) (wake : Option (BitVec 32 × BitVec 256)) :
    s.Moves (s.sendStore i dev pa op dlog wake) := of_eq rfl rfl rfl rfl

theorem wakeBy (s : State) (p : Fin 16) (l : Loc) (mask : BitVec 32) (data : BitVec 256) : s.Moves (s.wakeBy p l mask data) := by
  unfold State.wakeBy
  simp only
  split
  next => exact refl s
  next =>
    split
    next => split <;> exact of_eq rfl rfl rfl rfl
    next => split <;> exact of_eq rfl rfl rfl rfl
    next => exact refl s

theorem noteWake (s : State) (p : Fin 16) (l : Loc) (wake : Option (BitVec 32 × BitVec 256)) : s.Moves (s.noteWake p l wake) := by
  cases wake with
  | none => exact refl s
  | some w => exact wakeBy s p l w.1 w.2

end State.Moves

end Sys2Proof.Machine
end

section
/-! PROOF. O12: MARK, the fences, and what a release and an acquire leave (09 R210; 10 R225). -/

namespace Sys2Proof.Machine

/-! ### The stores of a queue that wait -/

theorem countP_eraseIdx_of_get {α : Type} {p : α → Bool} {l : List α} {k : Nat} {q : α} (h : l[k]? = some q) (hq : p q = true) :
    (l.eraseIdx k).countP p + 1 = l.countP p := by
  induction l generalizing k with
  | nil => simp at h
  | cons x r ih =>
    cases k with
    | zero =>
      obtain rfl : x = q := by simpa using h
      simp [hq]
    | succ k =>
      have := ih (k := k) (by simpa using h)
      simp only [List.eraseIdx_cons_succ, List.countP_cons]
      omega

theorem countP_setAt_of_get {α : Type} {p : α → Bool} {l : List α} {k : Nat} {q v : α} (h : l[k]? = some q) (hq : p q = true)
    (hv : p v = false) : (setAt l k v).countP p + 1 = l.countP p := by
  induction l generalizing k with
  | nil => simp at h
  | cons x r ih =>
    cases k with
    | zero =>
      obtain rfl : x = q := by simpa using h
      simp [setAt, hq, hv]
    | succ k =>
      have := ih (k := k) (by simpa using h)
      simp only [setAt, List.countP_cons]
      omega

/-- The store that a drain takes next is in the queue at its place, unsent, and meets the test. -/
theorem Slot.nextStore_some {x : Slot} {f : StoreReq → Bool} {q : StoreReq} {k : Nat} (h : x.nextStore f = some (q, k)) :
    x.sq[k]? = some q ∧ (q.sent.isNone && f q) = true := by
  refine ⟨?_, List.find?_some (p := fun e : StoreReq × Nat => e.1.sent.isNone && f e.1) h⟩
  have hmem := List.mem_of_find?_eq_some h
  exact List.mk_mem_zipIdx_iff_getElem?.mp hmem

theorem Slot.nextStore_none {x : Slot} {f : StoreReq → Bool} (h : x.nextStore f = none) : ∀ q ∈ x.sq, (q.sent.isNone && f q) = false := by
  intro q hq
  obtain ⟨k, hk⟩ := List.getElem?_of_mem hq
  have := List.find?_eq_none.mp h (q, k) (List.mk_mem_zipIdx_iff_getElem?.mpr hk)
  simpa using this

theorem State.SlotsLearn.sq {s t : State} (h : s.SlotsLearn t) (j : SlotId) : (t.slotOf j).sq = (s.slotOf j).sq := by
  obtain ⟨ls, hl⟩ := h j
  rw [hl]
  exact List.foldlRecOn ls Slot.noted (motive := fun x : Slot => x.sq = (s.slotOf j).sq) rfl fun _ hx _ _ => hx

/-! ### A store that is performed, sent or refused leaves those that wait -/

/-- From s to t the store at place k of a slot's queue has left it, or has been sent; the current slot, the slot's task and the canonical
form are kept. -/
structure State.Performs (s t : State) (i : SlotId) (k : Nat) (q : StoreReq) : Prop where
  canonical : s.Canonical → t.Canonical
  cur : t.cur = s.cur
  task : (t.slotOf i).task = (s.slotOf i).task
  sq : (t.slotOf i).sq = (s.slotOf i).sq.eraseIdx k ∨ ∃ tag, (t.slotOf i).sq = setAt (s.slotOf i).sq k { q with sent := some tag }

theorem State.SlotsLearn.task {s t : State} (h : s.SlotsLearn t) (j : SlotId) : (t.slotOf j).task = (s.slotOf j).task := by
  obtain ⟨ls, hl⟩ := h j
  rw [hl]
  exact List.foldlRecOn ls Slot.noted (motive := fun x : Slot => x.task = (s.slotOf j).task) rfl fun _ hx _ _ => hx

section
variable {s t : State} {i : SlotId} {k : Nat} {q : StoreReq}

theorem State.Performs.of_drop (h : (s.mapSlot i fun x => x.dropStore k).Moves t) : s.Performs t i k q :=
  ⟨h.canonical, h.cur, by rw [h.learn.task, State.slotOf_mapSlot_self]; rfl, .inl (by rw [h.learn.sq, State.slotOf_mapSlot_self]; rfl)⟩

theorem State.Performs.of_sent {tag : Nat} (h : (s.mapSlot i fun x => x.sentStore k q tag).Moves t) : s.Performs t i k q :=
  ⟨h.canonical, h.cur, by rw [h.learn.task, State.slotOf_mapSlot_self]; rfl, .inr ⟨tag, by rw [h.learn.sq, State.slotOf_mapSlot_self]; rfl⟩⟩

theorem State.performs_performStore (h : s.performStore i k q = .ok t) : s.Performs t i k q := by
  unfold State.performStore at h
  simp only at h
  split at h
  next g n hloc =>
    split at h
    next => cases h
    next v _ =>
      obtain rfl := Except.ok.inj h
      exact .of_drop (((State.Moves.storeErrors _ g n).trans (.segPut _ g n v)).trans (.writtenBy _ _ _ _))
  next d n hloc =>
    split at h
    next =>
      obtain rfl := Except.ok.inj h
      exact .of_drop (.lostWrite _ i _)
    next =>
      obtain rfl := Except.ok.inj h
      exact .of_sent ((State.Moves.sendStore _ i d _ _ _ _).trans (.keepStored _ _ _ _))
  next n hloc =>
    split at h
    next =>
      split at h
      next => cases h
      next v _ =>
        obtain rfl := Except.ok.inj h
        exact .of_drop ((((State.Moves.l1Fill _ i.core _ _ _).trans (.l1Errors _ i.core _ n)).trans (.l1Store _ i.core _ _ n v)).trans
          (.keepStored _ _ _ _))
    next =>
      split at h
      next => cases h
      next v _ =>
        obtain rfl := Except.ok.inj h
        exact .of_drop (((((State.Moves.evictLine _ i.core _).trans (.corrected _ i.core _ n)).trans (.homePut _ _ _ _ n v)).trans
          (.writtenBy _ _ _ _)).trans (.noteWake _ _ _ _))

theorem State.Moves.storeSite (s : State) (i : SlotId) (q : StoreReq) : s.Moves (s.storeSite i q) := by
  unfold State.storeSite
  simp only
  split
  next g n _ => exact storeErrors s g n
  next n _ =>
    split
    next => exact l1Errors s i.core _ n
    next => exact corrected s i.core _ n
  next => exact refl s

theorem State.Moves.logConsumed (s : State) (i : SlotId) (inj : Bool) (cause : BitVec 8) (eng seq : Nat) :
    s.Moves (s.logConsumed i inj cause eng seq) := by
  unfold State.logConsumed
  split
  next => exact refl s
  next => exact logError s _ _ _

theorem State.performs_failStore {e : StoreFault} (h : q.later = true) : s.Performs (s.failStore i k q e) i k q := by
  have hsite := State.Moves.storeSite s i q
  have hlog := State.Moves.logConsumed ((s.storeSite i q).mapSlot i fun x => x.dropStore k) i e.inj e.cause 0 0
  unfold State.failStore State.storeFails
  simp only [h, Bool.true_eq_false, if_false]
  refine ⟨fun c => hlog.canonical (hsite.canonical c), hlog.cur.trans hsite.cur, ?_, .inl ?_⟩
  · rw [State.slotOf_mapSlot_self]
    show (State.slotOf _ i).task = _
    rw [hlog.learn.task, State.slotOf_mapSlot_self]
    exact hsite.learn.task i
  · rw [State.slotOf_mapSlot_self]
    show (State.slotOf _ i).sq = _
    rw [hlog.learn.sq, State.slotOf_mapSlot_self]
    show ((s.storeSite i q).slotOf i).sq.eraseIdx k = _
    rw [hsite.learn.sq]

end

section
variable {s t : State} {i : SlotId} {k : Nat} {q : StoreReq} (h : s.Performs t i k q)
include h

theorem State.Performs.count {p : StoreReq → Bool} (hk : (s.slotOf i).sq[k]? = some q) (hq : p q = true)
    (hsent : ∀ tag, p { q with sent := some tag } = false) : (t.slotOf i).sq.countP p + 1 = (s.slotOf i).sq.countP p := by
  rcases h.sq with hsq | ⟨tag, hsq⟩
  · rw [hsq]
    exact countP_eraseIdx_of_get hk hq
  · rw [hsq]
    exact countP_setAt_of_get hk hq (hsent tag)

end

/-- A drain that comes to its end leaves no store that meets the test and has not been sent. -/
theorem State.drainQueue_done {s t : State} {i : SlotId} {f : StoreReq → Bool} {n : Nat}
    (h : s.drainQueue i f n = (t, .done))
    (hn : (s.slotOf i).sq.countP (fun q => q.sent.isNone && f q) ≤ n) :
    t.cur = s.cur ∧ ∀ q ∈ (t.slotOf i).sq, (q.sent.isNone && f q) = false := by
  induction n generalizing s with
  | zero =>
    obtain rfl : s = t := congrArg Prod.fst h
    refine ⟨rfl, fun q hq => ?_⟩
    have := List.countP_eq_zero.mp (Nat.le_zero.mp hn) q hq
    simpa using this
  | succ n ih =>
    rw [State.drainQueue] at h
    split at h
    next hnone =>
      obtain rfl : s = t := congrArg Prod.fst h
      exact ⟨rfl, Slot.nextStore_none hnone⟩
    next q k hsome =>
      obtain ⟨hk, hq⟩ := Slot.nextStore_some hsome
      have hstep {u : State} (hu : s.Performs u i k q) (h : u.drainQueue i f n = (t, .done)) :
          t.cur = s.cur ∧ ∀ q ∈ (t.slotOf i).sq, (q.sent.isNone && f q) = false := by
        have hcount := hu.count (p := fun q => q.sent.isNone && f q) hk hq fun tag => rfl
        obtain ⟨hcur, hall⟩ := ih h (by omega)
        exact ⟨hcur.trans hu.cur, hall⟩
      split at h
      next => cases h
      next u hu => exact hstep (State.performs_performStore hu) h
      next e _ =>
        split at h
        next hlater => exact hstep (State.performs_failStore hlater) h
        next => cases h

/-! ### What a release leaves -/

theorem drainOp_ok {s t : State} (h : drainOp s = .ok ((), t)) : t.cur = s.cur ∧ ∀ q ∈ t.me.sq, q.sent ≠ none := by
  have hdrain : s.drainQueue s.cur (fun _ => true) s.me.sq.length = (t, .done) := by
    unfold drainOp drainFor at h
    split at h
    next u hu =>
      cases h
      exact hu
    next => cases h
    next => cases h
  obtain ⟨hcur, hall⟩ := State.drainQueue_done hdrain List.countP_le_length
  refine ⟨hcur, fun q hq hnone => ?_⟩
  rw [State.me, hcur] at hq
  have := hall q hq
  simp [hnone] at this

/-- What no drain of a dirty FIFO touches: the requests to other devices. -/
theorem State.remotes_writeBackLine (s : State) (c : Fin 256) (n : Nat) : (s.writeBackLine c n).pkg.remotes = s.pkg.remotes := by
  unfold State.writeBackLine
  split
  next => rfl
  next l _ =>
    obtain ⟨_, _, hpkg⟩ := (State.HomeFrame.writeBackGrans s c l 0 l.grans).pkg
    show (s.writeBackGrans c l 0 l.grans).pkg.remotes = _
    rw [hpkg]

theorem State.fifo_writeBackLine_eq (s : State) (c : Fin 256) (n : Nat) :
    ((s.writeBackLine c n).coreOf c).fifo = (s.coreOf c).fifo.filter (· != n) := by
  cases hl : s.l1Line c n with
  | none => simp only [State.writeBackLine, hl, State.coreOf_mapCore, if_true]
  | some l => rw [State.coreOf_writeBackLine hl]

theorem State.remotes_drainLines (s : State) (c : Fin 256) (l : List Nat) : (s.drainLines c l).pkg.remotes = s.pkg.remotes := by
  induction l generalizing s with
  | nil => rfl
  | cons n r ih => exact (ih _).trans (s.remotes_writeBackLine c n)

theorem State.fifo_drainLines (s : State) (c : Fin 256) (l : List Nat) :
    ((s.drainLines c l).coreOf c).fifo = (s.coreOf c).fifo.filter fun n => !l.contains n := by
  induction l generalizing s with
  | nil => simp [State.drainLines]
  | cons n r ih =>
    rw [State.drainLines, ih, State.fifo_writeBackLine_eq, List.filter_filter]
    congr 1
    funext m
    rw [List.contains_cons, Bool.not_or, Bool.and_comm]
    rfl

/-- A drained FIFO is empty (R183). -/
theorem State.fifo_drainFifo (s : State) (c : Fin 256) : ((s.drainFifo c).coreOf c).fifo = [] := by
  rw [State.drainFifo, State.fifo_drainLines, List.filter_eq_nil_iff]
  intro n hn
  simp [hn]

theorem State.unanswered_congr {s t : State} (h : t.pkg.remotes = s.pkg.remotes) (i : SlotId) : t.unanswered i = s.unanswered i := by
  rw [State.unanswered, State.unanswered, h]

/-- R210: what a release does, step by step. -/
theorem releaseOp_ok {s t : State} {c : Nat} (h : releaseOp c s = .ok ((), t)) :
    ∃ u, drainOp s = .ok ((), u) ∧ u.unanswered u.cur = none ∧ t = if c ≥ 1 then u.drainFifo u.cur.core else u := by
  unfold releaseOp at h
  cases hdrain : drainOp s with
  | error e =>
    rw [Op.bind_error hdrain] at h
    cases h
  | ok r =>
    obtain ⟨⟨⟩, u⟩ := r
    rw [Op.bind_ok hdrain] at h
    refine ⟨u, rfl, ?_⟩
    simp only [Op.bind_apply, Op.get_apply] at h
    cases hreq : u.unanswered u.cur with
    | some r => simp [hreq] at h
    | none =>
      refine ⟨rfl, ?_⟩
      simp only [hreq] at h
      split at h
      next hc =>
        rw [if_pos hc]
        simp only [Op.bind_apply, Op.get_apply] at h
        cases hlock : (u.lockedDirty u.cur.core).or (u.heldLine u.cur.core) with
        | some l => simp [hlock] at h
        | none => simpa [hlock] using h.symm
      next hc =>
        rw [if_neg hc]
        simpa using h.symm

theorem releaseOp_leaves {s t : State} {c : Nat} (h : releaseOp c s = .ok ((), t)) :
    t.cur = s.cur ∧ (∀ q ∈ t.me.sq, q.sent ≠ none) ∧ t.unanswered t.cur = none ∧ (1 ≤ c → (t.coreOf t.cur.core).fifo = []) := by
  obtain ⟨u, hdrain, hreq, rfl⟩ := releaseOp_ok h
  obtain ⟨hcur, hsent⟩ := drainOp_ok hdrain
  split
  next hc =>
    have hm := State.Moves.drainFifo u u.cur.core
    refine ⟨hm.cur.trans hcur, fun q hq => ?_, ?_, fun _ => ?_⟩
    · rw [State.me, hm.cur, hm.learn.sq] at hq
      exact hsent q hq
    · rw [hm.cur, State.drainFifo, State.unanswered_congr (u.remotes_drainLines _ _), hreq]
    · rw [hm.cur, State.fifo_drainFifo]
  next hc => exact ⟨hcur, hsent, hreq, fun h1 => absurd h1 hc⟩

/-! ### What an acquire leaves -/

theorem filter_updFirst_of_line (n : Nat) (l : List L1Line) :
    (updFirst (·.line == n) L1Line.cleaned l).filter (·.line != n) = l.filter (·.line != n) := by
  induction l with
  | nil => rfl
  | cons x r ih =>
    by_cases hx : x.line = n
    · simp [updFirst, hx, L1Line.cleaned]
    · simp [updFirst, hx, ih]

theorem State.l1_evictLine (s : State) (c : Fin 256) (n : Nat) :
    ((s.evictLine c n).coreOf c).l1 = (s.coreOf c).l1.filter (·.line != n) := by
  rw [State.evictLine, State.dropLine, State.coreOf_mapCore, if_pos rfl]
  cases hl : s.l1Line c n with
  | none => simp only [State.writeBackLine, hl, State.coreOf_mapCore, if_true]
  | some l =>
    rw [State.coreOf_writeBackLine hl]
    exact filter_updFirst_of_line n _

theorem State.l1_evictSome (s : State) (c : Fin 256) (ls : List Nat) :
    ((s.evictSome c ls).coreOf c).l1 = (s.coreOf c).l1.filter fun l => !ls.contains l.line := by
  induction ls generalizing s with
  | nil => simp [State.evictSome]
  | cons n r ih =>
    rw [State.evictSome, ih, State.l1_evictLine, List.filter_filter]
    congr 1
    funext l
    rw [List.contains_cons, Bool.not_or, Bool.and_comm]
    rfl

/-- R210, R212: no clean granule outlives an acquire beyond the core. -/
theorem State.dirty_dropClean (s : State) (c : Fin 256) : ∀ l ∈ ((s.dropClean c).coreOf c).l1, ∀ x ∈ l.grans, x.dirty = true := by
  intro l hl x hx
  have hl1 : ((s.dropClean c).coreOf c).l1 = (((s.evictSome c (s.mixedLines c)).coreOf c).l1).filter fun l => !l.grans.all fun x => !x.dirty := by
    have hcore : (s.dropClean c).coreOf c = ((s.evictSome c (s.mixedLines c)).mapCore c fun k =>
        { k with l1 := k.l1.filter fun l => !l.grans.all fun x => !x.dirty }).coreOf c := rfl
    rw [hcore, State.coreOf_mapCore, if_pos rfl]
  rw [hl1, State.l1_evictSome, List.mem_filter, List.mem_filter] at hl
  obtain ⟨⟨hmem, hkept⟩, hdirty⟩ := hl
  by_contra hclean
  have hmixed : l.line ∈ s.mixedLines c := by
    refine List.mem_map_of_mem (List.mem_filter.mpr ⟨hmem, ?_⟩)
    have hsome : l.grans.any (·.dirty) = true := by simpa using hdirty
    have hnot : (l.grans.any fun x => !x.dirty) = true := List.any_eq_true.mpr ⟨x, hx, by simpa using hclean⟩
    rw [hsome, hnot, Bool.and_self]
  simp [hmixed] at hkept

theorem State.dirty_acquire (s : State) {c : Nat} (hc : 1 ≤ c) (n : Nat) :
    ∀ l ∈ ((s.acquire s.cur c n).coreOf s.cur.core).l1, ∀ x ∈ l.grans, x.dirty = true := by
  unfold State.acquire
  rw [if_pos hc]
  exact s.dirty_dropClean s.cur.core

/-! ### MARK and the fences -/

section
variable {s u : State} (htx : s.me.tx = none)
include htx

/-- R225: MARK has both queue effects within the core. -/
theorem exec_mark (h : releaseOp 0 s = .ok ((), u)) : exec .mark s = .next (u.setMe (u.me.loadsFrom u.now)).retire := by
  have e : exec .mark s = execMark s := rfl
  rw [e, execMark, runOp_ok]
  rw [Op.bind_ok (noTx_closed htx), Op.bind_ok h]
  rfl

theorem exec_fenceRel (c : Fin 8) (h : releaseOp c.val s = .ok ((), u)) :
    exec (.fenceRel c) s = .next (u.setMe (u.me.loadsFrom u.now)).retire := by
  have e : exec (.fenceRel c) s = execFenceRel c s := rfl
  rw [e, execFenceRel, runOp_ok]
  rw [Op.bind_ok (noTx_closed htx), Op.bind_ok h]
  rfl

theorem exec_fenceAcq (c : Fin 8) : exec (.fenceAcq c) s = .next (s.acquire s.cur c.val s.me.latestBind).retire := by
  have e : exec (.fenceAcq c) s = execFenceAcq c s := rfl
  rw [e, execFenceAcq, runOp_ok]
  rw [Op.bind_ok (noTx_closed htx)]
  rfl

theorem exec_fenceAr (c : Fin 8) (h : releaseOp c.val s = .ok ((), u)) :
    exec (.fenceAr c) s = .next (u.acquire u.cur c.val u.now).retire := by
  have e : exec (.fenceAr c) s = execFenceAr c s := rfl
  rw [e, execFenceAr, runOp_ok]
  rw [Op.bind_ok (noTx_closed htx), Op.bind_ok h]
  rfl

end

theorem releaseOp_core {s u : State} (h : drainOp s = .ok ((), u)) (hreq : u.unanswered u.cur = none) : releaseOp 0 s = .ok ((), u) := by
  rw [releaseOp, Op.bind_ok h]
  simp [hreq]

/-- Settles O12. -/
theorem fencesComplete : Obligations.FencesComplete := by
  unfold Obligations.FencesComplete
  refine ⟨fun s u c htx => ⟨fun hd hr => exec_mark htx (releaseOp_core hd hr), exec_fenceRel htx c, exec_fenceAcq htx c, exec_fenceAr htx c⟩,
    fun s t c n => ⟨releaseOp_leaves, fun hc => s.dirty_acquire hc n⟩⟩

end Sys2Proof.Machine
end

section
/-! PROOF. Accesses of the control core: where they go, what their home answers (01 R16; 08 R166, R199; 09 R207), and O11, the
atomics (10 R224). -/

namespace Sys2Proof.Machine

/-! ### Where an access goes -/

section
variable {s t : State} {p : Word} {n va w off : Nat} {acc : Access} {g : Page} {i : SegId}

theorem locate_glob (hd : s.decodePtr s.cur p n = .ok (.glob w va))
    (ht : s.translate s.cur.core (s.partNo s.cur.core) (s.rootOf s.cur) va acc = .ok g) :
    locate p n acc s = .ok (if g.rem then .remote g.dev g.pa g.use.dlog else .mem w g.pa g.use,
      s.tlbNote s.cur.core (s.partNo s.cur.core) (s.rootOf s.cur) va g) := by
  simp only [locate, Op.bind_apply, Op.get_apply, hd, pageOp, ht, Op.pure_apply]

theorem locate_mem (hd : s.decodePtr s.cur p n = .ok (.glob w va))
    (ht : s.translate s.cur.core (s.partNo s.cur.core) (s.rootOf s.cur) va acc = .ok g) (hr : g.rem = false) :
    locate p n acc s = .ok (.mem w g.pa g.use, s.tlbNote s.cur.core (s.partNo s.cur.core) (s.rootOf s.cur) va g) := by
  rw [locate_glob hd ht, hr, if_neg Bool.false_ne_true]

theorem locate_remote (hd : s.decodePtr s.cur p n = .ok (.glob w va))
    (ht : s.translate s.cur.core (s.partNo s.cur.core) (s.rootOf s.cur) va acc = .ok g) (hr : g.rem = true) :
    locate p n acc s = .ok (.remote g.dev g.pa g.use.dlog, s.tlbNote s.cur.core (s.partNo s.cur.core) (s.rootOf s.cur) va g) := by
  rw [locate_glob hd ht, hr, if_pos rfl]

theorem locate_seg (hd : s.decodePtr s.cur p n = .ok (.seg i off))
    (ha : s.admitSet s.cur (.control s.cur) [i] [p] (tinfo2 n acc) false = .go t) :
    locate p n acc s = .ok (.seg i off, t) := by
  simp only [locate, Op.bind_apply, Op.get_apply, hd, admitOp, ha, Op.pure_apply]

end

/-! ### The home of a granule -/

theorem unlockedOp_ok {s : State} {l : Loc} (h : s.isLocked l = false) : unlockedOp l s = .ok ((), s) := by
  simp [unlockedOp, h]

/-- Without queued stores there is nothing to drain. -/
theorem drainFor_empty {s : State} (f : StoreReq → Bool) (h : s.me.sq = []) : drainFor f s = .ok ((), s) := by
  rw [drainFor, h]
  rfl

theorem drainHome_empty {s : State} (l : Loc) (h : s.me.sq = []) : drainHome l s = .ok ((), s) := drainFor_empty _ h

/-- A slot has bound at a home now. -/
def State.boundNow (s : State) (l : Loc) : State := s.setMe (s.me.bound (s.homeOf l) s.now)

/-- A granule of memory as it is at its home, after the line has left the L1. -/
theorem homeOp_mem {s : State} {w pa : Nat} {u : PageUse} (rop : RemoteOp) (hb : s.blockPending s.cur.core (pa / 32 / 4) = false)
    (hl : s.isLocked (.phys (pa / 32)) = false) :
    let y := ((s.evictLine s.cur.core (pa / 32 / 4)).corrected s.cur.core u.part (pa / 32)).boundNow (.phys (pa / 32))
    homeOp (.mem w pa u) rop s = .ok (y.homeGran u.part u.key (pa / 32), y) := by
  simp only [homeOp, Target.loc]
  rw [Op.bind_ok (unlockedOp_ok hl)]
  simp only [Op.bind_apply, Op.get_apply, hb, Bool.false_eq_true, if_false, Op.set_apply, Op.modify_apply, Op.pure_apply]
  rfl

theorem homeOp_seg {s : State} {i : SegId} {off : Nat} (rop : RemoteOp) (hl : s.isLocked (.seg i (off / 32)) = false) :
    homeOp (.seg i off) rop s = .ok (s.segGran i (off / 32),
      (s.storeErrors i (off / 32)).setMe (s.me.bound (s.homeOf (.seg i (off / 32))) s.now)) := by
  simp only [homeOp, Target.loc]
  rw [Op.bind_ok (unlockedOp_ok hl)]
  rfl

/-! ### The end of an atomic (R191, R224) -/

theorem Op.bind_congr {α β : Type} (m : Op α) {f g : α → Op β} (h : ∀ a, f a = g a) (s : State) : (m >>= f) s = (m >>= g) s := by
  rw [funext h]

/-- An atomic on a granule that its home has given. -/
def atomicAt (p b : Word) (f : Word → Word → Option Word) (t : Target) (g : Granule) : Op Word :=
  match checkGran g with
  | some (c, e) => atomTrap g p c e 1
  | none => do
    let old := takeAt g.data t.off 8
    let v ← operandOp b p
    match f v old with
    | none => pure ()
    | some w => modify fun s => s.putHome t (mkGran (mergeBytes g.data (placeAt w t.off) (byteMask t.off 8)))
    pure old

section
variable {s t y : State} {p b : Word} {f : Word → Word → Option Word} {rop : Word → BitVec 32 → RemoteOp} {x : Granule}

theorem atomicOp_mem {w pa : Nat} {u : PageUse} (hloc : locate p 8 .atomic s = .ok (.mem w pa u, t)) (hsq : t.me.sq = [])
    (hhome : homeOp (.mem w pa u) .read t = .ok (x, y)) : atomicOp p b f rop s = atomicAt p b f (.mem w pa u) x y := by
  rw [atomicOp, Op.bind_ok hloc, Op.bind_ok (drainHome_empty _ hsq)]
  refine (Op.bind_ok hhome).trans ?_
  cases hx : checkGran x with
  | some e => simp only [atomicAt, hx]
  | none =>
    simp only [atomicAt, hx] <;> exact Op.bind_congr _ (fun v => by cases f v _ <;> rfl) y

theorem atomicOp_seg {i : SegId} {off : Nat} (hloc : locate p 8 .atomic s = .ok (.seg i off, t)) (hsq : t.me.sq = [])
    (hhome : homeOp (.seg i off) .read t = .ok (x, y)) : atomicOp p b f rop s = atomicAt p b f (.seg i off) x y := by
  rw [atomicOp, Op.bind_ok hloc, Op.bind_ok (drainHome_empty _ hsq)]
  refine (Op.bind_ok hhome).trans ?_
  cases hx : checkGran x with
  | some e => simp only [atomicAt, hx]
  | none =>
    simp only [atomicAt, hx] <;> exact Op.bind_congr _ (fun v => by cases f v _ <;> rfl) y

end

section
variable {y : State} {x : Granule} (p b : Word) (f : Word → Word → Option Word) (t : Target)

theorem atomicAt_badGranule {c : BitVec 8} {e : Word} (h : checkGran x = some (c, e)) :
    atomicAt p b f t x y = .error (.become (y.consumedMe x.inj ⟨c, p &&& ~~~(31 : Word), e, tinfo2 8 .atomic, 1⟩)) := by
  simp only [atomicAt, h]
  rfl

variable (h : checkGran x = none)
include h

theorem atomicAt_badOperand {g : StoreFault}
    (ho : operandFault (natBytes 8 (b ^^^ y.strike).toNat) (some (crc32c (natBytes 8 b.toNat))) = some g) :
    atomicAt p b f t x y =
      .error (.become ({ y with strike := 0 }.trapMe ⟨0x0C, p &&& ~~~(31 : Word), g.t1, tinfo2 8 .atomic, 2⟩)) := by
  have hg : g.cause = 0x0C ∧ g.code = 2 := by
    unfold operandFault at ho
    simp only at ho
    split at ho
    · cases ho
    · cases ho
      exact ⟨rfl, rfl⟩
  obtain ⟨hcause, hcode⟩ := hg
  simp only [atomicAt, h, Op.bind_apply, operandOp, ho, hcause, hcode]
  rfl

variable (ho : operandFault (natBytes 8 (b ^^^ y.strike).toNat) (some (crc32c (natBytes 8 b.toNat))) = none)
include ho

theorem atomicAt_keeps (hf : f (b ^^^ y.strike) (takeAt x.data t.off 8) = none) :
    atomicAt p b f t x y = .ok (takeAt x.data t.off 8, { y with strike := 0 }) := by
  simp only [atomicAt, h, Op.bind_apply, operandOp, ho, hf, Op.pure_apply]

theorem atomicAt_writes {w : Word} (hf : f (b ^^^ y.strike) (takeAt x.data t.off 8) = some w) :
    atomicAt p b f t x y = .ok (takeAt x.data t.off 8,
      { y with strike := 0 }.putHome t (mkGran (mergeBytes x.data (placeAt w t.off) (byteMask t.off 8)))) := by
  simp only [atomicAt, h, Op.bind_apply, operandOp, ho, hf, Op.pure_apply, Op.modify_apply]

end

/-- What an atomic on a granule of its home, here, comes to: the five ends of R191 and R224. -/
theorem atomicAt_ends {s y : State} {x : Granule} {p b : Word} {f : Word → Word → Option Word} {rop : Word → BitVec 32 → RemoteOp} {t : Target}
    (hat : atomicOp p b f rop s = atomicAt p b f t x y) :
    let old := takeAt x.data t.off 8
    let v := b ^^^ y.strike
    let z := { y with strike := 0 }
    let e := operandFault (natBytes 8 v.toNat) (some (crc32c (natBytes 8 b.toNat)))
    (∀ c e, checkGran x = some (c, e) →
      atomicOp p b f rop s = .error (.become (y.consumedMe x.inj ⟨c, p &&& ~~~(31 : Word), e, tinfo2 8 .atomic, 1⟩))) ∧
    (∀ g, checkGran x = none → e = some g →
      atomicOp p b f rop s = .error (.become (z.trapMe ⟨0x0C, p &&& ~~~(31 : Word), g.t1, tinfo2 8 .atomic, 2⟩))) ∧
    (checkGran x = none → e = none → f v old = none → atomicOp p b f rop s = .ok (old, z)) ∧
    (∀ w, checkGran x = none → e = none → f v old = some w →
      atomicOp p b f rop s = .ok (old, z.putHome t (mkGran (mergeBytes x.data (placeAt w t.off) (byteMask t.off 8))))) ∧
    (y.strike = 0 → v = b ∧ e = none) := by
  intro old v z e
  rw [hat]
  refine ⟨fun c e => atomicAt_badGranule p b f t, fun g hx ho => atomicAt_badOperand p b f t hx ho, atomicAt_keeps p b f t,
    fun w hx ho => atomicAt_writes p b f t hx ho, fun h0 => ?_⟩
  have hv : v = b := by
    show b ^^^ y.strike = b
    rw [h0]
    exact BitVec.xor_zero
  refine ⟨hv, operandFault_none fun c hc => ?_⟩
  rw [hv]
  exact Option.some.inj hc

/-! ### An atomic at the home of another device (R222, R389) -/

section
variable {s t : State} {p b : Word} {f : Word → Word → Option Word} {rop : Word → BitVec 32 → RemoteOp} {dev pa : Nat} {dlog : Bool}
  {e : Nat × Reply} (hloc : locate p 8 .atomic s = .ok (.remote dev pa dlog, t)) (hsq : t.me.sq = [])
  (he : t.me.replies.find? (fun e => e.1 == replyKey dev (pa / 32 * 32) (rop (b ^^^ t.strike) (crc32c (natBytes 8 b.toNat)))) = some e)
include hloc hsq he

/-- The answer is there: it decides. -/
theorem atomicOp_far : atomicOp p b f rop s = (if e.2.code = 2 then
      atomTrap e.2.g p 0x0C (word (bitsOf e.2.g.data 0 64)) 2
    else match checkGran e.2.g with
      | some (c, e1) => atomTrap e.2.g p c e1 1
      | none => pure (takeAt e.2.g.data (pa % 32) 8) : Op Word) (t.boundNow (.far dev 0)) := by
  have hasked : (t.me.replies.any fun e => e.1 == replyKey dev (pa / 32 * 32) (rop (b ^^^ t.strike) (crc32c (natBytes 8 b.toNat)))) = true :=
    List.any_eq_true.mpr ⟨e, List.mem_of_find?_eq_some he,
      List.find?_some (p := fun e : Nat × Reply => e.1 == replyKey dev (pa / 32 * 32) (rop (b ^^^ t.strike) (crc32c (natBytes 8 b.toNat)))) he⟩
  rw [atomicOp, Op.bind_ok hloc, Op.bind_ok (drainHome_empty _ hsq)]
  show farAtomic p b _ dev pa dlog rop t = _
  simp only [farAtomic, Op.bind_apply, Op.get_apply, hasked, Bool.not_true, Bool.false_and, Bool.false_eq_true, if_false, remoteOp, he]
  rfl

end

/-! ### ATOM and CAS -/

/-- Table 3. -/
theorem atomValue_table (v x : Word) :
    atomValue 0 v x = v + x ∧ atomValue 1 v x = v &&& x ∧ atomValue 2 v x = v ||| x ∧ atomValue 3 v x = v ^^^ x ∧
      atomValue 4 v x = BitVec.ofInt 64 (min v.toInt x.toInt) ∧ atomValue 5 v x = BitVec.ofInt 64 (max v.toInt x.toInt) ∧
      atomValue 6 v x = BitVec.ofNat 64 (min v.toNat x.toNat) ∧ atomValue 7 v x = BitVec.ofNat 64 (max v.toNat x.toNat) ∧
      atomValue 8 v x = x := by
  have hslt : v.slt x = true ↔ v.toInt < x.toInt := BitVec.slt_iff_toInt_lt
  have hult : v.ult x = true ↔ v.toNat < x.toNat := BitVec.ult_iff_toNat_lt
  refine ⟨rfl, rfl, rfl, rfl, ?_, ?_, ?_, ?_, rfl⟩ <;> simp only [atomValue, hslt, hult] <;> split
  · rw [min_eq_left (by omega), BitVec.ofInt_toInt]
  · rw [min_eq_right (by omega), BitVec.ofInt_toInt]
  · rw [max_eq_right (by omega), BitVec.ofInt_toInt]
  · rw [max_eq_left (by omega), BitVec.ofInt_toInt]
  · rw [min_eq_left (by omega), BitVec.ofNat_toNat, BitVec.setWidth_eq]
  · rw [min_eq_right (by omega), BitVec.ofNat_toNat, BitVec.setWidth_eq]
  · rw [max_eq_right (by omega), BitVec.ofNat_toNat, BitVec.setWidth_eq]
  · rw [max_eq_left (by omega), BitVec.ofNat_toNat, BitVec.setWidth_eq]

section
variable {s t : State} {v : Word} (htx : s.me.tx = none)
include htx

theorem exec_atom_ok (d a b : Fin 32) (sc : Fin 8) (o : Fin 4) (p : Fin 16)
    (h : ordered o sc.val (atomicOp (s.reg a) (s.reg b) (fun x old => some (atomValue p.val old x))
      fun w crc => .atom p (Fin.ofNat 4 (bitsOf (s.reg a) 3 2)) w 0 crc) s = .ok (v, t)) :
    exec (.atom d a b sc o p) s = .next (t.result d v) := by
  have e : exec (.atom d a b sc o p) s = execAtom d a b sc o p s := rfl
  rw [e, execAtom, runOp_ok]
  rw [Op.bind_ok (noTx_closed htx), Op.bind_ok h]
  rfl

theorem exec_cas_ok (d a b : Fin 32) (sc : Fin 8) (o : Fin 4)
    (h : ordered o sc.val (atomicOp (s.reg a) (s.reg b) (fun x old => if old = s.reg d then some x else none)
      fun w crc => .atom 15 (Fin.ofNat 4 (bitsOf (s.reg a) 3 2)) w (s.reg d) crc) s = .ok (v, t)) :
    exec (.cas d a b sc o) s = .next (t.result d v) := by
  have e : exec (.cas d a b sc o) s = execCas d a b sc o s := rfl
  rw [e, execCas, runOp_ok]
  rw [Op.bind_ok (noTx_closed htx), Op.bind_ok h]
  rfl

end

/-- Settles O11. -/
theorem atomicsComplete : Obligations.AtomicsComplete := by
  unfold Obligations.AtomicsComplete
  refine ⟨fun s t d a b sc o p v htx => ⟨exec_atom_ok htx d a b sc o p, exec_cas_ok htx d a b sc o, atomValue_table v (s.reg b)⟩, ?_⟩
  intro s p b f rop hsq ends
  refine ⟨fun va w g hd ht hr => ?_, fun t g off hd ha hsq => ?_, fun va w g e hd ht hr => ?_⟩
  · intro t k hb hl
    exact atomicAt_ends (atomicOp_mem (locate_mem hd ht hr) hsq (homeOp_mem .read hb hl))
  · intro k hl
    exact atomicAt_ends (atomicOp_seg (locate_seg hd ha) hsq (homeOp_seg .read hl))
  · intro t q he a z
    have hat := atomicOp_far (f := f) (locate_remote hd ht hr) hsq he
    refine ⟨fun h2 => ?_, fun c h h2 hg => ?_, fun h2 hg => ⟨z, ?_, rfl⟩⟩
    · rw [hat, if_pos h2]
      rfl
    · rw [hat, if_neg h2, hg]
      rfl
    · rw [hat, if_neg h2, hg]
      rfl

end Sys2Proof.Machine
end

section
/-! PROOF. O15: TXB, TXE and TXA (10 R231 to R235). -/

namespace Sys2Proof.Machine

section
variable {s u v w : State} {d a : Fin 32} {x0 x : Tx}

theorem exec_txb (d : Fin 32) (h : s.me.tx = none) :
    exec (.txb d) s = .next ((s.setMe { s.me with tx := some ⟨nextPc s.pc, d, s.me.active, [], [], false, .idle⟩ }).result d 0) :=
  runOp_ok (Op.bind_ok (noTx_closed h))

theorem exec_txe_closed (d : Fin 32) (h : s.me.tx = none) : exec (.txe d) s = .next (s.result d 3) := by
  have e : exec (.txe d) s = execTxe d s := rfl
  rw [e, execTxe, h]
  exact runOp_ok rfl

/-- Outside a transaction TXA does nothing (R234). -/
theorem exec_txa_closed (a : Fin 32) (h : s.me.tx = none) : exec (.txa a) s = .next s.retire := by
  have e : exec (.txa a) s = execTxa a s := rfl
  rw [e, execTxa, h]
  rfl

theorem exec_txa_open (a : Fin 32) (h : s.me.tx = some x) :
    exec (.txa a) s = .next (s.setMe ((s.me.abortTx 5 (bitsOf (s.reg a) 0 8)).issued s.cycle)) := by
  have e : exec (.txa a) s = execTxa a s := rfl
  rw [e, execTxa, h]
  rfl

/-- A TXE whose granules are all on this device commits here, once its release is done. -/
theorem exec_txe_here (d : Fin 32) (h0 : s.me.tx = some x0) (hidle : x0.commit = .idle) (hrel : releaseOp 5 s = .ok ((), u))
    (hx : u.me.tx = some x) (hhere : ∀ l ∈ u.txLocs x, l.isHere = true) : exec (.txe d) s = runOp (fun _ => txHere d x u) s := by
  have e : exec (.txe d) s = execTxe d s := rfl
  have hall : (u.txLocs x).all Loc.isHere = true := List.all_eq_true.mpr hhere
  rw [e, execTxe, h0]
  unfold runOp
  simp only [hidle, if_true]
  rw [Op.bind_ok hrel, Op.bind_ok (Op.get_apply u)]
  simp only [hx]
  rw [Op.bind_ok (Op.get_apply u), if_pos hall]

/-- Once no other commit holds a granule of it, the lines over a write set leave the L1, and the commit goes on from there. -/
theorem txHere_unlocked (d : Fin 32) (h : ∀ l ∈ u.txLocs x, u.isLocked l = false) :
    txHere d x u = (if (u.evictLocs (u.txLocs x)).me.tx.any (·.conflict) then modify fun s => s.txConflict d
      else txAdmit x.writes >>= fun _ => get >>= fun y => match y.txPrepare x.writes with
        | .error (w, f) => fun s => .error (.become (s.txFails w f))
        | .ok (s2, l) => set (s2.txWriteAll l) >>= fun _ => modify fun s => s.txDone d) (u.evictLocs (u.txLocs x)) := by
  have hnone : (u.txLocs x).find? u.isLocked = none := List.find?_eq_none.mpr fun l hl => by simp [h l hl]
  unfold txHere
  rw [Op.bind_ok (Op.get_apply u), hnone]
  rfl

/-- What a change of every value by its key leaves as it was, a look-up leaves too. -/
theorem tget_map_congr {α β : Type} {g : α → β} {f : Nat × α → Nat × α} (hkey : ∀ e, (f e).1 = e.1) (hval : ∀ e, g (f e).2 = g e.2) (d : α)
    (l : List (Nat × α)) (i : Nat) : g (tget d (l.map f) i) = g (tget d l i) := by
  induction l with
  | nil => rfl
  | cons e r ih =>
    simp only [List.map_cons, tget, hkey] at ih ⊢
    split
    next => exact hval e
    next => exact ih

/-- Clean lines that leave the L1 end no transaction. -/
theorem State.tx_dropClean {i : SlotId} (h : (s.slotOf i).tx = none) (c : Fin 256) : ((s.dropClean c).slotOf i).tx = none := by
  have hevict : ((s.evictSome c (s.mixedLines c)).slotOf i).tx = none := by
    obtain ⟨ls, hl⟩ := (State.Moves.evictSome s c (s.mixedLines c)).learn i
    rw [hl]
    exact List.foldlRecOn ls Slot.noted (motive := fun x : Slot => x.tx = none) h fun x hx _ _ => by rw [Slot.noted, hx]; rfl
  refine (tget_map_congr (g := Slot.tx) (fun e => ?_) (fun e => ?_) Slot.initial _ _).trans hevict
  · split <;> rfl
  · split <;> rfl

theorem State.cur_dropClean (s : State) (c : Fin 256) : (s.dropClean c).cur = s.cur := (State.Moves.evictSome s c (s.mixedLines c)).cur

theorem State.tx_acquire (h : s.me.tx = none) (n : Nat) : (s.acquire s.cur 5 n).me.tx = none := by
  have hclean : (s.acquire s.cur 5 n).me = ((s.dropClean s.cur.core).slotOf s.cur).loadsFrom n := by
    rw [State.acquire, if_pos (by decide), State.me, State.mapSlot_cur, State.cur_dropClean, State.slotOf_mapSlot_self]
  rw [hclean]
  exact State.tx_dropClean h s.cur.core

theorem State.tx_result (h : s.me.tx = none) (d : Fin 32) (v : Word) : (s.result d v).me.tx = none := by
  rw [State.me_result]
  exact (Slot.setActive_tx _ _).trans h

/-- A commit closes the transaction (R235). -/
theorem State.tx_txDone (s : State) (d : Fin 32) : (s.txDone d).me.tx = none :=
  State.tx_result (State.tx_acquire (congrArg Slot.tx (State.me_setMe (s.unlockOf s.cur) _)) _) d 0

end

/-- Settles O15. -/
theorem transactions : Obligations.Transactions := by
  intro s u v w d a x0 x l
  refine ⟨fun h => ⟨exec_txb d h, exec_txe_closed d h, continues_retire (exec_txa_closed a h)⟩, fun h0 hidle hrel hx hhere hfree => ?_, State.tx_txDone v d, fun hx => ?_⟩
  · intro y z
    have hexec := exec_txe_here d h0 hidle hrel hx hhere
    have hrun := txHere_unlocked d hfree
    refine ⟨fun hz => ?_, fun hz hadmit => ⟨fun hok => ?_, fun e f hbad => ?_⟩⟩
    · rw [if_pos hz] at hrun
      exact hexec.trans (runOp_ok hrun)
    · rw [if_neg (ne_true_of_eq_false hz), Op.bind_ok hadmit, Op.bind_ok (Op.get_apply w), hok] at hrun
      exact hexec.trans (runOp_ok hrun)
    · rw [if_neg (ne_true_of_eq_false hz), Op.bind_ok hadmit, Op.bind_ok (Op.get_apply w), hbad] at hrun
      exact hexec.trans (runOp_become hrun)
  · obtain ⟨hopen, hpc, hreg, hflags, hrest⟩ := State.aborted_abortTx hx 5 (bitsOf (s.reg a) 0 8)
    have hstatus : txStatus 1 5 (bitsOf (s.reg a) 0 8) = BitVec.ofNat 64 (0x501 + 2 ^ 16 * bitsOf (s.reg a) 0 8) :=
      congrArg (BitVec.ofNat 64) (by omega)
    rw [hstatus] at hreg
    exact ⟨_, exec_txa_open a hx, hopen, hpc, hreg, hflags, hrest⟩

end Sys2Proof.Machine
end

section
/-! PROOF. O8: where a load's granule comes from (01 R16; 08 R166, R182, R195; 09 R207). -/

namespace Sys2Proof.Machine

/-! ### The point at which a load binds (log 96) -/

theorem State.le_bindAt (s : State) (ls : List Loc) (lo : Nat) : lo ≤ (s.bindAt ls lo).1 := by
  have hpoint : ∀ t ∈ s.bindPoints ls lo, lo ≤ t := by
    intro t ht
    rcases List.mem_cons.mp ht with rfl | ht
    · exact Nat.le_refl _
    · obtain ⟨e, he, rfl⟩ := List.mem_map.mp ht
      have hle := (List.mem_filter.mp he).2
      simp only [Bool.and_eq_true, decide_eq_true_eq] at hle
      omega
  unfold State.bindAt
  split
  next t h => exact hpoint t (by rw [h]; exact List.mem_singleton_self t)
  next =>
    rw [List.getD_eq_getElem?_getD]
    cases hk : (s.bindPoints ls lo)[(Config.freeValue s.free).toNat % (s.bindPoints ls lo).length]? with
    | none => exact Nat.le_refl lo
    | some t => exact hpoint t (List.mem_of_getElem? hk)

/-- Binding draws at most a free value. -/
theorem State.bindAt_state (s : State) (ls : List Loc) (lo : Nat) : ∃ n, (s.bindAt ls lo).2 = { s with free := n } := by
  unfold State.bindAt
  split
  next => exact ⟨s.free, rfl⟩
  next => exact ⟨s.free + 1, rfl⟩

theorem State.versionAt_cases (s : State) (l : Loc) {lo t : Nat} (h : lo ≤ t) (g : Granule) :
    s.versionAt l t g = g ∨ ∃ e ∈ s.past, e.loc = l ∧ lo ≤ e.cycle ∧ s.versionAt l t g = e.gran := by
  unfold State.versionAt
  split
  next e he =>
    obtain ⟨hpast, hbound⟩ := List.mem_filter.mp (List.mem_of_getLast? he)
    simp only [Bool.and_eq_true, decide_eq_true_eq] at hbound
    exact .inr ⟨e, hpast, hbound.1, Nat.le_trans h hbound.2, rfl⟩
  next => exact .inl rfl

theorem State.past_logArray (s : State) (die : Nat) (p : Fin 16) (c : Fin 256) (site : Nat) (x inj : Bool) (pa : Nat) :
    (s.logArray die p c site x inj pa).past = s.past := rfl

theorem State.past_storeErrors (s : State) (i : SegId) (n : Nat) : (s.storeErrors i n).past = s.past := by
  unfold State.storeErrors
  split
  next => rfl
  next =>
    simp only
    split <;> rfl

/-! ### What a load gives its consumer (R195, R207) -/

theorem overlay_of_elsewhere {l : Loc} {q : List StoreReq} (h : ∀ r ∈ q, r.loc ≠ l) (d : BitVec 256) (m : BitVec 32) :
    overlay q l d m = (d, m) :=
  List.foldlRecOn q _ (motive := fun x => x = (d, m)) rfl fun x hx r hr => by rw [if_neg (h r hr)]; exact hx

/-- A load with no queued store to its granule. -/
def loadEnd (x : Granule) (off size : Nat) (p : Word) : Op Word :=
  match checkGran x with
  | some (c, t) => consumedOp x c (p &&& ~~~(31 : Word)) t (tinfo2 size .load) 0
  | none => pure (takeAt x.data off size)

theorem consume_elsewhere {l : Loc} {q : List StoreReq} (h : ∀ r ∈ q, r.loc ≠ l) (x : Granule) {off size : Nat} (hm : byteMask off size ≠ 0)
    (p : Word) : consume x q l off size p (tinfo2 size .load) = loadEnd x off size p := by
  have hmask : byteMask off size &&& ~~~(0 : BitVec 32) ≠ 0 := by
    rwa [show (~~~(0 : BitVec 32)) = BitVec.allOnes 32 from rfl, BitVec.and_allOnes]
  unfold consume loadEnd
  simp only [overlay_of_elsewhere h, if_neg hmask] <;> rfl

section
variable {s t y : State} {p : Word} {n : Nat} {a : Target} {x : Granule} {strong : Bool}

/-- A load outside a transaction whose slot has no store to the granule in its queue. -/
theorem loadOp_elsewhere (hloc : locate p n .load s = .ok (a, t)) (htx : t.me.tx = none) (hgran : granOp a strong t = .ok (x, y))
    (hsq : ∀ q ∈ y.me.sq, q.loc ≠ a.loc) (hm : byteMask a.off n ≠ 0) : loadOp p n strong s = loadEnd x a.off n p y := by
  rw [loadOp, Op.bind_ok hloc, Op.bind_ok (Op.get_apply t), htx]
  refine (Op.bind_ok hgran).trans ((Op.bind_ok (Op.get_apply y)).trans ?_)
  rw [consume_elsewhere (fun q hq => hsq q (List.mem_filter.mp hq).1) x hm]

theorem loadEnd_ok (off size : Nat) (p : Word) (h : checkGran x = none) : loadEnd x off size p y = .ok (takeAt x.data off size, y) := by
  rw [loadEnd, h]
  rfl

theorem loadEnd_trap (off size : Nat) (p : Word) {c : BitVec 8} {e : Word} (h : checkGran x = some (c, e)) : loadEnd x off size p y =
    .error (.become (y.consumedMe x.inj ⟨c, p &&& ~~~(31 : Word), e, tinfo2 size .load, 0⟩)) := by
  rw [loadEnd, h]
  rfl

end

/-! ### The granule at its home -/

theorem bindOp_ok (l : Loc) (g : Granule) (s : State) :
    bindOp l g s = .ok (s.versionAt l (s.bindAt [l] (s.bindFloor s.cur l)).1 g,
      let b := s.bindAt [l] (s.bindFloor s.cur l)
      b.2.setMe (b.2.me.bound (s.homeOf l) b.1)) := rfl

theorem State.sq_bound (s : State) (ls : List Loc) (lo h : Nat) :
    let b := s.bindAt ls lo
    (b.2.setMe (b.2.me.bound h b.1)).me.sq = s.me.sq := by
  intro b
  obtain ⟨n, hn⟩ := s.bindAt_state ls lo
  rw [State.me_setMe]
  show b.2.me.sq = _
  rw [hn]
  rfl

theorem granOp_seg {s : State} {i : SegId} {off : Nat} (strong : Bool) (hl : s.isLocked (.seg i (off / 32)) = false) :
    granOp (.seg i off) strong s = bindOp (.seg i (off / 32)) (s.segGran i (off / 32)) (s.storeErrors i (off / 32)) := by
  simp only [granOp, Target.loc]
  rw [Op.bind_ok (unlockedOp_ok hl)]
  rfl

section
variable {s : State} {w pa : Nat} {u : PageUse} {strong : Bool} (hb : s.blockPending s.cur.core (pa / 32 / 4) = false)
  (hl : s.isLocked (.phys (pa / 32)) = false)
include hb hl

theorem granOp_home (h : strong = true ∨ w = 2) : granOp (.mem w pa u) strong s =
    let y := (s.evictLine s.cur.core (pa / 32 / 4)).corrected s.cur.core u.part (pa / 32)
    bindOp (.phys (pa / 32)) (y.homeGran u.part u.key (pa / 32)) y := by
  have hno : (!strong && (w == 0 || w == 4 || (w == 1 && (s.l1Line s.cur.core (pa / 32 / 4)).isSome))) = false := by
    rcases h with rfl | rfl <;> simp
  have hyes : (strong || w == 2) = true := by
    rcases h with rfl | rfl <;> simp
  simp only [granOp, Target.loc]
  rw [Op.bind_ok (unlockedOp_ok hl)]
  simp only [Op.bind_apply, Op.get_apply, hb, hno, hyes, Bool.false_eq_true, if_false, if_true, Op.set_apply]

theorem granOp_l1 (hs : strong = false) (hw : w = 0 ∨ w = 4) {f : State} (hfill : fillOp u (pa / 32) s = .ok ((), f)) :
    granOp (.mem w pa u) strong s =
      .ok ((f.l1Errors s.cur.core u.part (pa / 32)).l1Gran s.cur.core (pa / 32), f.l1Errors s.cur.core u.part (pa / 32)) := by
  have hyes : (!strong && (w == 0 || w == 4 || (w == 1 && (s.l1Line s.cur.core (pa / 32 / 4)).isSome))) = true := by
    subst hs
    rcases hw with rfl | rfl <;> simp
  simp only [granOp, Target.loc]
  rw [Op.bind_ok (unlockedOp_ok hl)]
  simp only [Op.bind_apply, Op.get_apply, hb, hyes, Bool.false_eq_true, if_false, if_true, hfill, Op.modify_apply, Op.pure_apply]

end

/-! ### The L1 takes a line (R182) -/

theorem le_foldl_max (l : List Nat) (a : Nat) : ∀ x ∈ a :: l, x ≤ l.foldl max a := by
  induction l generalizing a with
  | nil => simp
  | cons b r ih =>
    intro x hx
    have hfirst : max a b ≤ r.foldl max (max a b) := ih (max a b) _ (List.mem_cons_self ..)
    rcases List.mem_cons.mp hx with rfl | hx
    · exact Nat.le_trans (Nat.le_max_left _ _) hfirst
    rcases List.mem_cons.mp hx with rfl | hx
    · exact Nat.le_trans (Nat.le_max_right _ _) hfirst
    · exact ih (max a b) x (List.mem_cons_of_mem _ hx)

section
variable {s : State} {c : Fin 256} {u : PageUse} {ctx : BitVec 8} {n t : Nat}

theorem State.l1Line_mapCore_cons (s : State) (c : Fin 256) {l : L1Line} {f : List L1Line → List L1Line} (h : l.line = n) :
    (s.mapCore c fun k => { k with l1 := l :: f k.l1 }).l1Line c n = some l := by
  rw [State.l1Line, State.coreOf_mapCore, if_pos rfl, List.find?_cons]
  simp [h]

theorem State.l1FillAt_of_some {l : L1Line} (h : s.l1Line c n = some l) :
    (s.l1FillAt c u ctx n t).mem = s.mem ∧ (s.l1FillAt c u ctx n t).l1Line c n = some l := by
  have hline : l.line = n := by simpa using List.find?_some h
  rw [State.l1FillAt, h]
  exact ⟨rfl, State.l1Line_mapCore_cons s c (f := fun k => k.filter (·.line != n)) hline⟩

theorem State.l1FillAt_of_none (h : s.l1Line c n = none) : ∃ z, (s.l1FillAt c u ctx n t).l1Line c n = some z ∧ z.filled = t := by
  rw [State.l1FillAt, h]
  exact ⟨_, State.l1Line_mapCore_cons _ c (f := id) rfl, rfl⟩

theorem State.fillFloor_le {i : SlotId} (hi : i ∈ slotsOf c) {y : Loc} (hy : y ∈ lineLocs n) : s.bindFloor i y ≤ s.fillFloor c n :=
  le_foldl_max _ _ _ (List.mem_cons_of_mem _ (List.mem_flatMap.mpr ⟨i, hi, List.mem_map_of_mem hy⟩))

theorem State.floors_le_fillFloor : tget 0 (s.coreOf c).floors n ≤ s.fillFloor c n := le_foldl_max _ _ _ (List.mem_cons_self ..)

end

section
variable {s : State} {u : PageUse} {k : Nat}

/-- A line that is present is given as the L1 holds it. -/
theorem fillOp_present {l : L1Line} (h : s.l1Line s.cur.core (k / 4) = some l) : ∃ f, fillOp u k s = .ok ((), f) ∧ f.me.sq = s.me.sq ∧
    f.mem = s.mem ∧ f.l1Line s.cur.core (k / 4) = some l := by
  obtain ⟨hmem, hline⟩ := State.l1FillAt_of_some (u := u) (ctx := s.me.ctx.ctx) (t := s.now) h
  have hrun : ∃ x : Slot, x.sq = s.me.sq ∧ fillOp u k s = .ok ((), (s.l1Fill s.cur.core u s.me.ctx.ctx (k / 4)).setMe x) := by
    simp only [fillOp, Op.bind_apply, Op.get_apply, h, Op.set_apply]
    exact ⟨(s.me.bound _ _).bound _ _, rfl, rfl⟩
  obtain ⟨x, hsq, hrun⟩ := hrun
  exact ⟨_, hrun, by rw [State.me_setMe, hsq], hmem, hline⟩

/-- One that is not is filled as it was at a point after every floor of the slots of its core. -/
theorem fillOp_absent (h : s.l1Line s.cur.core (k / 4) = none) (hfree : ∀ y ∈ lineLocs (k / 4), s.isLocked y = false) :
    ∃ f z, fillOp u k s = .ok ((), f) ∧ f.me.sq = s.me.sq ∧ f.l1Line s.cur.core (k / 4) = some z ∧ s.fillFloor s.cur.core (k / 4) ≤ z.filled := by
  have hnone : (lineLocs (k / 4)).find? s.isLocked = none := List.find?_eq_none.mpr fun y hy => by simp [hfree y hy]
  have hpoint := s.le_bindAt (lineLocs (k / 4)) (s.fillFloor s.cur.core (k / 4))
  obtain ⟨m, hm⟩ := s.bindAt_state (lineLocs (k / 4)) (s.fillFloor s.cur.core (k / 4))
  generalize hb : s.bindAt (lineLocs (k / 4)) (s.fillFloor s.cur.core (k / 4)) = b at hpoint hm
  have hline : b.2.l1Line s.cur.core (k / 4) = none := by rw [hm]; exact h
  obtain ⟨z, hz, hfilled⟩ := State.l1FillAt_of_none (u := u) (ctx := s.me.ctx.ctx) (t := b.1) hline
  have hmoves := State.Moves.l1FillAt b.2 s.cur.core u s.me.ctx.ctx (k / 4) b.1
  generalize hf : b.2.l1FillAt s.cur.core u s.me.ctx.ctx (k / 4) b.1 = f at hz hmoves
  refine ⟨f.setMe (f.me.bound (s.homeOf (.phys k)) b.1), z, ?_, ?_, hz, by rw [hfilled]; exact hpoint⟩
  · simp only [fillOp, Op.bind_apply, Op.get_apply, h, hnone, Op.set_apply, hb, hf]
  · rw [State.me_setMe]
    show f.me.sq = _
    rw [State.me, hmoves.cur, hmoves.learn.sq, hm]
    rfl

end

/-- Settles O8: a load of a segment binds at its store, one of memory at its home or in the L1. -/
theorem loadedGranule : Obligations.LoadedGranule := by
  unfold Obligations.LoadedGranule
  refine ⟨?_, ?_⟩
  · intro s t p n off g strong _ htx _ hd ha hl hq hm l u b x
    have hmoves := State.Moves.storeErrors t g (off / 32)
    have hsq : u.me.sq = t.me.sq := by
      rw [State.me, State.me, hmoves.cur]
      exact hmoves.learn.sq _
    have hgran : granOp (.seg g off) strong t = .ok (x, b.2.setMe (b.2.me.bound (u.homeOf l) b.1)) :=
      (granOp_seg strong hl).trans (bindOp_ok ..)
    have hload := loadOp_elsewhere (n := n) (locate_seg hd ha) htx hgran
      (fun q hmem => hq q (hsq ▸ (State.sq_bound u [l] (u.bindFloor u.cur l) _).symm ▸ hmem)) hm
    refine ⟨?_, fun hok => hload.trans (loadEnd_ok _ _ _ hok), fun c e hbad => hload.trans (loadEnd_trap _ _ _ hbad)⟩
    have hcases := u.versionAt_cases l (u.le_bindAt [l] (u.bindFloor u.cur l)) (t.segGran g (off / 32))
    rwa [State.past_storeErrors] at hcases
  · intro s p n va w g strong htx hd ht hr hq hm t k l hb hl
    have hloc := locate_mem hd ht hr
    have ht0 : t.me.sq = [] := hq
    refine ⟨fun hw => ?_, fun hs hw hfree => ?_⟩
    · intro u b x
      have hmoves : t.Moves u := (State.Moves.evictLine t t.cur.core (k / 4)).trans (.corrected _ t.cur.core g.use.part k)
      have hcur : u.cur = s.cur := hmoves.cur
      have hsq : u.me.sq = [] := by
        rw [State.me, hmoves.cur]
        exact (hmoves.learn.sq _).trans ht0
      have hgran : granOp (.mem w g.pa g.use) strong t = .ok (x, b.2.setMe (b.2.me.bound (u.homeOf l) b.1)) := by
        refine (granOp_home hb hl hw).trans ?_
        show bindOp l _ u = _
        rw [bindOp_ok, hcur]
        rfl
      have hload := loadOp_elsewhere (n := n) hloc htx hgran
        (fun q hmem => absurd (hsq ▸ (State.sq_bound u [l] (u.bindFloor s.cur l) _) ▸ hmem) (List.not_mem_nil)) hm
      exact ⟨u.versionAt_cases l (u.le_bindAt [l] (u.bindFloor s.cur l)) _, fun hok => hload.trans (loadEnd_ok _ _ _ hok),
        fun c e hbad => hload.trans (loadEnd_trap _ _ _ hbad)⟩
    · have hend : ∀ f, fillOp g.use k t = .ok ((), f) → f.me.sq = t.me.sq →
          let u := f.l1Errors s.cur.core g.use.part k
          let x := u.l1Gran s.cur.core k
          (checkGran x = none → loadOp p n strong s = .ok (takeAt x.data (g.pa % 32) n, u)) ∧
          (∀ c e, checkGran x = some (c, e) →
            loadOp p n strong s = .error (.become (u.consumedMe x.inj ⟨c, p &&& ~~~(31 : Word), e, tinfo2 n .load, 0⟩))) := by
        intro f hfill hf u x
        have hmoves := State.Moves.l1Errors f s.cur.core g.use.part k
        have hsq : u.me.sq = [] := by
          rw [State.me, hmoves.cur]
          exact (hmoves.learn.sq _).trans (hf.trans ht0)
        have hload := loadOp_elsewhere (n := n) hloc htx (granOp_l1 hb hl hs hw hfill) (fun q hmem => absurd (hsq ▸ hmem) List.not_mem_nil) hm
        exact ⟨fun hok => hload.trans (loadEnd_ok _ _ _ hok), fun c e hbad => hload.trans (loadEnd_trap _ _ _ hbad)⟩
      cases hline : t.l1Line s.cur.core (k / 4) with
      | some z =>
        obtain ⟨f, hfill, hf, hmem, hz⟩ := fillOp_present (u := g.use) hline
        exact ⟨f, hfill, fun _ => ⟨hmem, hz⟩, fun h => (Option.some_ne_none z h).elim, hend f hfill hf⟩
      | none =>
        obtain ⟨f, z, hfill, hf, hz, hfloor⟩ := fillOp_absent (u := g.use) hline hfree
        exact ⟨f, hfill, fun h => absurd rfl h,
          fun _ => ⟨z, hz, fun i hi y hy => (State.fillFloor_le hi hy).trans hfloor, State.floors_le_fillFloor.trans hfloor⟩, hend f hfill hf⟩

end Sys2Proof.Machine
end

section
/-! PROOF. O18: SGNEW, SGNEW.CL, SGQUOTA and SGSCHED (10 R238, R243 to R245). -/

namespace Sys2Proof.Machine

/-! ### Sizes and names -/

theorem toNat_word_size {k : Nat} (hk : k ≤ 8) : (word (4096 * 2 ^ k)).toNat = 4096 * 2 ^ k := by
  have : 2 ^ k ≤ 2 ^ 8 := Nat.pow_le_pow_right (by decide) hk
  exact Nat.mod_eq_of_lt (by omega)

theorem sizeK_word : ∀ k < 9, sizeK (word (4096 * 2 ^ k)) = some k := by decide

theorem sizeK_of_size {a : Word} {k : Nat} (h : a.toNat = 4096 * 2 ^ k) (hk : k ≤ 8) : sizeK a = some k := by
  rw [BitVec.eq_of_toNat_eq (h.trans (toNat_word_size hk).symm)]
  exact sizeK_word k (by omega)

theorem sizeK_of_noSize {a : Word} (h : ∀ k ≤ 8, a.toNat ≠ 4096 * 2 ^ k) : sizeK a = none := by
  refine List.find?_eq_none.mpr fun k hk => ?_
  have hle : k ≤ 8 := by simpa [Nat.lt_succ_iff] using hk
  intro heq
  exact h k hle (by rw [eq_of_beq heq, toNat_word_size hle])

section
variable {s : State} {sp : Space}

theorem State.nameUsed_iff (n : Fin 4096) :
    ((s.segs.filter fun g => decide (g.id.space = sp)).map fun g => g.id.name).contains n = true ↔ ∃ g ∈ s.segs, g.id = ⟨sp, n⟩ := by
  simp only [List.contains_iff_mem, List.mem_map, List.mem_filter, decide_eq_true_eq]
  constructor
  · rintro ⟨g, ⟨hg, rfl⟩, rfl⟩
    exact ⟨g, hg, rfl⟩
  · rintro ⟨g, hg, hid⟩
    exact ⟨g, ⟨hg, by rw [hid]⟩, by rw [hid]⟩

theorem State.freeName_some {n : Fin 4096} (h : s.freeName sp = some n) :
    (∀ m < n, ∃ g ∈ s.segs, g.id = ⟨sp, m⟩) ∧ ∀ g ∈ s.segs, g.id ≠ ⟨sp, n⟩ := by
  obtain ⟨hfree, i, hi, hn, hlow⟩ := List.find?_eq_some_iff_getElem.mp h
  have hin : i = n.val := by rw [← hn]; simp
  refine ⟨fun m hm => (State.nameUsed_iff m).mp ?_, fun g hg hid => ?_⟩
  · have := hlow m.val (by rw [hin]; exact hm)
    simpa using this
  · have hused := (State.nameUsed_iff (s := s) n).mpr ⟨g, hg, hid⟩
    simp only [hused, Bool.not_true, Bool.false_eq_true] at hfree

theorem State.freeName_none (h : s.freeName sp = none) (n : Fin 4096) : ∃ g ∈ s.segs, g.id = ⟨sp, n⟩ := by
  refine (State.nameUsed_iff n).mp ?_
  have hused := List.find?_eq_none.mp h n (List.mem_finRange n)
  rwa [Bool.not_eq_true', Bool.not_eq_false] at hused

end

/-! ### Allocation (R238) -/

section
variable {s : State} (htx : s.me.tx = none) (d a : Fin 32) {shared : Bool} {k : Nat} {n : Fin 4096}
include htx

theorem sgnew_allots (hk : sizeK (s.reg a) = some k)
    (hn : s.freeName (if shared then .cluster (clusterOfCore s.cur.core) else .task s.me.ctx.key) = some n) (hq : 2 ^ k ≤ s.me.quota) :
    runOp (sgnewOp d a shared) s = .next ((s.addSeg (s.newSeg s.cur shared n k)).result d (segPtr s.cur shared n)) := by
  refine runOp_ok ((Op.bind_ok (noTx_closed htx)).trans ((Op.bind_ok (Op.get_apply s)).trans ?_))
  simp only [hk, hn, Nat.not_lt.mpr hq, if_false, Op.modify_apply]

theorem sgnew_overQuota (hk : sizeK (s.reg a) = some k) (hq : s.me.quota < 2 ^ k) :
    runOp (sgnewOp d a shared) s = .next (s.result d 3) := by
  refine runOp_ok ((Op.bind_ok (noTx_closed htx)).trans ((Op.bind_ok (Op.get_apply s)).trans ?_))
  simp only [hk]
  cases s.freeName (if shared then .cluster (clusterOfCore s.cur.core) else .task s.me.ctx.key) with
  | none => rfl
  | some n => simp only [gt_iff_lt, hq, if_true]; rfl

theorem sgnew_noSize (hk : sizeK (s.reg a) = none) : runOp (sgnewOp d a shared) s = .next (s.result d 3) := by
  refine runOp_ok ((Op.bind_ok (noTx_closed htx)).trans ((Op.bind_ok (Op.get_apply s)).trans ?_))
  simp only [hk]
  rfl

theorem sgnew_noName (hn : s.freeName (if shared then .cluster (clusterOfCore s.cur.core) else .task s.me.ctx.key) = none) :
    runOp (sgnewOp d a shared) s = .next (s.result d 3) := by
  refine runOp_ok ((Op.bind_ok (noTx_closed htx)).trans ((Op.bind_ok (Op.get_apply s)).trans ?_))
  simp only [hn]
  cases sizeK (s.reg a) <;> rfl

end

/-! ### Quotas (R243) -/

section
variable {s : State} (htx : s.me.tx = none) (d a : Fin 32)
include htx

theorem exec_sgquota_refused (h : (s.reg a).toNat = 0 ∨ s.me.quota < (s.reg a).toNat) : exec (.sgquota d a) s = .next (s.result d 3) := by
  refine runOp_ok ((Op.bind_ok (noTx_closed htx)).trans ?_)
  rw [if_pos (h.imp_right .inl)]
  rfl

theorem sgquota_shrinks (h1 : 1 ≤ (s.reg a).toNat) (hq : (s.reg a).toNat ≤ s.me.quota)
    (hheld : sumFrames ((s.chargedTo (s.keyOfSlot s.cur)).filter (·.sgpin)) ≤ (s.reg a).toNat) :
    let t := (s.setMe { s.me with quota := (s.reg a).toNat }).shrinkTo (s.keyOfSlot s.cur) (s.reg a).toNat s.segs.length
    exec (.sgquota d a) s = runOp (fun _ => (if t.framesOf (s.keyOfSlot s.cur) ≤ (s.reg a).toNat then resultOp d 0
      else stallOp (.segmentPins none)) t) s := by
  have e : exec (.sgquota d a) s = execSgquota d a s := rfl
  rw [e, execSgquota]
  unfold runOp
  simp only
  rw [Op.bind_ok (noTx_closed htx), if_neg (by omega), Op.bind_ok (Op.modify_apply _ s), Op.bind_ok (Op.get_apply _)]

end

/-! ### Schedules (R244, R245) -/

/-- SGSCHED with the words of a schedule that it has read. -/
def schedLoad (d : Fin 32) (b : Word) (h l : List Word) : Op Unit :=
  if bitsOf (imgWord h 0) 4 60 ≠ 0 ∨ (h.drop 1).any (· != 0) = true then resultOp d 3
  else match schedPhases l (bitsOf (imgWord h 0) 0 4 + 1) with
    | none => resultOp d 3
    | some ph =>
      if bitsOf b 0 4 > bitsOf (imgWord h 0) 0 4 then resultOp d 3
      else modify fun s => (s.setSched (s.keyOfSlot s.cur) (some ⟨s.keyOfSlot s.cur, ph, bitsOf b 0 4⟩)).result d 0

section
variable {s : State} (d : Fin 32) (b : Word) {h l : List Word}

theorem schedLoad_loads {ph : List (List (Bool × Nat))} (h0 : bitsOf (imgWord h 0) 4 60 = 0) (h1 : ∀ w ∈ h.drop 1, w = 0)
    (hp : schedPhases l (bitsOf (imgWord h 0) 0 4 + 1) = some ph) (hb : bitsOf b 0 4 ≤ bitsOf (imgWord h 0) 0 4) :
    schedLoad d b h l s = .ok ((), (s.setSched (s.keyOfSlot s.cur) (some ⟨s.keyOfSlot s.cur, ph, bitsOf b 0 4⟩)).result d 0) := by
  have hgood : ¬(bitsOf (imgWord h 0) 4 60 ≠ 0 ∨ (h.drop 1).any (· != 0) = true) := by
    rintro (hbad | hbad)
    · exact hbad h0
    · obtain ⟨w, hw, hne⟩ := List.any_eq_true.mp hbad
      exact bne_iff_ne.mp hne (h1 w hw)
  rw [schedLoad, if_neg hgood, hp]
  simp only [gt_iff_lt, Nat.not_lt.mpr hb, if_false, Op.modify_apply]

theorem schedLoad_refused (hbad : bitsOf (imgWord h 0) 4 60 ≠ 0 ∨ (∃ w ∈ h.drop 1, w ≠ 0) ∨ schedPhases l (bitsOf (imgWord h 0) 0 4 + 1) = none ∨
    bitsOf (imgWord h 0) 0 4 < bitsOf b 0 4) : schedLoad d b h l s = .ok ((), s.result d 3) := by
  unfold schedLoad
  split
  next => rfl
  next hgood =>
    obtain ⟨h0, h1⟩ := not_or.mp hgood
    have hrest : schedPhases l (bitsOf (imgWord h 0) 0 4 + 1) = none ∨ bitsOf (imgWord h 0) 0 4 < bitsOf b 0 4 := by
      rcases hbad with hbad | ⟨w, hw, hne⟩ | hrest
      · exact absurd hbad h0
      · exact absurd (List.any_eq_true.mpr ⟨w, hw, by simpa using hne⟩) h1
      · exact hrest
    cases hp : schedPhases l (bitsOf (imgWord h 0) 0 4 + 1) with
    | none => rfl
    | some ph =>
      have hlt := hrest.resolve_left (by rw [hp]; exact Option.some_ne_none ph)
      simp only [gt_iff_lt, hlt, if_true]
      rfl

end

section
variable {s u v : State} (htx : s.me.tx = none) (d a b : Fin 32) {h l : List Word}
include htx

theorem sgsched_read (ha : s.reg a ≠ 0) (hm : memOperand (s.reg a) 64 8 s = .ok ((), s)) (hh : wordsAt (s.reg a) 8 2 s = .ok (h, u))
    (hl : wordsAt (s.reg a + 64) 8 (2 * (bitsOf (imgWord h 0) 0 4 + 1)) u = .ok (l, v)) :
    exec (.sgsched d a b) s = runOp (fun _ => schedLoad d (s.reg b) h l v) s := by
  have e : exec (.sgsched d a b) s = execSgsched d a b s := rfl
  rw [e, execSgsched]
  unfold runOp
  simp only
  rw [Op.bind_ok (noTx_closed htx), if_neg ha, Op.bind_ok hm, Op.bind_ok hh, Op.bind_ok hl]
  unfold schedLoad
  cases schedPhases l (bitsOf (imgWord h 0) 0 4 + 1) <;> rfl

theorem sgsched_select (ha : s.reg a = 0) : exec (.sgsched d a b) s = runOp (fun _ => schedSelect d (s.reg b) s) s := by
  have e : exec (.sgsched d a b) s = execSgsched d a b s := rfl
  rw [e, execSgsched]
  unfold runOp
  simp only
  rw [Op.bind_ok (noTx_closed htx), if_pos ha]

end

section
variable {s : State} (d : Fin 32) {b : Word}

theorem schedSelect_none (h : s.scheds.find? (fun x => x.key == s.keyOfSlot s.cur) = none) :
    schedSelect d b s = .ok ((), s.result d 3) := by
  simp only [schedSelect, Op.bind_apply, Op.get_apply, h]
  rfl

theorem schedSelect_some {y : SegSched} (h : s.scheds.find? (fun x => x.key == s.keyOfSlot s.cur) = some y) : schedSelect d b s = .ok ((),
    if b = BitVec.allOnes 64 then (s.setSched (s.keyOfSlot s.cur) none).result d 0
    else if b.toNat < y.phases.length then (s.setSched (s.keyOfSlot s.cur) (some { y with active := b.toNat })).result d 0
    else s.result d 3) := by
  simp only [schedSelect, Op.bind_apply, Op.get_apply, h]
  split
  next => rfl
  next =>
    split <;> rfl

end

/-- Settles O18: an instruction at a time, by the operand that each names. -/
theorem segmentAllocation : Obligations.SegmentAllocation := by
  unfold Obligations.SegmentAllocation
  refine ⟨fun s d a htx => ?_, fun s u v d a b h l ph y htx => ?_⟩
  · intro own shared
    refine ⟨fun k n hsize hk => ?_, fun hsize => ?_, fun hn => ⟨?_, State.freeName_none hn⟩, fun hn => ?_, fun g => ⟨rfl, rfl, rfl⟩⟩
    · have hk' := sizeK_of_size hsize hk
      refine ⟨fun hn hq => ⟨sgnew_allots htx d a (shared := false) hk' hn hq, rfl, rfl, State.freeName_some hn⟩,
        fun hn hq => sgnew_allots htx d a (shared := true) hk' hn hq, fun hq => ⟨?_, ?_⟩⟩
      · exact computes_result (sgnew_overQuota htx d a (shared := false) hk' hq)
      · exact computes_result (sgnew_overQuota htx d a (shared := true) hk' hq)
    · have hk' := sizeK_of_noSize hsize
      exact ⟨computes_result (sgnew_noSize htx d a (shared := false) hk'), computes_result (sgnew_noSize htx d a (shared := true) hk')⟩
    · exact computes_result (sgnew_noName htx d a (shared := false) hn)
    · exact computes_result (sgnew_noName htx d a (shared := true) hn)
  · intro q key
    refine ⟨fun h1 hq hheld => ?_, fun hq => ?_, fun ha hm hh hl => ?_, fun ha hf => ?_, fun ha hf => ?_⟩
    · intro t
      have hrun := sgquota_shrinks htx d a h1 hq hheld
      refine ⟨fun hfit => ?_, fun hover => ?_⟩
      · rw [hrun, if_pos hfit]
        rfl
      · rw [hrun, if_neg (Nat.not_le.mpr hover)]
        rfl
    · exact computes_result (exec_sgquota_refused htx d a hq)
    · have hrun := sgsched_read htx d a b ha hm hh hl
      refine ⟨fun h0 h1 hp hb => ?_, fun hbad => ?_⟩
      · exact hrun.trans (runOp_ok (schedLoad_loads d _ h0 h1 hp hb))
      · exact hrun.trans (runOp_ok (schedLoad_refused d _ hbad))
    · exact computes_result ((sgsched_select htx d a b ha).trans (runOp_ok (schedSelect_none d hf)))
    · have hrun := (sgsched_select htx d a b ha).trans (runOp_ok (schedSelect_some d hf))
      refine ⟨fun hb => ?_, fun hb hlt => ?_, fun hb hge => ?_⟩
      · rw [hrun, if_pos hb]
      · rw [hrun, if_neg hb, if_pos hlt]
      · rw [if_neg hb, if_neg (Nat.not_lt.mpr hge)] at hrun
        exact computes_result hrun

end Sys2Proof.Machine
end

section
/-! PROOF. O23: the lease, channels, descriptors and ports from the control core (12 R278, R279; 13 R296 to R302). -/

namespace Sys2Proof.Machine

/-! ### What a change of the slot's engines leaves -/

section
variable (s : State) (f : Engines → Engines)

theorem State.me_mapEng : (s.mapEng f).me = { s.me with eng := f s.me.eng } := State.me_setMe _ _
theorem State.pc_mapEng : (s.mapEng f).pc = s.pc := State.pc_setMe _ _
theorem State.reg_mapEng (r : Fin 32) : (s.mapEng f).reg r = s.reg r := State.reg_setMe _ _ _
theorem State.flags_mapEng : (s.mapEng f).flags = s.flags := State.flags_setMe _ _

end

/-! ### The lease (R296) -/

/-- A lease that ends changes its cluster alone, and takes up no request. -/
theorem State.releaseIfDone_cases (s : State) (c : Fin 64) : s.releaseIfDone c = s ∨ ∃ f : Cluster → Cluster,
    s.releaseIfDone c = s.mapCluster c f ∧ ∀ k i, (∀ r ∈ k.reqs, r.1 ≠ i) → ∀ r ∈ (f k).reqs, r.1 ≠ i := by
  have hend : ∃ f : Cluster → Cluster, s.endLease c = s.mapCluster c f ∧ ∀ k i, (∀ r ∈ k.reqs, r.1 ≠ i) → ∀ r ∈ (f k).reqs, r.1 ≠ i := by
    refine ⟨_, rfl, fun k i h r hr => ?_⟩
    cases hk : k.holder with
    | none =>
      simp only [hk] at hr
      exact h r hr
    | some o =>
      simp only [hk] at hr
      obtain ⟨q, hq, rfl⟩ := List.mem_map.mp hr
      have hqi := h q hq
      split
      next ho => exact ho ▸ hqi
      next => exact hqi
  unfold State.releaseIfDone
  simp only
  split
  next =>
    split
    next => exact .inl rfl
    next => exact .inr hend
  next => exact .inl rfl

section
variable {s : State} (htx : s.me.tx = none) (d a : Fin 32)
include htx

/-- MLEASE leaves a request of the slot standing. -/
theorem exec_mlease : ∃ f : Cluster → Cluster, exec .mlease s = .next (s.mapCluster (clusterOfCore s.cur.core) f).retire ∧
    ∀ k, ∃ n, (s.cur, n) ∈ (f k).reqs := by
  refine ⟨_, runOp_ok (Op.bind_ok (noTx_closed htx)), fun k => ?_⟩
  split
  next h =>
    obtain ⟨r, hr, hcur⟩ := List.any_eq_true.mp h
    exact ⟨r.2, (of_decide_eq_true hcur : r.1 = s.cur) ▸ hr⟩
  next => exact ⟨s.cycle, List.mem_append_right _ (List.mem_singleton_self _)⟩

theorem exec_mleaseG_grants (hz : bitsOf (s.reg a) 10 54 = 0) (hc : clusterOfCore (grantSlot (s.reg a)).core = clusterOfCore s.cur.core)
    (hne : grantSlot (s.reg a) ≠ s.cur) (hg : s.me.eng.grant = none ∨ s.me.eng.grant = some (grantSlot (s.reg a))) :
    exec (.mleaseG d a) s = .next ((s.mapEng fun e => { e with grant := some (grantSlot (s.reg a)) }).result d 0) := by
  refine runOp_ok ((Op.bind_ok (noTx_closed htx)).trans ?_)
  have hok : ¬(bitsOf (s.reg a) 10 54 ≠ 0 ∨ clusterOfCore (grantSlot (s.reg a)).core ≠ clusterOfCore s.cur.core ∨ grantSlot (s.reg a) = s.cur ∨
      (s.me.eng.grant.isSome = true ∧ s.me.eng.grant ≠ some (grantSlot (s.reg a)))) := by
    rintro (h | h | h | ⟨hsome, hother⟩)
    · exact h hz
    · exact h hc
    · exact hne h
    · rcases hg with hg | hg
      · simp [hg] at hsome
      · exact hother hg
  simp only [hok, if_false, Op.modify_apply]

theorem exec_mleaseG_refused (h : bitsOf (s.reg a) 10 54 ≠ 0 ∨ clusterOfCore (grantSlot (s.reg a)).core ≠ clusterOfCore s.cur.core ∨
    grantSlot (s.reg a) = s.cur) : exec (.mleaseG d a) s = .next (s.result d 3) := by
  refine runOp_ok ((Op.bind_ok (noTx_closed htx)).trans ?_)
  have hbad : bitsOf (s.reg a) 10 54 ≠ 0 ∨ clusterOfCore (grantSlot (s.reg a)).core ≠ clusterOfCore s.cur.core ∨ grantSlot (s.reg a) = s.cur ∨
      (s.me.eng.grant.isSome = true ∧ s.me.eng.grant ≠ some (grantSlot (s.reg a))) := h.imp_right (·.imp_right .inl)
  rw [if_pos hbad]
  rfl

/-- MRELEASE takes the slot's requests out of its cluster, and its grant. -/
theorem exec_mrelease : ∃ u : State, exec .mrelease s = .next u.retire ∧ u.me = { s.me with eng := { s.me.eng with grant := none } } ∧
    u.mem = s.mem ∧ ∀ r ∈ (u.clusterOf (clusterOfCore s.cur.core)).reqs, r.1 ≠ s.cur := by
  refine ⟨_, runOp_ok (Op.bind_ok (noTx_closed htx)), ?_⟩
  simp only
  generalize hs1 : State.mapCluster (s.mapEng fun e => { e with grant := none }) (clusterOfCore s.cur.core) _ = s1
  have hme : s1.me = { s.me with eng := { s.me.eng with grant := none } } := by
    rw [← hs1]
    exact State.me_mapEng s fun e => { e with grant := none }
  have hmem : s1.mem = s.mem := by rw [← hs1]; rfl
  have hreqs : ∀ r ∈ (s1.clusterOf (clusterOfCore s.cur.core)).reqs, r.1 ≠ s.cur := by
    rw [← hs1, State.clusterOf_mapCluster, if_pos rfl]
    exact fun r hr => of_decide_eq_true (List.mem_filter.mp hr).2
  rcases s1.releaseIfDone_cases (clusterOfCore s.cur.core) with h | ⟨f, h, hf⟩
  · rw [h]
    exact ⟨hme, hmem, hreqs⟩
  · rw [h, State.clusterOf_mapCluster, if_pos rfl]
    exact ⟨hme, hmem, hf _ _ hreqs⟩

end

/-! ### Channels (R268, R297) -/

/-- Within half the range of ids an id that is not above the done value has been reached. -/
theorem chanReached_of_le {n i : Nat} (hn : n < 2 ^ 47) (hi : i ≤ n) : chanReached n i = true := by
  unfold chanReached
  exact decide_eq_true (by omega)

section
variable {s : State} (htx : s.me.tx = none) (d a : Fin 32) (h : Fin 8)
include htx

theorem exec_chid : exec (.chid d h) s = .next (s.result d (word (s.me.chan h).given)) := runOp_ok (Op.bind_ok (noTx_closed htx))

theorem exec_chwait_badOperand (hb : bitsOf (s.reg a) 48 16 ≠ 0) : exec (.chwait d a h) s = .next (s.result d 3) := by
  refine runOp_ok ((Op.bind_ok (noTx_closed htx)).trans ?_)
  rw [if_pos hb]
  rfl

variable (hb : bitsOf (s.reg a) 48 16 = 0)
include hb

theorem exec_chwait_zero (hz : bitsOf (s.reg a) 0 48 = 0) : exec (.chwait d a h) s = .next ((s.acquire s.cur 0 s.now).result d 0) := by
  refine runOp_ok ((Op.bind_ok (noTx_closed htx)).trans ?_)
  rw [if_neg (not_not_intro hb), if_pos hz]
  rfl

variable (hz : bitsOf (s.reg a) 0 48 ≠ 0)
include hz

theorem exec_chwait_unknown (hg : chanReached (s.me.chan h).given (bitsOf (s.reg a) 0 48) = false) :
    exec (.chwait d a h) s = .next (s.result d 3) := by
  refine runOp_ok ((Op.bind_ok (noTx_closed htx)).trans ?_)
  rw [if_neg (not_not_intro hb), if_neg hz, if_pos hg]
  rfl

variable (hg : chanReached (s.me.chan h).given (bitsOf (s.reg a) 0 48) = true)
include hg

theorem exec_chwait_done (hd : chanReached (s.me.chan h).doneId (bitsOf (s.reg a) 0 48) = true) :
    exec (.chwait d a h) s = .next ((s.acquire s.cur 0 s.now).result d 0) := by
  refine runOp_ok ((Op.bind_ok (noTx_closed htx)).trans ?_)
  rw [if_neg (not_not_intro hb), if_neg hz, if_neg (ne_false_of_eq_true hg), if_pos hd]
  rfl

theorem exec_chwait_waits (hd : chanReached (s.me.chan h).doneId (bitsOf (s.reg a) 0 48) = false) :
    exec (.chwait d a h) s = .next (s.waitMe (.chwait h (bitsOf (s.reg a) 0 48))) := by
  refine runOp_become ((Op.bind_ok (noTx_closed htx)).trans ?_)
  rw [if_neg (not_not_intro hb), if_neg hz, if_neg (ne_false_of_eq_true hg), if_neg (ne_true_of_eq_false hd)]
  rfl

end

/-! ### Descriptors and ports (R298 to R302) -/

section
variable {s u : State} {p : Word} {n align key : Nat} {ok : List Word → Bool} {x : Place} {l : List Word} {y : Slot} (htx : s.me.tx = none)
  (d : Fin 32) (hd : s.decodePtr s.cur p align = .ok x) (hl : loadWords p n s = .ok (l, u))
include htx hd hl

theorem descOp_refused (h : ok l = false) : descOp d p align n key ok s = .ok ((), u.result d 3) := by
  refine (Op.bind_ok (noTx_closed htx)).trans ((Op.bind_ok (Op.get_apply s)).trans ?_)
  rw [hd]
  refine (Op.bind_ok hl).trans ?_
  rw [if_pos h]
  rfl

theorem descOp_sets (h : ok l = true) (hy : u.me.setDesc key l = some y) : descOp d p align n key ok s = .ok ((), (u.setMe y).result d 0) := by
  refine (Op.bind_ok (noTx_closed htx)).trans ((Op.bind_ok (Op.get_apply s)).trans ?_)
  rw [hd]
  refine (Op.bind_ok hl).trans ?_
  rw [if_neg (ne_false_of_eq_true h)]
  refine (Op.bind_ok (Op.get_apply u)).trans ?_
  rw [hy]
  rfl

end

section
variable {s : State} (htx : s.me.tx = none) (d a : Fin 32) (p : Fin 4)
include htx

theorem exec_portbind_binds {y : Slot} (h : s.me.portBind p (s.reg a).toNat = some y) :
    exec (.portbind d a p) s = .next ((s.setMe y).result d 0) := by
  refine runOp_ok ((Op.bind_ok (noTx_closed htx)).trans ?_)
  rw [h]
  rfl

theorem exec_portbind_refused (h : s.me.portBind p (s.reg a).toNat = none) : exec (.portbind d a p) s = .next (s.result d 3) := by
  refine runOp_ok ((Op.bind_ok (noTx_closed htx)).trans ?_)
  rw [h]
  rfl

end

/-- Settles O23. -/
theorem engineControl : Obligations.EngineControl := by
  unfold Obligations.EngineControl
  refine ⟨fun s d a htx => ?_, fun s d a h htx => ?_, fun s u d a n g p x y l htx => ?_⟩
  · intro c g
    refine ⟨?_, fun hz hc hne hg => ?_, fun hbad => computes_result (exec_mleaseG_refused htx d a hbad), ?_⟩
    · obtain ⟨f, hexec, hf⟩ := exec_mlease htx
      refine ⟨_, hexec, ?_, State.pc_retire _, State.reg_retire _, State.flags_retire _, fun _ => rfl⟩
      obtain ⟨n, hn⟩ := hf (s.clusterOf c)
      refine ⟨n, ?_⟩
      show (s.cur, n) ∈ ((s.mapCluster c f).clusterOf c).reqs
      rwa [State.clusterOf_mapCluster, if_pos rfl]
    · refine ⟨_, exec_mleaseG_grants htx d a hz hc hne hg, ?_, ?_, fun r => ?_, ?_, ((((State.RestKept.refl s).setMe _).setMe _).setMe _)⟩
      · rw [State.me_result, State.me_mapEng]
        exact (congrArg Engines.grant (Slot.setActive_eng _ _)).trans rfl
      · rw [State.pc_result, State.pc_mapEng]
      · rw [State.reg_result, State.reg_mapEng]
      · rw [State.flags_result, State.flags_mapEng]
    · obtain ⟨u, hexec, hme, hmem, hreqs⟩ := exec_mrelease htx
      refine ⟨_, hexec, ?_, hreqs, ?_, fun r => ?_, ?_, fun b => by rw [← hmem]; rfl⟩
      · rw [State.me_retire, hme]
        rfl
      · rw [State.pc_retire, State.pc, hme]
        rfl
      · rw [State.reg_retire, State.reg, hme]
        rfl
      · rw [State.flags_retire, State.flags, hme]
        rfl
  · intro id k
    refine ⟨computes_result (exec_chid htx d h), fun hb => computes_result (exec_chwait_badOperand htx d a h hb),
      exec_chwait_zero htx d a h, fun hb hz => ⟨fun hg => computes_result (exec_chwait_unknown htx d a h hb hz hg),
        exec_chwait_done htx d a h hb hz, exec_chwait_waits htx d a h hb hz⟩, fun _ _ => chanReached_of_le⟩
  · refine ⟨fun hd hl => ⟨fun hok => runOp_ok (descOp_refused htx d hd hl hok), fun hok hy => runOp_ok (descOp_sets htx d hd hl hok hy)⟩,
      fun hd hl => ⟨fun hok => runOp_ok (descOp_refused htx d hd hl hok), fun hok hy => runOp_ok (descOp_sets htx d hd hl hok hy)⟩,
      fun hd hl => ⟨fun hok => runOp_ok (descOp_refused htx d hd hl hok), fun hok hy => runOp_ok (descOp_sets htx d hd hl hok hy)⟩,
      exec_portbind_binds htx d a p, fun hn => computes_result (exec_portbind_refused htx d a p hn)⟩

end Sys2Proof.Machine
end

section
/-! PROOF. O13: LBLK, LBLK.REL and BLKWAIT (10 R226 to R228). -/

namespace Sys2Proof.Machine

theorem blockVa_ok {s : State} {p : Word} {w va : Nat} (h : s.decodePtr s.cur p 1 = .ok (.glob w va)) : blockVa p s = .ok (va, s) := by
  simp only [blockVa, Op.bind_apply, Op.get_apply, h, Op.pure_apply]

section
variable {s u : State} (htx : s.me.tx = none) (d a : Fin 32) (h : Fin 16) (n : Fin 64)
include htx

section
variable {va w va2 w2 : Nat} {ls : List (Nat × Fin 16)} (hw : bitsOf (s.reg a) 60 4 = 0 ∨ bitsOf (s.reg a) 60 4 = 4)
  (hfirst : s.decodePtr s.cur (s.reg a) 1 = .ok (.glob w va))
  (hlast : s.decodePtr s.cur (s.reg a + word (128 * (n.val + 1) - 1)) 1 = .ok (.glob w2 va2)) (halign : (s.reg a).toNat % 128 = 0)
  (hlines : blockLines (s.reg a) va (n.val + 1) s = .ok (some ls, u))
include hw hfirst hlast halign hlines

/-- R227: what LBLK does with the lines of its block. -/
theorem exec_lblk_lines : exec (.lblk d a h n) s = runOp (fun _ =>
    (if !blockFits (s.otherLines s.cur h.val) (ls.map (·.1)) then resultOp d 3
      else modify fun t => (((t.evictBlock t.cur h.val).declareBlock t.cur h.val (s.reg a) ls).result d 0)) u) s := by
  have e : exec (.lblk d a h n) s = execLblk d a h n s := rfl
  rw [e, execLblk]
  unfold runOp
  simp only
  rw [Op.bind_ok (noTx_closed htx), if_neg (by omega), Op.bind_ok (blockVa_ok hfirst), Op.bind_ok (blockVa_ok hlast),
    if_neg (not_not_intro halign), Op.bind_ok hlines]

theorem exec_lblk_declares (hfits : blockFits (s.otherLines s.cur h.val) (ls.map (·.1)) = true) :
    exec (.lblk d a h n) s = .next (((u.evictBlock u.cur h.val).declareBlock u.cur h.val (s.reg a) ls).result d 0) := by
  rw [exec_lblk_lines htx d a h n hw hfirst hlast halign hlines, hfits]
  rfl

theorem exec_lblk_refused (hfits : blockFits (s.otherLines s.cur h.val) (ls.map (·.1)) = false) :
    exec (.lblk d a h n) s = .next (u.result d 3) := by
  rw [exec_lblk_lines htx d a h n hw hfirst hlast halign hlines, hfits]
  rfl

end

theorem exec_lblkRel (hh : thas s.me.blocks h.val = true) : exec (.lblkRel d h) s = .next ((s.evictBlock s.cur h.val).result d 0) := by
  refine runOp_ok ((Op.bind_ok (noTx_closed htx)).trans ?_)
  rw [if_pos hh]
  rfl

theorem exec_lblkRel_empty (hh : thas s.me.blocks h.val = false) : exec (.lblkRel d h) s = .next (s.result d 5) := by
  refine runOp_ok ((Op.bind_ok (noTx_closed htx)).trans ?_)
  rw [if_neg (ne_true_of_eq_false hh)]
  rfl

theorem exec_blkwait_empty (hh : s.me.blocks.find? (fun b => b.1 == h.val) = none) : exec (.blkwait d h) s = .next (s.result d 5) := by
  refine runOp_ok ((Op.bind_ok (noTx_closed htx)).trans ?_)
  rw [hh]
  rfl

section
variable {b : Nat × Block} (hh : s.me.blocks.find? (fun b => b.1 == h.val) = some b)
include hh

theorem exec_blkwait_filled (hf : b.2.flag = true) : exec (.blkwait d h) s = .next (s.result d 0) := by
  refine runOp_ok ((Op.bind_ok (noTx_closed htx)).trans ?_)
  rw [hh]
  simp only [hf, if_true]
  rfl

theorem exec_blkwait_stalls (hf : b.2.flag = false) : exec (.blkwait d h) s = .next (s.stallMe (.blkwait h.val)) := by
  refine runOp_become ((Op.bind_ok (noTx_closed htx)).trans ?_)
  rw [hh]
  simp only [hf, Bool.false_eq_true, if_false]
  rfl

end

end

/-- Settles O13. -/
theorem loadBlocks : Obligations.LoadBlocks := by
  unfold Obligations.LoadBlocks
  intro s u d a h n va w va2 w2 ls htx p
  refine ⟨fun hw hfirst hlast halign hlines => ⟨fun hfits => ?_, fun hfits => ?_⟩, exec_lblkRel htx d h, fun hh => ⟨?_, ?_⟩,
    fun b hb => ⟨exec_blkwait_filled htx d h hb, exec_blkwait_stalls htx d h hb⟩⟩
  · exact exec_lblk_declares htx d a h n hw hfirst hlast halign hlines hfits
  · exact exec_lblk_refused htx d a h n hw hfirst hlast halign hlines hfits
  · exact exec_lblkRel_empty htx d h hh
  · refine exec_blkwait_empty htx d h (List.find?_eq_none.mpr fun b hb heq => ?_)
    have hnone := List.any_eq_false.mp hh b hb
    exact hnone heq

end Sys2Proof.Machine
end

section
/-! PROOF. O16: PGALLOC, PGALLOC.NB and PGFREE (08 R203, R204; 10 R236). -/

namespace Sys2Proof.Machine

/-! ### Places in the order of requests (log 114) -/

section
variable {s : State} {k : Pool} {i : SlotId}

theorem State.poolPlace_of_waiting {l₁ l₂ : List PoolWait} (h : s.poolQueue k = l₁ ++ s.poolRequest i :: l₂) (hfirst : s.poolRequest i ∉ l₁) :
    s.poolPlace k i = l₁.length := by
  have hnone : l₁.findIdx? (fun w => w == s.poolRequest i) = none :=
    List.findIdx?_eq_none_iff.mpr fun w hw => beq_false_of_ne fun heq => hfirst (heq ▸ hw)
  unfold State.poolPlace
  simp [h, List.findIdx?_append, hnone, List.findIdx?_cons]

theorem State.poolPlace_of_new (h : s.poolRequest i ∉ s.poolQueue k) : s.poolPlace k i = (s.poolQueue k).length := by
  have hnone : (s.poolQueue k).findIdx? (fun w => w == s.poolRequest i) = none :=
    List.findIdx?_eq_none_iff.mpr fun w hw => beq_false_of_ne fun heq => h (heq ▸ hw)
  simp only [State.poolPlace, hnone, Option.getD_none]

end

/-! ### Taking a page -/

section
variable {s : State} {p : Fin 16} {k : Pool} (hk : (s.partOf p).pool = some k)
include hk

theorem State.poolTake_none (h : k.scrubbed[s.poolPlace k s.cur]? = none) : s.poolTake p = none := by
  simp only [State.poolTake, hk, h]

theorem State.poolTake_some {n : Nat} (h : k.scrubbed[s.poolPlace k s.cur]? = some n) (hs : s.scrubbing p k n = false) :
    ∃ z, s.poolTake p = some (word (k.base + n * 2 ^ k.lg), z) := by
  simp only [State.poolTake, hk, h, hs, Bool.false_eq_true, if_false]
  exact ⟨_, rfl⟩

end

/-! ### The instructions -/

/-- With nothing to ask for, nothing is asked. -/
theorem askOp_nil {s : State} {p : Fin 16} {l : List Want} (h : l = []) : askOp p l s = .ok ((), s) := by
  rw [h]
  rfl

/-- An allocation once the pool is there. -/
def pgallocEnd (d : Fin 32) (wait : Bool) (u : State) : Except Stop (Unit × State) :=
  if (u.partOf (u.partNo u.cur.core)).pool.isNone then .ok ((), u.result d 3)
  else match u.poolTake (u.partNo u.cur.core) with
    | some (v, t) => .ok ((), t.result d v)
    | none => if wait then .error (.become ((u.poolJoin (u.partNo u.cur.core)).stallMe .pool)) else .ok ((), u.result d 5)

section
variable {s : State} (htx : s.me.tx = none) (d a : Fin 32) (hw : s.poolWants (s.partNo s.cur.core) = []) (wait : Bool)
include htx hw

theorem pgallocOp_found : pgallocOp d wait s = pgallocEnd d wait (s.withPool (s.partNo s.cur.core)) := by
  simp only [pgallocOp]
  rw [Op.bind_ok (noTx_closed htx), Op.bind_ok (Op.get_apply s), Op.bind_ok (Op.get_apply s), Op.bind_ok (Op.get_apply s),
    Op.bind_ok (Op.get_apply s), Op.bind_ok (Op.get_apply s), Op.bind_ok (askOp_nil hw), Op.bind_ok (Op.modify_apply _ s),
    Op.bind_ok (Op.get_apply _)]
  unfold pgallocEnd
  generalize s.withPool (s.partNo s.cur.core) = u
  cases (u.partOf (u.partNo u.cur.core)).pool.isNone with
  | true => rfl
  | false =>
    cases u.poolTake (u.partNo u.cur.core) with
    | some e => rfl
    | none => cases wait <;> rfl

theorem pgallocOp_noPool (h : ((s.withPool (s.partNo s.cur.core)).partOf ((s.withPool (s.partNo s.cur.core)).partNo
    (s.withPool (s.partNo s.cur.core)).cur.core)).pool = none) :
    pgallocOp d wait s = .ok ((), (s.withPool (s.partNo s.cur.core)).result d 3) := by
  rw [pgallocOp_found htx d hw]
  simp only [pgallocEnd, h, Option.isNone_none, if_true]

variable (hpool : ((s.withPool (s.partNo s.cur.core)).partOf ((s.withPool (s.partNo s.cur.core)).partNo
  (s.withPool (s.partNo s.cur.core)).cur.core)).pool.isSome = true)
include hpool

theorem pgallocOp_takes {v : Word} {t : State} (h : (s.withPool (s.partNo s.cur.core)).poolTake ((s.withPool (s.partNo s.cur.core)).partNo
    (s.withPool (s.partNo s.cur.core)).cur.core) = some (v, t)) : pgallocOp d wait s = .ok ((), t.result d v) := by
  rw [pgallocOp_found htx d hw]
  simp only [pgallocEnd, Option.isNone_eq_false_iff.mpr hpool, Bool.false_eq_true, if_false, h]

theorem pgallocOp_none (h : (s.withPool (s.partNo s.cur.core)).poolTake ((s.withPool (s.partNo s.cur.core)).partNo
    (s.withPool (s.partNo s.cur.core)).cur.core) = none) :
    pgallocOp d true s = .error (.become (((s.withPool (s.partNo s.cur.core)).poolJoin ((s.withPool (s.partNo s.cur.core)).partNo
      (s.withPool (s.partNo s.cur.core)).cur.core)).stallMe .pool)) ∧
    pgallocOp d false s = .ok ((), (s.withPool (s.partNo s.cur.core)).result d 5) := by
  rw [pgallocOp_found htx d hw, pgallocOp_found htx d hw]
  simp only [pgallocEnd, Option.isNone_eq_false_iff.mpr hpool, Bool.false_eq_true, if_false, h, if_true, and_self]

end

section
variable {s r : State} (htx : s.me.tx = none) (d a : Fin 32) (hr : releaseOp 5 s = .ok ((), r)) (hw : r.poolWants (s.partNo s.cur.core) = [])
include htx hr hw

theorem exec_pgfree_gives {k : Pool} {n : Nat}
    (hk : ((r.withPool (r.partNo r.cur.core)).partOf ((r.withPool (r.partNo r.cur.core)).partNo
      (r.withPool (r.partNo r.cur.core)).cur.core)).pool = some k)
    (hn : k.pageOf ((r.withPool (r.partNo r.cur.core)).reg a) = some n) (hc : k.allocated.contains n = true) :
    let w := r.withPool (r.partNo r.cur.core)
    let q := w.partNo w.cur.core
    exec (.pgfree d a) s = .next (((w.devBit q (w.partOf q).root k.map n false).mapPool q fun k =>
      { k with allocated := k.allocated.filter (· != n), scrubQ := k.scrubQ ++ [n] }).result d 0) := by
  intro w q
  have e : exec (.pgfree d a) s = execPgfree d a s := rfl
  rw [e, execPgfree]
  refine runOp_ok ?_
  rw [Op.bind_ok (noTx_closed htx), Op.bind_ok hr, Op.bind_ok (Op.get_apply r), Op.bind_ok (askOp_nil hw), Op.bind_ok (Op.modify_apply _ r),
    Op.bind_ok (Op.get_apply _)]
  simp only [hk, hn, hc, if_true]
  rfl

end

/-- Settles O16. -/
theorem pagePool : Obligations.PagePool := by
  unfold Obligations.PagePool
  intro s t d a v k htx p u
  refine ⟨fun hk => ⟨State.poolTake_none hk, fun n => State.poolTake_some hk, fun l₁ l₂ => State.poolPlace_of_waiting, State.poolPlace_of_new⟩,
    fun hw => ⟨fun hpool htake => ⟨?_, ?_⟩, fun hpool hnone => ⟨?_, ?_⟩, fun hpool => ⟨?_, ?_⟩⟩, fun r hr hw => ?_⟩
  · exact runOp_ok (pgallocOp_takes htx d hw true hpool htake)
  · exact runOp_ok (pgallocOp_takes htx d hw false hpool htake)
  · exact runOp_become (pgallocOp_none htx d hw hpool hnone).1
  · exact runOp_ok (pgallocOp_none htx d hw hpool hnone).2
  · exact runOp_ok (pgallocOp_noPool htx d hw true hpool)
  · exact runOp_ok (pgallocOp_noPool htx d hw false hpool)
  · intro w q hk n hn hc
    exact exec_pgfree_gives htx d a hr hw hk hn hc

end Sys2Proof.Machine
end

section
/-! PROOF. O17: SGFREE, SGPIN, SGUNPIN, SGPREF and SGINFO (10 R237, R239 to R242). -/

namespace Sys2Proof.Machine

/-! ### Without a segment operand (R237) -/

section
variable {s : State} (htx : s.me.tx = none) (d a : Fin 32) (hseg : s.segOperand s.cur (s.reg a) = none)
include htx hseg

theorem onSegment_refused (f : Seg → Op Unit) : runOp (onSegment d a f) s = .next (s.result d 3) := by
  refine runOp_ok ((Op.bind_ok (noTx_closed htx)).trans ((Op.bind_ok (Op.get_apply s)).trans ?_))
  rw [hseg]
  rfl

theorem exec_sgpin_noSegment : exec (.sgpin d a) s = .next (s.pinResult d 3) := by
  refine runOp_ok ((Op.bind_ok (noTx_closed htx)).trans ?_)
  rw [hseg]
  rfl

theorem exec_sginfo_noSegment : exec (.sginfo d a) s = .next (s.result d (BitVec.allOnes 64)) := by
  refine runOp_ok ((Op.bind_ok (noTx_closed htx)).trans ?_)
  rw [hseg]
  rfl

end

/-! ### Of a segment operand -/

section
variable {s t : State} (htx : s.me.tx = none) (d a : Fin 32) {g : Seg} (hseg : s.segOperand s.cur (s.reg a) = some g)
include htx hseg

theorem onSegment_some (f : Seg → Op Unit) : onSegment d a f s = f g s := by
  refine (Op.bind_ok (noTx_closed htx)).trans ((Op.bind_ok (Op.get_apply s)).trans ?_)
  rw [hseg]

section
variable (hof : s.segOf g.id = some g) (hsq : s.me.sq = [])
include hof hsq

theorem exec_sgfree_frees (hp : g.pins = 0) (hc : g.copyPins = 0) (hs : s.storesTo g.id = false) :
    exec (.sgfree d a) s = .next (({ s with segs := s.segs.filter fun h => h.id ≠ g.id }).result d 0) := by
  refine runOp_ok ((onSegment_some htx d a hseg _).trans ((Op.bind_ok (drainFor_empty _ hsq)).trans ((Op.bind_ok (Op.get_apply s)).trans ?_)))
  rw [hof]
  simp only [hp, hc, hs, Nat.lt_irrefl, Bool.false_eq_true, or_self, if_false]
  rfl

theorem exec_sgfree_stalls (h : 0 < g.pins ∨ 0 < g.copyPins) : exec (.sgfree d a) s = .next (s.stallMe (.segmentPins (some g.id))) := by
  refine runOp_become ((onSegment_some htx d a hseg _).trans ((Op.bind_ok (drainFor_empty _ hsq)).trans ((Op.bind_ok (Op.get_apply s)).trans ?_)))
  rw [hof]
  simp only
  rw [if_pos (h.imp_right .inl)]
  rfl

end

theorem exec_sgunpin (hp : g.sgpin = true) :
    exec (.sgunpin d a) s = .next ((s.mapSeg g.id fun g => { g with sgpin := false }).result d 0) := by
  refine runOp_ok ((onSegment_some htx d a hseg _).trans ?_)
  rw [if_pos hp]
  rfl

theorem exec_sgunpin_refused (hp : g.sgpin = false) : exec (.sgunpin d a) s = .next (s.result d 3) := by
  refine runOp_ok ((onSegment_some htx d a hseg _).trans ?_)
  rw [if_neg (ne_true_of_eq_false hp)]
  rfl

theorem exec_sgpref : exec (.sgpref d a) s = .next ((s.prefetch g id).result d 0) := runOp_ok ((onSegment_some htx d a hseg _).trans rfl)

theorem exec_sginfo : exec (.sginfo d a) s = .next (s.result d (s.segInfo s.cur g)) := by
  refine runOp_ok ((Op.bind_ok (noTx_closed htx)).trans ?_)
  rw [hseg]
  rfl

theorem exec_sgpin_pinned (hp : g.sgpin = true) : exec (.sgpin d a) s = .next (s.pinResult d 0) := by
  refine runOp_ok ((Op.bind_ok (noTx_closed htx)).trans ?_)
  rw [hseg]
  simp only [hp, if_true]
  rfl

section
variable (hp : g.sgpin = false)
include hp

theorem exec_sgpin_failed (hr : s.me.refused = true) : exec (.sgpin d a) s = .next (s.pinResult d 3) := by
  refine runOp_ok ((Op.bind_ok (noTx_closed htx)).trans ?_)
  rw [hseg]
  simp only [hp, hr, Bool.false_eq_true, if_false, if_true]
  rfl

theorem exec_sgpin_served (hr : s.me.refused = false) (ha : s.admitSet s.cur (.control s.cur) [g.id] [s.reg a] 0 true = .go t) :
    exec (.sgpin d a) s = .next ((t.mapSeg g.id fun g => { g with sgpin := true }).pinResult d 0) := by
  refine runOp_ok ((Op.bind_ok (noTx_closed htx)).trans ?_)
  rw [hseg]
  simp only [hp, hr, Bool.false_eq_true, if_false, ha]
  rfl

end

end

/-! ### What SGPIN and SGINFO leave -/

theorem State.dropTicket_cases (s : State) (u : TicketUser) : s.dropTicket u = { s with tickets := (s.dropTicket u).tickets } := by
  unfold State.dropTicket
  split <;> rfl

theorem State.tickets_dropTicket {s : State} {u : TicketUser} {k : Ticket} (h : s.ticketOf u = some k) :
    ∀ x ∈ (s.dropTicket u).tickets, x.num ≠ k.num := by
  intro x hx
  rw [State.dropTicket, h] at hx
  simpa using (List.mem_filter.mp hx).2

/-- An instruction that drops its ticket gives its result and leaves the rest of the state. -/
theorem State.pinResult_leaves (s : State) (d : Fin 32) (v : Word) :
    let u := s.pinResult d v
    s.OnlyReg u d v ∧ u.pc = nextPc s.pc ∧ u.me.refused = false ∧ u.flags = s.flags ∧ u.segs = s.segs ∧ u.mem = s.mem ∧
      ∀ k, s.ticketOf (.control s.cur) = some k → ∀ x ∈ u.tickets, x.num ≠ k.num := by
  have hdrop := s.dropTicket_cases (.control s.cur)
  have hme : (s.dropTicket (.control s.cur)).me = s.me := by rw [hdrop]; rfl
  refine ⟨fun r => ?_, ?_, ?_, ?_, ?_, ?_, fun k hk x hx => State.tickets_dropTicket hk x hx⟩
  · rw [State.pinResult, State.reg_result, State.reg_setMe, hme]
    rfl
  · rw [State.pinResult, State.pc_result, State.pc_setMe, hme]
    rfl
  · rw [State.pinResult, State.me_result, State.me_setMe]
    exact Slot.setActive_refused _ _
  · rw [State.pinResult, State.flags_result, State.flags_setMe, hme]
    rfl
  · rw [State.pinResult, State.result_segs, State.setMe_segs, hdrop]
  · rw [State.pinResult, State.result_mem, State.setMe_mem, hdrop]

theorem State.segInfo_size (s : State) (i : SlotId) (g : Seg) : bitsOf (s.segInfo i g) 0 4 = g.k % 16 := by
  have hlow : ∀ n m : Nat, n % 16 = m % 16 → bitsOf (word n) 0 4 = m % 16 := by
    intro n m h
    rw [word, bitsOf_ofNat (by decide)]
    omega
  refine hlow _ _ ?_
  cases g.id.space <;> simp only <;> split <;> split <;> omega

/-- Settles O17. -/
theorem segmentControl : Obligations.SegmentControl := by
  unfold Obligations.SegmentControl
  refine ⟨fun s d a htx hseg => ?_, fun s t d a g v htx hseg hof => ?_⟩
  · exact ⟨computes_result (onSegment_refused htx d a hseg _), exec_sgpin_noSegment htx d a hseg,
      computes_result (onSegment_refused htx d a hseg _), computes_result (onSegment_refused htx d a hseg _),
      computes_result (exec_sginfo_noSegment htx d a hseg)⟩
  · refine ⟨exec_sgfree_frees htx d a hseg hof, exec_sgfree_stalls htx d a hseg hof, fun hp => ⟨?_, ?_⟩, fun hp => ⟨?_, ?_, ?_⟩,
      s.pinResult_leaves d v, exec_sgpref htx d a hseg, computes_result (exec_sginfo htx d a hseg), s.segInfo_size s.cur g⟩
    · exact exec_sgpin_pinned htx d a hseg hp
    · exact exec_sgunpin htx d a hseg hp
    · exact computes_result (exec_sgunpin_refused htx d a hseg hp)
    · exact exec_sgpin_served htx d a hseg hp
    · exact exec_sgpin_failed htx d a hseg hp

end Sys2Proof.Machine
end

section
/-! PROOF. O22: TKPOST, TKWAIT, QPUSH, QPOP and FMTQ (12 R263; 13 R293 to R295). -/

namespace Sys2Proof.Machine

section
variable {s : State} (htx : s.me.tx = none) (d a : Fin 32) (e : Fin 4)
include htx

theorem exec_tkpost (h : s.me.tokenRoom .s (engOf e) = true) :
    exec (.tkpost e) s = .next (s.setMe (s.me.pushToken .s (engOf e))).retire := by
  refine runOp_ok ((Op.bind_ok (noTx_closed htx)).trans ?_)
  rw [if_pos h]
  rfl

theorem exec_tkpost_stalls (h : s.me.tokenRoom .s (engOf e) = false) : exec (.tkpost e) s = .next (s.stallMe (.tkpost (engOf e))) := by
  refine runOp_become ((Op.bind_ok (noTx_closed htx)).trans ?_)
  rw [if_neg (ne_true_of_eq_false h)]
  rfl

theorem exec_tkwait (h : 0 < (s.me.token (engOf e) .s).n) :
    exec (.tkwait e) s = .next ((s.setMe (s.me.popToken (engOf e) .s)).acquire s.cur 0 s.now).retire := by
  refine runOp_ok ((Op.bind_ok (noTx_closed htx)).trans ?_)
  rw [if_pos h]
  rfl

theorem exec_tkwait_waits (h : (s.me.token (engOf e) .s).n = 0) : exec (.tkwait e) s = .next (s.waitMe (.tkwait (engOf e))) := by
  refine runOp_become ((Op.bind_ok (noTx_closed htx)).trans ?_)
  rw [if_neg (by omega)]
  rfl

theorem exec_qpush (h : s.me.eng.ports.v2.length < 32) : exec (.qpush a) s =
    .next (s.mapEng fun e => { e with ports := { e.ports with v2 := e.ports.v2 ++ [s.reg a] } }).retire := by
  refine runOp_ok ((Op.bind_ok (noTx_closed htx)).trans ?_)
  rw [if_pos h]
  rfl

theorem exec_qpush_stalls (h : 32 ≤ s.me.eng.ports.v2.length) : exec (.qpush a) s = .next (s.stallMe .qpush) := by
  refine runOp_become ((Op.bind_ok (noTx_closed htx)).trans ?_)
  rw [if_neg (Nat.not_lt.mpr h)]
  rfl

theorem exec_qpop {n : Nat} {v : Word} {r : List (Nat × Option Word)} (h : s.me.eng.ports.vs = (n, some v) :: r) : exec (.qpop d) s =
    .next ((s.mapEng fun e => { e with ports := { e.ports with vs := r } }).result d v) := by
  refine runOp_ok ((Op.bind_ok (noTx_closed htx)).trans ?_)
  rw [h]
  rfl

theorem exec_qpop_stalls (h : s.me.eng.ports.vs = [] ∨ s.me.eng.ports.vs.head?.map (·.2) = some none) :
    exec (.qpop d) s = .next (s.stallMe .qpop) := by
  refine runOp_become ((Op.bind_ok (noTx_closed htx)).trans ?_)
  match hvs : s.me.eng.ports.vs, h with
  | [], _ => rfl
  | (_, none) :: _, _ => rfl
  | (_, some v) :: _, h => simp at h

theorem exec_fmtq (h : s.me.eng.qs.fq.length < 16) : exec (.fmtq a) s =
    .next (s.mapEng fun e => { e with qs := { e.qs with fq := e.qs.fq ++ [(s.reg a).setWidth 32] } }).retire := by
  refine runOp_ok ((Op.bind_ok (noTx_closed htx)).trans ?_)
  rw [if_pos h]
  rfl

theorem exec_fmtq_stalls (h : 16 ≤ s.me.eng.qs.fq.length) : exec (.fmtq a) s = .next (s.stallMe .fmtq) := by
  refine runOp_become ((Op.bind_ok (noTx_closed htx)).trans ?_)
  rw [if_neg (Nat.not_lt.mpr h)]
  rfl

end

/-! ### What a change of the engines and the end of the instruction leave -/

section
variable (s : State) (f : Engines → Engines)

theorem State.retire_mapEng : (s.mapEng f).retire.me.eng = f s.me.eng ∧ (s.mapEng f).retire.pc = nextPc s.pc ∧
    (∀ r, (s.mapEng f).retire.reg r = s.reg r) ∧ (s.mapEng f).retire.flags = s.flags ∧ s.RestKept (s.mapEng f).retire := by
  refine ⟨?_, ?_, fun r => ?_, ?_, ((State.RestKept.refl s).setMe _).setMe _⟩
  · rw [State.me_retire, State.me_mapEng]
    rfl
  · rw [State.pc_retire, State.pc_mapEng]
  · rw [State.reg_retire, State.reg_mapEng]
  · rw [State.flags_retire, State.flags_mapEng]

theorem State.result_mapEng (d : Fin 32) (v : Word) : ((s.mapEng f).result d v).me.eng = f s.me.eng ∧ ((s.mapEng f).result d v).pc = nextPc s.pc ∧
    s.OnlyReg ((s.mapEng f).result d v) d v ∧ ((s.mapEng f).result d v).flags = s.flags ∧ s.RestKept ((s.mapEng f).result d v) := by
  refine ⟨?_, ?_, fun r => ?_, ?_, (((State.RestKept.refl s).setMe _).setMe _).setMe _⟩
  · rw [State.me_result, State.me_mapEng]
    exact Slot.setActive_eng _ _
  · rw [State.pc_result, State.pc_mapEng]
  · rw [State.reg_result, State.reg_mapEng]
  · rw [State.flags_result, State.flags_mapEng]

end

/-- Settles O22. -/
theorem tokensAndQueues : Obligations.TokensAndQueues := by
  unfold Obligations.TokensAndQueues
  intro s d a e n v r htx
  refine ⟨exec_tkpost htx e, exec_tkpost_stalls htx e, exec_tkwait htx e, exec_tkwait_waits htx e, fun h => ?_, exec_qpush_stalls htx a,
    fun h => ?_, exec_qpop_stalls htx d, fun h => ?_, exec_fmtq_stalls htx a⟩
  · obtain ⟨heng, hrest⟩ := s.retire_mapEng fun e => { e with ports := { e.ports with v2 := e.ports.v2 ++ [s.reg a] } }
    exact ⟨_, exec_qpush htx a h, by rw [heng], hrest⟩
  · obtain ⟨heng, hrest⟩ := s.result_mapEng (fun e => { e with ports := { e.ports with vs := r } }) d v
    exact ⟨_, exec_qpop htx d h, by rw [heng], hrest⟩
  · obtain ⟨heng, hrest⟩ := s.retire_mapEng fun e => { e with qs := { e.qs with fq := e.qs.fq ++ [(s.reg a).setWidth 32] } }
    exact ⟨_, exec_fmtq htx a h, by rw [heng], hrest⟩

end Sys2Proof.Machine
end

section
/-! PROOF. O19: SPAWN, TEND, YIELD and AWAIT (07 R158 to R161). -/

namespace Sys2Proof.Machine

/-- An instruction of a task finds it. -/
theorem withTask_some {s : State} {t : TaskInfo} (htx : s.me.tx = none) (ht : s.me.task = some t) (d : Fin 32) (f : TaskInfo → Op Unit) :
    withTask d f s = f t s := by
  refine (Op.bind_ok (noTx_closed htx)).trans ((Op.bind_ok (Op.get_apply s)).trans ?_)
  rw [ht]

/-! ### SPAWN (R158) -/

/-- Admission by a task answers REFUSED or DROPPED. -/
theorem State.spawnRec_error {s : State} {t : TaskInfo} {r : Rec} {e : Nat} (h : s.spawnRec t r = .error e) : e = 2 ∨ e = 3 := by
  unfold State.spawnRec at h
  simp only at h
  split at h
  next => exact .inr (Except.error.inj h).symm
  next =>
    split at h
    next => exact .inl (Except.error.inj h).symm
    next =>
      split at h
      next => exact .inr (Except.error.inj h).symm
      next => cases h

/-- SPAWN with the words of a record that it has read. -/
def State.spawnEnd (z : State) (d : Fin 32) (t : TaskInfo) (l : List Word) : State :=
  match z.readRecord t.part z.me.ctx.root l false with
  | none => z.result d 3
  | some r =>
    if z.canReserve t.part r.info.caps = false ∨ z.owned z.cur.core t.part t.serial ≥ t.caps.deque then z.result d 3
    else match z.spawnRec t r with
      | .error e => z.result d (word e)
      | .ok (w, x) => (w.pushHead z.cur.core { x with owner := some t.serial }).result d 0

theorem exec_spawn {s u v : State} {t : TaskInfo} {l : List Word} (d a : Fin 32) (htx : s.me.tx = none) (ht : s.me.task = some t)
    (hm : memOperand (s.reg a) 64 0 s = .ok ((), s)) (hl : wordsAt (s.reg a) 0 2 s = .ok (l, u)) (hr : releaseOp 5 u = .ok ((), v))
    (hw : v.headerWants t.part s.me.ctx.root l = []) : exec (.spawn d a) s = .next ((v.forget t.part).spawnEnd d t l) := by
  refine runOp_ok ((withTask_some htx ht d _).trans ((Op.bind_ok hm).trans ((Op.bind_ok hl).trans ((Op.bind_ok hr).trans
    ((Op.bind_ok (Op.get_apply v)).trans ((Op.bind_ok (askOp_nil hw)).trans ((Op.bind_ok (Op.get_apply v)).trans ?_)))))))
  unfold State.spawnEnd
  generalize v.forget t.part = z
  cases z.readRecord t.part z.me.ctx.root l false with
  | none => rfl
  | some r =>
    simp only
    split
    next => rfl
    next => cases z.spawnRec t r <;> rfl

section
variable {z w : State} (d : Fin 32) {t : TaskInfo} {l : List Word} {r x : Rec}

theorem State.spawnEnd_unreadable (h : z.readRecord t.part z.me.ctx.root l false = none) : z.spawnEnd d t l = z.result d 3 := by
  unfold State.spawnEnd
  split
  next => rfl
  next hr => exact nomatch h.symm.trans hr

/-- One that is read is pushed, refused or dropped. -/
theorem State.spawnEnd_read (h : z.readRecord t.part z.me.ctx.root l false = some r) : z.spawnEnd d t l =
    if z.canReserve t.part r.info.caps = false ∨ z.owned z.cur.core t.part t.serial ≥ t.caps.deque then z.result d 3
    else match z.spawnRec t r with
      | .error e => z.result d (word e)
      | .ok (w, x) => (w.pushHead z.cur.core { x with owner := some t.serial }).result d 0 := by
  unfold State.spawnEnd
  split
  next hr => exact nomatch h.symm.trans hr
  next q hr =>
    obtain rfl : r = q := Option.some.inj (h.symm.trans hr)
    cases z.spawnRec t r <;> rfl

variable (h : z.readRecord t.part z.me.ctx.root l false = some r)
include h

theorem State.spawnEnd_full (hf : z.canReserve t.part r.info.caps = false ∨ t.caps.deque ≤ z.owned z.cur.core t.part t.serial) :
    z.spawnEnd d t l = z.result d 3 := (State.spawnEnd_read d h).trans (if_pos hf)

variable (hc : z.canReserve t.part r.info.caps = true) (ho : z.owned z.cur.core t.part t.serial < t.caps.deque)
include hc ho

theorem State.spawnEnd_room : z.spawnEnd d t l = match z.spawnRec t r with
    | .error e => z.result d (word e)
    | .ok (w, x) => (w.pushHead z.cur.core { x with owner := some t.serial }).result d 0 := by
  have hroom : ¬(z.canReserve t.part r.info.caps = false ∨ z.owned z.cur.core t.part t.serial ≥ t.caps.deque) := by
    rintro (hno | hno)
    · exact ne_false_of_eq_true hc hno
    · exact Nat.not_lt.mpr hno ho
  exact (State.spawnEnd_read d h).trans ((if_neg hroom).trans (by cases z.spawnRec t r <;> rfl))

end

/-! ### TEND and waits (R97, R159 to R161) -/

/-- TEND marks the end of the task. -/
theorem exec_tend {s : State} (htx : s.me.tx = none) (ht : s.me.task.isSome = true) :
    exec .tend s = .next (s.setMe { s.me.issued s.cycle with sched := { (s.me.issued s.cycle).sched with ended := true } }) := by
  obtain ⟨t, ht⟩ := Option.isSome_iff_exists.mp ht
  refine runOp_ok ((Op.bind_ok (noTx_closed htx)).trans ?_)
  rw [ht]
  rfl

theorem exec_yield {s : State} (htx : s.me.tx = none) : exec .yield s = .next (s.waitMe .yield) := runOp_become (Op.bind_ok (noTx_closed htx))

/-- A slot that begins to wait stays at its word with its registers. -/
theorem State.waitMe_leaves (s : State) (w : Wait) : (s.waitMe w).me.status = .waiting w ∧ (s.waitMe w).pc = s.pc ∧
    (∀ r, (s.waitMe w).reg r = s.reg r) ∧ (s.waitMe w).flags = s.flags ∧ s.RestKept (s.waitMe w) :=
  ⟨congrArg Slot.status (State.me_setMe _ _), State.pc_setMe _ _, State.reg_setMe _ _, State.flags_setMe _ _, (State.RestKept.refl s).setMe _⟩

section
variable {s u q v : State} (d a b : Fin 32) {t : Target} {g : Granule} {x : Word} (htx : s.me.tx = none)
  (hm : memOperand (s.reg a) 8 8 s = .ok ((), s)) (ht : memTarget (s.reg a) 8 .load s = .ok (t, u)) (hd : drainOp u = .ok ((), q))
  (hg : homeOp t .read q = .ok (g, v)) (hc : consume g [] t.loc t.off 8 (s.reg a) 8 v = .ok (x, v))
include htx hm ht hd hg hc

/-- An AWAIT that has read its word decides. -/
theorem exec_await_read : exec (.await d a b) s = runOp (fun _ => (if (s.reg b).toNat ≤ x.toNat then resultOp d 0
    else waitOp (.await d (s.reg a) (s.reg b) t.loc)) (v.acquire v.cur 5 v.me.binds.last)) s := by
  have e : exec (.await d a b) s = execAwait d a b s := rfl
  rw [e, execAwait]
  unfold runOp
  simp only [awaitOp]
  rw [Op.bind_ok (noTx_closed htx), Op.bind_ok hm, Op.bind_ok ht, Op.bind_ok hd, Op.bind_ok hg, Op.bind_ok hc, Op.bind_ok (Op.modify_apply _ v)]

theorem exec_await_reached (h : (s.reg b).toNat ≤ x.toNat) :
    exec (.await d a b) s = .next ((v.acquire v.cur 5 v.me.binds.last).result d 0) := by
  rw [exec_await_read d a b htx hm ht hd hg hc, if_pos h]
  rfl

theorem exec_await_waits (h : x.toNat < (s.reg b).toNat) :
    exec (.await d a b) s = .next ((v.acquire v.cur 5 v.me.binds.last).waitMe (.await d (s.reg a) (s.reg b) t.loc)) := by
  rw [exec_await_read d a b htx hm ht hd hg hc, if_neg (Nat.not_le.mpr h)]
  rfl

end

/-- Settles O19. -/
theorem spawnEndYieldAwait : Obligations.SpawnEndYieldAwait := by
  unfold Obligations.SpawnEndYieldAwait
  refine ⟨fun s u v w d a t l r x htx ht hm hl hr hw => ?_, fun s u q v d a b t g x htx => ⟨fun ht => ?_, ?_, fun hm ht hd hg hc => ?_⟩⟩
  · have hexec := exec_spawn d a htx ht hm hl hr hw
    intro z
    refine ⟨fun h => ?_, fun h => ⟨fun hf => ?_, fun hc ho => ⟨fun hs => ?_, fun e hs => ⟨State.spawnRec_error hs, ?_⟩⟩⟩⟩
    · rw [hexec, State.spawnEnd_unreadable d h]
    · rw [hexec, State.spawnEnd_full d h hf]
    · rw [hexec, State.spawnEnd_room d h hc ho, hs]
    · rw [hexec, State.spawnEnd_room d h hc ho, hs]
  · exact ⟨_, exec_tend htx ht, congrArg (fun x : Slot => x.sched.ended) (State.me_setMe _ _), State.pc_setMe _ _, State.reg_setMe _ _,
      State.flags_setMe _ _, (State.RestKept.refl s).setMe _⟩
  · exact ⟨_, exec_yield htx, s.waitMe_leaves .yield⟩
  · intro w
    exact ⟨exec_await_reached d a b htx hm ht hd hg hc, fun h => ⟨_, exec_await_waits d a b htx hm ht hd hg hc h, w.waitMe_leaves _⟩⟩

end Sys2Proof.Machine
end

section
/-! PROOF. O20: domains and barriers (05 R118 to R120; 07 R162). -/

namespace Sys2Proof.Machine

/-! ### Joining and leaving (R118) -/

section
variable {s u : State} {t : TaskInfo} (htx : s.me.tx = none) (ht : s.me.task = some t) (d a : Fin 32) (l : Fin 8)
include htx ht

theorem exec_domjoin_refused (h : (s.reg a).toNat = 0 ∨ 2 ^ 16 ≤ (s.reg a).toNat ∨ s.me.dom l.val ≠ 0) :
    exec (.domjoin d a l) s = .next (s.result d 3) := by
  refine runOp_ok ((withTask_some htx ht d _).trans ?_)
  simp only
  rw [if_pos (h.imp_right (·.imp_right .inl))]
  rfl

section
variable (h1 : 1 ≤ (s.reg a).toNat) (h2 : (s.reg a).toNat < 2 ^ 16) (h0 : s.me.dom l.val = 0)
include h1 h2 h0

theorem exec_domjoin_here (hhome : s.domHome t.part l.val (s.reg a).toNat = none)
    (hj : s.domJoin t.part s.cur.core (taskNo t.part t.serial) l.val (s.reg a).toNat = some u) :
    exec (.domjoin d a l) s = .next ((u.setMe (u.me.setDom l.val (s.reg a).toNat)).result d 0) := by
  refine runOp_ok ((withTask_some htx ht d _).trans ?_)
  have hok : ¬((s.reg a).toNat = 0 ∨ (s.reg a).toNat ≥ 2 ^ 16 ∨ s.me.dom l.val ≠ 0 ∨
      ((none : Option Nat).isSome = true ∧ s.fgid t.part = 0)) := by
    simp only [Option.isSome_none, Bool.false_eq_true, false_and, or_false]
    omega
  simp only [hhome, if_neg hok, hj]
  rfl

theorem exec_domjoin_far {dev : Nat} {x : Granule} (hhome : s.domHome t.part l.val (s.reg a).toNat = some dev) (hf : s.fgid t.part ≠ 0)
    (hask : domAskOp t dev (s.reg a).toNat .join s = .ok (x, u)) (hx : domStatus x = 0) :
    let v := u.domMirror t.part u.cur.core (taskNo t.part t.serial) l.val (s.reg a).toNat (domAnswerPhase x)
    exec (.domjoin d a l) s = .next ((v.setMe (v.me.setDom l.val (s.reg a).toNat)).result d 0) := by
  refine runOp_ok ((withTask_some htx ht d _).trans ?_)
  have hok : ¬((s.reg a).toNat = 0 ∨ (s.reg a).toNat ≥ 2 ^ 16 ∨ s.me.dom l.val ≠ 0 ∨
      ((some dev).isSome = true ∧ s.fgid t.part = 0)) := by
    simp only [Option.isSome_some, true_and]
    omega
  simp only [hhome, if_neg hok]
  refine (Op.bind_ok hask).trans ?_
  rw [if_neg (not_not_intro hx)]
  rfl

end

section
variable (hm : s.memberAt t s.me l.val = none)
include hm

theorem exec_domleave_none : exec (.domleave d l) s = .next (s.result d 3) := by
  refine runOp_ok ((withTask_some htx ht d _).trans ?_)
  rw [hm]
  rfl

theorem exec_bardecl_none : exec (.bardecl d a l) s = .next (s.result d 3) := by
  refine runOp_ok ((withTask_some htx ht d _).trans ?_)
  rw [hm]
  rfl

theorem exec_bararr_none : exec (.bararr d l) s = .next (s.result d 3) := by
  refine runOp_ok ((withTask_some htx ht d _).trans ?_)
  rw [hm]
  rfl

theorem exec_barwait_none : exec (.barwait d l) s = .next (s.result d 3) := by
  refine runOp_ok ((withTask_some htx ht d _).trans ?_)
  rw [hm]
  rfl

end

/-! ### The instructions of a member (R119, R120) -/

section
variable {id : Nat} {m : Member} (hm : s.memberAt t s.me l.val = some (id, m))
include hm

section
variable (hhome : s.domHome t.part l.val id = none)
include hhome

theorem exec_domleave_here :
    let v := s.mapDom t.part l.val id fun x => x.leave (taskNo t.part t.serial)
    exec (.domleave d l) s = .next ((v.setMe (v.me.setDom l.val 0)).result d 0) := by
  refine runOp_ok ((withTask_some htx ht d _).trans ?_)
  simp only [hm, hhome]
  rfl

section
variable (hn : (s.reg a).toNat < 2 ^ 40) (hc : (if m.decl then m.count else 0) + (s.reg a).toNat < 2 ^ 40) (harr : m.arr = false)
include hn hc harr

theorem exec_bardecl_here (hb : m.broken = false) :
    exec (.bardecl d a l) s = .next ((s.mapMe t l.val id fun m => m.declare (s.reg a).toNat).result d 0) := by
  refine runOp_ok ((withTask_some htx ht d _).trans ?_)
  simp only [hm, hhome, ge_iff_le, Nat.not_le.mpr hn, Nat.not_le.mpr hc, harr, hb, Bool.false_eq_true, or_self, if_false]
  rfl

theorem exec_bardecl_broken (hb : m.broken = true) : exec (.bardecl d a l) s = .next (s.result d 4) := by
  refine runOp_ok ((withTask_some htx ht d _).trans ?_)
  simp only [hm, hhome, ge_iff_le, Nat.not_le.mpr hn, Nat.not_le.mpr hc, harr, hb, Bool.false_eq_true, or_self, if_false, if_true]
  rfl

end

theorem exec_bararr_here (harr : m.arr = false) (hb : m.broken = false) (hr : releaseOp l.val s = .ok ((), u)) :
    exec (.bararr d l) s = .next ((u.mapMe t l.val id Member.arrive).result d 0) := by
  refine runOp_ok ((withTask_some htx ht d _).trans ?_)
  simp only [hm, hhome, harr, hb, Bool.false_eq_true, if_false]
  exact Op.bind_ok hr

theorem exec_bararr_broken (harr : m.arr = false) (hb : m.broken = true) :
    exec (.bararr d l) s = .next ((s.mapMe t l.val id fun m => { m with broken := false }).result d 4) := by
  refine runOp_ok ((withTask_some htx ht d _).trans ?_)
  simp only [hm, hhome, harr, hb, Bool.false_eq_true, if_false, if_true]
  rfl

end

section
variable {dev : Nat} (hhome : s.domHome t.part l.val id = some dev) {x : Granule}
include hhome

theorem exec_domleave_far (hask : domAskOp t dev id .leave s = .ok (x, u)) :
    let v := u.mapDom t.part l.val id fun x => x.without (taskNo t.part t.serial)
    exec (.domleave d l) s = .next ((v.setMe (v.me.setDom l.val 0)).result d 0) := by
  refine runOp_ok ((withTask_some htx ht d _).trans ?_)
  simp only [hm, hhome]
  exact Op.bind_ok hask

theorem exec_bardecl_far (hn : (s.reg a).toNat < 2 ^ 40) (hask : domAskOp t dev id (.declare (s.reg a).toNat) s = .ok (x, u)) :
    exec (.bardecl d a l) s = .next (u.result d (word (domStatus x))) := by
  refine runOp_ok ((withTask_some htx ht d _).trans ?_)
  simp only [hm, hhome, ge_iff_le, Nat.not_le.mpr hn, if_false]
  exact Op.bind_ok hask

theorem exec_bararr_far {r : State} (harr : m.arr = false) (hr : releaseOp l.val s = .ok ((), r))
    (hask : domAskOp t dev id .arrive r = .ok (x, u)) (hx : domStatus x ≠ 0) :
    exec (.bararr d l) s = .next (u.result d (word (domStatus x))) := by
  refine runOp_ok ((withTask_some htx ht d _).trans ?_)
  simp only [hm, hhome, harr, Bool.false_eq_true, if_false]
  rw [Op.bind_ok hr, Op.bind_ok hask, Op.modify_apply, if_neg hx]

end

theorem exec_bararr_again (harr : m.arr = true) : exec (.bararr d l) s = .next (s.result d 3) := by
  refine runOp_ok ((withTask_some htx ht d _).trans ?_)
  simp only [hm, harr, if_true]
  rfl

theorem exec_barwait_ended {r : PhaseEnd} (hr : m.result = some r) :
    exec (.barwait d l) s = .next (s.barReturn s.cur t d l.val id m r) := by
  refine runOp_ok ((withTask_some htx ht d _).trans ?_)
  simp only [hm, hr]
  rfl

theorem exec_barwait_waits (hr : m.result = none) (harr : m.arr = true) : exec (.barwait d l) s = .next (s.waitMe (.barwait d l)) := by
  refine runOp_become ((withTask_some htx ht d _).trans ?_)
  simp only [hm, hr, harr, if_true]
  rfl

end

end

/-! ### The return of a BARWAIT (R120, R217) -/

/-- What neither a write at a home, nor a load block's lines, nor an acquire point changes of a slot, an acquire leaves. -/
theorem State.acquire_keeps {β : Type} (g : Slot → β) (hn : ∀ x l, g (x.noted l) = g x) (hb : ∀ (x : Slot) b, g { x with blocks := b } = g x)
    (hl : ∀ x n, g (x.loadsFrom n) = g x) (s : State) (i : SlotId) (c n : Nat) : g ((s.acquire i c n).slotOf i) = g (s.slotOf i) := by
  have hclean : g ((s.dropClean i.core).slotOf i) = g (s.slotOf i) := by
    refine (tget_map_congr (g := g) (fun e => ?_) (fun e => ?_) Slot.initial _ _).trans ?_
    · split <;> rfl
    · split
      next => exact hb _ _
      next => rfl
    · show g ((s.evictSome i.core (s.mixedLines i.core)).slotOf i) = _
      obtain ⟨ls, hls⟩ := (State.Moves.evictSome s i.core (s.mixedLines i.core)).learn i
      rw [hls]
      exact List.foldlRecOn ls Slot.noted (motive := fun x : Slot => g x = g (s.slotOf i)) rfl fun _ hx _ _ => (hn _ _).trans hx
  unfold State.acquire
  rw [State.slotOf_mapSlot_self, hl]
  split
  next => exact hclean
  next => rfl

theorem State.cur_acquire (s : State) (i : SlotId) (c n : Nat) : (s.acquire i c n).cur = s.cur := by
  unfold State.acquire
  rw [State.mapSlot_cur]
  split
  next => exact State.cur_dropClean s i.core
  next => rfl

section
variable {s : State} {t : TaskInfo} {d : Fin 32} {l id : Nat} {m : Member} {r : PhaseEnd} (h : m.overrun = none ∨ r = .broken)
include h

theorem State.barReturn_of_noTrap : s.barReturn s.cur t d l id m r =
    let u := s.acquire s.cur (max l 1) s.now
    let x := u.slotOf s.cur
    (u.mapDom t.part l id fun y => y.mapMember (taskNo t.part t.serial) fun m => { m with result := none, overrun := none }).setMe
      { (x.setActive (x.active.set d (if r = .broken then 4 else 0))).issued u.cycle with pc := nextPc x.pc, status := .ready } := by
  have hcur : ∀ f, ((s.acquire s.cur (max l 1) s.now).mapDom t.part l id f).cur = s.cur := fun _ => s.cur_acquire s.cur (max l 1) s.now
  unfold State.barReturn State.setMe
  simp only [hcur]
  cases r with
  | ok n =>
    rw [h.resolve_right PhaseEnd.noConfusion]
    rfl
  | broken => rfl

theorem State.barReturn_leaves :
    let u := s.barReturn s.cur t d l id m r
    (∀ q, u.reg q = if q = d ∧ q ≠ 0 then (if r = .broken then 4 else 0) else s.reg q) ∧ u.pc = nextPc s.pc ∧
      u.me.status = .ready ∧ u.flags = s.flags ∧ u.mem = (s.acquire s.cur (max l 1) s.now).mem := by
  have hactive := s.acquire_keeps Slot.active (fun _ _ => rfl) (fun _ _ => rfl) (fun _ _ => rfl) s.cur (max l 1) s.now
  have hpc := s.acquire_keeps Slot.pc (fun _ _ => rfl) (fun _ _ => rfl) (fun _ _ => rfl) s.cur (max l 1) s.now
  intro u
  have hu := State.barReturn_of_noTrap (s := s) (t := t) (d := d) (l := l) (id := id) h
  generalize s.acquire s.cur (max l 1) s.now = v at hactive hpc hu
  have hbank : u.me.active = (v.slotOf s.cur).active.set d (if r = .broken then 4 else 0) := by
    rw [show u = _ from hu, State.me_setMe]
    exact Slot.active_setActive (v.slotOf s.cur) _
  refine ⟨fun q => ?_, ?_, ?_, ?_, ?_⟩
  · rw [State.reg, hbank, Bank.get_set, hactive]
    rfl
  · rw [show u = _ from hu, State.pc_setMe]
    exact congrArg nextPc hpc
  · rw [show u = _ from hu, State.me_setMe]
  · rw [State.flags, hbank, Bank.set_flags, hactive]
    rfl
  · rw [show u = _ from hu]
    rfl

end

/-- Settles O20. -/
theorem domains : Obligations.Domains := by
  unfold Obligations.Domains
  refine ⟨fun s u d a l t id dev m x htx ht => ?_, fun s t d l id m r h => State.barReturn_leaves h⟩
  intro n
  refine ⟨exec_domjoin_here htx ht d a l, fun h1 h2 h0 => exec_domjoin_far htx ht d a l h1 h2 h0, fun h => computes_result (exec_domjoin_refused htx ht d a l h),
    fun hm => ⟨?_, ?_, ?_, ?_⟩, fun hm => ⟨fun hhome => ⟨?_, fun hn hc harr => ⟨?_, fun hb => ?_⟩, ?_, ?_⟩, fun hhome => ⟨?_, ?_, ?_⟩,
      fun harr => ?_, fun r => ?_, ?_⟩⟩
  · exact computes_result (exec_domleave_none htx ht d l hm)
  · exact computes_result (exec_bardecl_none htx ht d a l hm)
  · exact computes_result (exec_bararr_none htx ht d l hm)
  · exact computes_result (exec_barwait_none htx ht d l hm)
  · exact exec_domleave_here htx ht d l hm hhome
  · exact exec_bardecl_here htx ht d a l hm hhome hn hc harr
  · exact computes_result (exec_bardecl_broken htx ht d a l hm hhome hn hc harr hb)
  · exact exec_bararr_here htx ht d l hm hhome
  · exact exec_bararr_broken htx ht d l hm hhome
  · exact exec_domleave_far htx ht d l hm hhome
  · exact exec_bardecl_far htx ht d a l hm hhome
  · exact fun r => exec_bararr_far htx ht d l hm hhome
  · exact computes_result (exec_bararr_again htx ht d l hm harr)
  · exact exec_barwait_ended htx ht d l hm
  · exact exec_barwait_waits htx ht d l hm

end Sys2Proof.Machine
end

section
/-! PROOF. O21: SCNEW, CANCEL, CANCELWAIT and GRUN (07 R163, R164; 17 R351, R352). -/

namespace Sys2Proof.Machine

section
variable {s u v w y : State} (htx : s.me.tx = none) {t : TaskInfo} (ht : s.me.task = some t) (d a : Fin 32)
include htx ht

/-! ### SCNEW (R163) -/

section
variable {x : Target} (hm : memOperand (s.reg a) 16 24 s = .ok ((), s)) (hx : memTarget (s.reg a) 24 .store s = .ok (x, u))
  (hroom : (u.partOf t.part).withRoot.scopes.length < 4096)
include hm hx hroom

theorem exec_scnew_cancelled (hc : (u.partOf t.part).withRoot.cancelled t.scope = true) : exec (.scnew d a) s = .next (u.result d 2) := by
  refine runOp_ok ((withTask_some htx ht d _).trans ((Op.bind_ok hm).trans ((Op.bind_ok hx).trans ((Op.bind_ok (Op.get_apply u)).trans ?_))))
  simp only [ge_iff_le, Nat.not_le.mpr hroom, if_false, hc, if_true]
  rfl

theorem exec_scnew_creates {k pa id : Nat} {z : PageUse} (hxm : x = .mem k pa z)
    (hc : (u.partOf t.part).withRoot.cancelled t.scope = false) (hid : freeScope (u.partOf t.part).withRoot 1 65535 = some id)
    (hd : drainOp u = .ok ((), v)) (hl : v.isLocked x.loc = false) (h1 : storeNow x (s.reg a) s.pc 0 v = .ok ((), w))
    (h2 : storeNow (.mem k (pa + 8) z) (s.reg a + 8) s.pc (word id) w = .ok ((), y)) :
    exec (.scnew d a) s = .next ((y.mapPart t.part fun q =>
      let q := q.withRoot
      { q with scopes := q.scopes ++
        [⟨id, t.scope, some t.serial, 0, false, some (y.me.ctx.root, bitsOf (s.reg a) 0 48), false, 0, 0, []⟩] }).result d 0) := by
  refine runOp_ok ((withTask_some htx ht d _).trans ((Op.bind_ok hm).trans ((Op.bind_ok hx).trans ((Op.bind_ok (Op.get_apply u)).trans ?_))))
  simp only [ge_iff_le, Nat.not_le.mpr hroom, if_false, hc, Bool.false_eq_true, hid]
  subst hxm
  rw [Op.bind_ok hd, Op.bind_ok (unlockedOp_ok hl), Op.bind_ok h1, Op.bind_ok h2]
  rfl

end

/-! ### CANCEL and CANCELWAIT (R351, R352) -/

theorem exec_cancel_marks (hn : (s.reg a).toNat < 2 ^ 16)
    (hid : ((s.partOf (s.partNo s.cur.core)).withRoot.scope (s.reg a).toNat).isSome = true)
    (hin : s.me.level = .task → (s.partOf (s.partNo s.cur.core)).withRoot.within (s.reg a).toNat t.scope = true)
    (hr : releaseOp 5 s = .ok ((), u)) : exec (.cancel d a) s =
      .next (((u.mapPart (s.partNo s.cur.core) fun q => q.withRoot.markScope (s.reg a).toNat u.cycle).result d 0).mapSlot u.cur fun y =>
        y.cancelsSelf (s.partOf (s.partNo s.cur.core)).withRoot (s.reg a).toNat) := by
  refine runOp_ok ((Op.bind_ok (noTx_closed htx)).trans ?_)
  have hok : ¬((s.reg a).toNat ≥ 2 ^ 16 ∨ ((s.partOf (s.partNo s.cur.core)).withRoot.scope (s.reg a).toNat).isNone = true ∨
      (s.me.level = .task ∧ (s.partOf (s.partNo s.cur.core)).withRoot.within (s.reg a).toNat t.scope = false)) := by
    rintro (h | h | ⟨hlevel, h⟩)
    · exact Nat.not_le.mpr hn h
    · rw [Option.isNone_iff_eq_none.mp h] at hid
      cases hid
    · rw [hin hlevel] at h
      cases h
  simp only [ht, Option.map_some, Option.getD_some, hok, if_false]
  exact Op.bind_ok hr

omit ht in
theorem exec_cancel_refused (h : 2 ^ 16 ≤ (s.reg a).toNat ∨ (s.partOf (s.partNo s.cur.core)).withRoot.scope (s.reg a).toNat = none) :
    exec (.cancel d a) s = .next (s.result d 3) := by
  refine runOp_ok ((Op.bind_ok (noTx_closed htx)).trans ?_)
  rw [if_pos (h.imp_right fun h => .inl (by rw [h]; rfl))]
  rfl

section
variable (hn : (s.reg a).toNat < 2 ^ 16) (hid : ((s.partOf t.part).withRoot.scope (s.reg a).toNat).isSome = true)
  (hin : (s.partOf t.part).withRoot.within (s.reg a).toNat t.scope = true)
  (hc : (s.partOf t.part).withRoot.cancelled (s.reg a).toNat = true)
include hn hid hin hc

/-- CANCELWAIT of a cancelled scope within reach asks whether it can be acknowledged. -/
theorem exec_cancelwait_reach : exec (.cancelwait d a) s = runOp (if s.ackReady t.part (s.reg a).toNat = false then
    stallOp (.cancel (s.reg a).toNat)
      else modify fun z => (((z.acknowledge t.part (s.reg a).toNat).acquire z.cur 5 z.now).result d 0).reap t.part) s := by
  have hok : ¬((s.reg a).toNat ≥ 2 ^ 16 ∨ ((s.partOf t.part).withRoot.scope (s.reg a).toNat).isNone = true ∨
      (s.partOf t.part).withRoot.within (s.reg a).toNat t.scope = false ∨
      (s.partOf t.part).withRoot.cancelled (s.reg a).toNat = false) := by
    rintro (h | h | h | h)
    · exact Nat.not_le.mpr hn h
    · rw [Option.isNone_iff_eq_none.mp h] at hid
      cases hid
    · exact ne_false_of_eq_true hin h
    · exact ne_false_of_eq_true hc h
  have e : exec (.cancelwait d a) s = execCancelwait d a s := rfl
  rw [e, execCancelwait]
  unfold runOp
  rw [withTask_some htx ht]
  simp only [hok, if_false]

theorem exec_cancelwait_acknowledges (hr : s.ackReady t.part (s.reg a).toNat = true) : exec (.cancelwait d a) s =
    .next ((((s.acknowledge t.part (s.reg a).toNat).acquire s.cur 5 s.now).result d 0).reap t.part) := by
  rw [exec_cancelwait_reach htx ht d a hn hid hin hc, if_neg (ne_false_of_eq_true hr)]
  rfl

theorem exec_cancelwait_stalls (hr : s.ackReady t.part (s.reg a).toNat = false) :
    exec (.cancelwait d a) s = .next (s.stallMe (.cancel (s.reg a).toNat)) := by
  rw [exec_cancelwait_reach htx ht d a hn hid hin hc, if_pos hr]
  rfl

end

theorem exec_cancelwait_refused (hc : (s.partOf t.part).withRoot.cancelled (s.reg a).toNat = false) :
    exec (.cancelwait d a) s = .next (s.result d 3) := by
  refine runOp_ok ((withTask_some htx ht d _).trans ?_)
  rw [if_pos (.inr (.inr (.inr hc)))]
  rfl

omit htx ht in
/-- A scope with live tasks is not acknowledged. -/
theorem State.ackReady_of_tasks {p : Fin 16} {n : Nat} (h : (s.partOf p).taskCount n ≠ 0) : s.ackReady p n = false := by
  rw [State.ackReady, beq_false_of_ne h]
  rfl

/-! ### GRUN (R164) -/

section
variable {l : List Word} (hm : memOperand (s.reg a) 64 0 s = .ok ((), s)) (hl : wordsAt (s.reg a) 0 2 s = .ok (l, u))
  (hr : releaseOp 5 u = .ok ((), v))
include hm hl hr

theorem exec_grun_malformed (hg : graphOf l = none) : exec (.grun d a) s = .next (v.result d 3) := by
  refine runOp_ok ((withTask_some htx ht d _).trans ((Op.bind_ok hm).trans ((Op.bind_ok hl).trans ((Op.bind_ok hr).trans ?_))))
  rw [hg]
  rfl

variable {g : Graph} (hg : graphOf l = some g) (hw : v.graphWants t.part s.me.ctx.root g = [])
include hg hw

theorem exec_grun_runs :
    let z := v.forget t.part
    exec (.grun d a) s = .next (match z.graphRun t z.me.ctx.root (bitsOf (s.reg a) 0 48) g with
      | .error e => z.result d (word e)
      | .ok w => w.result d 0) := by
  intro z
  refine runOp_ok ((withTask_some htx ht d _).trans ((Op.bind_ok hm).trans ((Op.bind_ok hl).trans ((Op.bind_ok hr).trans ?_))))
  rw [hg]
  refine (Op.bind_ok (Op.get_apply v)).trans ((Op.bind_ok (askOp_nil hw)).trans ((Op.bind_ok (Op.get_apply v)).trans ?_))
  show (match z.graphRun t z.me.ctx.root (bitsOf (s.reg a) 0 48) g with
    | .error e => set (z.result d (word e))
    | .ok w => set (w.result d 0) : Op Unit) v = _
  cases z.graphRun t z.me.ctx.root (bitsOf (s.reg a) 0 48) g <;> rfl

end

end

/-- Settles O21. -/
theorem scopesAndGraphs : Obligations.ScopesAndGraphs := by
  unfold Obligations.ScopesAndGraphs
  refine ⟨fun s u v w y d a t x id htx ht => ?_, fun s u v w d a t l g htx ht hm hl hr => ⟨fun hg => ?_, fun hg hw => ?_⟩⟩
  · intro n
    refine ⟨fun hm hx => ?_, ⟨fun hn hid hin hr => ?_, fun h => ?_⟩, ⟨fun hn hid hin hc => ⟨?_, ?_, ?_⟩, fun hc => ?_⟩⟩
    · intro q hroom
      exact ⟨exec_scnew_cancelled htx ht d a hm hx hroom,
        fun hc hid hd hl h1 k pa z hxm h2 => exec_scnew_creates htx ht d a hm hx hroom hxm hc hid hd hl h1 h2⟩
    · exact exec_cancel_marks htx ht d a hn hid hin hr
    · exact computes_result (exec_cancel_refused htx d a h)
    · exact exec_cancelwait_acknowledges htx ht d a hn hid hin hc
    · exact exec_cancelwait_stalls htx ht d a hn hid hin hc
    · exact State.ackReady_of_tasks
    · exact computes_result (exec_cancelwait_refused htx ht d a hc)
  · exact exec_grun_malformed htx ht d a hm hl hr hg
  · intro z
    have hexec := exec_grun_runs htx ht d a hm hl hr hg hw
    refine ⟨fun hw => ?_, fun e he => ?_⟩
    · rw [hexec, show v.forget t.part = z from rfl, hw]
    · rw [hexec, show v.forget t.part = z from rfl, he]

end Sys2Proof.Machine
end

section
/-! PROOF. O31: ACCSPILL and ACCFILL (17 R359). -/

namespace Sys2Proof.Machine

theorem physical_ok {pa : Nat} {s : State} (h : physOf pa ≠ .hole) : physical pa s = .ok ((), s) := by
  rw [physical, if_neg h]
  rfl

theorem csaAligned_iff {a : Word} : csaAligned a = true ↔ a.toNat % 2 ^ 17 = 0 := decide_eq_true_iff

/-- Whose bank ACCSPILL stores: the running task's of the area, or none where the area's context is saved. -/
def State.spillOwner (s : State) (pa : Nat) : Option SlotId :=
  if (s.saveGet (s.partNo s.cur.core) (pa + 8)).getLsbD 0 then none else s.ownerOf s.cur.core pa

/-- The bank carries the tag of the area's context. -/
def State.spillTagged (s : State) (pa n : Nat) : Bool :=
  match s.bankTag s.cur.core n with
  | some t => t.ctx.toNat == bitsOf (s.saveGet (s.partNo s.cur.core) (pa + 8)) 24 8
  | none => false

section
variable {s : State} (htx : s.me.tx = none) (hlevel : s.me.level ≠ .task) (d a b : Fin 32) (hn : (s.reg a).toNat ≤ 47)
  (ha : (s.reg b).toNat % 2 ^ 17 = 0) (hpa : physOf (s.reg b).toNat ≠ .hole)
include htx hlevel hn ha hpa

/-- ACCSPILL of a bank number and an area that are in range. -/
theorem exec_accspill : exec (.accspill d a b) s = runOp (
    if ((s.saveGet (s.partNo s.cur.core) ((s.reg b).toNat + 8)).getLsbD 0 = false ∧ (s.spillOwner (s.reg b).toNat).isNone = true) ∨
        s.spillTagged (s.reg b).toNat (s.reg a).toNat = false ∨ s.bankSplit s.cur.core (s.reg a).toNat = true then resultOp d 3
    else if (s.spillOwner (s.reg b).toNat).isSome && s.bankBusy s.cur.core (s.reg a).toNat then stallOp (.acc (s.reg a).toNat)
    else do
      physical ((s.saveGet (s.partNo s.cur.core) ((s.reg b).toNat + 0x40)).toNat + 65536 * (s.reg a).toNat)
      modify fun z => (z.spillBank s.cur.core (s.partNo s.cur.core) (s.reg b).toNat (s.reg a).toNat (s.spillOwner (s.reg b).toNat)).result d 0) s := by
  have hrange : ¬((s.reg a).toNat > 47 ∨ csaAligned (s.reg b) = false) := by
    rw [csaAligned_iff.mpr ha]
    simp only [Bool.true_eq_false, or_false]
    omega
  have e : exec (.accspill d a b) s = execAccspill d a b s := rfl
  rw [e, execAccspill]
  unfold runOp
  simp only
  rw [Op.bind_ok (needLevel_ok _ (supervisor_le hlevel)), Op.bind_ok (noTx_closed htx), if_neg hrange, Op.bind_ok (physical_ok hpa)]
  unfold State.spillTagged State.spillOwner
  cases s.bankTag s.cur.core (s.reg a).toNat <;> rfl

section
variable {t : BankTag} (htag : s.bankTag s.cur.core (s.reg a).toNat = some t)
  (hctx : t.ctx.toNat = bitsOf (s.saveGet (s.partNo s.cur.core) ((s.reg b).toNat + 8)) 24 8)
  (hsplit : s.bankSplit s.cur.core (s.reg a).toNat = false)
  (hbase : physOf ((s.saveGet (s.partNo s.cur.core) ((s.reg b).toNat + 0x40)).toNat + 65536 * (s.reg a).toNat) ≠ .hole)
include htag hctx hsplit hbase

/-- A bank that carries the tag is stored for its owner. -/
theorem exec_accspill_stores
    (howner : (s.saveGet (s.partNo s.cur.core) ((s.reg b).toNat + 8)).getLsbD 0 = false → (s.spillOwner (s.reg b).toNat).isNone = false)
    (hbusy : ((s.spillOwner (s.reg b).toNat).isSome && s.bankBusy s.cur.core (s.reg a).toNat) = false) :
    exec (.accspill d a b) s = .next ((s.spillBank s.cur.core (s.partNo s.cur.core) (s.reg b).toNat (s.reg a).toNat
      (s.spillOwner (s.reg b).toNat)).result d 0) := by
  have htagged : s.spillTagged (s.reg b).toNat (s.reg a).toNat = true := by
    rw [State.spillTagged, htag]
    exact beq_iff_eq.mpr hctx
  have hgood : ¬(((s.saveGet (s.partNo s.cur.core) ((s.reg b).toNat + 8)).getLsbD 0 = false ∧ (s.spillOwner (s.reg b).toNat).isNone = true) ∨
      s.spillTagged (s.reg b).toNat (s.reg a).toNat = false ∨ s.bankSplit s.cur.core (s.reg a).toNat = true) := by
    rintro (⟨h0, hnone⟩ | h | h)
    · exact ne_false_of_eq_true hnone (howner h0)
    · exact ne_false_of_eq_true htagged h
    · exact ne_false_of_eq_true h hsplit
  rw [exec_accspill htx hlevel d a b hn ha hpa, if_neg hgood, if_neg (ne_true_of_eq_false hbusy)]
  exact runOp_ok (Op.bind_ok (physical_ok hbase))

end

theorem exec_accspill_refused (h : (s.saveGet (s.partNo s.cur.core) ((s.reg b).toNat + 8)).getLsbD 0 = false ∧
      s.ownerOf s.cur.core (s.reg b).toNat = none ∨ s.bankTag s.cur.core (s.reg a).toNat = none ∨
      s.bankSplit s.cur.core (s.reg a).toNat = true) : exec (.accspill d a b) s = .next (s.result d 3) := by
  have hbad : ((s.saveGet (s.partNo s.cur.core) ((s.reg b).toNat + 8)).getLsbD 0 = false ∧ (s.spillOwner (s.reg b).toNat).isNone = true) ∨
      s.spillTagged (s.reg b).toNat (s.reg a).toNat = false ∨ s.bankSplit s.cur.core (s.reg a).toNat = true := by
    rcases h with ⟨h0, hnone⟩ | h | h
    · exact .inl ⟨h0, by rw [State.spillOwner, h0, hnone]; rfl⟩
    · exact .inr (.inl (by rw [State.spillTagged, h]))
    · exact .inr (.inr h)
  rw [exec_accspill htx hlevel d a b hn ha hpa, if_pos hbad]
  rfl

/-- ACCFILL of a bank number and an area that are in range. -/
theorem exec_accfill : exec (.accfill d a b) s = runOp (
    if bitsOf (s.saveGet (s.partNo s.cur.core) ((s.reg b).toNat + 8)) 24 8 ≠ s.me.ctx.ctx.toNat ∨
        (s.bankTag s.cur.core (s.reg a).toNat).isSome = true ∨ s.me.ctx.spilled.getLsbD (s.reg a).toNat = false then resultOp d 3
    else do
      physical ((s.saveGet (s.partNo s.cur.core) ((s.reg b).toNat + 0x40)).toNat + 65536 * (s.reg a).toNat)
      modify fun z => (((z.tagBank z.cur (s.reg a).toNat).putBank s.cur.core (s.reg a).toNat (z.saveRead (s.partNo s.cur.core)
        ((s.saveGet (s.partNo s.cur.core) ((s.reg b).toNat + 0x40)).toNat + 65536 * (s.reg a).toNat) 8192)).setSpilled
          (s.partNo s.cur.core) (s.reg b).toNat (s.reg a).toNat (some z.cur) false).result d 0) s := by
  have hrange : ¬((s.reg a).toNat > 47 ∨ csaAligned (s.reg b) = false) := by
    rw [csaAligned_iff.mpr ha]
    simp only [Bool.true_eq_false, or_false]
    omega
  have e : exec (.accfill d a b) s = execAccfill d a b s := rfl
  rw [e, execAccfill]
  unfold runOp
  simp only
  rw [Op.bind_ok (needLevel_ok _ (supervisor_le hlevel)), Op.bind_ok (noTx_closed htx), if_neg hrange, Op.bind_ok (physical_ok hpa)]

theorem exec_accfill_refused (h : bitsOf (s.saveGet (s.partNo s.cur.core) ((s.reg b).toNat + 8)) 24 8 ≠ s.me.ctx.ctx.toNat ∨
    (s.bankTag s.cur.core (s.reg a).toNat).isSome = true ∨ s.me.ctx.spilled.getLsbD (s.reg a).toNat = false) :
    exec (.accfill d a b) s = .next (s.result d 3) := by
  rw [exec_accfill htx hlevel d a b hn ha hpa, if_pos h]
  rfl

theorem exec_accfill_loads
    (hbase : physOf ((s.saveGet (s.partNo s.cur.core) ((s.reg b).toNat + 0x40)).toNat + 65536 * (s.reg a).toNat) ≠ .hole)
    (hctx : bitsOf (s.saveGet (s.partNo s.cur.core) ((s.reg b).toNat + 8)) 24 8 = s.me.ctx.ctx.toNat)
    (htag : s.bankTag s.cur.core (s.reg a).toNat = none) (hsp : s.me.ctx.spilled.getLsbD (s.reg a).toNat = true) :
    exec (.accfill d a b) s = .next ((((s.tagBank s.cur (s.reg a).toNat).putBank s.cur.core (s.reg a).toNat
      (s.saveRead (s.partNo s.cur.core) ((s.saveGet (s.partNo s.cur.core) ((s.reg b).toNat + 0x40)).toNat + 65536 * (s.reg a).toNat)
        8192)).setSpilled (s.partNo s.cur.core) (s.reg b).toNat (s.reg a).toNat (some s.cur) false).result d 0) := by
  have hgood : ¬(bitsOf (s.saveGet (s.partNo s.cur.core) ((s.reg b).toNat + 8)) 24 8 ≠ s.me.ctx.ctx.toNat ∨
      (s.bankTag s.cur.core (s.reg a).toNat).isSome = true ∨ s.me.ctx.spilled.getLsbD (s.reg a).toNat = false) := by
    rintro (h | h | h)
    · exact h hctx
    · rw [htag] at h
      cases h
    · exact ne_false_of_eq_true hsp h
  rw [exec_accfill htx hlevel d a b hn ha hpa, if_neg hgood]
  exact runOp_ok (Op.bind_ok (physical_ok hbase))

end

/-- Settles O31. -/
theorem accumulatorMoves : Obligations.AccumulatorMoves := by
  unfold Obligations.AccumulatorMoves
  intro s d a b i t htx hlevel n pa c p base hn ha hpa hbase
  refine ⟨fun h0 howner htag hctx hsplit hbusy => ?_, fun h0 htag hctx hsplit => ?_, fun h => ?_, fun h => ?_, fun hctx htag hsp => ?_⟩
  · have hspill : s.spillOwner pa = some i := by
      rw [State.spillOwner, show (s.saveGet _ (pa + 8)).getLsbD 0 = false from h0, if_neg Bool.false_ne_true]
      exact howner
    have hexec := exec_accspill_stores htx hlevel d a b hn ha hpa htag hctx hsplit hbase
    rw [show s.spillOwner (s.reg b).toNat = some i from hspill] at hexec
    exact hexec (fun _ => rfl) (by rw [show s.bankBusy _ _ = false from hbusy]; rfl)
  · have hspill : s.spillOwner pa = none := by
      rw [State.spillOwner, show (s.saveGet _ (pa + 8)).getLsbD 0 = true from h0, if_pos rfl]
    have hexec := exec_accspill_stores htx hlevel d a b hn ha hpa htag hctx hsplit hbase
    rw [show s.spillOwner (s.reg b).toNat = none from hspill] at hexec
    exact hexec (fun h1 => absurd h1 (ne_false_of_eq_true h0)) rfl
  · exact computes_result (exec_accspill_refused htx hlevel d a b hn ha hpa h)
  · exact computes_result (exec_accfill_refused htx hlevel d a b hn ha hpa h)
  · exact exec_accfill_loads htx hlevel d a b hn ha hpa hbase hctx htag hsp

end Sys2Proof.Machine
end

section
/-! PROOF. O32: CTXSAVE and CTXLOAD (16 R336; 17 R357, R358). -/

namespace Sys2Proof.Machine

/-! ### The task of a slot whose units stop -/

theorem Slot.task_finishV (x : Slot) (f : VFlight) (c : Nat) : (x.finishV f c).task = x.task := by
  unfold Slot.finishV Slot.giveUpPost
  simp only
  split
  next => split <;> rfl
  next => split <;> split <;> rfl

theorem Slot.task_finishAll (x : Slot) (c : Nat) (l : List VFlight) : (x.finishAll c l).task = x.task := by
  induction l generalizing x with
  | nil => rfl
  | cons f r ih => exact (ih _).trans (Slot.task_finishV x f c)

theorem Slot.task_matrixDone (x : Slot) (r : MRun) (c : Nat) : (x.matrixDone r c).task = x.task := by
  show (x.matrixPosted r).task = x.task
  unfold Slot.matrixPosted
  split <;> rfl

/-- From s to t the task of a slot is the same one. -/
def State.TaskKept (s t : State) (i : SlotId) : Prop := (t.slotOf i).task = (s.slotOf i).task

namespace State.TaskKept

theorem of_slots {s t : State} {i : SlotId} (h : t.slots = s.slots) : s.TaskKept t i := by rw [TaskKept, State.slotOf, State.slotOf, h]

theorem trans {s t u : State} {i : SlotId} (h : s.TaskKept t i) (k : t.TaskKept u i) : s.TaskKept u i := Eq.trans k h

theorem mapSlot {s : State} {i : SlotId} {f : Slot → Slot} (h : ∀ x, (f x).task = x.task) : s.TaskKept (s.mapSlot i f) i := by
  rw [TaskKept, State.slotOf_mapSlot_self, h]

theorem flushFor (s : State) (i : SlotId) (f : StoreReq → Bool) (n : Nat) : s.TaskKept (s.flushFor i f n) i := by
  induction n generalizing s with
  | zero => exact of_slots rfl
  | succ n ih =>
    rw [State.flushFor]
    split
    next => exact of_slots rfl
    next q k _ =>
      refine trans ?_ (ih _)
      split
      next t ht => exact (State.performs_performStore ht).task
      next => exact (State.performs_failStore (k := k) (q := { q with later := true }) rfl).task

theorem finishRun (s : State) (i : SlotId) : s.TaskKept (s.finishRun i) i := by
  unfold State.finishRun
  split
  next r _ =>
    split
    next => rw [TaskKept, State.slotOf_mFinish, Slot.task_matrixDone]
    next => exact of_slots rfl
  next => exact of_slots rfl

theorem stopCampion (s : State) (i : SlotId) : s.TaskKept (s.stopCampion i) i := by
  unfold State.stopCampion
  split
  next => exact of_slots rfl
  next r _ =>
    refine trans (t := s.mapSlot i fun x => { x with eng := { x.eng with mupc := mupcWord r.q.seq r.mb r.nb r.ks } }) (mapSlot fun _ => rfl) ?_
    simp only
    split <;> exact of_slots rfl

theorem endRuns (s : State) (l : List (Nat × Chan)) (i : SlotId) : s.TaskKept (s.endRuns l) i := by
  induction l generalizing s with
  | nil => exact of_slots rfl
  | cons e r ih =>
    refine trans ?_ (ih _)
    split <;> exact of_slots rfl

theorem dropTickets (s : State) (i j : SlotId) : s.TaskKept (s.dropTickets i) j := by
  have hdrop : ∀ (t : State) u, t.TaskKept (t.dropTicket u) j := fun t u => of_slots (by rw [State.dropTicket_eq])
  exact List.foldlRecOn (motive := fun t : State => s.TaskKept t j) _ _ ((hdrop s _).trans (hdrop _ _))
    fun _ ht _ _ => ht.trans ((hdrop _ _).trans (hdrop _ _))

/-- R343: the stop of a slot's units leaves it its task. -/
theorem stopUnits (s : State) (i : SlotId) : s.TaskKept (s.stopUnits i) i := by
  unfold State.stopUnits
  extract_lets s1 s2 s3 x s4 s5 s6
  have h1 : s.TaskKept s1 i := flushFor s i _ _
  have h2 : s1.TaskKept s2 i := mapSlot fun x => Slot.task_finishAll x _ _
  have h3 : s2.TaskKept s3 i := (finishRun s2 i).trans (stopCampion _ i)
  have h4 : s3.TaskKept s4 i := by
    cases hrun : x.eng.mrun <;> simp only [s4, hrun] <;> exact of_slots rfl
  have h5 : s4.TaskKept s5 i := endRuns s4 _ i
  have h6 : s5.TaskKept s6 i := mapSlot fun _ => rfl
  have h7 : s6.TaskKept (s6.orphanCopies i) i := of_slots rfl
  exact ((((((h1.trans h2).trans h3).trans h4).trans h5).trans h6).trans h7).trans (dropTickets _ i i)

end State.TaskKept

/-! ### The save (R336) -/

theorem State.pushTail_freeSlot (s : State) (i : SlotId) (r : Rec) :
    (((s.freeSlot i).pushTail i.core r).slotOf i).status = .free ∧ (((s.freeSlot i).pushTail i.core r).slotOf i).task = none ∧
      (((s.freeSlot i).pushTail i.core r).coreOf i.core).deque.getLast? = some { r with spilled := false } := by
  simp only [State.pushTail, State.freeSlot, State.slotOf_mapCore, State.slotOf_mapSlot_self, State.coreOf_mapCore, if_true,
    List.getLast?_concat, and_true]
  exact ⟨rfl, rfl⟩

/-- The save of a task: its slot is freed, and a record that names its area joins its core's deque at the oldest end. -/
theorem State.saveTask_eq {s : State} {i : SlotId} {t : TaskInfo} (h : (s.slotOf i).task = some t) (a : Nat) :
    ∃ z e x q o, s.saveTask i a = (State.freeSlot z i).pushTail i.core ⟨.resume a e x, t, q, o, false⟩ := by
  have htask : (((s.stopUnits i).mapSlot i (·.orderStore)).slotOf i).task = some t := by
    have hkept : ((s.stopUnits i).slotOf i).task = (s.slotOf i).task := State.TaskKept.stopUnits s i
    have horder : ∀ y : Slot, y.orderStore.task = y.task := fun _ => rfl
    rw [State.slotOf_mapSlot_self, horder, hkept, h]
  unfold State.saveTask
  extract_lets p s0 x
  have hx : x.task = some t := htask
  clear_value x
  rw [hx]
  exact ⟨_, _, _, _, _, rfl⟩

/-- A slot that has been saved is Free, and its resume record stands at the oldest end of its core's deque. -/
theorem State.saveTask_leaves {s : State} {i : SlotId} {t : TaskInfo} (h : (s.slotOf i).task = some t) (a : Nat) :
    ((s.saveTask i a).slotOf i).status = .free ∧ ((s.saveTask i a).slotOf i).task = none ∧
      ((s.saveTask i a).coreOf i.core).deque.getLast?.map (fun r => (r.names a, r.info.serial)) = some (true, t.serial) := by
  obtain ⟨z, e, x, q, o, heq⟩ := State.saveTask_eq h a
  obtain ⟨hstatus, htask, hlast⟩ := z.pushTail_freeSlot i ⟨.resume a e x, t, q, o, false⟩
  rw [heq]
  refine ⟨hstatus, htask, ?_⟩
  rw [hlast]
  simp only [Option.map_some, Rec.names, beq_self_eq_true]

section
variable {s : State} (htx : s.me.tx = none) (hlevel : s.me.level ≠ .task) (d a b : Fin 32) (ha : (s.reg a).toNat % 2 ^ 17 = 0)
  (hpa : physOf (s.reg a).toNat ≠ .hole)
include htx hlevel

theorem exec_ctxsave_refused (h : s.me.frame.inTrap = false ∨ s.me.frame.plev ≠ .task ∨ s.me.task = none) :
    exec (.ctxsave d a) s = .next (s.result d 3) := by
  refine runOp_ok ((Op.bind_ok (needLevel_ok _ (supervisor_le hlevel))).trans ((Op.bind_ok (noTx_closed htx)).trans ?_))
  have hbad : s.me.frame.inTrap = false ∨ s.me.frame.plev ≠ .task ∨ csaAligned (s.reg a) = false ∨ s.me.task.isNone = true :=
    h.imp_right (·.imp_right fun h => .inr (Option.isNone_iff_eq_none.mpr h))
  rw [if_pos hbad]
  rfl

include ha hpa

theorem exec_ctxsave_saves {t : TaskInfo} (hin : s.me.frame.inTrap = true) (hplev : s.me.frame.plev = .task) (ht : s.me.task = some t)
    (hlock : s.lockedStores s.cur = false) (hfar : s.me.farStores = false) :
    exec (.ctxsave d a) s = .next (s.saveTask s.cur (s.reg a).toNat) := by
  refine runOp_ok ((Op.bind_ok (needLevel_ok _ (supervisor_le hlevel))).trans ((Op.bind_ok (noTx_closed htx)).trans ?_))
  have hgood : ¬(s.me.frame.inTrap = false ∨ s.me.frame.plev ≠ .task ∨ csaAligned (s.reg a) = false ∨ s.me.task.isNone = true) := by
    rw [hin, hplev, ht, csaAligned_iff.mpr ha]
    simp
  rw [if_neg hgood]
  refine (Op.bind_ok (physical_ok hpa)).trans ?_
  rw [hlock, hfar]
  rfl

section
variable (hv : (s.saveGet (s.partNo s.cur.core) ((s.reg a).toNat + 8)).getLsbD 0 = true)
  (hc : bitsOf (s.saveGet (s.partNo s.cur.core) ((s.reg a).toNat + 8)) 8 8 = s.cur.core.val) (hn : (s.reg b).toNat ≤ 3)
  (hfree : (s.slotOf ⟨s.cur.core, slotNo (s.reg b).toNat⟩).status = .free) {r : Rec}
  (hr : s.savedRec s.cur.core (s.reg a).toNat = some r)
include hv hc hn hfree hr

omit htx hlevel ha hpa in
/-- The checks that CTXLOAD makes before it looks at its record. -/
theorem ctxload_checks : ¬((s.saveGet (s.partNo s.cur.core) ((s.reg a).toNat + 8)).getLsbD 0 = false ∨
      bitsOf (s.saveGet (s.partNo s.cur.core) ((s.reg a).toNat + 8)) 8 8 ≠ s.cur.core.val ∨ (s.reg b).toNat > 3 ∨
      (s.slotOf ⟨s.cur.core, slotNo (s.reg b).toNat⟩).status ≠ .free) ∧
    s.areaWants s.cur.core (s.reg a).toNat = [] ∧ s.recOf s.cur.core (s.reg a).toNat = (r, s) := by
  refine ⟨?_, by rw [State.areaWants, hr]; rfl, by rw [State.recOf, hr]⟩
  rintro (h | h | h | h)
  · exact ne_false_of_eq_true hv h
  · exact h hc
  · omega
  · exact h hfree

theorem exec_ctxload_drops (hdead : s.recCancelled r = true) : exec (.ctxload d a b) s =
    .next ((((s.forget (s.partNo s.cur.core)).dropSavedRec s.cur.core (s.reg a).toNat).dropSaved s.cur.core r).result d 2) := by
  obtain ⟨hgood, hwants, hrec⟩ := ctxload_checks a b hv hc hn hfree hr
  refine runOp_ok ((Op.bind_ok (needLevel_ok _ (supervisor_le hlevel))).trans ((Op.bind_ok (noTx_closed htx)).trans ?_))
  rw [if_neg (ne_false_of_eq_true (csaAligned_iff.mpr ha))]
  refine (Op.bind_ok (physical_ok hpa)).trans ?_
  rw [if_neg hgood]
  refine (Op.bind_ok (askOp_nil hwants)).trans ?_
  rw [hrec, if_pos hdead]
  rfl

theorem exec_ctxload_loads {e : Option Nat} {x : Extra} (hlive : s.recCancelled r = false) (hkind : r.kind = .resume (s.reg a).toNat e x) :
    exec (.ctxload d a b) s = .next ((((s.forget (s.partNo s.cur.core)).dropSavedRec s.cur.core (s.reg a).toNat).loadTask
      ⟨s.cur.core, slotNo (s.reg b).toNat⟩ (s.reg a).toNat r.info x).result d 0) := by
  obtain ⟨hgood, hwants, hrec⟩ := ctxload_checks a b hv hc hn hfree hr
  refine runOp_ok ((Op.bind_ok (needLevel_ok _ (supervisor_le hlevel))).trans ((Op.bind_ok (noTx_closed htx)).trans ?_))
  rw [if_neg (ne_false_of_eq_true (csaAligned_iff.mpr ha))]
  refine (Op.bind_ok (physical_ok hpa)).trans ?_
  rw [if_neg hgood]
  refine (Op.bind_ok (askOp_nil hwants)).trans ?_
  rw [hrec, if_neg (ne_true_of_eq_false hlive), hkind]
  rfl

end

end

/-- Settles O32. -/
theorem savedContexts : Obligations.SavedContexts := by
  unfold Obligations.SavedContexts
  intro s d a b t x e r htx hlevel pa c p ha hpa
  refine ⟨fun hin hplev ht hlock hfar => ?_, fun h => computes_result (exec_ctxsave_refused htx hlevel d a h), fun hv hc hn hfree hr hkind => ?_⟩
  · exact ⟨_, exec_ctxsave_saves htx hlevel d a ha hpa hin hplev ht hlock hfar, rfl, State.saveTask_leaves ht pa⟩
  · exact ⟨fun hlive => exec_ctxload_loads htx hlevel d a b ha hpa hv hc hn hfree hr hlive hkind,
      exec_ctxload_drops htx hlevel d a b ha hpa hv hc hn hfree hr⟩

end Sys2Proof.Machine
end

section
/-! PROOF. O33: TLBINV, ELOGRD, MONCALL and HALT (17 R360 to R363). -/

namespace Sys2Proof.Machine

section
variable {s u : State} (htx : s.me.tx = none) (hlevel : s.me.level ≠ .task) (d a b : Fin 32)
include htx hlevel

/-! ### TLBINV (R360) -/

/-- The translations that an operand of TLBINV names: of a page, of the root, or all. -/
def tlbNamed (p : Fin 16) (root va k : Nat) (e : TlbEntry) : Bool :=
  match k with
  | 0 => e.covers p root va
  | 1 => e.root == root
  | _ => true

section
variable (hk : (s.reg b).toNat ≤ 2) (hv : (s.reg b).toNat = 0 → bitsOf (s.reg a) 48 16 = 0) (hr : releaseOp 5 s = .ok ((), u))
include hk hv hr

/-- The state after the named translations have been dropped. -/
theorem exec_tlbinv_drops :
    let z := u.tlbDrop (s.partNo s.cur.core) (tlbNamed (s.partNo s.cur.core) (s.slotRoot s.cur) (s.reg a).toNat (s.reg b).toNat)
    exec (.tlbinv d a b) s = .next (if z.pendingAccess (s.partNo s.cur.core) then z.stallMe .stores else z.result d 0) := by
  intro z
  have hgood : ¬((s.reg b).toNat > 2 ∨ ((s.reg b).toNat = 0 ∧ bitsOf (s.reg a) 48 16 ≠ 0)) := by
    rintro (h | ⟨h0, hne⟩)
    · omega
    · exact hne (hv h0)
  have e : exec (.tlbinv d a b) s = execTlbinv d a b s := rfl
  rw [e, execTlbinv]
  unfold runOp
  simp only
  rw [Op.bind_ok (needLevel_ok _ (supervisor_le hlevel)), Op.bind_ok (noTx_closed htx), if_neg hgood, Op.bind_ok hr,
    Op.bind_ok (Op.modify_apply _ u), Op.bind_ok (Op.get_apply _)]
  show (match (do if z.pendingAccess (s.partNo s.cur.core) then stallOp .stores
                  resultOp d 0 : Op Unit) z with
    | .ok (_, t) => Host.Outcome.next t
    | .error (.trap t) => .next (s.trapMe t)
    | .error (.become t) => .next t
    | .error (.abort c) => .next (s.setMe (s.me.abortTx c 0 |>.issued s.cycle))
    | .error (.fault f) => .fault f) = _
  cases z.pendingAccess (s.partNo s.cur.core) <;> rfl

end

/-! ### ELOGRD (R361) -/

theorem exec_elogrd_range (h : bitsOf (s.reg a) 34 30 ≠ 0 ∨ 4 < (s.reg b).toNat) : exec (.elogrd d a b) s = .next (s.result d 0) := by
  refine runOp_ok ((Op.bind_ok (needLevel_ok _ (supervisor_le hlevel))).trans ((Op.bind_ok (noTx_closed htx)).trans ?_))
  rw [if_pos h]
  rfl

section
variable (hz : bitsOf (s.reg a) 34 30 = 0)
include hz

theorem exec_elogrd_next (hk : (s.reg b).toNat = 4) : exec (.elogrd d a b) s =
    .next (s.result d (word (tget (0, []) (s.dieOf (bitsOf (s.reg a) 32 2)).elog (s.partNo s.cur.core).val).1)) := by
  refine runOp_ok ((Op.bind_ok (needLevel_ok _ (supervisor_le hlevel))).trans ((Op.bind_ok (noTx_closed htx)).trans ?_))
  rw [if_neg (by omega), if_pos hk]
  rfl

theorem exec_elogrd_entry (hk : (s.reg b).toNat ≤ 3) {w : Word}
    (hw : s.logEntry (bitsOf (s.reg a) 32 2) (s.partNo s.cur.core) (bitsOf (s.reg a) 0 32) (s.reg b).toNat = some w) :
    exec (.elogrd d a b) s = .next (s.result d w) := by
  refine runOp_ok ((Op.bind_ok (needLevel_ok _ (supervisor_le hlevel))).trans ((Op.bind_ok (noTx_closed htx)).trans ?_))
  rw [if_neg (by omega), if_neg (by omega), hw]
  rfl

theorem exec_elogrd_noEntry (hk : (s.reg b).toNat = 0)
    (hw : s.logEntry (bitsOf (s.reg a) 32 2) (s.partNo s.cur.core) (bitsOf (s.reg a) 0 32) 0 = none) :
    exec (.elogrd d a b) s = .next (s.result d 0) := by
  refine runOp_ok ((Op.bind_ok (needLevel_ok _ (supervisor_le hlevel))).trans ((Op.bind_ok (noTx_closed htx)).trans ?_))
  rw [if_neg (by omega), if_neg (by omega), hk, hw]
  rfl

end

/-! ### MONCALL (R362) -/

theorem exec_moncall_version (h : s.reg a = 0) : exec (.moncall d a b) s = .next (s.result d Config.romVersion) := by
  refine runOp_ok ((Op.bind_ok (needLevel_ok _ (supervisor_le hlevel))).trans ((Op.bind_ok (noTx_closed htx)).trans ?_))
  rw [h]
  rfl

theorem exec_moncall_limit (h : s.reg a = 1) : exec (.moncall d a b) s = .next (s.result d 3600) := by
  refine runOp_ok ((Op.bind_ok (needLevel_ok _ (supervisor_le hlevel))).trans ((Op.bind_ok (noTx_closed htx)).trans ?_))
  rw [h]
  rfl

theorem exec_moncall_unknown (h : 3 ≤ (s.reg a).toNat) : exec (.moncall d a b) s = .next (s.result d (BitVec.allOnes 64)) := by
  refine runOp_ok ((Op.bind_ok (needLevel_ok _ (supervisor_le hlevel))).trans ((Op.bind_ok (noTx_closed htx)).trans ?_))
  obtain ⟨n, hn⟩ := Nat.exists_eq_add_of_le' h
  rw [hn]
  rfl

section
variable (h : s.reg a = 2)
include h

theorem exec_moncall_noTest (ht : (s.partOf (s.partNo s.cur.core)).testFlag = false) :
    exec (.moncall d a b) s = .next (s.result d (BitVec.allOnes 64)) := by
  refine runOp_ok ((Op.bind_ok (needLevel_ok _ (supervisor_le hlevel))).trans ((Op.bind_ok (noTx_closed htx)).trans ?_))
  rw [h]
  refine (congrFun (if_pos ht) s).trans ?_
  rfl

variable (ht : (s.partOf (s.partNo s.cur.core)).testFlag = true)
include ht

theorem exec_moncall_injector (hf : s.monFault (s.partNo s.cur.core) (s.reg b).toNat = none) :
    let l := s.saveRead (s.partNo s.cur.core) (s.reg b).toNat 3
    exec (.moncall d a b) s = .next ((s.setInj s.cur.core (imgWord l 0) (imgWord l 1) (imgWord l 2)).result d 0) := by
  refine runOp_ok ((Op.bind_ok (needLevel_ok _ (supervisor_le hlevel))).trans ((Op.bind_ok (noTx_closed htx)).trans ?_))
  rw [h]
  refine (congrFun (if_neg (ne_false_of_eq_true ht)) s).trans ?_
  rw [hf]
  rfl

theorem exec_moncall_fault {c : BitVec 8} (hf : s.monFault (s.partNo s.cur.core) (s.reg b).toNat = some c) :
    exec (.moncall d a b) s = .next (s.monStop c (s.reg b)) := by
  refine runOp_become ((Op.bind_ok (needLevel_ok _ (supervisor_le hlevel))).trans ((Op.bind_ok (noTx_closed htx)).trans ?_))
  rw [h]
  refine (congrFun (if_neg (ne_false_of_eq_true ht)) s).trans ?_
  rw [hf]
  rfl

end

end

/-! ### The stop of a core (R330, R362, R363) -/

theorem State.cores_cfgBusy (s : State) (p : Fin 16) : (s.cfgBusy p).cores = s.cores := by
  have hend : (s.endConfig 1).cores = s.cores := by
    refine List.foldlRecOn (motive := fun t : State => t.cores = s.cores) _ _ rfl fun t ht p _ => ?_
    split
    next => exact ht
    next => exact ht
  unfold State.cfgBusy
  split
  next => exact hend
  next => rfl

/-- DOUBLE of a slot at monitor level halts its core. -/
theorem State.halted_double {s : State} {i : SlotId} (h : (s.slotOf i).level = .monitor) (p : Word) (x : TrapInfo) (tx : Bool) :
    ((s.double i p x tx).coreOf i.core).halted = true := by
  unfold State.double
  simp only [h, if_true]
  generalize State.logError _ _ _ _ = u
  show (tget Core.initial ((State.report (u.mapCore i.core fun k => { k with halted := true }) 0x17 i).cfgBusy (s.partNo i.core)).cores _).halted = true
  rw [State.cores_cfgBusy]
  show ((u.mapCore i.core fun k => { k with halted := true }).coreOf i.core).halted = true
  rw [State.coreOf_mapCore, if_pos rfl]

theorem State.monStop_stops (s : State) (c : BitVec 8) (a : Word) :
    ((s.monStop c a).coreOf s.cur.core).halted = true ∧ ((s.monStop c a).partOf (s.partNo s.cur.core)).frozen = true ∧
      (s.monStop c a).pkg.mbox = s.pkg.mbox ++ [[0x17, (s.partNo s.cur.core).val, s.cur.core.val, s.cur.slot.val]] := by
  have hlevel : ((s.setMe { s.me with level := .monitor }).slotOf s.cur).level = .monitor :=
    congrArg Slot.level (State.me_setMe s { s.me with level := .monitor })
  have h := (s.setMe { s.me with level := .monitor }).double_escalates s.cur s.pc ⟨c, a, 0, 0, 0⟩ false
  exact ⟨State.halted_double hlevel _ _ _, h.frozen, h.mbox⟩

theorem exec_halt {s : State} (htx : s.me.tx = none) (hlevel : s.me.level = .monitor) :
    exec .halt s = .next (s.mapCore s.cur.core fun k => { k with halted := true }).retire :=
  runOp_ok ((Op.bind_ok (needLevel_ok _ (by rw [hlevel]; exact Nat.lt_irrefl _))).trans (Op.bind_ok (noTx_closed htx)))

/-- Settles O33. -/
theorem systemServices : Obligations.SystemServices := by
  unfold Obligations.SystemServices
  intro s u d a b w htx hlevel k v
  refine ⟨fun hk hv hr => ?_, fun hz hk hw => ?_, fun hz hk hw => ?_, fun hz hk => ?_, fun h => ?_, fun h => ?_, fun h => ?_, fun h => ?_, ?_,
    fun hmon => ?_⟩
  · intro z
    have hexec := exec_tlbinv_drops htx hlevel d a b hk hv hr
    refine ⟨fun hp => ?_, fun hp => ?_⟩
    · exact hexec.trans (congrArg Host.Outcome.next (if_neg (ne_true_of_eq_false hp)))
    · exact hexec.trans (congrArg Host.Outcome.next (if_pos hp))
  · exact computes_result (exec_elogrd_entry htx hlevel d a b hz hk hw)
  · exact computes_result (exec_elogrd_noEntry htx hlevel d a b hz hk hw)
  · exact computes_result (exec_elogrd_next htx hlevel d a b hz hk)
  · exact computes_result (exec_elogrd_range htx hlevel d a b h)
  · exact computes_result (exec_moncall_limit htx hlevel d a b h)
  · exact computes_result (exec_moncall_version htx hlevel d a b h)
  · exact computes_result (exec_moncall_unknown htx hlevel d a b h)
  · intro p l h
    exact ⟨fun ht => computes_result (exec_moncall_noTest htx hlevel d a b h ht), exec_moncall_injector htx hlevel d a b h,
      fun ht c hf => ⟨_, exec_moncall_fault htx hlevel d a b h ht hf, s.monStop_stops c (s.reg b)⟩⟩
  · refine ⟨_, exec_halt htx hmon, ?_, ?_, fun r => ?_, fun _ => rfl⟩
    · rw [State.coreOf_retire, State.coreOf_mapCore, if_pos rfl]
    · rw [State.pc_retire]
      rfl
    · rw [State.reg_retire]
      rfl

end Sys2Proof.Machine
end

section
/-! PROOF. O37 and O40: the entries of a port address generator (12 R258, R259), and the segment manager's steps (08 R170 to R177). -/

namespace Sys2Proof.Machine

/-! ### AG_ENTRY (R258, R259) -/

section
variable {s u : State} {i : SlotId} {g : Fin 8} {port n off : Nat} {k : Walk} {seg : SegId} {y : Place}
  (hbound : (s.slotOf i).eng.ports.boundTo g = some port)
  (hwalk : (s.slotOf i).eng.ports.walks.find? (fun e => e.1 == g.val) = some (n, k))
include hbound hwalk

theorem exec_agEntry_stopped (hrun : s.runs i.core = false) : exec (.agEntry i g) s = .next s := by
  refine congrArg Host.Outcome.next ?_
  simp only [hbound, hwalk, hrun, Bool.not_false, Bool.true_or, if_true]

variable (hfault : k.fault = none) (hnext : k.next < walkLen k.img) (hopen : (s.slotOf i).portOpen port = true)
  (hfed : (s.slotOf i).fedBy port g = true) (hrun : s.runs i.core = true)
include hfault hnext hopen hfed hrun

omit hbound hwalk in
theorem agEntry_goes : (!s.runs i.core || k.fault.isSome || decide (walkLen k.img ≤ k.next) || !(s.slotOf i).portOpen port ||
    !(s.slotOf i).fedBy port g) = false := by
  simp only [hrun, hfault, hopen, hfed, decide_eq_false (Nat.not_le.mpr hnext), Bool.not_true, Option.isSome_none, Bool.or_self]

theorem exec_agEntry_badFirst {c : BitVec 8} {t : Word} (hd : s.decodePtr i (walkPtr k.img k.next) 32 = .error (c, t)) :
    exec (.agEntry i g) s = .next (s.agFault i g ⟨c, walkPtr k.img k.next, t, false⟩) := by
  refine congrArg Host.Outcome.next ?_
  simp only [hbound, hwalk, agEntry_goes hfault hnext hopen hfed hrun, Bool.false_eq_true, if_false, hd]

variable (hd : s.decodePtr i (walkPtr k.img k.next) 32 = .ok (.seg seg off))
include hd

theorem exec_agEntry_badLast {c : BitVec 8} {t : Word} (hl : s.decodePtr i (walkPtr k.img k.next + 1023) 1 = .error (c, t)) :
    exec (.agEntry i g) s = .next (s.agFault i g ⟨c, walkPtr k.img k.next, t, false⟩) := by
  refine congrArg Host.Outcome.next ?_
  simp only [hbound, hwalk, agEntry_goes hfault hnext hopen hfed hrun, Bool.false_eq_true, if_false, hd, hl]

variable (hl : s.decodePtr i (walkPtr k.img k.next + 1023) 1 = .ok y) (hlock : s.entryLocked seg off = false)
  (hstores : s.lockedStores i = false)
include hl hlock hstores

theorem exec_agEntry_moves (ha : s.admitSet i (.ag i g) [seg] [imgWord k.img 0] 0 false = .go u) :
    exec (.agEntry i g) s = .next ((u.flushLater i).moveEntry i g port seg off (walkPtr k.img k.next)) := by
  refine congrArg Host.Outcome.next ?_
  simp only [hbound, hwalk, agEntry_goes hfault hnext hopen hfed hrun, Bool.false_eq_true, if_false, hd, hl, hlock, hstores,
    Bool.or_self, ha]

theorem exec_agEntry_tooLarge {f : Nat} (ha : s.admitSet i (.ag i g) [seg] [imgWord k.img 0] 0 false = .tooLarge f) :
    exec (.agEntry i g) s = .next (s.agFault i g ⟨0x08, word f, word (s.slotOf i).quota, false⟩) := by
  refine congrArg Host.Outcome.next ?_
  simp only [hbound, hwalk, agEntry_goes hfault hnext hopen hfed hrun, Bool.false_eq_true, if_false, hd, hl, hlock, hstores,
    Bool.or_self, ha]

end

/-- Settles O37. -/
theorem generatorEntry : Obligations.GeneratorEntry := by
  unfold Obligations.GeneratorEntry
  intro s u i g port n off k seg y x hbound hwalk hfault hnext hopen hfed p
  refine ⟨fun hrun hd hl hlock hstores ha => ?_, fun hrun hd hl hlock hstores f ha => ?_, fun hrun c t hd => ?_, fun hrun hd c t hl => ?_,
    exec_agEntry_stopped hbound hwalk⟩
  · exact exec_agEntry_moves hbound hwalk hfault hnext hopen hfed hrun hd hl hlock hstores ha
  · exact exec_agEntry_tooLarge hbound hwalk hfault hnext hopen hfed hrun hd hl hlock hstores ha
  · exact exec_agEntry_badFirst hbound hwalk hfault hnext hopen hfed hrun hd
  · exact exec_agEntry_badLast hbound hwalk hfault hnext hopen hfed hrun hd hl

/-! ### The segment manager (R170 to R177) -/

section
variable {s t : State} {g : Seg}

theorem State.serve_of_none {c : Fin 64} (h : s.oldestIn c = none) : s.serve c = s := by
  rw [State.serve, h]

section
variable (hof : s.segOf g.id = some g)
include hof

theorem State.evictClaimed_unclaimed (hc : g.claimed = false) : s.evictClaimed g.id = s := by
  simp only [State.evictClaimed, hof, hc, Bool.false_and, Bool.false_eq_true, if_false]

section
variable (hc : g.claimed = true) (hs : g.state = .resident) (hp : s.pinned g = false)
include hc hs hp

theorem State.evictClaimed_leaves (h : s.evictSeg g = .ok t) : s.evictClaimed g.id = t := by
  simp only [State.evictClaimed, hof, hc, hs, hp, decide_true, Bool.not_false, Bool.and_self, if_true, h]

theorem State.evictClaimed_fails {e : XFault × Nat} (h : s.evictSeg g = .error e) :
    s.evictClaimed g.id = s.mapSeg g.id fun g => { g with claimed := false } := by
  simp only [State.evictClaimed, hof, hc, hs, hp, decide_true, Bool.not_false, Bool.and_self, if_true, h]

end

theorem exec_segmentRecall (h : g.state = .absent) : exec (.segmentRecall g.id) s = .next (s.recallFor g) := by
  refine congrArg Host.Outcome.next ?_
  simp only [hof, h, if_true]

theorem exec_freshFill (h : g.state = .fresh) : exec (.freshFill g.id) s = .next (s.recallFor g) := by
  refine congrArg Host.Outcome.next ?_
  simp only [hof, h, if_true]

end

section
variable {k : Ticket} {b : Nat} (hk : s.recallable g = some k) (hb : s.placeFor g.pool g.frames = some b)
include hk hb

theorem State.recallFor_enters (h : s.bringIn g b = .ok t) : s.recallFor g = t := by
  simp only [State.recallFor, hk, hb, h]

theorem State.recallFor_fails {e : XFault × Nat} (h : s.bringIn g b = .error e) : s.recallFor g = s.ticketFails k (k.ptrOf g.id) e := by
  simp only [State.recallFor, hk, hb, h]

end

end

/-- Compaction gives segments other frames, and no byte and no name (R172). -/
theorem State.map_compact {α : Type} (f : Seg → α) (hf : ∀ (g : Seg) (b : Nat), f { g with base := b } = f g) (s : State) (p : PoolId) :
    (s.compact p).segs.map f = s.segs.map f := by
  rw [State.compact, List.map_map]
  refine List.map_congr_left fun g _ => ?_
  simp only [Function.comp_apply]
  split
  next => exact hf g _
  next => rfl

/-- Settles O40. -/
theorem segmentSteps : Obligations.SegmentSteps := by
  unfold Obligations.SegmentSteps
  intro s t c g k b p
  refine ⟨fun h => congrArg _ (State.serve_of_none h), fun _ => rfl,
    fun hof hc hs hp => ⟨fun h => congrArg _ (State.evictClaimed_leaves hof hc hs hp h), fun e h => congrArg _ (State.evictClaimed_fails hof hc hs hp h)⟩,
    fun hof hc => congrArg _ (State.evictClaimed_unclaimed hof hc),
    fun hof hk hb => ⟨fun h => ⟨fun hs => ?_, fun hs => ?_⟩, fun e h => ⟨fun hs => ?_, fun hs => ?_⟩⟩,
    ⟨_, rfl, rfl, rfl, State.map_compact _ (fun _ _ => rfl) s p, State.map_compact _ (fun _ _ => rfl) s p⟩⟩
  · rw [exec_segmentRecall hof hs, State.recallFor_enters hk hb h]
  · rw [exec_freshFill hof hs, State.recallFor_enters hk hb h]
  · rw [exec_segmentRecall hof hs, State.recallFor_fails hk hb h]
  · rw [exec_freshFill hof hs, State.recallFor_fails hk hb h]

end Sys2Proof.Machine
end

section
/-! PROOF. O54: what a step runs (01 R8; 02 R41; 04 R95, R109; 06 R127). -/

namespace Sys2Proof.Machine

section
variable {s : State} {r : List Choice}

/-- A step carries out the head of the agenda, and a cycle passes. -/
theorem step_of_agenda {c : Choice} (h : s.agenda = c :: r) : step s = tickOutcome s (({ s with agenda := r } : State).carryOut exec c) := by
  unfold step State.stepWith
  rw [h]

/-- With no agenda it is the turn of the units. -/
theorem step_of_turn (h : s.agenda = []) : step s = tickOutcome s (s.carryOut exec s.turn) := by
  unfold step State.stepWith
  rw [h]

end

theorem instrOf_ok {w : IWord} {a : Instr} (h : decode w = .ok a) : instrOf w = a := by
  rw [instrOf, h]

theorem instrOf_error {w : IWord} {e : Reason} (h : decode w = .error e) : instrOf w = .illegal w e := by
  rw [instrOf, h]

/-- A slot whose word is fetched runs the instruction that it decodes to. -/
theorem State.execPc_fetched {s u : State} {w : IWord} (h : fetchOp s = .ok (w, u)) : State.execPc exec s = exec (instrOf w) u := by
  unfold State.execPc
  rw [Op.bind_ok h]
  rfl

/-- The turn of a core whose chosen slot issues, with no pending cause and no stall that lasts. -/
theorem State.coreTurn_issues {s t : State} {c : Fin 256} {i : SlotId} (hsel : s.select c = some (i, t)) (hissue : t.issues i = true)
    (hcause : t.nextCause i = none) (hstall : ∀ z, (t.slotOf i).sched.stall = some z → t.stallFree i z = true) :
    s.coreTurn exec c = State.execPc exec { t with cur := i, actor := .control } := by
  rw [State.coreTurn, hsel]
  simp only [State.slotTurn, hissue, hcause, Bool.true_eq_false, Option.isSome_none, Bool.false_eq_true, if_false]
  split
  next z hz => rw [if_pos (hstall z hz)]
  next => rfl

section
variable {s : State} {i : SlotId} {q : QEntry} {a : Instr} (hhead : (s.slotOf i).vHead = some q) (hrun : s.runs i.core = true)
  (hdecode : decode q.word = .ok a)
include hhead hrun hdecode

theorem State.vWord_some : s.vWord i = some a := by
  rw [State.vWord, hhead]
  simp only [hrun, if_true, hdecode]
  rfl

/-- The vector engine runs the word at the head of a slot's queue when it is the slot's turn. -/
theorem State.vectorTurn_head : s.vectorTurn exec i =
    if s.vTurn exec i then exec a ((s.mapCore i.core fun k => { k with vecSlot := i.slot }).asVector i) else .next s := by
  rw [State.vectorTurn, State.vWord_some hhead hrun hdecode]

end

/-- Settles O54: a choice at a time. -/
theorem stepRunsDecoded : Obligations.StepRunsDecoded := by
  unfold Obligations.StepRunsDecoded
  intro s t u r c i w a q k s1
  refine ⟨fun ha hsel hissue hcause hstall hfetch => ?_, fun ha hhead hrun hdecode => ?_, fun ha hev => ?_, fun ha => ?_, fun ha hturn hev => ?_,
    fun h => ?_⟩
  · have hcore : s1.carryOut exec (.core c) = exec (instrOf w) u :=
      (State.coreTurn_issues hsel hissue hcause hstall).trans (State.execPc_fetched hfetch)
    have hstep : step s = tickOutcome s (exec (instrOf w) u) := (step_of_agenda ha).trans (congrArg (tickOutcome s) hcore)
    exact ⟨fun hd => by rw [hstep, instrOf_ok hd], fun e hd => by rw [hstep, instrOf_error hd]⟩
  · have hvec : s1.carryOut exec (.vector i) = _ := State.vectorTurn_head (s := s1) hhead hrun hdecode
    rw [step_of_agenda ha, show ({ s with agenda := r } : State) = s1 from rfl, hvec]
    exact ⟨fun h => by rw [if_pos h], fun h => by rw [if_neg (ne_true_of_eq_false h)]⟩
  · have hcarry : s1.carryOut exec (.event a) = exec a s1 := if_pos hev
    exact (step_of_agenda ha).trans (congrArg (tickOutcome s) hcarry)
  · exact step_of_agenda ha
  · have hcarry : s.carryOut exec (.event a) = exec a s := if_pos hev
    rw [step_of_turn ha, hturn, hcarry]
  · rw [h]
    rfl

end Sys2Proof.Machine
end

section
/-! PROOF. O52: what the host's registers, keys, sessions, DMA, power and links do (12 R277; 20 R375, R385, R391 to R396). -/

namespace Sys2Proof.Machine

/-! ### Tables -/

theorem thas_tput {α : Type} (l : List (Nat × α)) (i j : Nat) (v : α) : thas (tput l i v) j = (i == j || thas l j) := by
  induction l with
  | nil => simp [tput, thas]
  | cons e r ih =>
    obtain ⟨k, x⟩ := e
    unfold tput
    split
    next h =>
      subst h
      simp only [thas, List.any_cons]
      cases k == j <;> rfl
    next =>
      split
      next => rfl
      next =>
        simp only [thas, List.any_cons] at ih ⊢
        rw [ih, Bool.or_left_comm]

theorem thas_tdrop_self {α : Type} (l : List (Nat × α)) (i : Nat) : thas (tdrop l i) i = false := by
  refine List.any_eq_false.mpr fun e he => ?_
  have hne := (List.mem_filter.mp he).2
  simpa using hne

/-! ### PF registers (R391) -/

theorem State.pfReg_pfPut_self (s : State) (off : Nat) (v : Word) : (s.pfPut off v).pfReg off = v := by
  unfold State.pfPut State.pfReg
  simp only [State.mapPkg]
  split
  next h => rw [tget_tdrop, if_pos rfl, h]
  next => rw [tget_tput, if_pos rfl]

theorem exec_pfRegisterWrite {s : State} {off : BitVec 16} {v : BitVec 64} {m : Word} (hup : s.up = true) (hm : pfMask off.toNat = some m) :
    ∃ t, exec (.pfRegisterWrite off v) s = .next t ∧ t.pfReg off.toNat = v &&& m ∧ t.slots = s.slots ∧ t.mem = s.mem := by
  have e : exec (.pfRegisterWrite off v) s = execPfRegisterWrite off v s := rfl
  rw [e, execPfRegisterWrite, hup, hm]
  refine ⟨_, rfl, ?_⟩
  simp only
  split
  next => exact ⟨s.pfReg_pfPut_self off.toNat (v &&& m), rfl, rfl⟩
  next => exact ⟨s.pfReg_pfPut_self off.toNat (v &&& m), rfl, rfl⟩

theorem exec_powerCap {s : State} (hup : s.up = true) (w : BitVec 64) : ∃ t, exec (.powerCap w) s = .next t ∧
    t.pfReg 0x40 = BitVec.ofNat 64 (min w.toNat Config.powerLimit) ∧ t.powerCap = min w.toNat Config.powerLimit ∧ t.slots = s.slots ∧
    t.mem = s.mem := by
  have e : exec (.powerCap w) s = execPowerCap w s := rfl
  rw [e, execPowerCap, if_pos hup]
  refine ⟨_, rfl, ?_, ?_, rfl, rfl⟩
  · show tget 0 (tput s.pkg.pf 0x40 _) 0x40 = _
    rw [tget_tput, if_pos rfl]
    rfl
  · have hlimit : min w.toNat Config.powerLimit ≤ 3600 := Nat.min_le_right _ _
    show (if thas (tput s.pkg.pf 0x40 _) 0x40 then min (tget 0 (tput s.pkg.pf 0x40 _) 0x40).toNat Config.powerLimit else _) = _
    rw [thas_tput, beq_self_eq_true, Bool.true_or, if_pos rfl, tget_tput, if_pos rfl, word, BitVec.toNat_ofNat,
      Nat.mod_eq_of_lt (by omega), Nat.min_assoc, Nat.min_self]

/-! ### Partitions and keys (R385, R391, R394) -/

section
variable {s : State} {p k : Fin 16} (hup : s.up = true)
include hup

theorem exec_logSwap : exec (.logSwap p) s = .next (s.mapPart p fun q => { q with logActive := !q.logActive }) :=
  congrArg Host.Outcome.next (if_pos hup)

theorem exec_doorbell (hv : (s.partOf p).valid = true) (v : BitVec 64) :
    exec (.doorbell p v) s = .next (s.mapPart p fun q => { q with doorbell := q.doorbell ||| v, devPend := true }) :=
  congrArg Host.Outcome.next (if_pos (by rw [hup, hv]; rfl))

theorem exec_keyClear : exec (.keyClear p k) s = .next (s.mapPart p fun q => { q with keys := tdrop q.keys k.val }) :=
  congrArg Host.Outcome.next (if_pos hup)

omit hup in
theorem exec_keyLoad_invalid (hv : (s.partOf p).valid = false) (w : BitVec 576) : exec (.keyLoad p k w) s = .next s := by
  have e : exec (.keyLoad p k w) s = execKeyLoad p k w s := rfl
  rw [e, execKeyLoad]
  simp only [hv, Bool.and_false]

section
variable (hv : (s.partOf p).valid = true) {e : Nat × BitVec 384} {w : BitVec 576}
  (hs : s.pkg.spdm.sessions.find? (fun x => x.1 == bitsOf ((s.partOf p).word 0) 16 4) = some e)
include hv hs

theorem exec_keyLoad_loads {key : BitVec 512} (hkey : keyUnwrap (Config.wrapKey e.2) w = some key) :
    exec (.keyLoad p k w) s = .next (s.mapPart p fun q => { q with keys := tput q.keys k.val key }) := by
  have e : exec (.keyLoad p k w) s = execKeyLoad p k w s := rfl
  rw [e, execKeyLoad]
  simp only [hup, hv, Bool.and_self, hs, hkey]

theorem exec_keyLoad_leaves (hkey : keyUnwrap (Config.wrapKey e.2) w = none) : exec (.keyLoad p k w) s = .next s := by
  have e : exec (.keyLoad p k w) s = execKeyLoad p k w s := rfl
  rw [e, execKeyLoad]
  simp only [hup, hv, Bool.and_self, hs, hkey]

end

/-! ### SPDM (R393) -/

omit hup in
theorem Spdm.answers_sign (d : Spdm) (m : BitVec 256) : (d.sign m).answers = d.answers ++ [Config.hssSign d.top d.leaf m] := by
  unfold Spdm.sign Spdm.useLeaf
  split <;> rfl

theorem exec_spdm_measurements (vf : Fin 17) (nonce : BitVec 256) :
    ∃ t sig, exec (.spdmRequest vf (.getMeasurements nonce)) s = .next t ∧
      t.pkg.spdm.answers = s.pkg.spdm.answers ++ [sig] ∧ t.slots = s.slots ∧ t.mem = s.mem := by
  have e : exec (.spdmRequest vf (.getMeasurements nonce)) s = execSpdmRequest vf (.getMeasurements nonce) s := rfl
  rw [e, execSpdmRequest, if_neg (ne_false_of_eq_true hup)]
  exact ⟨_, _, rfl, Spdm.answers_sign _ _, rfl, rfl⟩

theorem exec_spdm_exchange (vf : Fin 17) (share : BitVec 768) :
    ∃ t sig, exec (.spdmRequest vf (.keyExchange share)) s = .next t ∧
      t.pkg.spdm.answers = s.pkg.spdm.answers ++ [sig] ∧ t.pkg.spdm.exchanges = s.pkg.spdm.exchanges + 1 ∧ t.slots = s.slots := by
  have e : exec (.spdmRequest vf (.keyExchange share)) s = execSpdmRequest vf (.keyExchange share) s := rfl
  rw [e, execSpdmRequest, if_neg (ne_false_of_eq_true hup)]
  exact ⟨_, _, rfl, Spdm.answers_sign _ _, rfl, rfl⟩

theorem exec_spdm_end (vf : Fin 17) : ∃ t, exec (.spdmRequest vf .endSession) s = .next t ∧
    t.pkg.spdm.sessions = tdrop s.pkg.spdm.sessions vf.val ∧ t.slots = s.slots := by
  have e : exec (.spdmRequest vf .endSession) s = execSpdmRequest vf .endSession s := rfl
  rw [e, execSpdmRequest, if_neg (ne_false_of_eq_true hup)]
  exact ⟨_, rfl, rfl, rfl⟩

/-! ### DMA (R392) -/

theorem exec_dma (hgo : (s.pfReg 0x118).getLsbD 0 = true) (hlen : (s.pfReg 0x110).toNat % 4096 = 0) (hpos : 0 < (s.pfReg 0x110).toNat)
    (hsrc : (s.pfReg 0x100).toNat % 32 = 0) (hdst : (s.pfReg 0x108).toNat % 32 = 0)
    (hsides : dmaSides (s.pfReg 0x100).toNat (s.pfReg 0x108).toNat (s.pfReg 0x110).toNat = true)
    (hs : s.unlockedRange (s.pfReg 0x100).toNat (s.pfReg 0x110).toNat = true)
    (hd : s.unlockedRange (s.pfReg 0x108).toNat (s.pfReg 0x110).toNat = true) :
    exec .dma s = .next ((s.dmaGrans ((s.pfReg 0x118).getLsbD 1) (s.pfReg 0x100).toNat (s.pfReg 0x108).toNat
      ((s.pfReg 0x110).toNat / 32)).pfPut 0x118 (s.pfReg 0x118 &&& ~~~(1 : Word))) := by
  have e : exec .dma s = execDma s := rfl
  rw [e, execDma]
  refine congrArg Host.Outcome.next (if_pos ?_)
  rw [hup, hgo, hsides, hs, hd, decide_eq_true hlen, decide_eq_true hpos, decide_eq_true hsrc, decide_eq_true hdst]
  rfl

end

/-! ### Power and clock (R396) -/

/-- Stops a core, as HALT would (R363). -/
def State.stopCore (s : State) (c : Fin 256) : State :=
  s.mapCore c fun k => { k with halted := true }

theorem State.halted_stopCores (l : List (Fin 256)) (s : State) (c : Fin 256) :
    ((l.foldl State.stopCore s).coreOf c).halted = ((s.coreOf c).halted || l.contains c) := by
  induction l generalizing s with
  | nil => simp
  | cons d r ih =>
    rw [List.foldl_cons, ih, State.stopCore, State.coreOf_mapCore, List.contains_cons]
    by_cases h : c = d
    · simp [h]
    · simp [h, beq_eq_false_iff_ne.mpr h]

theorem State.kept_stopCores (l : List (Fin 256)) (s : State) :
    (l.foldl State.stopCore s).slots = s.slots ∧ (l.foldl State.stopCore s).mem = s.mem ∧ (l.foldl State.stopCore s).pkg = s.pkg := by
  induction l generalizing s with
  | nil => exact ⟨rfl, rfl, rfl⟩
  | cons c r ih => exact ih (s.stopCore c)

theorem State.kept_openReport (s : State) :
    s.openReport.slots = s.slots ∧ s.openReport.mem = s.mem ∧ s.openReport.cores = s.cores ∧
      s.openReport.pkg.mbox.length = s.pkg.mbox.length + 1 :=
  ⟨rfl, rfl, rfl, List.length_append⟩

theorem exec_thermalTrip (s : State) : ∃ t, exec .thermalTrip s = .next t ∧ (∀ c, (t.coreOf c).halted = true) ∧
    t.pkg.mbox.length = s.pkg.mbox.length + 1 ∧ t.slots = s.slots ∧ t.mem = s.mem := by
  obtain ⟨hslots, hmem, hpkg⟩ := State.kept_stopCores (List.finRange 256) s
  have hhalted := State.halted_stopCores (List.finRange 256) s
  have e : exec .thermalTrip s = .next ((List.finRange 256).foldl State.stopCore s).openReport := rfl
  refine ⟨_, e, ?_⟩
  generalize (List.finRange 256).foldl State.stopCore s = u at hslots hmem hpkg hhalted ⊢
  obtain ⟨hslots', hmem', hcores, hmbox⟩ := u.kept_openReport
  refine ⟨fun c => ?_, by rw [hmbox, hpkg], hslots'.trans hslots, hmem'.trans hmem⟩
  have hin : (List.finRange 256).contains c = true := List.contains_iff_mem.mpr (List.mem_finRange c)
  rw [State.coreOf, hcores, ← State.coreOf, hhalted, hin, Bool.or_true]

section
variable {s : State} {n : Nat}

theorem exec_clockThrottle_above (hn : s.powerCap < n) (hclock : 25 < s.pkg.clockMHz) :
    exec (.clockThrottle n) s = .next (s.mapPkg fun k => { k with clockMHz := k.clockMHz - 25 }) :=
  congrArg Host.Outcome.next (if_pos ⟨hn, hclock⟩)

theorem exec_clockThrottle_within (hn : n ≤ s.powerCap) : exec (.clockThrottle n) s = .next s :=
  congrArg Host.Outcome.next (if_neg fun h => absurd h.1 (by omega))

end

/-! ### Bring-up (R374, R393, R395) -/

/-- What a change of the link keys alone leaves of a state. -/
structure State.KeysDrawn (s t : State) : Prop where
  slots : t.slots = s.slots
  parts : t.parts = s.parts
  segs : t.segs = s.segs
  mem : t.mem = s.mem

theorem State.keysDrawn_newLinkKeys (l : List Nat) (s : State) : s.KeysDrawn (s.newLinkKeys l) := by
  induction l generalizing s with
  | nil => exact ⟨rfl, rfl, rfl, rfl⟩
  | cons d r ih =>
    obtain ⟨hslots, hparts, hsegs, hmem⟩ := ih (s.drawKey.2.mapPkg fun g => { g with linkKeys := tput g.linkKeys d s.drawKey.1 })
    exact ⟨hslots, hparts, hsegs, hmem⟩

theorem State.thas_newLinkKeys (l : List Nat) (s : State) (d : Nat) :
    thas (s.newLinkKeys l).pkg.linkKeys d = (l.contains d || thas s.pkg.linkKeys d) := by
  induction l generalizing s with
  | nil => rfl
  | cons e r ih =>
    refine (ih (s.drawKey.2.mapPkg fun g => { g with linkKeys := tput g.linkKeys e s.drawKey.1 })).trans ?_
    have hput : thas (tput s.pkg.linkKeys e s.drawKey.1) d = (e == d || thas s.pkg.linkKeys d) := thas_tput _ _ _ _
    refine (congrArg (r.contains d || ·) hput).trans ?_
    rw [List.contains_cons, Bool.or_left_comm, ← Bool.or_assoc, BEq.comm]

theorem bootable_iff (g : FirmwareImage) :
    bootable g = true ↔ g.signatureValid = true ∧ g.keyHash = Config.fusedKeyHash ∧ Config.fusedRollback ≤ g.version := by
  rw [bootable, Bool.and_eq_true, Bool.and_eq_true, beq_iff_eq, decide_eq_true_iff, and_assoc]

theorem exec_coldReset (s : State) (g : FirmwareImage) :
    ∃ t, exec (.coldReset g) s = .next t ∧ t.slots = [] ∧ t.parts = [] ∧ t.segs = [] ∧ t.mem = .empty ∧
      (∀ d < 4, thas t.pkg.linkKeys d = true) ∧ t.pkg.spdm.top = s.pkg.spdm.top ∧ t.pkg.spdm.leaf = s.pkg.spdm.leaf ∧
      (t.up = true ↔ g.signatureValid = true ∧ g.keyHash = Config.fusedKeyHash ∧ Config.fusedRollback ≤ g.version) := by
  have e : exec (.coldReset g) s = execColdReset g s := rfl
  rw [e, execColdReset]
  obtain ⟨hslots, hparts, hsegs, hmem⟩ :=
    State.keysDrawn_newLinkKeys [0, 1, 2, 3] { State.reset with agenda := s.agenda, free := s.free }
  have hkeys := State.thas_newLinkKeys [0, 1, 2, 3] { State.reset with agenda := s.agenda, free := s.free }
  simp only
  generalize State.newLinkKeys _ [0, 1, 2, 3] = u at hslots hparts hsegs hmem hkeys ⊢
  refine ⟨_, rfl, hslots, hparts, hsegs, hmem, fun d hd => ?_, rfl, rfl, ?_⟩
  · refine (hkeys d).trans ?_
    have hin : [0, 1, 2, 3].contains d = true := by
      rw [List.contains_iff_mem]
      simp only [List.mem_cons, List.not_mem_nil, or_false]
      omega
    rw [hin, Bool.true_or]
  · rw [← bootable_iff]
    show (if bootable g = true then some g else none).isSome = true ↔ bootable g = true
    cases bootable g
    case false => exact Iff.intro (fun h => nomatch h) (fun h => nomatch h)
    case true => exact Iff.intro (fun _ => rfl) (fun _ => rfl)

/-! ### Links (R375) -/

section
variable {s : State} {l : Fin 4} {z : Link} (hz : tget ⟨0, false⟩ s.pkg.links l.val = z) (hdown : z.down = false)
include hz hdown

theorem exec_linkCrcError_fails : ∃ t, exec (.linkCrcError l true) s = .next t ∧ t.slots = s.slots ∧
    tget (⟨0, false⟩ : Link) t.pkg.links l.val = ⟨z.fails + 1, decide (16 ≤ z.fails + 1)⟩ := by
  have e : exec (.linkCrcError l true) s = execLinkCrcError l true s := rfl
  rw [e, execLinkCrcError, hz]
  simp only [hdown, Bool.false_eq_true, if_false]
  exact ⟨_, rfl, rfl, (tget_tput _ _ _ _ _).trans (if_pos rfl)⟩

theorem exec_linkCrcError_corrected : ∃ t, exec (.linkCrcError l false) s = .next t ∧ t.slots = s.slots ∧
    tget (⟨0, false⟩ : Link) t.pkg.links l.val = ⟨0, false⟩ := by
  have e : exec (.linkCrcError l false) s = execLinkCrcError l false s := rfl
  rw [e, execLinkCrcError, hz]
  simp only [hdown, Bool.false_eq_true, if_false]
  exact ⟨_, rfl, rfl, (tget_tput _ _ _ _ _).trans (if_pos rfl)⟩

end

/-! ### Allowance (R277) -/

theorem Bucket.debt_refill (b : Bucket) (pool rate : Nat) : (b.refill pool rate).1.debt = b.debt - rate := by
  show b.debt - min b.debt rate = _
  omega

theorem Bucket.fill_refill_le (b : Bucket) (pool rate : Nat) : (b.refill pool rate).1.fill ≤ bucketDepth rate := by
  show b.fill + (rate - min b.debt rate) - (b.fill + (rate - min b.debt rate) - bucketDepth rate) ≤ bucketDepth rate
  omega

/-- No byte of a refill is lost. -/
theorem Bucket.sum_refill (b : Bucket) (pool rate : Nat) :
    (b.refill pool rate).1.fill + (b.refill pool rate).2 = b.fill + pool + rate := by
  show b.fill + (rate - min b.debt rate) - (b.fill + (rate - min b.debt rate) - bucketDepth rate) +
    (pool + min b.debt rate + (b.fill + (rate - min b.debt rate) - bucketDepth rate)) = b.fill + pool + rate
  omega

theorem exec_allowanceRefill {s : State} {p : Fin 16} (hv : (s.partOf p).valid = true) :
    ∃ t, exec (.allowanceRefill p) s = .next t ∧ t.slots = s.slots ∧ t.mem = s.mem ∧
      let r := (s.partOf p).falBucket.refill s.pkg.falPool (bitsOf ((s.partOf p).word 7) 32 32)
      (t.partOf p).falBucket = r.1 ∧ t.pkg.falPool = r.2 := by
  have e : exec (.allowanceRefill p) s = execAllowanceRefill p s := rfl
  rw [e, execAllowanceRefill]
  refine ⟨_, congrArg Host.Outcome.next (if_pos hv), rfl, rfl, ?_, rfl⟩
  have hpkg (u : State) (f : Package → Package) : (u.mapPkg f).partOf p = u.partOf p := rfl
  rw [hpkg, State.partOf_mapPart_self]

/-- Settles O52: each step of the host by the lemma of its event; R375, R385, R391 to R396, R277. -/
theorem hostSteps : Obligations.HostSteps := by
  unfold Obligations.HostSteps
  intro s p k v off m w n l vf g
  refine ⟨fun hup => ⟨exec_pfRegisterWrite hup, exec_powerCap hup v, ⟨_, exec_logSwap hup, ?_, rfl, rfl⟩,
    fun hv => ⟨_, exec_doorbell hup hv v, ?_, ?_, rfl, rfl⟩, ⟨_, exec_keyClear hup, ?_, rfl, rfl⟩,
    fun hv => exec_keyLoad_invalid hv w,
    fun hv e key hs => ⟨fun hkey => ⟨_, exec_keyLoad_loads hup hv hs hkey, fun d => ?_⟩, exec_keyLoad_leaves hup hv hs⟩,
    exec_spdm_measurements hup vf, exec_spdm_exchange hup vf, exec_spdm_end hup vf, exec_dma hup⟩,
    exec_thermalTrip s, fun hn hclock => ⟨_, exec_clockThrottle_above hn hclock, rfl, rfl, rfl⟩, exec_clockThrottle_within,
    exec_coldReset s g, fun z hz hdown => ⟨exec_linkCrcError_fails hz hdown, exec_linkCrcError_corrected hz hdown⟩, fun hv => ?_⟩
  · rw [State.partOf_mapPart_self]
  · rw [State.partOf_mapPart_self]
  · rw [State.partOf_mapPart_self]
  · rw [State.partOf_mapPart_self]
    exact thas_tdrop_self _ _
  · rw [State.partOf_mapPart_self]
    exact (tget_tput _ _ _ _ _).trans (if_pos rfl)
  · obtain ⟨t, ht, hslots, hmem, hbucket, hpool⟩ := exec_allowanceRefill hv
    refine ⟨t, ht, hslots, hmem, ?_, ?_, ?_⟩
    · rw [hbucket, Bucket.debt_refill]
    · rw [hbucket]
      exact Bucket.fill_refill_le _ _ _
    · rw [hbucket, hpool]
      exact Bucket.sum_refill _ _ _

end Sys2Proof.Machine
end

section
/-! PROOF. What keeps the byte stores in their canonical form (log 5): the operations on the state, from the caches and the store queue to the
segments, the domains and the traps. -/

namespace Sys2Proof.Machine

namespace State.Canonical

variable {s : State}

theorem ite {c : Prop} [Decidable c] {t u : State} (ht : t.Canonical) (hu : u.Canonical) : (if c then t else u).Canonical := by
  split
  next => exact ht
  next => exact hu

theorem foldl {α : Type} {f : State → α → State} {l : List α} (h : s.Canonical)
    (hf : ∀ (t : State) (a : α), t.Canonical → (f t a).Canonical) : (l.foldl f s).Canonical :=
  List.foldlRecOn l f (motive := State.Canonical) h fun _ ht a _ => hf _ a ht

/-! Segments that change, but not their bytes. -/

theorem of_segs {t : State} (h : s.Canonical) (hm : t.mem = s.mem) (hg : ∀ g ∈ t.segs, ∃ x ∈ s.segs, g.data = x.data) :
    t.Canonical := by
  refine ⟨hm ▸ h.1, fun g hin => ?_⟩
  obtain ⟨x, hx, hdata⟩ := hg g hin
  exact hdata ▸ h.2 x hx

theorem data_of_map {l : List Seg} {f : Seg → Seg} (hf : ∀ g, (f g).data = g.data) : ∀ g ∈ l.map f, ∃ x ∈ l, g.data = x.data := by
  intro g hg
  obtain ⟨x, hx, rfl⟩ := List.mem_map.mp hg
  exact ⟨x, hx, hf x⟩

theorem data_of_filter {l : List Seg} {p : Seg → Bool} : ∀ g ∈ l.filter p, ∃ x ∈ l, g.data = x.data :=
  fun g hg => ⟨g, List.mem_of_mem_filter hg, rfl⟩

/-- A change of segments by cases keeps their bytes if each case does. -/
theorem data_ite {c : Prop} [Decidable c] {g x : Seg} (hx : x.data = g.data) : (if c then x else g).data = g.data := by
  split
  next => exact hx
  next => rfl

theorem dropClean (h : s.Canonical) {c} : (s.dropClean c).Canonical :=
  ((State.Moves.evictSome ..).canonical h : (s.evictSome c (s.mixedLines c)).Canonical)

/-! The operations of the state, each after those that it uses. One that changes neither the memory nor a segment has the form by the hypothesis
itself; one that `State.Moves` describes, by that; the others by those that they are made of. -/

theorem mapPkg (h : s.Canonical) {f} : (s.mapPkg f).Canonical := h

theorem hold (h : s.Canonical) {hd} : (s.hold hd).Canonical := h

theorem mapPart (h : s.Canonical) {p f} : (s.mapPart p f).Canonical := h

theorem raiseError (h : s.Canonical) {p} : (s.raiseError p).Canonical :=
  (State.Moves.raiseError ..).canonical h

theorem mapDie (h : s.Canonical) {d f} : (s.mapDie d f).Canonical := h

theorem logError (h : s.Canonical) {die p e} : (s.logError die p e).Canonical :=
  (State.Moves.logError ..).canonical h

theorem devFail (h : s.Canonical) {p} : (s.devFail p).Canonical := h

theorem putStored (h : s.Canonical) {g y old} : (s.putStored g y old).Canonical :=
  (State.Moves.putStored ..).canonical h

theorem logDirty (h : s.Canonical) {p dlog pa} : (s.logDirty p dlog pa).Canonical :=
  (State.Moves.logDirty ..).canonical h

theorem homePutNow (h : s.Canonical) {p key dlog g x} : (s.homePutNow p key dlog g x).Canonical :=
  (State.Moves.homePutNow ..).canonical h

theorem savePut (h : s.Canonical) {p pa w} : (s.savePut p pa w).Canonical := by
  unfold State.savePut
  exact .ite h.hold h.homePutNow

theorem saveWords (h : s.Canonical) {p n2 l3} : (s.saveWords p n2 l3).Canonical := by
  induction l3 generalizing s n2 with
  | nil => exact h
  | cons _ _ ih => exact ih h.savePut

theorem writeEntries (h : s.Canonical) {p a l3} : (s.writeEntries p a l3).Canonical := by
  induction l3 generalizing s with
  | nil => exact h
  | cons _ _ ih => exact ih h.saveWords

theorem writeJournals (h : s.Canonical) {old l2} : (s.writeJournals old l2).Canonical := by
  induction l2 generalizing s with
  | nil => exact h
  | cons _ _ ih =>
    rw [State.writeJournals]
    refine ih ?_
    split
    next => exact h
    next => exact h.writeEntries

theorem mapPort (h : s.Canonical) {n f} : (s.mapPort n f).Canonical := h

theorem sendRequest (h : s.Canonical) {r} : (s.sendRequest r).Canonical := h

theorem sendOwn (h : s.Canonical) {p dev pa op dlog} : (s.sendOwn p dev pa op dlog).Canonical := h

theorem sendDom (h : s.Canonical) {p dev id task m} : (s.sendDom p dev id task m).Canonical := by
  unfold State.sendDom
  exact .ite h.devFail h.sendOwn

theorem mapDom (h : s.Canonical) {p level id f} : (s.mapDom p level id f).Canonical := h

theorem tellMembers (h : s.Canonical) {p d l3} : (s.tellMembers p d l3).Canonical := by
  induction l3 generalizing s with
  | nil => exact h
  | cons _ _ ih => exact ih (.ite h h.sendDom.mapDom)

theorem tellDoms (h : s.Canonical) {old p} : (s.tellDoms old p).Canonical := by
  unfold State.tellDoms
  exact (h.foldl fun _ _ h => h.tellMembers).foldl fun _ _ h => h.foldl fun _ _ h => .ite h h.sendOwn

theorem homePut (h : s.Canonical) {p key dlog g x} : (s.homePut p key dlog g x).Canonical :=
  (State.Moves.homePut ..).canonical h

theorem raiseMsix (h : s.Canonical) {p} : (s.raiseMsix p).Canonical := h

theorem devWrite (h : s.Canonical) {p root va w report} : (s.devWrite p root va w report).Canonical := by
  unfold State.devWrite
  split
  next => exact h.devFail
  next => exact .ite h.devFail h.sendOwn
  next => exact .ite h.hold (.ite h.devFail (.ite h.homePut.raiseMsix h.homePut))

theorem devReport (h : s.Canonical) {p root va w} : (s.devReport p root va w).Canonical := by
  unfold State.devReport
  exact h.devWrite

theorem acknowledge (h : s.Canonical) {p id} : (s.acknowledge p id).Canonical := by
  unfold State.acknowledge
  split
  next => exact h
  next =>
    split
    next => exact h
    next =>
      simp only
      split
      next => exact h.mapPart
      next => exact h.mapPart.devReport

theorem reapScopes (h : s.Canonical) {p n2} : (s.reapScopes p n2).Canonical := by
  induction n2 generalizing s with
  | zero => exact h
  | succ _ ih =>
    rw [State.reapScopes]
    split
    next => exact h
    next => exact ih (mapPart (.ite h.acknowledge h))

theorem reap (h : s.Canonical) {p} : (s.reap p).Canonical := by
  unfold State.reap
  exact h.reapScopes

theorem writtenBy (h : s.Canonical) {l slot core} : (s.writtenBy l slot core).Canonical :=
  (State.Moves.writtenBy ..).canonical h

theorem performHeld (h : s.Canonical) {hd} : (s.performHeld hd).Canonical := by
  unfold State.performHeld
  simp only
  split
  next => exact .ite h.homePutNow.writtenBy.raiseMsix h.homePutNow.writtenBy
  next => exact h.devFail

theorem performHelds (h : s.Canonical) {l1} : (s.performHelds l1).Canonical := by
  induction l1 generalizing s with
  | nil => exact h
  | cons _ _ ih => exact ih (.ite h h.mapPkg.performHeld)

theorem settleHeld (h : s.Canonical) : (s.settleHeld).Canonical := by
  unfold State.settleHeld
  exact .ite h (h.performHelds.foldl fun _ _ h => h.reap)

theorem announceHome (h : s.Canonical) {p level id} : (s.announceHome p level id).Canonical := by
  unfold State.announceHome
  exact .ite (h.foldl fun _ _ h => .ite h h.sendOwn) h

theorem wakeQueues (h : s.Canonical) {p mask} : (s.wakeQueues p mask).Canonical := h

theorem wakeBy (h : s.Canonical) {p l mask data} : (s.wakeBy p l mask data).Canonical :=
  (State.Moves.wakeBy ..).canonical h

theorem peerWake (h : s.Canonical) {p l y3} : (s.peerWake p l y3).Canonical := by
  unfold State.peerWake
  split
  next => exact h.wakeBy
  next => exact h

theorem noteTx (h : s.Canonical) {q} : (s.noteTx q).Canonical := by
  unfold State.noteTx
  split
  next => exact h.mapPkg
  next => exact h.mapPkg
  next => exact h

theorem acknowledgeAll (h : s.Canonical) {p l2} : (s.acknowledgeAll p l2).Canonical := by
  induction l2 generalizing s with
  | nil => exact h
  | cons _ _ ih => exact ih h.acknowledge

theorem setSlot (h : s.Canonical) {i x} : (s.setSlot i x).Canonical := h

theorem startSupervisor (h : s.Canonical) {p} : (s.startSupervisor p).Canonical := h

theorem restart (h : s.Canonical) {p} : (s.restart p).Canonical := by
  unfold State.restart
  exact .ite h.acknowledgeAll.mapPart.startSupervisor h

theorem mapCore (h : s.Canonical) {c f} : (s.mapCore c f).Canonical :=
  (State.Moves.mapCore ..).canonical h

theorem sweepBanks (h : s.Canonical) {c} : (s.sweepBanks c).Canonical := h

theorem sweepBands (h : s.Canonical) {l} : (s.sweepBands l).Canonical := by
  unfold State.sweepBands
  exact h.foldl fun _ _ h => h.sweepBanks

theorem freeBanks (h : s.Canonical) {c key} : (s.freeBanks c key).Canonical := h

theorem mapSlot (h : s.Canonical) {i f} : (s.mapSlot i f).Canonical := h

theorem grantTokens (h : s.Canonical) {i l2} : (s.grantTokens i l2).Canonical := by
  induction l2 generalizing s with
  | nil => exact h
  | cons _ _ ih =>
    rw [State.grantTokens]
    refine ih ?_
    split
    next => exact h
    next =>
      split
      next => exact h.mapSlot
      next => exact (h.foldl fun _ _ h => h.mapSlot).mapCore

theorem markRemotes (h : s.Canonical) {p scope f} : (s.markRemotes p scope f).Canonical := h

theorem writeBackLine (h : s.Canonical) {c n} : (s.writeBackLine c n).Canonical :=
  (State.Moves.writeBackLine ..).canonical h

theorem drainFifo (h : s.Canonical) {c} : (s.drainFifo c).Canonical :=
  (State.Moves.drainFifo ..).canonical h

theorem devUpdate (h : s.Canonical) {p root va w} : (s.devUpdate p root va w).Canonical := by
  unfold State.devUpdate
  exact h.devWrite

theorem putCtr (h : s.Canonical) {p g d} : (s.putCtr p g d).Canonical := by
  unfold State.putCtr
  exact h.devUpdate

theorem putCtrs (h : s.Canonical) {p g l3} : (s.putCtrs p g l3).Canonical := by
  induction l3 generalizing s with
  | nil => exact h
  | cons _ _ ih => exact ih (.ite h.putCtr h)

theorem leaveDom (h : s.Canonical) {p t level id killed} : (s.leaveDom p t level id killed).Canonical := by
  unfold State.leaveDom
  split
  next => exact h.mapDom.sendDom
  next => exact h.mapDom

theorem leaveAll (h : s.Canonical) {p t killed l4} : (s.leaveAll p t killed l4).Canonical := by
  induction l4 generalizing s with
  | nil => exact h
  | cons _ _ ih => exact ih (.ite h h.leaveDom)

theorem leaveTask (h : s.Canonical) {t doms killed} : (s.leaveTask t doms killed).Canonical := by
  unfold State.leaveTask
  exact h.leaveAll.mapPart.reap

theorem dropUnplaced (h : s.Canonical) {p graph index l4} : (s.dropUnplaced p graph index l4).Canonical := by
  induction l4 generalizing s with
  | nil => exact h
  | cons _ _ ih => exact ih h.leaveTask.mapPart

theorem devAdd (h : s.Canonical) {p root ptr n} : (s.devAdd p root ptr n).Canonical := by
  unfold State.devAdd
  exact .ite h h.devReport

theorem settleInst (h : s.Canonical) {p graph index} : (s.settleInst p graph index).Canonical := by
  unfold State.settleInst
  split
  next => exact h
  next => exact .ite h.mapPart.devAdd h

theorem nodeEnded (h : s.Canonical) {t ended} : (s.nodeEnded t ended).Canonical := by
  unfold State.nodeEnded
  split
  next => exact h
  next =>
    simp only
    split
    next => exact h
    next => exact settleInst (.ite (((mapPart (.ite h h.putCtrs)).dropUnplaced).mapPart) (mapPart (.ite h h.putCtrs)))

theorem dropRec (h : s.Canonical) {r} : (s.dropRec r).Canonical := by
  unfold State.dropRec
  exact h.leaveTask.nodeEnded

theorem mapCluster (h : s.Canonical) {c f} : (s.mapCluster c f).Canonical := h

theorem redeclare (h : s.Canonical) {i hd ptr lines} : (s.redeclare i hd ptr lines).Canonical := h

theorem loadBlocks (h : s.Canonical) {i p a l4} : (s.loadBlocks i p a l4).Canonical := by
  induction l4 generalizing s with
  | nil => exact h
  | cons _ _ ih =>
    rw [State.loadBlocks]
    refine ih ?_
    split
    next => exact h
    next =>
      split
      next => exact h
      next => exact .ite h.redeclare h

theorem dropLine (h : s.Canonical) {c n} : (s.dropLine c n).Canonical :=
  (State.Moves.dropLine ..).canonical h

theorem evictLine (h : s.Canonical) {c n} : (s.evictLine c n).Canonical :=
  (State.Moves.evictLine ..).canonical h

theorem evictSome (h : s.Canonical) {c l2} : (s.evictSome c l2).Canonical :=
  (State.Moves.evictSome ..).canonical h

theorem acquire (h : s.Canonical) {i scope t} : (s.acquire i scope t).Canonical := by
  unfold State.acquire
  exact mapSlot (.ite h.dropClean h)

theorem setDeque (h : s.Canonical) {c l} : (s.setDeque c l).Canonical := h

theorem forget (h : s.Canonical) {p} : (s.forget p).Canonical := h

theorem keepFetched (h : s.Canonical) {key g} : (s.keepFetched key g).Canonical := h

theorem ask (h : s.Canonical) {p l2} : (s.ask p l2).Canonical := by
  induction l2 generalizing s with
  | nil => exact h
  | cons _ _ ih => exact ih (.ite h (.ite h.keepFetched h.sendOwn))

theorem setL2 (h : s.Canonical) {ctx lim} : (s.setL2 ctx lim).Canonical := h

theorem writeStart (h : s.Canonical) {i p c vlw t} : (s.writeStart i p c vlw t).Canonical := by
  unfold State.writeStart
  exact h.savePut.saveWords.savePut.saveWords

theorem domMirror (h : s.Canonical) {p core t level id phase} : (s.domMirror p core t level id phase).Canonical := by
  unfold State.domMirror
  exact .ite h.mapPart h.mapPart

theorem noteSaved (h : s.Canonical) : (s.noteSaved).Canonical := by
  unfold State.noteSaved
  exact .ite h.mapPkg h

theorem turnTo (h : s.Canonical) {i} : (s.turnTo i).Canonical := by
  unfold State.turnTo
  exact .ite h.mapCore.mapSlot h.mapCore

theorem wakeIcore (h : s.Canonical) {c} : (s.wakeIcore c).Canonical := by
  unfold State.wakeIcore
  exact .ite h.mapSlot h

theorem freeSlot (h : s.Canonical) {i} : (s.freeSlot i).Canonical := h

theorem endLease (h : s.Canonical) {c} : (s.endLease c).Canonical := h

theorem dropLease (h : s.Canonical) {i} : (s.dropLease i).Canonical := by
  unfold State.dropLease
  exact mapCluster (.ite h.endLease h)

theorem dropTicket (h : s.Canonical) {u} : (s.dropTicket u).Canonical := by
  unfold State.dropTicket
  split <;> exact h

theorem releaseIfDone (h : s.Canonical) {c} : (s.releaseIfDone c).Canonical := by
  unfold State.releaseIfDone
  simp only
  split
  next => exact .ite h h.endLease
  next => exact h

theorem idleLease (h : s.Canonical) {i} : (s.idleLease i).Canonical := by
  unfold State.idleLease
  exact .ite h.mapCluster.mapCluster.releaseIfDone h.mapCluster

theorem orphanCopies (h : s.Canonical) {i} : (s.orphanCopies i).Canonical := h

theorem stopCampion (h : s.Canonical) {i} : (s.stopCampion i).Canonical := by
  unfold State.stopCampion
  split
  next => exact h
  next => exact .ite h.mapSlot.endLease h.mapSlot

theorem sendRemote (h : s.Canonical) {i dev pa op dlog} : (s.sendRemote i dev pa op dlog).Canonical := h

theorem sendUnlock (h : s.Canonical) {i l} : (s.sendUnlock i l).Canonical := by
  unfold State.sendUnlock
  split
  next => exact .ite h h.sendRemote
  next => exact h

theorem unlockOf (h : s.Canonical) {i} : (s.unlockOf i).Canonical := by
  unfold State.unlockOf
  split
  next => exact h
  next => exact .ite h ((h.foldl fun _ _ h => h.sendUnlock).mapPkg)

theorem dropTickets (h : s.Canonical) {i} : (s.dropTickets i).Canonical := by
  unfold State.dropTickets
  exact h.dropTicket.dropTicket.foldl fun _ _ h => h.dropTicket.dropTicket

theorem evictLines (h : s.Canonical) {c l2} : (s.evictLines c l2).Canonical :=
  (State.Moves.evictLines ..).canonical h

theorem evictBlock (h : s.Canonical) {i hd} : (s.evictBlock i hd).Canonical := by
  unfold State.evictBlock
  split
  next => exact h
  next => exact h.evictLines.mapSlot

theorem evictBlocks (h : s.Canonical) {i l2} : (s.evictBlocks i l2).Canonical := by
  induction l2 generalizing s with
  | nil => exact h
  | cons _ _ ih => exact ih h.evictBlock

theorem segPut (h : s.Canonical) {i g v} : (s.segPut i g v).Canonical :=
  (State.Moves.segPut ..).canonical h

theorem logArray (h : s.Canonical) {die p c site corrected inj pa} : (s.logArray die p c site corrected inj pa).Canonical :=
  (State.Moves.logArray ..).canonical h

theorem storeErrors (h : s.Canonical) {i g} : (s.storeErrors i g).Canonical :=
  (State.Moves.storeErrors ..).canonical h

theorem lostWrite (h : s.Canonical) {i l} : (s.lostWrite i l).Canonical :=
  (State.Moves.lostWrite ..).canonical h

theorem keepStored (h : s.Canonical) {l mask data} : (s.keepStored l mask data).Canonical :=
  (State.Moves.keepStored ..).canonical h

theorem sendStore (h : s.Canonical) {i dev pa op dlog wake} : (s.sendStore i dev pa op dlog wake).Canonical :=
  (State.Moves.sendStore ..).canonical h

theorem l1Errors (h : s.Canonical) {c p g} : (s.l1Errors c p g).Canonical :=
  (State.Moves.l1Errors ..).canonical h

theorem corrected (h : s.Canonical) {c p g} : (s.corrected c p g).Canonical :=
  (State.Moves.corrected ..).canonical h

theorem l1FillAt (h : s.Canonical) {c u ctx n t} : (s.l1FillAt c u ctx n t).Canonical :=
  (State.Moves.l1FillAt ..).canonical h

theorem l1Fill (h : s.Canonical) {c u ctx n} : (s.l1Fill c u ctx n).Canonical :=
  (State.Moves.l1Fill ..).canonical h

theorem noteWake (h : s.Canonical) {p l wake} : (s.noteWake p l wake).Canonical :=
  (State.Moves.noteWake ..).canonical h

theorem logConsumed (h : s.Canonical) {i inj cause eng seq} : (s.logConsumed i inj cause eng seq).Canonical :=
  (State.Moves.logConsumed ..).canonical h

theorem logMonitor (h : s.Canonical) {pa} : (s.logMonitor pa).Canonical := by
  unfold State.logMonitor
  split
  next => exact h.logDirty
  next => exact h

theorem monWrite (h : s.Canonical) {n1 l2} : (s.monWrite n1 l2).Canonical := by
  induction l2 generalizing s n1 with
  | nil => exact h
  | cons _ _ ih => exact ih (.ite h h.putStored.logMonitor)

theorem endConfig (h : s.Canonical) {status} : (s.endConfig status).Canonical := by
  unfold State.endConfig
  exact h.mapPkg.foldl fun _ _ h => .ite h.mapPart h

theorem cfgBusy (h : s.Canonical) {p} : (s.cfgBusy p).Canonical := by
  unfold State.cfgBusy
  exact .ite h.endConfig h

theorem report (h : s.Canonical) {cause i} : (s.report cause i).Canonical := h

theorem double (h : s.Canonical) {i tepc t tx} : (s.double i tepc t tx).Canonical := by
  unfold State.double
  exact (report (.ite h.monWrite.mapSlot.mapPart.logError.mapCore h.monWrite.mapSlot.mapPart.logError)).cfgBusy

theorem pushHead (h : s.Canonical) {c r} : (s.pushHead c r).Canonical := h

theorem enterTrap (h : s.Canonical) {i tcause tepc t0 t1 t2 t3} : (s.enterTrap i tcause tepc t0 t1 t2 t3).Canonical := by
  unfold State.enterTrap
  exact .ite h.dropTicket.setSlot h.dropTicket.setSlot

theorem storeSite (h : s.Canonical) {i q} : (s.storeSite i q).Canonical :=
  (State.Moves.storeSite ..).canonical h

theorem countCommand (h : s.Canonical) {c} : (s.countCommand c).Canonical := by
  unfold State.countCommand
  exact .ite h.mapCluster.endLease h.mapCluster.releaseIfDone

theorem saveHeader (h : s.Canonical) {i p a} : (s.saveHeader i p a).Canonical := by
  unfold State.saveHeader
  exact h.saveWords.saveWords.saveWords

theorem saveGrans (h : s.Canonical) {p n2 l3} : (s.saveGrans p n2 l3).Canonical := by
  induction l3 generalizing s n2 with
  | nil => exact h
  | cons _ _ ih => exact ih h.homePut

theorem zeroFill (h : s.Canonical) {p pa n} : (s.zeroFill p pa n).Canonical := by
  unfold State.zeroFill
  exact h.saveGrans

theorem saveDescs (h : s.Canonical) {i p a} : (s.saveDescs i p a).Canonical := by
  unfold State.saveDescs
  exact h.saveWords.saveWords.saveWords.zeroFill.saveWords.saveWords.zeroFill.foldl fun _ _ h => h.saveWords

theorem saveVector (h : s.Canonical) {i p a} : (s.saveVector i p a).Canonical := by
  unfold State.saveVector
  exact h.foldl (fun _ _ h => h.saveWords) |>.foldl (fun _ _ h => h.saveWords) |>.saveWords |>.foldl (fun _ _ h => h.saveWords) |>.saveWords
    |>.foldl (fun _ _ h => h.saveGrans) |>.foldl (fun _ _ h => h.saveGrans) |>.foldl (fun _ _ h => h.saveGrans)

theorem saveQueues (h : s.Canonical) {i p b} : (s.saveQueues i p b).Canonical := by
  unfold State.saveQueues
  exact h.saveWords.saveWords.saveWords.saveWords.saveWords.saveWords.savePut

theorem saveBlocks (h : s.Canonical) {i p a} : (s.saveBlocks i p a).Canonical := by
  unfold State.saveBlocks
  simp only
  refine State.Canonical.foldl h.zeroFill fun t a ht => ?_
  split <;> exact ht.saveWords

theorem pushTail (h : s.Canonical) {c r} : (s.pushTail c r).Canonical := h

theorem freeBank (h : s.Canonical) {c n} : (s.freeBank c n).Canonical := h

theorem setSpilled (h : s.Canonical) {p a n i b} : (s.setSpilled p a n i b).Canonical := by
  unfold State.setSpilled
  simp only
  split
  next => exact h.savePut
  next => exact h.savePut.mapSlot

theorem spillBank (h : s.Canonical) {c p a n owner} : (s.spillBank c p a n owner).Canonical := by
  unfold State.spillBank
  exact h.saveWords.setSpilled.freeBank

theorem spillBanks (h : s.Canonical) {c p a key l5} : (s.spillBanks c p a key l5).Canonical := by
  induction l5 generalizing s with
  | nil => exact h
  | cons _ _ ih => exact ih (.ite h.spillBank h)

theorem evictGran (h : s.Canonical) {g pg f n} : (s.evictGran g pg f n).Canonical := by
  unfold State.evictGran
  exact .ite h.homePut.logError.raiseError h.homePut

theorem evictGrans (h : s.Canonical) {g pg f n4} : (s.evictGrans g pg f n4).Canonical := by
  induction n4 with
  | zero => exact h
  | succ _ ih => exact ih.evictGran

theorem evictFrames (h : s.Canonical) {g l2} : (s.evictFrames g l2).Canonical := by
  induction l2 generalizing s with
  | nil => exact h
  | cons _ _ ih => exact ih h.evictGrans

theorem enterAsync (h : s.Canonical) {i eng cause t0 t1 t2 t3} : (s.enterAsync i eng cause t0 t1 t2 t3).Canonical := by
  unfold State.enterAsync
  exact h.enterTrap

theorem tlbNote (h : s.Canonical) {c p root va g} : (s.tlbNote c p root va g).Canonical := h

theorem setMe (h : s.Canonical) {x} : (s.setMe x).Canonical := h

theorem stallMe (h : s.Canonical) {r} : (s.stallMe r).Canonical := h

theorem asVector (h : s.Canonical) {i} : (s.asVector i).Canonical := h

theorem retireTo (h : s.Canonical) {t} : (s.retireTo t).Canonical := h

theorem retire (h : s.Canonical) : (s.retire).Canonical := h

theorem setReg (h : s.Canonical) {r v} : (s.setReg r v).Canonical := h

theorem result (h : s.Canonical) {d v} : (s.result d v).Canonical := h

theorem stick (h : s.Canonical) {f} : (s.stick f).Canonical := h

theorem enqueue (h : s.Canonical) {i e w tid} : (s.enqueue i e w tid).Canonical := h

theorem brloop (h : s.Canonical) {r t} : (s.brloop r t).Canonical := by
  unfold State.brloop
  refine .ite h.setReg.setMe.enqueue.retireTo (.ite ?_ h.setReg.setMe.enqueue.retire)
  exact .ite h.setReg.setMe.enqueue.setMe.setReg.setMe.enqueue.retireTo h.setReg.setMe.enqueue.setMe.retire

theorem fpResult (h : s.Canonical) {d r} : (s.fpResult d r).Canonical := h

theorem fpRound (h : s.Canonical) {d x} : (s.fpRound d x).Canonical := h

theorem issueStore (h : s.Canonical) {q} : (s.issueStore q).Canonical := h

theorem putHome (h : s.Canonical) {t g} : (s.putHome t g).Canonical := by
  unfold State.putHome
  split
  next => exact h.segPut.writtenBy
  next => exact h.homePut.writtenBy
  next => exact h

theorem declareBlock (h : s.Canonical) {i hd p ls} : (s.declareBlock i hd p ls).Canonical := h

theorem txConflict (h : s.Canonical) {d} : (s.txConflict d).Canonical := h

theorem txWriteAll (h : s.Canonical) {l1} : (s.txWriteAll l1).Canonical := by
  induction l1 generalizing s with
  | nil => exact h
  | cons _ _ ih =>
    rw [State.txWriteAll]
    refine ih ?_
    split
    next => exact h.segPut.writtenBy
    next => exact h.homePutNow.writtenBy.noteWake
    next => exact .ite h.lostWrite h.sendStore

theorem txDone (h : s.Canonical) {d} : (s.txDone d).Canonical := by
  unfold State.txDone
  exact h.unlockOf.setMe.acquire.result

theorem setCommit (h : s.Canonical) {c} : (s.setCommit c).Canonical := h

theorem withPool (h : s.Canonical) {p} : (s.withPool p).Canonical := by
  unfold State.withPool
  simp only
  split
  next => exact h
  next =>
    split
    next => exact h.forget
    next => exact h.mapPart.forget

theorem mapPool (h : s.Canonical) {p f} : (s.mapPool p f).Canonical := h

theorem devBit (h : s.Canonical) {p root va i b} : (s.devBit p root va i b).Canonical := by
  unfold State.devBit
  exact h.devUpdate

theorem dropPage (h : s.Canonical) {pa n2} : (s.dropPage pa n2).Canonical := by
  induction n2 generalizing s with
  | zero => exact h
  | succ _ ih => exact ih (h.dropLine.foldl fun _ _ h => h.writtenBy)

theorem poolJoin (h : s.Canonical) {p} : (s.poolJoin p).Canonical := h

theorem pinResult (h : s.Canonical) {d v} : (s.pinResult d v).Canonical := by
  unfold State.pinResult
  exact h.dropTicket.setMe.result

theorem setSched (h : s.Canonical) {key x} : (s.setSched key x).Canonical := h

theorem waitMe (h : s.Canonical) {w} : (s.waitMe w).Canonical := h

theorem mapMe (h : s.Canonical) {t l id f} : (s.mapMe t l id f).Canonical := h

theorem farArrived (h : s.Canonical) {t l id g} : (s.farArrived t l id g).Canonical := h

theorem devPutGrans (h : s.Canonical) {p root n3 l4} : (s.devPutGrans p root n3 l4).Canonical := by
  induction l4 generalizing s n3 with
  | nil => exact h
  | cons _ _ ih => exact ih h.devUpdate

theorem putNodes (h : s.Canonical) {p root g k n5 l6} : (s.putNodes p root g k n5 l6).Canonical := by
  induction l6 generalizing s n5 with
  | nil => exact h
  | cons _ _ ih => exact ih h.devPutGrans

theorem mapEng (h : s.Canonical) {f} : (s.mapEng f).Canonical := h

theorem accPut (h : s.Canonical) {c n v} : (s.accPut c n v).Canonical := h

theorem putBank (h : s.Canonical) {c n l} : (s.putBank c n l).Canonical := by
  unfold State.putBank
  exact h.foldl fun _ _ h => h.accPut.accPut

theorem tagBank (h : s.Canonical) {i b} : (s.tagBank i b).Canonical := h

theorem tlbDrop (h : s.Canonical) {p f} : (s.tlbDrop p f).Canonical := h

theorem monStop (h : s.Canonical) {cause a} : (s.monStop cause a).Canonical := by
  unfold State.monStop
  exact h.setMe.double

theorem setInj (h : s.Canonical) {c cfg rate seed} : (s.setInj c cfg rate seed).Canonical := h

theorem seeMarks (h : s.Canonical) {c} : (s.seeMarks c).Canonical := h

theorem dropNodes (h : s.Canonical) {p n2} : (s.dropNodes p n2).Canonical := by
  induction n2 generalizing s with
  | zero => exact h
  | succ _ ih =>
    rw [State.dropNodes]
    split
    next => exact h
    next =>
      simp only
      refine ih ?_
      refine State.Canonical.dropRec ?_
      split
      next => exact h.mapPart
      next => exact h

theorem agFault (h : s.Canonical) {i g f} : (s.agFault i g f).Canonical := h

theorem segPuts (h : s.Canonical) {g n2 l3} : (s.segPuts g n2 l3).Canonical := by
  induction l3 generalizing s n2 with
  | nil => exact h
  | cons _ _ ih => exact ih h.segPut

theorem moveEntry (h : s.Canonical) {i g port seg off ptr} : (s.moveEntry i g port seg off ptr).Canonical := by
  unfold State.moveEntry
  simp only
  split
  next => exact (h.foldl fun _ _ h => h.storeErrors).setSlot
  next => exact (h.foldl fun _ _ h => h.storeErrors).setSlot
  next =>
    split
    next => exact h.setSlot.segPuts
    next => exact h

theorem sendFor (h : s.Canonical) {i chan land dev pa op dlog} : (s.sendFor i chan land dev pa op dlog).Canonical := h

theorem setRun (h : s.Canonical) {i hd r} : (s.setRun i hd r).Canonical := h

theorem sendLanding (h : s.Canonical) {p l} : (s.sendLanding p l).Canonical := by
  unfold State.sendLanding
  split
  next => exact h
  next => exact h.mapPart

theorem sendReduces (h : s.Canonical) {i chan l op dev pa dlog land l9} : (s.sendReduces i chan l op dev pa dlog land l9).Canonical := by
  induction l9 generalizing s with
  | nil => exact h
  | cons _ _ ih => exact ih h.sendFor

theorem cPut (h : s.Canonical) {i hd r k bar w} : (s.cPut i hd r k bar w).Canonical := by
  unfold State.cPut
  simp only
  split
  next => exact h.segPut.sendLanding
  next => exact h.homePut.sendLanding
  next =>
    split
    next => exact h.lostWrite
    next =>
      split
      next => exact h.sendReduces
      next => exact h.sendFor

theorem cPuts (h : s.Canonical) {i hd r k bar l6} : (s.cPuts i hd r k bar l6).Canonical := by
  induction l6 generalizing s with
  | nil => exact h
  | cons _ _ ih => exact ih h.cPut

theorem leaveLine (h : s.Canonical) {c n} : (s.leaveLine c n).Canonical := by
  unfold State.leaveLine
  exact h.evictLine.mapCore

theorem mapRun (h : s.Canonical) {i f} : (s.mapRun i f).Canonical := h

theorem tagBands (h : s.Canonical) {p l2} : (s.tagBands p l2).Canonical := by
  induction l2 generalizing s with
  | nil => exact h
  | cons _ _ ih => exact ih (h.foldl fun _ _ h => h.tagBank)

theorem tilePut (h : s.Canonical) {c t row col v} : (s.tilePut c t row col v).Canonical := h

theorem fillBlock (h : s.Canonical) {i p mb nb v} : (s.fillBlock i p mb nb v).Canonical := by
  unfold State.fillBlock
  exact h.foldl fun _ _ h => h.foldl fun _ _ h => h.tilePut

theorem struckAcc (h : s.Canonical) {i p r} : (s.struckAcc i p r).Canonical := by
  unfold State.struckAcc
  exact .ite h.tilePut h

theorem scrubGrans (h : s.Canonical) {u g n3} : (s.scrubGrans u g n3).Canonical := by
  induction n3 with
  | zero => exact h
  | succ _ ih => exact ih.homePut

theorem scrubFar (h : s.Canonical) {p dev pa n4} : (s.scrubFar p dev pa n4).Canonical := by
  induction n4 with
  | zero => exact h
  | succ _ ih => exact ih.sendOwn

theorem fillBlockLine (h : s.Canonical) {i hd b k n} : (s.fillBlockLine i hd b k n).Canonical := by
  unfold State.fillBlockLine
  exact h.l1Fill.mapCore.mapSlot

theorem completeWord (h : s.Canonical) {t} : (s.completeWord t).Canonical := by
  unfold State.completeWord
  exact .ite h h.devReport

theorem place (h : s.Canonical) {r} : (s.place r).Canonical := by
  unfold State.place
  split
  next => exact h
  next => exact h.pushHead

theorem spillSaved (h : s.Canonical) {c l2} : (s.spillSaved c l2).Canonical := by
  induction l2 generalizing s with
  | nil => exact h
  | cons _ _ ih =>
    rw [State.spillSaved]
    refine ih ?_
    split
    next => exact h.spillBanks
    next => exact h

theorem pfPut (h : s.Canonical) {off v} : (s.pfPut off v).Canonical := h

theorem answerOwn (h : s.Canonical) {p r a} : (s.answerOwn p r a).Canonical := by
  unfold State.answerOwn
  split
  next => exact h.keepFetched
  next => exact h.keepFetched
  next => exact h
  next => exact .ite h.devFail h

theorem moveResponses (h : s.Canonical) {l1} : (s.moveResponses l1).Canonical := by
  induction l1 generalizing s with
  | nil => exact h
  | cons _ _ ih =>
    rw [State.moveResponses]
    refine ih ?_
    split
    next => exact h
    next =>
      split
      next => exact h.mapPort
      next => exact h

theorem openReport (h : s.Canonical) : (s.openReport).Canonical := h

theorem hostWake (h : s.Canonical) {p mask} : (s.hostWake p mask).Canonical := by
  unfold State.hostWake
  exact .ite h.mapPart h.mapPart.wakeQueues

theorem shootDown (h : s.Canonical) {l1} : (s.shootDown l1).Canonical := by
  induction l1 generalizing s with
  | nil => exact h
  | cons _ _ ih => exact ih h.tlbDrop

theorem freshCore (h : s.Canonical) {c} : (s.freshCore c).Canonical := h

theorem freshCores (h : s.Canonical) {l1} : (s.freshCores l1).Canonical := by
  induction l1 generalizing s with
  | nil => exact h
  | cons _ _ ih => exact ih h.freshCore

end State.Canonical

/-- A list filtered keeps its keys rising. -/
theorem rising_filterKeys {l : List Nat} {p : Nat → Bool} (h : rising l = true) : rising (l.filter p) = true := by
  rw [rising_iff] at h ⊢
  exact h.filter p

namespace State.Canonical

variable {s : State}

/-! Segments that change, but not their bytes. -/

theorem freeSegs (h : s.Canonical) {key} : (s.freeSegs key).Canonical := by
  refine h.of_segs rfl fun g hg => ?_
  obtain ⟨x, hx, rfl⟩ := List.mem_map.mp hg
  exact ⟨x, List.mem_of_mem_filter hx, data_ite rfl⟩

theorem unpinAll (h : s.Canonical) {m} : (s.unpinAll m).Canonical := h.of_segs rfl (data_of_map fun _ => data_ite rfl)

theorem pinAll (h : s.Canonical) {m} : (s.pinAll m).Canonical := h.of_segs rfl (data_of_map fun _ => data_ite rfl)

theorem pinCopies (h : s.Canonical) {m} : (s.pinCopies m).Canonical := h.of_segs rfl (data_of_map fun _ => data_ite rfl)

theorem endCopyPins (h : s.Canonical) {m} : (s.endCopyPins m).Canonical := by
  refine h.of_segs rfl fun g hg => ?_
  obtain ⟨x, hx, rfl⟩ := List.mem_map.mp (List.mem_of_mem_filter hg)
  exact ⟨x, hx, data_ite rfl⟩

theorem unpinPreloads (h : s.Canonical) {c} : (s.unpinPreloads c).Canonical := h.of_segs rfl (data_of_map fun _ => data_ite rfl)

theorem endPreload (h : s.Canonical) {i} : (s.endPreload i).Canonical :=
  h.freeSlot.of_segs rfl (data_of_map fun _ => data_ite rfl)

theorem dropSegs (h : s.Canonical) {p lost} : (s.dropSegs p lost).Canonical := h.of_segs rfl data_of_filter

theorem compact (h : s.Canonical) {p} : (s.compact p).Canonical := by
  refine h.of_segs rfl (data_of_map fun g => ?_)
  split <;> rfl

theorem takeTicket (h : s.Canonical) {u m ptrs info2 quiet} : (s.takeTicket u m ptrs info2 quiet).Canonical := by
  unfold State.takeTicket
  split
  next => exact h
  next => exact h.unpinPreloads

theorem loadTask (h : s.Canonical) {i a t x} : (s.loadTask i a t x).Canonical := by
  unfold State.loadTask
  refine loadBlocks (acquire (mapCluster (mapCore ?_)))
  exact (h.savePut.setSlot).of_segs rfl (data_of_map fun _ => data_ite rfl)

/-! Segments that are new, or are brought in and evicted. -/

theorem addSeg (h : s.Canonical) {g} (hg : g.data.wf = true) : (s.addSeg g).Canonical :=
  ⟨h.1, fun x hx => (List.mem_append.mp hx).elim (h.2 x) fun hx => List.mem_singleton.mp hx ▸ hg⟩

/-- A change of a segment that leaves its bytes. -/
theorem markSeg (h : s.Canonical) {i f} (hf : ∀ g, (f g).data = g.data) : (s.mapSeg i f).Canonical :=
  h.mapSeg i fun g hg => (hf g).symm ▸ hg

theorem claim (h : s.Canonical) {i} : (s.claim i).Canonical := h.markSeg fun _ => rfl

theorem evictSeg (h : s.Canonical) {g t} (e : s.evictSeg g = .ok t) : t.Canonical := by
  unfold State.evictSeg at e
  split at e
  next => exact nomatch e
  next =>
    obtain rfl := Except.ok.inj e
    exact h.evictFrames.mapSeg _ fun _ _ => Memory.empty_wf

theorem wf_recallGrans {p pg f m n} (h : m.wf = true) : (s.recallGrans p pg f m n).wf = true := by
  induction n with
  | zero => exact h
  | succ _ ih => exact Memory.putGran_wf _ _ _ ih

theorem wf_recallFrames {p m l} (h : m.wf = true) : (s.recallFrames p m l).wf = true := by
  induction l generalizing m with
  | nil => exact h
  | cons _ _ ih => exact ih (wf_recallGrans h)

theorem correctedFrames (h : s.Canonical) {g l} : (s.correctedFrames g l).Canonical := by
  induction l generalizing s with
  | nil => exact h
  | cons _ _ ih =>
    unfold State.correctedFrames
    exact ih (h.foldl fun _ _ h => h.corrected)

theorem bringIn (h : s.Canonical) {g base t} (e : s.bringIn g base = .ok t) : t.Canonical := by
  unfold State.bringIn at e
  simp only at e
  split at e
  next =>
    obtain rfl := Except.ok.inj e
    exact h.mapSeg _ fun _ _ => Memory.empty_wf
  next =>
    split at e
    next => exact nomatch e
    next =>
      obtain rfl := Except.ok.inj e
      exact (h.mapSeg _ fun _ _ => wf_recallFrames Memory.empty_wf).correctedFrames

theorem makePlace (h : s.Canonical) {p n t b} (e : s.makePlace p n = some (t, b)) : t.Canonical := by
  unfold State.makePlace at e
  split at e
  next =>
    obtain rfl : s = t := congrArg Prod.fst (Option.some.inj e)
    exact h
  next =>
    obtain ⟨_, _, hb⟩ := Option.map_eq_some_iff.mp e
    obtain rfl : s.compact p = t := congrArg Prod.fst hb
    exact h.compact

theorem prefetch (h : s.Canonical) {g mark} (hmark : ∀ x, (mark x).data = x.data) : (s.prefetch g mark).Canonical := by
  unfold State.prefetch
  split
  next => exact h
  next =>
    split
    next => exact h
    next hplace =>
      split
      next hin => exact ((h.makePlace hplace).bringIn hin).markSeg hmark
      next => exact h

/-! Memory. -/

theorem putMem (h : s.Canonical) {g x} : ({ s with mem := s.mem.putGran g x } : State).Canonical := ⟨Memory.putGran_wf _ _ _ h.1, h.2⟩

theorem strikes (h : s.Canonical) {u} : (s.strikes u).Canonical := by
  unfold State.strikes
  split
  next => exact .ite h.putMem.logArray h
  next => exact .ite h.putMem.logArray h
  next =>
    split
    next => exact h
    next => exact h.logArray
    next => exact h.mapCore
  next =>
    split
    next => exact h
    next => exact h.logArray
    next => exact h.markSeg fun _ => rfl
  next => exact h.mapSlot
  next => exact h

theorem scrub (h : s.Canonical) {gone} : (s.scrub gone).Canonical := by
  refine ⟨?_, h.2⟩
  obtain ⟨hbytes, hlisted, hseals, hcode, hpoison, hinj⟩ := (Memory.wf_iff _).mp h.1
  refine (Memory.wf_iff _).mpr ⟨?_, fun c hc => hlisted c (List.mem_of_mem_filter hc), ?_, fun c hc => hcode c (List.mem_of_mem_filter hc),
    rising_filterKeys hpoison, rising_filterKeys hinj⟩
  · rw [rising_iff] at hbytes ⊢
    exact hbytes.sublist (List.filter_sublist.map _)
  · rw [rising_iff] at hseals ⊢
    exact hseals.sublist (List.filter_sublist.map _)

theorem dmaPut (h : s.Canonical) {g x} : (s.dmaPut g x).Canonical := h.putMem

/-! Functions that change the state in a place or when its reads are answered. -/

section
variable {f : State → State}

theorem reading (h : s.Canonical) {p l} (hf : ∀ t : State, t.Canonical → (f t).Canonical) : (s.reading p l f).Canonical :=
  .ite (hf s h).forget h.ask

theorem lookingAt (h : s.Canonical) {l} (hf : ∀ t : State, t.Canonical → (f t).Canonical) : (s.lookingAt l f).Canonical :=
  .ite ((hf s h).foldl fun _ _ h => h.forget) (h.foldl fun _ _ h => h.ask)

theorem asSlot (h : s.Canonical) {i} (hf : ∀ t : State, t.Canonical → (f t).Canonical) : (s.asSlot i f).Canonical :=
  hf { s with cur := i } h

theorem txEnd (h : s.Canonical) (hf : ∀ t : State, t.Canonical → (f t).Canonical) : (s.txEnd f).Canonical := hf _ h.unlockOf

end

/-! Stores that are performed. -/

theorem performStore (h : s.Canonical) {i k q t} (e : s.performStore i k q = .ok t) : t.Canonical :=
  (State.performs_performStore e).canonical h

theorem evictLocs (h : s.Canonical) {l} : (s.evictLocs l).Canonical := by
  induction l generalizing s with
  | nil => exact h
  | cons x _ ih =>
    cases x with
    | phys => exact ih h.evictLine
    | seg => exact ih h
    | far => exact ih h

/-! Free values. -/

theorem draw (h : s.Canonical) {v t} (e : s.draw = (v, t)) : t.Canonical := by
  cases e
  exact h

theorem drawTwo (h : s.Canonical) {v t} (e : s.drawTwo = (v, t)) : t.Canonical := by
  cases e
  exact h

theorem drawKey (h : s.Canonical) {k t} (e : s.drawKey = (k, t)) : t.Canonical := by
  cases e
  exact h

theorem entryPtr (h : s.Canonical) {a off w t} (e : s.entryPtr a off = (w, t)) : t.Canonical := by
  unfold State.entryPtr at e
  split at e
  next =>
    cases e
    exact h
  next => exact h.draw e

theorem drawGrans (h : s.Canonical) {n} : (s.drawGrans n).2.Canonical := by
  induction n generalizing s with
  | zero => exact h
  | succ _ ih => exact ih h

/-! Requests of other devices. -/

theorem domJoin (h : s.Canonical) {p core t level id u} (e : s.domJoin p core t level id = some u) : u.Canonical := by
  unfold State.domJoin at e
  split at e
  next => exact nomatch e
  next =>
    split at e
    next =>
      split at e
      next => exact nomatch e
      next => exact Option.some.inj e ▸ h.mapPart.announceHome
    next =>
      split at e
      next => exact nomatch e
      next => exact Option.some.inj e ▸ h.mapDom

theorem domTell (h : s.Canonical) {p id n f} : (s.domTell p id n f).1.Canonical := by
  unfold State.domTell
  split
  next => exact h
  next =>
    split
    next => exact h
    next => exact h.mapDom

theorem serveDom (h : s.Canonical) {p dev id task m} : (s.serveDom p dev id task m).1.Canonical := by
  unfold State.serveDom
  simp only
  split
  next =>
    split
    next => exact h
    next hjoin =>
      split at hjoin
      next => exact nomatch hjoin
      next => exact h.domJoin hjoin
  next => exact h.mapDom
  next => exact h.mapDom
  next => exact h.domTell
  next => exact h.domTell
  next => exact h.mapDom
  next => exact .ite h.mapDom h
  next => exact .ite h.mapDom h
  next => exact .ite h h.mapPkg
  next => exact .ite h.mapPkg h

theorem serveLock (h : s.Canonical) {p q o m d crc} : (s.serveLock p q o m d crc).1.Canonical := .ite h h.mapPkg

theorem serveCommit (h : s.Canonical) {p q o} : (s.serveCommit p q o).1.Canonical := by
  unfold State.serveCommit
  simp only
  split
  next => exact h.homePutNow.wakeBy
  next => exact h

theorem serveHome (h : s.Canonical) {p q} : (s.serveHome p q).1.Canonical := by
  unfold State.serveHome
  simp only
  split
  next => exact h.serveLock
  next => exact h.serveCommit
  next =>
    refine noteTx ?_
    split
    next => exact h.homePutNow.peerWake
    next => exact h

theorem serveRequest (h : s.Canonical) {q} : (s.serveRequest q).1.Canonical := by
  unfold State.serveRequest
  split
  next => exact h
  next =>
    split
    next => exact h
    next =>
      split
      next => exact h.serveDom
      next =>
        split
        next => exact h
        next => exact h.serveHome

theorem respond (h : s.Canonical) {port q} : (s.respond port q).Canonical := by
  unfold State.respond
  simp only
  split
  next => exact h.serveRequest.mapPort
  next => exact h.serveRequest

theorem serveWaiting (h : s.Canonical) {l1} : (s.serveWaiting l1).Canonical := by
  induction l1 generalizing s with
  | nil => exact h
  | cons _ _ ih => exact ih (.ite h h.mapPkg.respond)

theorem dropSaved (h : s.Canonical) {c r} : (s.dropSaved c r).Canonical := by
  unfold State.dropSaved
  split
  next => exact h.savePut.grantTokens.freeSegs.freeBanks.sweepBands.sweepBanks.drainFifo.markRemotes.leaveTask.nodeEnded
  next => exact h.dropRec

theorem resumeRec (h : s.Canonical) {i r} : (s.resumeRec i r).Canonical := by
  unfold State.resumeRec
  split
  next => exact .ite h.dropSaved (.ite h.loadTask h)
  next => exact h

theorem taskResume (h : s.Canonical) {i} : (s.taskResume i).Canonical := by
  unfold State.taskResume
  split
  next => exact h
  next =>
    split
    next => exact h
    next =>
      split
      next => exact h.setDeque.resumeRec
      next => exact h

theorem endRuns (h : s.Canonical) {l1} : (s.endRuns l1).Canonical := by
  induction l1 generalizing s with
  | nil => exact h
  | cons _ _ ih =>
    rw [State.endRuns]
    refine ih ?_
    split
    next => exact h.endCopyPins
    next => exact h

theorem dropEngines (h : s.Canonical) {i} : (s.dropEngines i).Canonical := by
  unfold State.dropEngines
  simp only
  refine State.Canonical.idleLease ?_
  refine State.Canonical.mapSlot ?_
  refine State.Canonical.orphanCopies ?_
  refine State.Canonical.foldl ?_ fun t a ht => ?_
  · refine State.Canonical.dropTicket ?_
    refine State.Canonical.endRuns ?_
    split
    next => exact h.unpinAll
    next => exact h
  · exact ht.dropTicket

theorem stopWork (h : s.Canonical) {i} : (s.stopWork i).Canonical := by
  unfold State.stopWork
  exact h.unlockOf.stopCampion.grantTokens.dropEngines.dropLease.mapSlot.evictBlocks.dropTickets.freeSegs.freeBanks.sweepBands

theorem killSlot (h : s.Canonical) {i} : (s.killSlot i).Canonical := by
  unfold State.killSlot
  simp only
  split
  next => exact h.stopWork.freeSlot.drainFifo
  next => exact h.stopWork.freeSlot.drainFifo.markRemotes.leaveTask.nodeEnded

theorem killAt (h : s.Canonical) {i} : (s.killAt i).Canonical := by
  unfold State.killAt
  simp only
  split
  next => exact .ite h (.ite (.ite h.killSlot h) h.mapSlot)
  next => exact .ite h.endPreload.dropSaved h
  next => exact h

theorem rerun (h : s.Canonical) {i} : (s.rerun i).Canonical := by
  unfold State.rerun
  simp only
  split
  next => exact h
  next => exact h.unpinPreloads.stopWork.freeSlot.drainFifo.markRemotes.leaveAll.logError.pushHead

theorem syncTrapBy (h : s.Canonical) {inj i tepc t} : (s.syncTrapBy inj i tepc t).Canonical := by
  unfold State.syncTrapBy
  exact .ite h.unpinPreloads.logConsumed.setSlot.double (.ite h.unpinPreloads.logConsumed.rerun h.unpinPreloads.logConsumed.enterTrap)

theorem storeFails (h : s.Canonical) {i q f} : (s.storeFails i q f).Canonical := by
  unfold State.storeFails
  exact .ite h.syncTrapBy h.logConsumed.mapSlot

theorem failStore (h : s.Canonical) {i k q f} : (s.failStore i k q f).Canonical := by
  unfold State.failStore
  exact h.storeSite.mapSlot.storeFails

theorem flushFor (h : s.Canonical) {i f n3} : (s.flushFor i f n3).Canonical := by
  induction n3 generalizing s with
  | zero => exact h
  | succ _ ih =>
    rw [State.flushFor]
    split
    next => exact h
    next =>
      refine ih ?_
      split
      next he2 => exact h.performStore he2
      next => exact h.failStore

theorem flushStores (h : s.Canonical) {i} : (s.flushStores i).Canonical := by
  unfold State.flushStores
  exact h.flushFor

theorem mFinish (h : s.Canonical) {i r} : (s.mFinish i r).Canonical := by
  unfold State.mFinish
  exact .ite h.unpinAll.mapSlot.grantTokens.sweepBands.countCommand h.unpinAll.mapSlot.grantTokens.sweepBands

theorem finishRun (h : s.Canonical) {i} : (s.finishRun i).Canonical := by
  unfold State.finishRun
  split
  next => exact .ite h.mFinish h
  next => exact h

theorem stopUnits (h : s.Canonical) {i} : (s.stopUnits i).Canonical := by
  unfold State.stopUnits
  simp only
  refine State.Canonical.dropTickets ?_
  refine State.Canonical.orphanCopies ?_
  refine State.Canonical.mapSlot ?_
  refine State.Canonical.endRuns ?_
  split
  next => exact h.flushStores.mapSlot.finishRun.stopCampion.unpinAll
  next => exact h.flushStores.mapSlot.finishRun.stopCampion

theorem evictUnpinned (h : s.Canonical) {p l2} : (s.evictUnpinned p l2).Canonical := by
  induction l2 generalizing s with
  | nil => exact h
  | cons _ _ ih =>
    rw [State.evictUnpinned]
    refine ih ?_
    split
    next => exact h
    next =>
      split
      next =>
        split
        next he2 => exact h.evictSeg he2
        next => exact h
      next => exact h

theorem deliverStore (h : s.Canonical) {i f} : (s.deliverStore i f).Canonical := by
  unfold State.deliverStore
  exact .ite h.unpinPreloads.mapSlot.rerun h.unpinPreloads.mapSlot.enterAsync

theorem enterOpen (h : s.Canonical) {i cause t0} : (s.enterOpen i cause t0).Canonical := by
  unfold State.enterOpen
  split
  next he =>
    split
    next he2 => exact ((h.drawTwo he).drawTwo he2).enterAsync

theorem consumedMe (h : s.Canonical) {inj t} : (s.consumedMe inj t).Canonical := by
  unfold State.consumedMe
  exact h.syncTrapBy

theorem syncTrap (h : s.Canonical) {i tepc t} : (s.syncTrap i tepc t).Canonical := by
  unfold State.syncTrap
  exact h.syncTrapBy

theorem trapMe (h : s.Canonical) {t} : (s.trapMe t).Canonical := by
  unfold State.trapMe
  exact h.syncTrap

theorem transfer (h : s.Canonical) {t link} : (s.transfer t link).Canonical := by
  unfold State.transfer
  split
  next => exact h.trapMe
  next =>
    simp only
    refine State.Canonical.setMe ?_
    refine State.Canonical.retireTo ?_
    split
    next => exact h.setReg
    next => exact h

theorem lockHere (h : s.Canonical) {l} : (s.lockHere l).Canonical := by
  unfold State.lockHere
  exact h.evictLocs.mapPkg

theorem shrinkTo (h : s.Canonical) {key q n3} : (s.shrinkTo key q n3).Canonical := by
  induction n3 generalizing s with
  | zero => exact h
  | succ _ ih =>
    rw [State.shrinkTo]
    split
    next => exact h
    next =>
      simp only
      split
      next => exact h
      next =>
        split
        next he2 => exact ih (h.evictSeg he2)
        next => exact h

theorem barReturn (h : s.Canonical) {i t d l id m r} : (s.barReturn i t d l id m r).Canonical := by
  unfold State.barReturn
  simp only
  split
  next => exact h.acquire.mapDom.setSlot.syncTrap
  next => exact h.acquire.mapDom.setSlot

theorem dropWords (h : s.Canonical) {i} : (s.dropWords i).Canonical := by
  unfold State.dropWords
  exact h.dropEngines.sweepBands

theorem trapReturn (h : s.Canonical) {i skip drop} : (s.trapReturn i skip drop).Canonical := by
  unfold State.trapReturn
  simp only
  split
  next => exact .ite h.killSlot h.setSlot
  next => exact mapSlot (.ite h.dropWords h)

theorem dropSavedRec (h : s.Canonical) {c a} : (s.dropSavedRec c a).Canonical := by
  unfold State.dropSavedRec
  simp only
  refine State.Canonical.foldl h.mapCore fun t a ht => ?_
  split
  next => exact .ite ht.endPreload ht
  next => exact ht

theorem engineFault (h : s.Canonical) {i inj f} : (s.engineFault i inj f).Canonical := by
  unfold State.engineFault
  exact .ite h.unpinPreloads.logConsumed.rerun h.unpinPreloads.logConsumed.mapSlot

theorem vStopped (h : s.Canonical) {i q inj f} : (s.vStopped i q inj f).Canonical := by
  unfold State.vStopped
  exact h.mapSlot.engineFault

theorem vFault (h : s.Canonical) {i q f} : (s.vFault i q f).Canonical := by
  unfold State.vFault
  exact h.vStopped

theorem vFaultBare (h : s.Canonical) {i q cause} : (s.vFaultBare i q cause).Canonical := by
  unfold State.vFaultBare
  exact (h.drawTwo rfl).vFault

theorem dropRecs (h : s.Canonical) {c l2} : (s.dropRecs c l2).Canonical := by
  induction l2 generalizing s with
  | nil => exact h
  | cons _ _ ih => exact ih h.dropSaved

theorem killCore (h : s.Canonical) {c} : (s.killCore c).Canonical := by
  unfold State.killCore
  exact (((h.seeMarks.foldl fun _ _ h => h.killAt).setDeque).dropRecs).dropNodes

theorem flushLater (h : s.Canonical) {i} : (s.flushLater i).Canonical := by
  unfold State.flushLater
  exact h.flushFor

theorem cFault (h : s.Canonical) {i hd inj cause t0 t1 core} : (s.cFault i hd inj cause t0 t1 core).Canonical := by
  unfold State.cFault
  split
  next => exact h
  next => exact h.mapSlot.engineFault

theorem mFault (h : s.Canonical) {i inj cause t0 t1} : (s.mFault i inj cause t0 t1).Canonical := by
  unfold State.mFault
  split
  next => exact h
  next => exact h.stopCampion.mapSlot.engineFault

theorem mErr (h : s.Canonical) {i e} : (s.mErr i e).Canonical := by
  unfold State.mErr
  exact (h.foldl fun _ _ h => h.storeErrors).mFault

theorem mAdmitted (h : s.Canonical) {i p bands} : (s.mAdmitted i p bands).Canonical := by
  unfold State.mAdmitted
  split
  next => exact h.mErr
  next => exact mapSlot (.ite h.mapRun h.mapRun.tagBands)

theorem ticketFails (h : s.Canonical) {t ptr e} : (s.ticketFails t ptr e).Canonical := by
  unfold State.ticketFails
  simp only
  split
  next => exact .ite (mapSlot (.ite h.dropTicket.corrected h.dropTicket)) (syncTrapBy (.ite h.dropTicket.corrected h.dropTicket))
  next => exact agFault (.ite h.dropTicket.corrected h.dropTicket)
  next => exact mFault (.ite h.dropTicket.corrected h.dropTicket)
  next => exact cFault (.ite h.dropTicket.corrected h.dropTicket)

theorem performQueued (h : s.Canonical) {i k} : (s.performQueued i k).Canonical := by
  unfold State.performQueued
  split
  next => exact h
  next =>
    split
    next he2 => exact h.performStore he2
    next => exact h.failStore

theorem flushSupervisors (h : s.Canonical) {l1} : (s.flushSupervisors l1).Canonical := by
  induction l1 generalizing s with
  | nil => exact h
  | cons _ _ ih => exact ih (.ite h.flushStores h)

theorem killSlots (h : s.Canonical) {l1} : (s.killSlots l1).Canonical := by
  induction l1 generalizing s with
  | nil => exact h
  | cons _ _ ih =>
    rw [State.killSlots]
    refine ih ?_
    split
    next => exact h.killSlot
    next =>
      split
      next => exact h.endPreload.dropSaved
      next => exact h

theorem killCores (h : s.Canonical) {l1} : (s.killCores l1).Canonical := by
  induction l1 generalizing s with
  | nil => exact h
  | cons _ _ ih => exact ih h.killSlots.setDeque.dropRecs

theorem killPart (h : s.Canonical) {p} : (s.killPart p).Canonical := by
  unfold State.killPart
  exact h.mapPart.killCores.dropNodes

theorem storeAnswered (h : s.Canonical) {i q n a} : (s.storeAnswered i q n a).Canonical := by
  unfold State.storeAnswered
  simp only
  split
  next => exact h.mapSlot.storeFails
  next => exact .ite h.mapSlot.lostWrite h.mapSlot

theorem answerSlot (h : s.Canonical) {r a} : (s.answerSlot r a).Canonical := by
  unfold State.answerSlot
  split
  next => exact h.mapSlot
  next =>
    split
    next => exact storeAnswered (.ite h h.noteWake)
    next =>
      split
      next =>
        split
        next => exact h
        next => exact h.lostWrite
      next =>
        simp only
        split
        next => exact h.noteWake.mapPart
        next => exact h.noteWake

theorem answer (h : s.Canonical) {r a} : (s.answer r a).Canonical := by
  unfold State.answer
  simp only
  split
  next =>
    refine State.Canonical.reap ?_
    split
    next => exact h.mapPkg.answerOwn
    next => exact h.mapPkg.answerSlot
  next =>
    split
    next => exact h.mapPkg.answerOwn
    next => exact h.mapPkg.answerSlot

theorem moveRequests (h : s.Canonical) {n l2} : (s.moveRequests n l2).Canonical := by
  induction l2 generalizing s with
  | nil => exact h
  | cons _ _ ih =>
    rw [State.moveRequests]
    refine ih ?_
    split
    next => exact h
    next =>
      split
      next => exact h.mapPkg.sendRequest
      next =>
        split
        next =>
          split
          next he4 => exact (h.lostWrite.draw he4).answer
        next => exact h.answer

theorem portDown (h : s.Canonical) {n} : (s.portDown n).Canonical := by
  unfold State.portDown
  exact h.mapPort.moveRequests.moveResponses

theorem newLinkKeys (h : s.Canonical) {l1} : (s.newLinkKeys l1).Canonical := by
  induction l1 generalizing s with
  | nil => exact h
  | cons _ _ ih => exact ih ((h.drawKey rfl).mapPkg)

theorem dropCores (h : s.Canonical) {l1} : (s.dropCores l1).Canonical := by
  induction l1 generalizing s with
  | nil => exact h
  | cons _ _ ih => exact ih h.setDeque.dropRecs

theorem commitPart (h : s.Canonical) {p d} : (s.commitPart p d).Canonical := by
  unfold State.commitPart
  exact .ite h.dropSegs.mapPart.freshCores (.ite h.mapPart.freshCores.startSupervisor h.dropCores.dropSegs.freshCores.mapPart.freshCores)

theorem commitParts (h : s.Canonical) {l1} : (s.commitParts l1).Canonical := by
  induction l1 generalizing s with
  | nil => exact h
  | cons _ _ ih => exact ih h.commitPart

theorem commit (h : s.Canonical) : (s.commit).Canonical := by
  unfold State.commit
  exact h.scrub.shootDown.mapPkg.commitParts.commitParts.endConfig

theorem recallFor (h : s.Canonical) {g} : (s.recallFor g).Canonical := by
  unfold State.recallFor
  split
  next => exact h
  next =>
    split
    next => exact h
    next =>
      split
      next he3 => exact h.bringIn he3
      next => exact h.ticketFails

end State.Canonical

end Sys2Proof.Machine
end

section
/-! PROOF. The larger operations keep the byte stores in their canonical form (log 5): admission, the save of a task, the engines, commits,
launches. -/

namespace Sys2Proof.Machine

namespace State.Canonical

variable {s : State}

/-! The starts of tasks. -/

theorem enrol (h : s.Canonical) {i t} : (s.enrol i t).Canonical := by
  unfold State.enrol
  simp only
  split
  next => exact h
  next =>
    split
    next hjoin =>
      split at hjoin
      next => exact (h.domJoin hjoin).mapSlot
      next =>
        split at hjoin
        next =>
          split at hjoin
          next =>
            cases hjoin
            exact h.mapPkg.domMirror.mapSlot
          next => exact nomatch hjoin
        next => exact nomatch hjoin
    next => exact h.mapSlot

theorem startRec (h : s.Canonical) {i r e t} (he : s.startRec i r e = some t) : t.Canonical := by
  unfold State.startRec at he
  simp only at he
  split at he
  next => exact nomatch he
  next =>
    cases he
    exact h.writeStart.setL2.mapSlot.enrol.acquire

theorem startIn (h : s.Canonical) {i r e leave} (hleave : ∀ t : State, t.Canonical → (leave t).Canonical) :
    (s.startIn i r e leave).Canonical := by
  refine h.reading fun t ht => ?_
  split
  next hs => exact (hleave t ht).startRec hs
  next => exact ht.devFail

/-! The save of a task. -/

/-- The end of a save: the task's segments are marked in the state in which its lease has been written and dropped, and the slot is freed. -/
theorem saved (h : s.Canonical) {i p pa w key c r} :
    ((({ (s.savePut p pa w).dropLease i with
      segs := s.segs.map fun g => if g.creator = key then { g with atSave := g.framed, prePin := false } else g } : State).freeSlot
        i).pushTail c r).Canonical := by
  refine pushTail (freeSlot ?_)
  refine ⟨h.savePut.dropLease.1, fun g hg => ?_⟩
  obtain ⟨x, hx, rfl⟩ := List.mem_map.mp hg
  split <;> exact h.2 x hx

theorem saveTask (h : s.Canonical) {i a} : (s.saveTask i a).Canonical := by
  unfold State.saveTask
  simp only
  split
  next => exact h
  next =>
    refine saved ?_
    exact h.stopUnits.mapSlot.saveHeader.saveWords.saveWords.saveQueues.saveVector.saveDescs.saveBlocks.zeroFill.evictBlocks

/-! Admission of a set of segments. -/

theorem admitSet_wait (h : s.Canonical) {i u m ptrs info2 quiet t} (e : s.admitSet i u m ptrs info2 quiet = .wait t) : t.Canonical := by
  unfold State.admitSet at e
  split at e
  next => exact nomatch e
  next =>
    split at e
    next => exact nomatch e
    next =>
      cases e
      exact h.takeTicket

theorem admitSet_go (h : s.Canonical) {i u m ptrs info2 quiet t} (e : s.admitSet i u m ptrs info2 quiet = .go t) : t.Canonical := by
  unfold State.admitSet at e
  split at e
  next => exact nomatch e
  next =>
    split at e
    next =>
      cases e
      exact h.dropTicket
    next => exact nomatch e

theorem cRestore (h : s.Canonical) {i c r k} : (s.cRestore i c r k).2.Canonical := by
  unfold State.cRestore
  split
  next => exact h
  next => exact h.drawGrans

theorem cBegin (h : s.Canonical) {i c} : (s.cBegin i c).Canonical := by
  unfold State.cBegin
  simp only
  split
  next => exact h
  next =>
    split
    next =>
      split
      next => exact h.cFault
      next =>
        split
        next => exact h.cFault
        next hwait => exact h.admitSet_wait hwait
        next hgo => exact (h.admitSet_go hgo).pinCopies.cRestore.setRun
    next => exact h

theorem mBegin (h : s.Canonical) {i} : (s.mBegin i).Canonical := by
  unfold State.mBegin
  simp only
  split
  next => exact h
  next =>
    split
    next => exact h.mErr
    next =>
      split
      next => exact h.mErr
      next =>
        split
        next => exact h
        next =>
          split
          next => exact h.mErr
          next =>
            split
            next => exact h.mErr
            next =>
              split
              next => exact h.unpinAll.mapRun.mErr
              next hwait => exact h.unpinAll.mapRun.admitSet_wait hwait
              next hgo => exact (h.unpinAll.mapRun.admitSet_go hgo).pinAll.mapRun.mAdmitted

/-! The vector engine. -/

theorem vCheck (h : s.Canonical) {i q w t} (e : s.vCheck i q w = some t) : t.Canonical := by
  unfold State.vCheck at e
  simp only at e
  split at e
  next =>
    cases e
    exact h.vFaultBare
  next =>
    split at e
    next =>
      cases e
      exact h.vFault
    next =>
      obtain ⟨_, _, ht⟩ := Option.map_eq_some_iff.mp e
      exact ht ▸ (h.entryPtr rfl).vFault

theorem vIssue (h : s.Canonical) {w} : (s.vIssue w).Canonical := by
  unfold State.vIssue
  simp only
  split
  next => exact h
  next =>
    split
    next => exact h
    next =>
      split
      next => exact h
      next =>
        split
        next hcheck => exact h.setMe.vCheck hcheck
        next => exact h

/-! Residency. -/

theorem evictClaimed (h : s.Canonical) {i} : (s.evictClaimed i).Canonical := by
  unfold State.evictClaimed
  split
  next => exact h
  next =>
    split
    next =>
      split
      next he => exact h.evictSeg he
      next => exact h.markSeg fun _ => rfl
    next => exact h

theorem preloadSegs (h : s.Canonical) {l} : (s.preloadSegs l).Canonical := by
  induction l generalizing s with
  | nil => exact h
  | cons _ _ ih => exact ih (h.prefetch fun _ => rfl)

theorem recallAll (h : s.Canonical) {t l} : (s.recallAll t l).Canonical := by
  induction l generalizing s with
  | nil => exact h
  | cons _ _ ih =>
    rw [State.recallAll]
    split
    next => exact ih h
    next =>
      split
      next => exact ih h
      next hplace =>
        split at hplace
        next =>
          split
          next hin => exact ih ((h.makePlace hplace).bringIn hin)
          next => exact h.ticketFails
        next => exact nomatch hplace

theorem scrubHead (h : s.Canonical) {p} : (s.scrubHead p).Canonical := by
  unfold State.scrubHead
  split
  next => exact h
  next =>
    split
    next => exact h
    next =>
      refine mapPool ?_
      split
      next => exact h.scrubGrans
      next => exact .ite h.devFail h.scrubFar
      next => exact h.devFail

/-! Areas that are read back. -/

theorem areaRun (h : s.Canonical) {d j c n} : (s.areaRun d j c n).2.Canonical := by
  unfold State.areaRun
  split <;> exact h

theorem areaChans (h : s.Canonical) {p a d j l} : (s.areaChans p a d j l).2.Canonical := by
  induction l generalizing s with
  | nil => exact h
  | cons _ _ ih => exact ih h.areaRun

theorem areaMrun (h : s.Canonical) {w j} : (s.areaMrun w j).2.Canonical := by
  unfold State.areaMrun
  split <;> exact h

theorem areaEng (h : s.Canonical) {p a} : (s.areaEng p a).2.Canonical := by
  unfold State.areaEng
  simp only
  exact h.areaChans.areaMrun

theorem areaRec (h : s.Canonical) {c a} : (s.areaRec c a).2.Canonical := h.areaEng

theorem adopt (h : s.Canonical) {p e} : (s.adopt p e).Canonical := by
  unfold State.adopt
  split
  next => exact h
  next => exact .ite h.areaRec.mapPart.pushTail h

/-! Partitions, DMA, commits. -/

theorem resetPart (h : s.Canonical) {p} : (s.resetPart p).Canonical := by
  unfold State.resetPart
  extract_lets s1 cores s2
  have h2 : s2.Canonical := h.killPart
  exact h2.mapPart.restart

theorem egress (h : s.Canonical) {p g x} : (s.egress p g x).1.Canonical := (State.Moves.egress ..).canonical h

theorem dmaGran (h : s.Canonical) {raw src dst} : (s.dmaGran raw src dst).Canonical := by
  unfold State.dmaGran
  exact .ite h.dmaPut (.ite h (.ite h.dmaPut h.egress.dmaPut))

theorem txOld (h : s.Canonical) {w} : (s.txOld w).1.Canonical := by
  unfold State.txOld
  split
  next => exact h.evictLine.corrected
  next => exact h.storeErrors
  next => exact h

theorem txFails (h : s.Canonical) {w f} : (s.txFails w f).Canonical := by
  have hold : ({ (s.txOld w).1 with strike := 0 } : State).Canonical := h.txOld
  exact hold.consumedMe

theorem branch (h : s.Canonical) {n c} {o : BitVec n} : (s.branch c o).Canonical := by
  unfold State.branch
  exact .ite h.transfer h.retire

/-! Micro-steps of the matrix engine. -/

theorem sumInto (h : s.Canonical) {c p ks row col x} : (s.sumInto c p ks row col x).1.Canonical := h.tilePut

/-- A fold that carries flags beside the state. -/
theorem foldl_fst {α β : Type} {f : State × β → α → State × β} {l : List α} {a : State × β} (h : a.1.Canonical)
    (hf : ∀ (t : State × β) (x : α), t.1.Canonical → (f t x).1.Canonical) : (l.foldl f a).1.Canonical :=
  List.foldlRecOn l f (motive := fun t => t.1.Canonical) h fun _ ht x _ => hf _ x ht

theorem bandStep (h : s.Canonical) {p c off nb ks rows av sums bv} : (s.bandStep p c off nb ks rows av sums bv).1.Canonical := by
  have hrows {f : Nat → Nat → List Exact} : (rows.foldl (fun t row => (p.colsOf nb).foldl (fun t col =>
      let r := t.1.sumInto c p ks row col (dot (f row col) (bv (off + col)))
      (r.1, t.2 ||| r.2)) t) (s, (0 : Sticky))).1.Canonical :=
    foldl_fst h fun _ _ ht => foldl_fst ht fun _ _ hu => hu.sumInto
  unfold State.bandStep
  simp only
  split
  next => exact hrows (f := fun row _ => av row)
  next => exact foldl_fst (hrows (f := fun row _ => av row)) fun _ _ ht => ht.sumInto

theorem bandSteps (h : s.Canonical) {i p ob nb ks ts rows av sums n l t}
    (e : s.bandSteps i p ob nb ks ts rows av sums n l = .ok t) : t.1.Canonical := by
  induction l generalizing s n t with
  | nil =>
    cases e
    exact h
  | cons _ _ ih =>
    rw [State.bandSteps] at e
    simp only at e
    split at e
    next => exact nomatch e
    next =>
      split at e
      next => exact nomatch e
      next hrest =>
        have ht := ih h.bandStep hrest
        cases e
        exact ht

theorem mmaSlices (h : s.Canonical) {i p r oa ob t} (e : s.mmaSlices i p r oa ob = .ok t) : t.1.Canonical := by
  unfold State.mmaSlices at e
  simp only at e
  split at e
  next => exact nomatch e
  next => exact h.bandSteps e

theorem drainBits (h : s.Canonical) {seg p bit n v k g t} (e : s.drainBits seg p bit n v k g = .ok t) : t.Canonical := by
  induction k generalizing s g with
  | zero =>
    cases e
    exact h
  | succ _ ih =>
    rw [State.drainBits] at e
    split at e
    next => exact nomatch e
    next => exact ih h.segPut e

theorem drainRow {d u : DrainState} (h : d.s.Canonical) {fw i c tile b vec row j n} (e : d.row fw i c tile b vec row j n = .ok u) :
    u.s.Canonical := by
  unfold DrainState.row at e
  simp only at e
  split at e
  next =>
    cases e
    exact h
  next =>
    split at e
    next => exact nomatch e
    next hbits =>
      cases e
      exact h.drainBits hbits

theorem drainRows {d u : DrainState} (h : d.s.Canonical) {fw i c tile b vec j n l} (e : d.rows fw i c tile b vec j n l = .ok u) :
    u.s.Canonical := by
  induction l generalizing d with
  | nil =>
    cases e
    exact h
  | cons _ _ ih =>
    rw [DrainState.rows] at e
    split at e
    next => exact nomatch e
    next hrow => exact ih (drainRow h hrow) e

theorem drainBlock (h : s.Canonical) {i p d mb nb t} (e : s.drainBlock i p d mb nb = .ok t) : t.1.Canonical := by
  unfold State.drainBlock at e
  simp only at e
  split at e
  next => exact nomatch e
  next hrows =>
    have ht := drainRows (d := ⟨s, (s.slotOf i).eng.vec.gens, 0⟩) h hrows
    cases e
    exact ht.mapSlot

theorem mStepOnce (h : s.Canonical) {i p r t} (e : s.mStepOnce i p r = .ok t) : t.1.Canonical := by
  unfold State.mStepOnce at e
  split at e
  next =>
    split at e
    next => exact nomatch e
    next hmma =>
      have hu := h.mmaSlices hmma
      split at e
      next =>
        split at e
        next =>
          split at e
          next => exact nomatch e
          next hdrain =>
            have ht := hu.drainBlock hdrain
            cases e
            exact ht
        next =>
          cases e
          exact hu
      next =>
        cases e
        exact hu
  next => exact h.drainBlock e
  next =>
    split at e
    next => exact nomatch e
    next =>
      cases e
      exact h.fillBlock
  next =>
    cases e
    exact h.fillBlock

theorem mStep (h : s.Canonical) {i p r t} (e : s.mStep i p r = .ok t) : t.1.Canonical := by
  unfold State.mStep at e
  split at e
  next => exact nomatch e
  next honce _ =>
    cases e
    exact h.mStepOnce honce
  next honce _ =>
    cases e
    exact (h.mStepOnce honce).struckAcc

theorem takeLease (h : s.Canonical) {i t} (e : s.takeLease i = some t) : t.Canonical := by
  unfold State.takeLease at e
  simp only at e
  split at e
  next =>
    split at e
    next =>
      cases e
      exact h
    next => exact nomatch e
  next =>
    split at e
    next =>
      cases e
      exact h.mapCluster
    next => exact nomatch e

theorem spendAllowance (h : s.Canonical) {p fal host t} (e : s.spendAllowance p fal host = some t) : t.Canonical := by
  unfold State.spendAllowance at e
  simp only at e
  split at e
  next =>
    cases e
    exact h.mapPart.mapPkg
  next => exact nomatch e

theorem receive (h : s.Canonical) {n f p} : (s.receive n f p).1.Canonical := h.mapPort

/-! Admission of records and graphs. -/

theorem admitRec (h : s.Canonical) {r scope t} (e : s.admitRec r scope = some t) : t.1.Canonical := by
  unfold State.admitRec at e
  simp only at e
  split at e
  next => exact nomatch e
  next =>
    cases e
    exact h.mapPart

theorem spawnRec (h : s.Canonical) {t r u} (e : s.spawnRec t r = .ok u) : u.1.Canonical := by
  unfold State.spawnRec at e
  simp only at e
  split at e
  next => exact nomatch e
  next =>
    split at e
    next => exact nomatch e
    next =>
      split at e
      next => exact nomatch e
      next hadmit =>
        cases e
        exact h.admitRec hadmit

theorem admitAll (h : s.Canonical) {l u} (e : s.admitAll l = some u) : u.1.Canonical := by
  induction l generalizing s u with
  | nil =>
    cases e
    exact h
  | cons _ _ ih =>
    rw [State.admitAll] at e
    split at e
    next => exact nomatch e
    next hadmit =>
      obtain ⟨_, hrest, hu⟩ := Option.map_eq_some_iff.mp e
      have ht := ih (h.admitRec hadmit :) hrest
      exact hu ▸ ht

theorem admitNodes (h : s.Canonical) {t root graph k l u} (e : s.admitNodes t root graph k l = .ok u) : u.1.Canonical := by
  unfold State.admitNodes at e
  simp only at e
  split at e
  next => exact nomatch e
  next =>
    split at e
    next => exact nomatch e
    next =>
      split at e
      next => exact nomatch e
      next =>
        split at e
        next => exact nomatch e
        next =>
          split at e
          next => exact nomatch e
          next hall =>
            cases e
            exact h.admitAll hall

theorem graphRun (h : s.Canonical) {t root va g u} (e : s.graphRun t root va g = .ok u) : u.Canonical := by
  unfold State.graphRun at e
  simp only at e
  split at e
  next => exact nomatch e
  next =>
    split at e
    next => exact nomatch e
    next =>
      split at e
      next => exact nomatch e
      next =>
        split at e
        next => exact nomatch e
        next hnodes =>
          have h1 := h.admitNodes hnodes
          cases e
          exact h1.putNodes.devPutGrans.mapPart

/-! Transactions, the page pool, special registers. -/

theorem txPrepare (h : s.Canonical) {l t} (e : s.txPrepare l = .ok t) : t.1.Canonical := by
  induction l generalizing s t with
  | nil =>
    cases e
    exact h
  | cons w _ ih =>
    rw [State.txPrepare] at e
    split at e
    next =>
      split at e
      next => exact nomatch e
      next hrest =>
        have ht := ih h hrest
        cases e
        exact ht
    next =>
      simp only at e
      split at e
      next => exact nomatch e
      next =>
        split at e
        next => exact nomatch e
        next hrest =>
          have hold : ({ (s.txOld w).1 with strike := 0 } : State).Canonical := h.txOld
          have ht := ih hold hrest
          cases e
          exact ht

theorem bindAt (h : s.Canonical) {ls lo} : (s.bindAt ls lo).2.Canonical := by
  unfold State.bindAt
  split <;> exact h

theorem poolTake (h : s.Canonical) {p t} (e : s.poolTake p = some t) : t.2.Canonical := by
  unfold State.poolTake at e
  split at e
  next => exact nomatch e
  next =>
    split at e
    next => exact nomatch e
    next =>
      split at e
      next => exact nomatch e
      next =>
        simp only at e
        obtain rfl := Option.some.inj e
        simp only
        split
        next => exact h.mapPool.devBit.dropPage
        next => exact h.mapPool.devBit

theorem plainWrite (h : s.Canonical) {n v t} (e : s.plainWrite n v = some t) : t.Canonical := by
  unfold State.plainWrite at e
  split at e
  iterate 14 exact Option.some.inj e ▸ h
  exact nomatch e

theorem select (h : s.Canonical) {c t} (e : s.select c = some t) : t.2.Canonical := by
  unfold State.select at e
  split at e
  next =>
    cases e
    exact h
  next =>
    obtain ⟨_, _, ht⟩ := Option.map_eq_some_iff.mp e
    exact ht ▸ h.turnTo

theorem taskStart (h : s.Canonical) {i} : (s.taskStart i).Canonical := by
  unfold State.taskStart
  split
  next => exact h
  next =>
    split
    next => exact h
    next =>
      split
      next => exact h
      next =>
        split
        next => exact h.setDeque.dropRec
        next =>
          split
          next => exact h
          next => exact h.startIn (fun _ h => h.setDeque)

theorem startNext (h : s.Canonical) {i} : (s.startNext i).Canonical := by
  unfold State.startNext
  split
  next => exact h
  next =>
    split
    next => exact h.taskResume
    next => exact h.taskStart

theorem startRecs (h : s.Canonical) {c n2} : (s.startRecs c n2).Canonical := by
  induction n2 generalizing s with
  | zero => exact h
  | succ _ ih =>
    rw [State.startRecs]
    split
    next => exact ih h.startNext
    next => exact h

theorem startReady (h : s.Canonical) {old} : (s.startReady old).Canonical := by
  unfold State.startReady
  exact h.foldl fun _ _ h => .ite h.startRecs h

theorem after (h : s.Canonical) {old} : (s.after old).Canonical := by
  unfold State.after
  exact (((((h.writeJournals.foldl fun _ _ h => h.tellDoms).settleHeld).serveWaiting).foldl fun _ _ h => h.restart).noteSaved).startReady

theorem quiesceSlot (h : s.Canonical) {i} : (s.quiesceSlot i).Canonical := by
  unfold State.quiesceSlot
  exact .ite h.setSlot.saveTask.mapSlot.spillBanks.drainFifo.evictUnpinned h.setSlot.saveTask.mapSlot.spillBanks.drainFifo

theorem deliver (h : s.Canonical) {i y2} : (s.deliver i y2).Canonical := by
  unfold State.deliver
  split
  next => exact h.killAt
  next => exact h.quiesceSlot
  next => exact h.deliverStore
  next => exact h.mapSlot.enterAsync
  next => exact h.mapPart.enterOpen
  next => exact h.mapSlot.enterOpen
  next => exact h.mapSlot.enterOpen
  next => exact h.mapPart.enterOpen

theorem deliverAt (h : s.Canonical) {i} : (s.deliverAt i).Canonical := by
  unfold State.deliverAt
  simp only
  split
  next => exact deliver (.ite h.wakeIcore h)
  next => exact h

theorem cRetry (h : s.Canonical) {i hd} : (s.cRetry i hd).Canonical := by
  unfold State.cRetry
  split
  next => exact .ite h h.cBegin
  next => exact h

theorem cResume (h : s.Canonical) {i hd} : (s.cResume i hd).Canonical := by
  unfold State.cResume
  exact h.mapSlot.cBegin

theorem cTake (h : s.Canonical) {i q w y} : (s.cTake i q w y).Canonical := by
  unfold State.cTake
  simp only
  split
  next => exact h.setSlot
  next => exact h.setSlot.setRun.flushLater.drainFifo.cBegin

theorem mTake (h : s.Canonical) {i q y} : (s.mTake i q y).Canonical := by
  unfold State.mTake
  simp only
  split
  next => exact h.setSlot.countCommand
  next => exact h.setSlot.mapCluster.flushLater.mBegin

theorem evictAll (h : s.Canonical) {l1} : (s.evictAll l1).Canonical := by
  induction l1 generalizing s with
  | nil => exact h
  | cons _ _ ih => exact ih h.evictClaimed

theorem quiesceSlots (h : s.Canonical) {l1} : (s.quiesceSlots l1).Canonical := by
  induction l1 generalizing s with
  | nil => exact h
  | cons _ _ ih =>
    rw [State.quiesceSlots]
    refine ih ?_
    split
    next => exact h.endPreload.pushHead
    next => exact .ite h.quiesceSlot h

theorem quiesceCores (h : s.Canonical) {l1} : (s.quiesceCores l1).Canonical := by
  induction l1 generalizing s with
  | nil => exact h
  | cons _ _ ih => exact ih h.quiesceSlots.spillSaved.drainFifo

theorem quiesce (h : s.Canonical) {p} : (s.quiesce p).Canonical := by
  unfold State.quiesce
  exact h.quiesceCores

theorem quiesceAll (h : s.Canonical) {l1} : (s.quiesceAll l1).Canonical := by
  induction l1 generalizing s with
  | nil => exact h
  | cons _ _ ih => exact ih h.quiesce

theorem startConfig (h : s.Canonical) : (s.startConfig).Canonical := by
  unfold State.startConfig
  exact .ite h (.ite h.mapPkg h.mapPkg.quiesceAll.noteSaved)

theorem adoptAll (h : s.Canonical) {p n2} : (s.adoptAll p n2).Canonical := by
  induction n2 with
  | zero => exact h
  | succ _ ih => exact ih.adopt

theorem dmaGrans (h : s.Canonical) {raw src dst n4} : (s.dmaGrans raw src dst n4).Canonical := by
  induction n4 with
  | zero => exact h
  | succ _ ih => exact ih.dmaGran

end State.Canonical

theorem scanIf_ok {l : List Want} {k : Scan} {t : State} (e : scanIf l k = .ok t) : k = .ok t := by
  unfold scanIf at e
  split at e
  next => exact e
  next => exact nomatch e

namespace State.Canonical

variable {s : State}

theorem claimRoom (h : s.Canonical) {t c n r} (e : s.claimRoom t c n = .going r) : r.Canonical := by
  induction n generalizing s with
  | zero =>
    cases e
    exact h
  | succ _ ih =>
    rw [State.claimRoom] at e
    split at e
    next =>
      cases e
      exact h
    next =>
      split at e
      next => exact ih h.claim e
      next =>
        split at e
        next =>
          split at e
          next => exact nomatch e
          next =>
            cases e
            exact h
        next =>
          cases e
          exact h

theorem serve (h : s.Canonical) {c} : (s.serve c).Canonical := by
  unfold State.serve
  split
  next => exact h
  next =>
    split
    next => exact h.ticketFails
    next hroom => exact (h.claimRoom hroom).evictAll.recallAll

theorem launchRec (h : s.Canonical) {p w t} (e : s.launchRec p w = .done t) : t.Canonical := by
  unfold State.launchRec at e
  split at e
  next => exact nomatch e
  next =>
    split at e
    next => exact nomatch e
    next =>
      split at e
      next => exact nomatch e
      next =>
        split at e
        next =>
          cases e
          exact h
        next =>
          split at e
          next => exact nomatch e
          next hadmit =>
            have ht := h.admitRec hadmit
            cases e
            exact ht.place

theorem scanQueue (h : s.Canonical) {p cb base size head refused n t}
    (e : s.scanQueue p cb base size head refused n = .ok t) : t.Canonical := by
  induction n generalizing s head refused with
  | zero =>
    cases e
    exact h
  | succ _ ih =>
    unfold State.scanQueue at e
    simp only at e
    have he := scanIf_ok e
    clear e
    split at he
    next =>
      cases he
      exact h.devFail
    next =>
      split at he
      next =>
        cases he
        exact h
      next =>
        have hr := scanIf_ok he
        clear he
        split at hr
        next hlaunch =>
          refine ih (launchRec ?_ hlaunch) hr
          exact h.devUpdate.devUpdate
        next =>
          refine ih ?_ hr
          exact h.devUpdate.devUpdate.devUpdate.devUpdate

theorem scanQueues (h : s.Canonical) {p mask l t} (e : s.scanQueues p mask l = .ok t) : t.Canonical := by
  induction l generalizing s with
  | nil =>
    cases e
    exact h
  | cons _ _ ih =>
    rw [State.scanQueues] at e
    simp only at e
    split at e
    next => exact nomatch e
    next hone =>
      refine ih ?_ e
      split at hone
      next =>
        cases hone
        exact h
      next =>
        have hq := scanIf_ok hone
        split at hq
        next =>
          cases hq
          exact h.devFail
        next =>
          split at hq
          next =>
            cases hq
            exact h
          next => exact h.scanQueue hq

end State.Canonical

end Sys2Proof.Machine
end

section
/-! PROOF. Programs over the state that keep the byte stores in their canonical form (log 5): the rules of their steps. -/

namespace Sys2Proof.Machine

/-- The state that a run leaves, or in which it stops the instruction, has the canonical form. -/
structure RanCanonical {α : Type} (r : Except Stop (α × State)) : Prop where
  left : ∀ a t, r = .ok (a, t) → t.Canonical
  stopped : ∀ t, r = .error (.become t) → t.Canonical

/-- A program keeps the canonical form: in the state that it leaves, and in that in which it stops the instruction. -/
def Op.Keeps {α : Type} (m : Op α) : Prop := ∀ s : State, s.Canonical → RanCanonical (m s)

namespace RanCanonical

variable {α : Type} {a : α} {t : State}

theorem ok (h : t.Canonical) : RanCanonical (.ok (a, t)) := by
  refine ⟨fun b u e => ?_, fun u e => nomatch e⟩
  cases e
  exact h

theorem become (h : t.Canonical) : RanCanonical (.error (.become t) : Except Stop (α × State)) := by
  refine ⟨fun b u e => (nomatch e), fun u e => ?_⟩
  cases e
  exact h

theorem trap {x : TrapInfo} : RanCanonical (.error (.trap x) : Except Stop (α × State)) :=
  ⟨fun _ _ e => (nomatch e), fun _ e => nomatch e⟩

theorem ite {c : Prop} [Decidable c] {r q : Except Stop (α × State)} (hr : RanCanonical r) (hq : RanCanonical q) :
    RanCanonical (if c then r else q) := by
  split
  next => exact hr
  next => exact hq

end RanCanonical

/-- The next state, where there is one, has the canonical form. -/
def NextCanonical (o : Host.Outcome State Fault Refusal) : Prop := ∀ t, o = .next t → t.Canonical

namespace Op.Keeps

variable {α β : Type} {m : Op α} {k : α → Op β}

theorem pure {a : α} : Op.Keeps (Pure.pure a : Op α) := fun _ h => .ok h

theorem bind (hm : m.Keeps) (hk : ∀ a, (k a).Keeps) : (m >>= k).Keeps := by
  intro s h
  obtain ⟨hok, herr⟩ := hm s h
  cases hms : m s with
  | error x =>
    rw [Op.bind_error hms]
    refine ⟨fun a t e => (nomatch e), fun t e => ?_⟩
    cases e
    exact herr t hms
  | ok r =>
    rw [Op.bind_ok hms]
    exact hk r.1 r.2 (hok r.1 r.2 hms)

/-- What follows a read of the state may use that it has the form. -/
theorem getBind {k : State → Op β} (hk : ∀ s : State, s.Canonical → (k s).Keeps) : (get >>= k : Op β).Keeps :=
  fun s h => hk s h s h

theorem modify {f : State → State} (hf : ∀ s : State, s.Canonical → (f s).Canonical) : Op.Keeps (modify f : Op Unit) :=
  fun s h => .ok (hf s h)

theorem set {u : State} (hu : u.Canonical) : Op.Keeps (set u : Op Unit) := fun _ _ => .ok hu

theorem throwBecome {u : State} (hu : u.Canonical) : Op.Keeps (throw (.become u) : Op α) := fun _ _ => .become hu

theorem throw {x : Stop} (hx : ∀ t : State, x ≠ .become t) : Op.Keeps (throw x : Op α) :=
  fun _ _ => ⟨fun _ _ e => (nomatch e), fun t e => absurd (Except.error.inj e) (hx t)⟩

theorem ite {c : Prop} [Decidable c] {n : Op α} (hm : m.Keeps) (hn : n.Keeps) : (if c then m else n).Keeps := by
  split
  next => exact hm
  next => exact hn

/-- A check that may stop the program, before the rest of it. -/
theorem guarded {c : Prop} [Decidable c] {m : Op Unit} {k : Unit → Op β} (hm : m.Keeps) (hk : ∀ a, (k a).Keeps) :
    (if c then m >>= k else k ()).Keeps := .ite (.bind hm hk) (hk ())

/-- A program that stops the instruction in a state made of the one it finds. -/
theorem becomes {f : State → State} (hf : ∀ s : State, s.Canonical → (f s).Canonical) :
    Op.Keeps (fun s => .error (.become (f s)) : Op α) := fun s h => .become (hf s h)

theorem trapOp {cause t0 t1 t2 t3} : (trapOp cause t0 t1 t2 t3 : Op α).Keeps := .throw fun _ e => nomatch e

theorem consumedOp {g cause t0 t1 t2 t3} : (consumedOp g cause t0 t1 t2 t3 : Op α).Keeps := fun _ h => .become h.consumedMe

theorem stallOp {r} : (stallOp r : Op α).Keeps := fun _ h => .become h.stallMe

theorem waitOp {w} : (waitOp w : Op α).Keeps := fun _ h => .become h.waitMe

theorem noTx : noTx.Keeps := .getBind fun _ _ => .ite (.throw fun _ e => nomatch e) .pure

theorem resultOp {d v} : (resultOp d v).Keeps := .modify fun _ h => h.result

/-! Translation, admission, requests to other devices, and the drain of the store queue. -/

theorem pageOp {p va info2 acc} : (pageOp p va info2 acc).Keeps := by
  intro s h
  unfold Machine.pageOp
  simp only
  split
  next => exact .become (.consumedMe (.ite h.corrected h))
  next => exact .ok h.tlbNote

theorem admitOp {p info2 g} : (admitOp p info2 g).Keeps := by
  intro s h
  unfold Machine.admitOp
  split
  next => exact .trap
  next hgo => exact .ok (h.admitSet_go hgo)
  next hwait => exact .become (h.admitSet_wait hwait).stallMe

theorem txAdmit {l} : (txAdmit l).Keeps := by
  intro s h
  unfold Machine.txAdmit
  simp only
  split
  next => exact .trap
  next =>
    split
    next => exact .trap
    next hgo => exact .ok (h.admitSet_go hgo)
    next hwait => exact .become (h.admitSet_wait hwait).stallMe

theorem remoteOp {dev pa op dlog} : (remoteOp dev pa op dlog).Keeps := by
  intro s h
  unfold Machine.remoteOp
  split
  next => exact .ok h.setMe
  next =>
    split
    next => exact .ok h
    next => exact .become h.sendRemote.stallMe

theorem askOp {p l} : (askOp p l).Keeps := by
  intro s h
  unfold Machine.askOp
  split
  next => exact .ok h
  next =>
    simp only
    split
    next => exact .become h.ask.stallMe
    next => exact .ok h.ask

theorem drainQueue {s : State} (h : s.Canonical) {i f n} : (s.drainQueue i f n).1.Canonical := by
  induction n generalizing s with
  | zero => exact h
  | succ _ ih =>
    rw [State.drainQueue]
    split
    next => exact h
    next =>
      split
      next => exact h
      next hstore => exact ih (h.performStore hstore)
      next =>
        split
        next => exact ih h.failStore
        next => exact h.failStore

theorem drainFor {f} : (drainFor f).Keeps := by
  intro s h
  have hq := drainQueue h (i := s.cur) (f := f) (n := s.me.sq.length)
  unfold Machine.drainFor
  split
  next he =>
    rw [he] at hq
    exact .ok hq
  next he =>
    rw [he] at hq
    exact .become hq
  next he =>
    rw [he] at hq
    exact .become hq.stallMe

theorem drainHome {l} : (drainHome l).Keeps := fun s h => drainFor s h

theorem storeNow {t p pc v} : (storeNow t p pc v).Keeps := by
  intro s h
  unfold Machine.storeNow
  simp only
  split
  next hstore => exact .ok (h.setMe.performStore hstore)
  next => exact .become h.storeSite.consumedMe

/-! Operands and fetches. -/

theorem operandOp {b p} : (operandOp b p).Keeps := by
  intro s h
  have hstruck : ({ s with strike := 0 } : State).Canonical := h
  unfold Machine.operandOp
  simp only
  split
  next => exact .ok hstruck
  next => exact .become hstruck.trapMe

theorem chooseCode {pa l} : (chooseCode pa l).Keeps := by
  intro s h
  unfold Machine.chooseCode
  split
  next => exact .ok h
  next => exact .ite (.ok h) (.ok h)

theorem keptCode {k key} : (keptCode k key).Keeps := by
  intro s h
  unfold Machine.keptCode
  split
  next => exact .ite (.ok h) (.ite (.ok h) (.ok (.ite h h)))
  next => exact .ok h

theorem atomTrap {g p cause t1 code} : (atomTrap g p cause t1 code : Op α).Keeps := .consumedOp

theorem onSegment {d a} {f : Seg → Op Unit} (hf : ∀ g, (f g).Keeps) : (onSegment d a f).Keeps := by
  refine .bind .noTx fun _ => .getBind fun s _ => ?_
  split
  next => exact .resultOp
  next => exact hf _

theorem withTask {d} {f : TaskInfo → Op Unit} (hf : ∀ t, (f t).Keeps) : (withTask d f).Keeps := by
  refine .bind .noTx fun _ => .getBind fun s _ => ?_
  split
  next => exact .resultOp
  next => exact hf _

end Op.Keeps

namespace NextCanonical

theorem next {t : State} (h : t.Canonical) : NextCanonical (.next t) := by
  intro u e
  cases e
  exact h

theorem fault {f : Fault} : NextCanonical (.fault f) := fun _ e => nomatch e

theorem refused {r : Refusal} : NextCanonical (.refused r) := fun _ e => nomatch e

theorem ite {c : Prop} [Decidable c] {o p : Host.Outcome State Fault Refusal} (ho : NextCanonical o) (hp : NextCanonical p) :
    NextCanonical (if c then o else p) := by
  split
  next => exact ho
  next => exact hp

theorem runOp {s : State} (h : s.Canonical) {m : Op Unit} (hm : m.Keeps) : NextCanonical (runOp m s) := by
  obtain ⟨hok, herr⟩ := hm s h
  unfold Machine.runOp
  split
  next hms => exact next (hok _ _ hms)
  next => exact next h.trapMe
  next hms => exact next (herr _ hms)
  next => exact next h.setMe
  next => exact fault

end NextCanonical

theorem State.Canonical.runMe {s : State} (h : s.Canonical) {m : Op Unit} (hm : m.Keeps) : (s.runMe m).Canonical := by
  obtain ⟨hok, herr⟩ := hm s h
  unfold State.runMe
  split
  next hms => exact hok _ _ hms
  next => exact h.trapMe
  next hms => exact herr _ hms
  next => exact h.setMe
  next => exact h

namespace Op.Keeps

theorem codePage {pc} : Op.Keeps (codePage pc) := by
  unfold Machine.codePage
  exact .getBind fun _ _ => .ite .pure .pageOp

theorem codeGran {g} : Op.Keeps (codeGran g) := by
  unfold Machine.codeGran
  refine .getBind fun s h => ?_
  split
  next => exact .bind (.set h.corrected) fun _ => .chooseCode
  next =>
    simp only
    refine .bind .keptCode fun _ => ?_
    split
    next => exact .bind .pure fun _ => .getBind fun _ h => .chooseCode
    next => exact .bind .remoteOp fun _ => .bind (.modify fun _ h => h.setMe.keepStored) fun _ => .bind .pure fun _ => .getBind fun _ h => .chooseCode

theorem fetchOp : Op.Keeps (fetchOp) := by
  unfold Machine.fetchOp
  refine .getBind fun s h => .guarded .trapOp fun _ => .guarded .trapOp fun _ => .bind .codePage fun g => .bind .codeGran fun _ => ?_
  split
  next => exact .consumedOp
  next => exact .pure

theorem locate {p size acc} : Op.Keeps (locate p size acc) := by
  unfold Machine.locate
  refine .getBind fun s h => ?_
  split
  next => exact .trapOp
  next => exact .bind .admitOp fun _ => .pure
  next => exact .bind .pageOp fun _ => .pure

theorem drainOp : Op.Keeps (drainOp) := by
  unfold Machine.drainOp
  exact .drainFor

theorem unlockedOp {l} : Op.Keeps (unlockedOp l) := by
  unfold Machine.unlockedOp
  exact .getBind fun _ _ => .ite .stallOp .pure

theorem homeOp {t rop} : Op.Keeps (homeOp t rop) := by
  unfold Machine.homeOp
  refine .bind .unlockedOp fun _ => .getBind fun s h => ?_
  simp only
  split
  next => exact .bind (.set h.storeErrors.setMe) fun _ => .pure
  next => exact .bind .drainHome fun _ => .bind .remoteOp fun _ => .pure
  next => exact .ite .stallOp (.bind (.set h.evictLine.corrected) fun _ => .bind (.modify fun _ h => h.setMe) fun _ => .getBind fun _ _ => .pure)

theorem txLoad {t x size p info2} : Op.Keeps (txLoad t x size p info2) := by
  unfold Machine.txLoad
  refine .bind .drainOp fun _ => .guarded (.throw fun _ e => nomatch e) fun _ => .getBind fun s h => .bind .homeOp fun g => ?_
  simp only
  split
  next =>
    split
    next => exact .bind .consumedOp fun _ => .bind (.modify fun _ h => h.setMe) fun _ => .pure
    next => exact .bind (.modify fun _ h => h.setMe) fun _ => .pure
  next => exact .bind (.modify fun _ h => h.setMe) fun _ => .pure

theorem bindOp {l cur} : Op.Keeps (bindOp l cur) := by
  unfold Machine.bindOp
  exact .getBind fun _ h => .bind (.set h.bindAt.setMe) fun _ => .pure

theorem fillOp {u n} : Op.Keeps (fillOp u n) := by
  unfold Machine.fillOp
  refine .getBind fun s h => ?_
  simp only
  split
  next => exact .set h.l1Fill.setMe
  next =>
    split
    next => exact .stallOp
    next => exact .set h.bindAt.l1FillAt.setMe

theorem granOp {t strong} : Op.Keeps (granOp t strong) := by
  unfold Machine.granOp
  refine .bind .unlockedOp fun _ => .getBind fun s h => ?_
  simp only
  split
  next => exact .bind (.set h.storeErrors) fun _ => .bindOp
  next => exact .bind .drainHome fun _ => .bind .remoteOp fun _ => .pure
  next =>
    refine .ite .stallOp (.ite (.bind .fillOp fun _ => .bind (.modify fun _ h => h.l1Errors) fun _ => .getBind fun _ _ => .pure) ?_)
    exact .bind (.set (.corrected (.ite h.evictLine h))) fun _ => .getBind fun _ _ => .bindOp

theorem consume {g q l off size p info2} : Op.Keeps (consume g q l off size p info2) := by
  unfold Machine.consume
  simp only
  split
  next => exact .pure
  next =>
    split
    next => exact .consumedOp
    next => exact .pure

theorem loadOp {p size strong} : Op.Keeps (loadOp p size strong) := by
  unfold Machine.loadOp
  refine .bind .locate fun t => .getBind fun s h => ?_
  split
  next => exact .txLoad
  next => exact .bind .granOp fun _ => .getBind fun _ _ => .consume

theorem txStore {t x size p v} : Op.Keeps (txStore t x size p v) := by
  unfold Machine.txStore
  exact .ite (.modify fun _ h => h.setMe) (.ite (.throw fun _ e => nomatch e) (.modify fun _ h => h.setMe))

theorem storeOp {p size strong v} : Op.Keeps (storeOp p size strong v) := by
  unfold Machine.storeOp
  refine .bind .locate fun t => .getBind fun s h => ?_
  split
  next => exact .bind .txStore fun _ => .modify fun _ h => h.retire
  next => exact .modify fun _ h => h.issueStore

theorem releaseOp {scope} : Op.Keeps (releaseOp scope) := by
  unfold Machine.releaseOp
  refine .bind .drainOp fun _ => .getBind fun s h => .getBind fun s h => ?_
  simp only
  split
  next =>
    refine .bind .stallOp fun _ => ?_
    split
    next =>
      refine .getBind fun s h => .getBind fun s h => .getBind fun s h => .getBind fun s h => ?_
      split
      next => exact .stallOp
      next => exact .modify fun _ h => h.drainFifo
    next => exact .pure
  next =>
    split
    next =>
      refine .getBind fun s h => .getBind fun s h => .getBind fun s h => .getBind fun s h => ?_
      split
      next => exact .stallOp
      next => exact .modify fun _ h => h.drainFifo
    next => exact .pure

theorem farAtomic {p b t dev pa dlog rop} : Op.Keeps (farAtomic p b t dev pa dlog rop) := by
  unfold Machine.farAtomic
  refine .getBind fun s h => ?_
  simp only
  split
  next => exact .bind (.set (h.lostWrite.draw rfl)) fun _ => .pure
  next =>
    refine .guarded (.set h) fun _ => .bind .remoteOp fun a => ?_
    split
    next => exact .atomTrap
    next =>
      split
      next => exact .atomTrap
      next => exact .pure

theorem atomicOp {p b f rop} : Op.Keeps (atomicOp p b f rop) := by
  unfold Machine.atomicOp
  refine .bind .locate fun t => .bind .drainHome fun _ => ?_
  split
  next => exact .farAtomic
  next =>
    refine .bind .homeOp fun g => ?_
    split
    next => exact .atomTrap
    next =>
      simp only
      refine .bind .operandOp fun v => ?_
      split
      next => exact .pure
      next => exact .bind (.modify fun _ h => h.putHome) fun _ => .pure

theorem bindLater : Op.Keeps (bindLater) := by
  unfold Machine.bindLater
  exact .modify fun _ h => h.setMe

theorem blockVa {p} : Op.Keeps (blockVa p) := by
  unfold Machine.blockVa
  refine .getBind fun s h => ?_
  split
  next => exact .trapOp
  next => exact .trapOp
  next => exact .pure

theorem blockLines {p va n2} : Op.Keeps (blockLines p va n2) := by
  induction n2 generalizing va with
  | zero => exact .pure
  | succ _ ih =>
    unfold Machine.blockLines
    refine .bind .pageOp fun g => .bind ih fun r => ?_
    split <;> exact .pure

theorem txHere {d t} : Op.Keeps (txHere d t) := by
  unfold Machine.txHere
  refine .getBind fun s h => ?_
  simp only
  split
  next x _ _ =>
    refine .bind .stallOp fun x => .bind (.modify fun _ h => h.evictLocs) fun x => .getBind fun s h => ?_
    split
    next => exact .modify fun _ h => h.txConflict
    next =>
      refine .bind .txAdmit fun x => .getBind fun s h => ?_
      split
      next => exact .becomes fun _ h => h.txFails
      next he2 => exact .bind (.set ((h.txPrepare he2).txWriteAll)) fun _ => .modify fun _ h => h.txDone
  next x _ =>
    refine .bind (.modify fun _ h => h.evictLocs) fun x => .getBind fun s h => ?_
    split
    next => exact .modify fun _ h => h.txConflict
    next =>
      refine .bind .txAdmit fun x => .getBind fun s h => ?_
      split
      next => exact .becomes fun _ h => h.txFails
      next he2 => exact .bind (.set ((h.txPrepare he2).txWriteAll)) fun _ => .modify fun _ h => h.txDone

theorem lockFar {t dev n} : Op.Keeps (lockFar t dev n) := by
  unfold Machine.lockFar
  exact .getBind fun _ h => .guarded (.set h) fun _ => .remoteOp

theorem pgallocOp {d wait} : Op.Keeps (pgallocOp d wait) := by
  unfold Machine.pgallocOp
  refine .bind .noTx fun _ => .getBind fun _ _ => .getBind fun _ _ => .getBind fun _ _ => .getBind fun _ _ => ?_
  refine .getBind fun _ _ => .bind .askOp fun _ => .bind (.modify fun _ h => h.withPool) fun _ => .getBind fun s h => ?_
  simp only
  split
  next => exact .resultOp
  next =>
    split
    next he => exact .bind (.set (h.poolTake he)) fun _ => .resultOp
    next => exact .ite (.becomes fun _ h => h.poolJoin.stallMe) .resultOp

theorem sgnewOp {d a shared} : Op.Keeps (sgnewOp d a shared) := by
  unfold Machine.sgnewOp
  refine .bind .noTx fun _ => .getBind fun s h => ?_
  simp only
  split
  next => exact .ite .resultOp (.modify fun _ h => (h.addSeg Memory.empty_wf).result)
  next => exact .resultOp

theorem schedSelect {d b} : Op.Keeps (schedSelect d b) := by
  unfold Machine.schedSelect
  refine .getBind fun s h => ?_
  simp only
  split
  next => exact .resultOp
  next => exact .ite (.modify fun _ h => h.setSched.result) (.ite (.modify fun _ h => h.setSched.result) .resultOp)

theorem memOperand {p align info2} : Op.Keeps (memOperand p align info2) := by
  unfold Machine.memOperand
  exact .guarded .trapOp fun _ => .ite .trapOp .pure

theorem memTarget {p info2 acc} : Op.Keeps (memTarget p info2 acc) := by
  unfold Machine.memTarget
  exact .bind .pageOp fun _ => .pure

theorem granuleAt {p info2} : Op.Keeps (granuleAt p info2) := by
  unfold Machine.granuleAt
  refine .bind .memTarget fun t => .bind .granOp fun _ => .getBind fun s h => ?_
  simp only
  split
  next => exact .pure
  next =>
    split
    next => exact .consumedOp
    next => exact .pure

theorem wordsAt {p info2 n2} : Op.Keeps (wordsAt p info2 n2) := by
  induction n2 generalizing p with
  | zero => exact .pure
  | succ _ ih => exact .bind .granuleAt fun _ => .bind ih fun _ => .pure

theorem awaitOp {d p goal} : Op.Keeps (awaitOp d p goal) := by
  unfold Machine.awaitOp
  refine .bind .memTarget fun _ => .bind .drainOp fun _ => .bind .homeOp fun _ => .bind .consume fun _ => ?_
  exact .bind (.modify fun _ h => h.acquire) fun _ => .ite .resultOp .waitOp

theorem domAskOp {t dev id m} : Op.Keeps (domAskOp t dev id m) := by
  unfold Machine.domAskOp
  exact .getBind fun _ _ => .bind .remoteOp fun _ => .pure

theorem loadWords {p n1} : Op.Keeps (loadWords p n1) := by
  induction n1 generalizing p with
  | zero => exact .pure
  | succ _ ih => exact .bind .loadOp fun _ => .bind ih fun _ => .pure

theorem descOp {d p align n key ok} : Op.Keeps (descOp d p align n key ok) := by
  unfold Machine.descOp
  refine .bind .noTx fun _ => .getBind fun s h => ?_
  split
  next => exact .trapOp
  next =>
    refine .bind .loadWords fun l => ?_
    split
    next => exact .resultOp
    next =>
      refine .getBind fun s h => ?_
      split
      next => exact .stallOp
      next => exact .modify fun _ h => h.setMe.result

theorem needLevel {l w} : Op.Keeps (needLevel l w) := by
  unfold Machine.needLevel
  exact .getBind fun _ _ => .ite .trapOp .pure

theorem sregOp {w n m} : Op.Keeps (sregOp w n m) := by
  unfold Machine.sregOp
  exact .guarded .trapOp fun _ => .needLevel

theorem markerOp {w} : Op.Keeps (markerOp w) := by
  unfold Machine.markerOp
  exact .getBind fun _ h => .guarded .stallOp fun _ => .modify fun _ h => h.enqueue

theorem physical {pa} : Op.Keeps (physical pa) := by
  unfold Machine.physical
  exact .ite (.throw fun _ e => nomatch e) .pure

theorem forwardOp {e w chan} : Op.Keeps (forwardOp e w chan) := by
  unfold Machine.forwardOp
  refine .getBind fun s h => .guarded .trapOp fun _ => .bind .noTx fun _ => .guarded .stallOp fun _ => .guarded .stallOp fun _ => ?_
  refine .bind (.modify fun _ h => h.enqueue) fun _ => ?_
  simp only
  split
  next => exact .bind (.modify fun _ h => h.mapSlot) fun _ => .modify fun _ h => h.retire
  next => exact .modify fun _ h => h.retire

theorem ordered {o scope} {m : Op Word} (hm : m.Keeps) : (ordered o scope m).Keeps := by
  refine .guarded .releaseOp fun _ => .bind hm fun _ => ?_
  exact .guarded (.modify fun _ h => h.acquire) fun _ => .pure

theorem lockAll {d t l} : (lockAll d t l).Keeps := by
  induction l with
  | nil => exact .pure
  | cons x _ ih =>
    cases x
    case far =>
      refine .bind .lockFar fun _ => ?_
      split
      next => exact .bind ih fun _ => .pure
      next => exact .ite (.becomes fun _ h => h.txEnd fun _ h => h.txConflict) ih
    case phys | seg =>
      exact .getBind fun _ _ => .ite (.bind .unlockedOp fun _ => .bind (.modify fun _ h => h.lockHere) fun _ => ih) ih

theorem txFar {d t} : Op.Keeps (txFar d t) := by
  unfold Machine.txFar
  simp only
  split
  next =>
    refine .guarded .txAdmit fun _ => .bind (.modify fun _ h => h.setCommit) fun _ => .getBind fun _ _ => ?_
    refine .bind .lockAll fun bad => .getBind fun s h => ?_
    split
    next =>
      refine .bind (.becomes fun _ h => h.txEnd (fun _ h => h.txConflict)) fun _ => .getBind fun s h => .getBind fun s h => ?_
      split
      next => exact .stallOp
      next => exact .modify fun _ h => h.txDone
    next =>
      split
      next =>
        refine .bind (.becomes fun _ h => h.txEnd (fun _ h => h.trapMe)) fun _ => .getBind fun s h => .getBind fun s h => ?_
        split
        next => exact .stallOp
        next => exact .modify fun _ h => h.txDone
      next =>
        refine .getBind fun s h => ?_
        split
        next =>
          refine .bind (.becomes fun _ h => h.txEnd (fun _ h => h.txFails)) fun _ => .getBind fun s h => .getBind fun s h => ?_
          split
          next => exact .stallOp
          next => exact .modify fun _ h => h.txDone
        next he =>
          refine .bind (.set (((h.txPrepare he).setCommit).txWriteAll)) fun _ => .getBind fun s h => .getBind fun s h => ?_
          split
          next => exact .stallOp
          next => exact .modify fun _ h => h.txDone
  next =>
    refine .getBind fun s h => .getBind fun s h => ?_
    split
    next => exact .stallOp
    next => exact .modify fun _ h => h.txDone

end Op.Keeps

end Sys2Proof.Machine
end

section
/-! PROOF. The unit of a copy command (R272) keeps the byte stores in their canonical form (log 5): the rules of its programs, and each of them. -/

namespace Sys2Proof.Machine

/-- The state that a unit leaves, or that it waits in, has the canonical form. -/
structure UnitCanonical {α : Type} (r : Except CStop (α × State)) : Prop where
  left : ∀ a t, r = .ok (a, t) → t.Canonical
  waits : ∀ t, r = .error (.wait (some t)) → t.Canonical

/-- A unit's program keeps the canonical form. -/
def CM.Keeps {α : Type} (m : CM α) : Prop := ∀ s : State, s.Canonical → UnitCanonical (m s)

namespace UnitCanonical

variable {α : Type} {a : α} {t : State}

theorem ok (h : t.Canonical) : UnitCanonical (.ok (a, t)) := by
  refine ⟨fun b u e => ?_, fun u e => nomatch e⟩
  cases e
  exact h

theorem err {dies inj cause t0 t1 core} : UnitCanonical (.error (.err dies inj cause t0 t1 core) : Except CStop (α × State)) :=
  ⟨fun _ _ e => (nomatch e), fun _ e => nomatch e⟩

theorem waitAsIs : UnitCanonical (.error (.wait none) : Except CStop (α × State)) :=
  ⟨fun _ _ e => (nomatch e), fun _ e => nomatch e⟩

theorem wait (h : t.Canonical) : UnitCanonical (.error (.wait (some t)) : Except CStop (α × State)) := by
  refine ⟨fun b u e => (nomatch e), fun u e => ?_⟩
  cases e
  exact h

end UnitCanonical

namespace CM.Keeps

variable {α β : Type} {m : CM α} {k : α → CM β}

theorem pure {a : α} : CM.Keeps (Pure.pure a : CM α) := fun _ h => .ok h

theorem bind (hm : m.Keeps) (hk : ∀ a, (k a).Keeps) : (m >>= k).Keeps := by
  intro s h
  obtain ⟨hok, hwait⟩ := hm s h
  change UnitCanonical ((m s).bind fun r => k r.1 r.2)
  cases hms : m s with
  | error x =>
    refine ⟨fun a t e => (nomatch e), fun t e => ?_⟩
    cases e
    exact hwait t hms
  | ok r => exact hk r.1 r.2 (hok r.1 r.2 hms)

/-- What follows a read of the state may use that it has the form. -/
theorem getBind {k : State → CM β} (hk : ∀ s : State, s.Canonical → (k s).Keeps) : (get >>= k : CM β).Keeps :=
  fun s h => hk s h s h

theorem modify {f : State → State} (hf : ∀ s : State, s.Canonical → (f s).Canonical) : CM.Keeps (modify f : CM Unit) :=
  fun s h => .ok (hf s h)

theorem set {u : State} (hu : u.Canonical) : CM.Keeps (set u : CM Unit) := fun _ _ => .ok hu

theorem ite {c : Prop} [Decidable c] {n : CM α} (hm : m.Keeps) (hn : n.Keeps) : (if c then m else n).Keeps := by
  split
  next => exact hm
  next => exact hn

/-- A check that may stop the program, before the rest of it. -/
theorem guarded {c : Prop} [Decidable c] {m : CM Unit} {k : Unit → CM β} (hm : m.Keeps) (hk : ∀ a, (k a).Keeps) :
    (if c then m >>= k else k ()).Keeps := .ite (.bind hm hk) (hk ())

theorem cErrBy {inj cause t0 t1 core} : (cErrBy inj cause t0 t1 core : CM α).Keeps := fun _ _ => .err

theorem cErr {cause t0 t1 core} : (cErr cause t0 t1 core : CM α).Keeps := .cErrBy

theorem cWait : (cWait : CM α).Keeps := fun _ _ => .waitAsIs

theorem cUnlocked {l} : (cUnlocked l).Keeps := .getBind fun _ _ => .ite .cWait .pure

theorem cSegment {r g b p base core} : (cSegment r g b p base core).Keeps := by
  refine .getBind fun s _ => .ite .cErr ?_
  split
  next => exact .cErr
  next => exact .ite .cErr (.ite .cErr .pure)

theorem cResolve {i r p base b size acc} : (cResolve i r p base b size acc).Keeps := by
  refine .getBind fun s h => .ite (.ite .cErr (.ite .cErr (.ite .cErr (.ite .cErr .cSegment)))) ?_
  split
  next => exact .cErr
  next => exact .cErr
  next =>
    simp only
    split
    next => exact .guarded (.set h.corrected) fun _ => .cErrBy
    next => exact .bind (.set h.tlbNote) fun _ => .pure

theorem cDest {i r p recv acc} : (cDest i r p recv acc).Keeps :=
  .getBind fun _ _ => .ite .cErr (.ite (.ite .cErr (.ite .cErr (.ite .cErr .cSegment))) .cResolve)

theorem cGran {i hd r t p} : (cGran i hd r t p).Keeps := by
  refine .bind .cUnlocked fun _ => .getBind fun s h => ?_
  split
  next => exact .bind (.set h.storeErrors) fun _ => .pure
  next => exact .bind (.set h.corrected) fun _ => .pure
  next =>
    split
    next => exact .pure
    next => exact .ite .cErr (.ite .cWait fun _ h => .wait h.sendFor)

theorem cCheck {g p core} : (cCheck g p core).Keeps := by
  unfold Machine.cCheck
  split
  next => exact .cErrBy
  next => exact .pure

theorem cTable {i hd r n} : (cTable i hd r n).Keeps :=
  .getBind fun _ _ => .bind .cResolve fun _ => .bind .cGran fun _ => .bind .cCheck fun _ => .pure

theorem cTerms {i hd r dst e l} : (cTerms i hd r dst e l).Keeps := by
  induction l with
  | nil => exact .pure
  | cons d l ih =>
    have hrest := fun x => CM.Keeps.bind ih fun y => CM.Keeps.pure (a := x + y)
    exact .ite (.bind .cTable fun _ => .bind .pure hrest) (.bind .pure hrest)

theorem cAddr {i hd r dst e} : (cAddr i hd r dst e).Keeps := .bind .cTerms fun _ => .pure

theorem cUnit {i hd r} : (cUnit i hd r).Keeps := .ite .pure (.bind .cAddr fun _ => .getBind fun _ _ => .pure)

theorem cSource {i hd r k e} : (cSource i hd r k e).Keeps := by
  unfold Machine.cSource
  split
  next => exact .pure
  next =>
    refine .ite .pure (.bind .cAddr fun _ => .getBind fun _ _ => ?_)
    exact .bind .cResolve fun _ => .bind .cGran fun _ => .pure

theorem cSources {i hd r k l} : (cSources i hd r k l).Keeps := by
  induction l with
  | nil => exact .pure
  | cons e l ih => exact .bind .cSource fun _ => .bind ih fun _ => .pure

theorem cDests {i r recv acc l} : (cDests i r recv acc l).Keeps := by
  induction l with
  | nil => exact .pure
  | cons e l ih => exact .bind .cDest fun _ => .bind ih fun _ => .pure

theorem cForm {r k old es p core} : (cForm r k old es p core).Keeps := .ite (.bind .cCheck fun _ => .pure) .pure

theorem cOld {i t} : (cOld i t).Keeps := by
  refine .bind .cUnlocked fun _ => ?_
  split
  next => exact .bind (.modify fun _ h => h.storeErrors) fun _ => .getBind fun _ _ => .pure
  next => exact .bind (.modify fun _ h => h.evictLine.corrected) fun _ => .getBind fun _ _ => .pure
  next => exact .pure

theorem cReach {t p core} : (cReach t p core).Keeps := by
  unfold Machine.cReach
  split
  next => exact .getBind fun _ _ => .ite .cErr .pure
  next => exact .pure

theorem cPrepare {i r k unit es whole recv} : (cPrepare i r k unit es whole recv).Keeps := by
  refine .bind .cDests fun _ => .bind .cReach fun _ => .bind .cOld fun _ => ?_
  split
  next => exact .pure
  next => exact .bind .cForm fun _ => .pure

theorem cPrepares {i r k unit es whole l} : (cPrepares i r k unit es whole l).Keeps := by
  induction l with
  | nil => exact .pure
  | cons c l ih => exact .bind .cPrepare fun _ => .bind ih fun _ => .pure

theorem cPop {i hd r k n} : (cPop i hd r k n).Keeps := by
  refine .ite .pure (.getBind fun s h => .ite .cWait ?_)
  split
  next => exact .cWait
  next => exact .bind (.set h.setSlot) fun _ => .pure

theorem cPush {i hd r g last} : (cPush i hd r g last).Keeps := by
  refine .getBind fun s h => .ite .pure ?_
  simp only
  split <;> exact .bind (.set h.setSlot) fun _ => .pure

theorem cCheckAll {l} : (cCheckAll l).Keeps := by
  induction l with
  | nil => exact .pure
  | cons x l ih =>
    unfold Machine.cCheckAll
    split
    next => exact .bind .cCheck fun _ => ih
    next => exact ih

theorem cSourceHost {i r k p} : (cSourceHost i r k p).Keeps := by
  unfold Machine.cSourceHost
  split
  next => exact .pure
  next => exact .getBind fun _ _ => .bind .cResolve fun _ => .pure

theorem cAllow {i fal host} : (cAllow i fal host).Keeps := by
  intro s h
  unfold Machine.cAllow
  split
  next he => exact .ok (h.spendAllowance he)
  next => exact .waitAsIs

theorem cMemUnit {i hd r w k unit src es whole} : (cMemUnit i hd r w k unit src es whole).Keeps := by
  refine .bind .cPrepares fun _ => .bind .cSourceHost fun _ => .bind .cAllow fun _ => .bind (.modify fun _ h => h.cPuts) fun _ => ?_
  exact .ite .pure (.getBind fun s h => .bind (.set (h.draw rfl)) fun _ => .pure)

theorem cPortUnit {i hd r w k src es whole} : (cPortUnit i hd r w k src es whole).Keeps :=
  .bind .cSourceHost fun _ => .bind .cAllow fun _ => .bind .cPush fun _ => .bind (.modify fun _ h => h.sendLanding) fun _ => .pure

theorem cRunUnit {i hd r w k} : (cRunUnit i hd r w k).Keeps := by
  refine .bind .cUnit fun _ => .bind .cPop fun _ => .bind .cSources fun _ => .guarded .cCheckAll fun _ => ?_
  exact .ite (.bind .cPortUnit fun _ => .pure) (.bind .cMemUnit fun _ => .pure)

end CM.Keeps

end Sys2Proof.Machine
end

section
/-! PROOF. Every instruction and every event keeps the byte stores in their canonical form (log 5). -/

namespace Sys2Proof.Machine

namespace NextCanonical

variable {s : State}

theorem execBrloop (h : s.Canonical) {a o} : NextCanonical (execBrloop a o s) := by
  unfold Machine.execBrloop
  refine .next ?_
  simp only
  split
  next => exact h.setMe
  next =>
    split
    next => exact h.trapMe
    next => exact .ite h.stallMe h.brloop

theorem execLd (h : s.Canonical) {d a sz zx i} : NextCanonical (execLd d a sz zx i s) := by
  unfold Machine.execLd
  exact .runOp h (.bind .loadOp fun _ => .resultOp)

theorem execSt (h : s.Canonical) {t a sz i} : NextCanonical (execSt t a sz i s) := by
  unfold Machine.execSt
  exact .runOp h .storeOp

theorem execLdS (h : s.Canonical) {d a sz zx o i} : NextCanonical (execLdS d a sz zx o i s) := by
  unfold Machine.execLdS
  exact .runOp h (.bind .loadOp fun _ => .guarded (.modify fun _ h => h.acquire) fun _ => .resultOp)

theorem execStS (h : s.Canonical) {t a sz o i} : NextCanonical (execStS t a sz o i s) := by
  unfold Machine.execStS
  exact .runOp h (.guarded .releaseOp fun _ => .storeOp)

theorem execAtom (h : s.Canonical) {d a b sc o p} : NextCanonical (execAtom d a b sc o p s) := by
  unfold Machine.execAtom
  exact .runOp h (.bind .noTx fun _ => .bind (.ordered .atomicOp) fun _ => .resultOp)

theorem execCas (h : s.Canonical) {d a b sc o} : NextCanonical (execCas d a b sc o s) := by
  unfold Machine.execCas
  exact .runOp h (.bind .noTx fun _ => .bind (.ordered .atomicOp) fun _ => .resultOp)

theorem execMark (h : s.Canonical) : NextCanonical (execMark s) := by
  unfold Machine.execMark
  exact .runOp h (.bind .noTx fun _ => .bind .releaseOp fun _ => .bind .bindLater fun _ => .modify fun _ h => h.retire)

theorem execFenceRel (h : s.Canonical) {sc} : NextCanonical (execFenceRel sc s) := by
  unfold Machine.execFenceRel
  exact .runOp h (.bind .noTx fun _ => .bind .releaseOp fun _ => .bind .bindLater fun _ => .modify fun _ h => h.retire)

theorem execFenceAcq (h : s.Canonical) {sc} : NextCanonical (execFenceAcq sc s) := by
  unfold Machine.execFenceAcq
  exact .runOp h (.bind .noTx fun _ => .modify fun _ h => h.acquire.retire)

theorem execFenceAr (h : s.Canonical) {sc} : NextCanonical (execFenceAr sc s) := by
  unfold Machine.execFenceAr
  exact .runOp h (.bind .noTx fun _ => .bind .releaseOp fun _ => .modify fun _ h => h.acquire.retire)

theorem execLblk (h : s.Canonical) {d a hd n} : NextCanonical (execLblk d a hd n s) := by
  unfold Machine.execLblk
  refine .runOp h ?_
  refine .bind .noTx fun _ => .guarded .trapOp fun _ => .bind .blockVa fun _ => .bind .blockVa fun _ => ?_
  refine .guarded .trapOp fun _ => .bind .blockLines fun _ => ?_
  split
  next => exact .resultOp
  next => exact .ite .resultOp (.modify fun _ h => h.evictBlock.declareBlock.result)

theorem execLblkRel (h : s.Canonical) {d hd} : NextCanonical (execLblkRel d hd s) := by
  unfold Machine.execLblkRel
  exact .runOp h (.bind .noTx fun _ => .ite (.modify fun _ h => h.evictBlock.result) .resultOp)

theorem execBlkwait (h : s.Canonical) {d hd} : NextCanonical (execBlkwait d hd s) := by
  unfold Machine.execBlkwait
  refine .runOp h ?_
  refine .bind .noTx fun _ => ?_
  split
  next => exact .resultOp
  next => exact .ite .resultOp .stallOp

theorem execTxb (h : s.Canonical) {d} : NextCanonical (execTxb d s) := by
  unfold Machine.execTxb
  exact .runOp h (.bind .noTx fun _ => .modify fun _ h => h.setMe.result)

theorem execTxe (h : s.Canonical) {d} : NextCanonical (execTxe d s) := by
  unfold Machine.execTxe
  refine .runOp h ?_
  split
  next => exact .resultOp
  next =>
    simp only
    refine .guarded .releaseOp fun _ => .getBind fun s h => ?_
    split
    next => exact .resultOp
    next => exact .getBind fun _ _ => .ite .txHere .txFar

theorem execTxa (h : s.Canonical) {a} : NextCanonical (execTxa a s) := by
  unfold Machine.execTxa
  exact .next (.ite h.setMe h.retire)

theorem execPgfree (h : s.Canonical) {d a} : NextCanonical (execPgfree d a s) := by
  unfold Machine.execPgfree
  refine .runOp h ?_
  refine .bind .noTx fun _ => .bind .releaseOp fun _ => .getBind fun s h => .bind .askOp fun _ => ?_
  refine .bind (.modify fun _ h => h.withPool) fun _ => .getBind fun _ _ => ?_
  simp only
  split
  next => exact .resultOp
  next =>
    split
    next => exact .resultOp
    next => exact .ite (.bind (.modify fun _ h => h.devBit.mapPool) fun _ => .resultOp) .resultOp

theorem execSgpref (h : s.Canonical) {d a} : NextCanonical (execSgpref d a s) := by
  unfold Machine.execSgpref
  exact .runOp h (.onSegment (fun _ => .modify fun _ h => (h.prefetch (fun _ => rfl)).result))

theorem execSginfo (h : s.Canonical) {d a} : NextCanonical (execSginfo d a s) := by
  unfold Machine.execSginfo
  refine .runOp h ?_
  refine .bind .noTx fun _ => ?_
  split <;> exact .resultOp

theorem execSgquota (h : s.Canonical) {d a} : NextCanonical (execSgquota d a s) := by
  unfold Machine.execSgquota
  refine .runOp h (.bind .noTx fun _ => .ite .resultOp (.bind (.modify fun _ h => h.setMe.shrinkTo) fun _ => ?_))
  exact .getBind fun _ _ => .ite .resultOp .stallOp

theorem execSgsched (h : s.Canonical) {d a b} : NextCanonical (execSgsched d a b s) := by
  unfold Machine.execSgsched
  refine .runOp h ?_
  refine .bind .noTx fun _ => ?_
  simp only
  split
  next => exact .schedSelect
  next =>
    refine .bind .memOperand fun _ => .bind .wordsAt fun h => .bind .wordsAt fun l => ?_
    split
    next => exact .resultOp
    next =>
      split
      next => exact .resultOp
      next => exact .ite .resultOp (.modify fun _ h => h.setSched.result)

theorem execSpawn (h : s.Canonical) {d a} : NextCanonical (execSpawn d a s) := by
  unfold Machine.execSpawn
  refine .runOp h ?_
  refine .withTask ?_
  intro t
  simp only
  refine .bind .memOperand fun _ => .bind .wordsAt fun w => .bind .releaseOp fun _ => .getBind fun s h => .bind .askOp fun _ => .getBind fun s h => ?_
  split
  next => exact .set h.forget.result
  next =>
    split
    next => exact .set h.forget.result
    next =>
      split
      next => exact .set h.forget.result
      next he2 => exact .set (((h.forget.spawnRec he2).pushHead).result)

theorem execTend (h : s.Canonical) : NextCanonical (execTend s) := by
  unfold Machine.execTend
  refine .runOp h ?_
  refine .bind .noTx fun _ => ?_
  split
  next => exact .modify fun _ h => h.setMe
  next => exact .ite (.modify fun _ h => h.retire) (.bind .drainOp fun _ => .modify fun _ h => h.freeSlot)

theorem execYield (h : s.Canonical) : NextCanonical (execYield s) := by
  unfold Machine.execYield
  exact .runOp h (.bind .noTx fun _ => .waitOp)

theorem execAwait (h : s.Canonical) {d a b} : NextCanonical (execAwait d a b s) := by
  unfold Machine.execAwait
  exact .runOp h (.bind .noTx fun _ => .bind .memOperand fun _ => .awaitOp)

theorem execDomjoin (h : s.Canonical) {d a l} : NextCanonical (execDomjoin d a l s) := by
  unfold Machine.execDomjoin
  refine .runOp h ?_
  refine .withTask ?_
  intro t
  simp only
  split
  next => exact .resultOp
  next =>
    split
    next => exact .bind .domAskOp fun _ => .ite .resultOp (.modify fun _ h => h.domMirror.setMe.result)
    next =>
      split
      next => exact .resultOp
      next he2 => exact .set (((h.domJoin he2).setMe).result)

theorem execDomleave (h : s.Canonical) {d l} : NextCanonical (execDomleave d l s) := by
  unfold Machine.execDomleave
  refine .runOp h ?_
  refine .withTask ?_
  intro t
  split
  next => exact .resultOp
  next =>
    simp only
    split
    next => exact .bind .domAskOp fun _ => .modify fun _ h => h.mapDom.setMe.result
    next => exact .modify fun _ h => h.mapDom.setMe.result

theorem execBardecl (h : s.Canonical) {d a l} : NextCanonical (execBardecl d a l s) := by
  unfold Machine.execBardecl
  refine .runOp h ?_
  refine .withTask ?_
  intro t
  simp only
  split
  next => exact .resultOp
  next =>
    split
    next => exact .ite .resultOp (.bind .domAskOp fun _ => .resultOp)
    next => exact .ite .resultOp (.ite .resultOp (.modify fun _ h => h.mapMe.result))

theorem execBararr (h : s.Canonical) {d l} : NextCanonical (execBararr d l s) := by
  unfold Machine.execBararr
  refine .runOp h ?_
  refine .withTask ?_
  intro t
  split
  next => exact .resultOp
  next =>
    split
    next => exact .resultOp
    next =>
      split
      next => exact .bind .releaseOp fun _ => .bind .domAskOp fun _ => .modify fun _ h => .result (.ite h.farArrived h)
      next => exact .ite (.modify fun _ h => h.mapMe.result) (.bind .releaseOp fun _ => .modify fun _ h => h.mapMe.result)

theorem execBarwait (h : s.Canonical) {d l} : NextCanonical (execBarwait d l s) := by
  unfold Machine.execBarwait
  refine .runOp h ?_
  refine .withTask ?_
  intro t
  split
  next => exact .resultOp
  next x _ _ _ =>
    split
    next => exact .modify fun _ h => h.barReturn
    next =>
      split
      next => exact .waitOp
      next =>
        split
        next =>
          refine .bind .releaseOp fun x => .bind .domAskOp fun g => ?_
          split
          next =>
            refine .bind (.modify fun _ h => h.farArrived) fun x => .getBind fun s h => ?_
            split
            next =>
              split
              next => exact .modify fun _ h => h.barReturn
              next => exact .waitOp
            next => exact .waitOp
          next => exact .modify fun _ h => h.acquire.result
        next =>
          split
          next => exact .modify fun _ h => h.mapMe.acquire.result
          next =>
            refine .bind .releaseOp fun x => .bind (.modify fun _ h => h.mapMe) fun x => .getBind fun s h => ?_
            split
            next =>
              split
              next => exact .modify fun _ h => h.barReturn
              next => exact .waitOp
            next => exact .waitOp

theorem execScnew (h : s.Canonical) {d a} : NextCanonical (execScnew d a s) := by
  unfold Machine.execScnew
  refine .runOp h ?_
  refine .withTask ?_
  intro t
  simp only
  refine .bind .memOperand fun _ => .bind .memTarget fun w => .getBind fun s1 h => ?_
  split
  next => exact .resultOp
  next =>
    split
    next => exact .resultOp
    next =>
      split
      next => exact .resultOp
      next =>
        refine .bind .drainOp fun _ => .bind .unlockedOp fun _ => .bind .storeNow fun _ => .bind .storeNow fun _ => ?_
        exact .modify fun _ h => h.mapPart.result

theorem execCancel (h : s.Canonical) {d a} : NextCanonical (execCancel d a s) := by
  unfold Machine.execCancel
  exact .runOp h (.bind .noTx fun _ => .ite .resultOp (.bind .releaseOp fun _ => .modify fun _ h => h.mapPart.result.mapSlot))

theorem execCancelwait (h : s.Canonical) {d a} : NextCanonical (execCancelwait d a s) := by
  unfold Machine.execCancelwait
  exact .runOp h (.withTask (fun _ => .ite .resultOp (.ite .stallOp (.modify fun _ h => h.acknowledge.acquire.result.reap))))

theorem execGrun (h : s.Canonical) {d a} : NextCanonical (execGrun d a s) := by
  unfold Machine.execGrun
  refine .runOp h ?_
  refine .withTask ?_
  intro t
  simp only
  refine .bind .memOperand fun _ => .bind .wordsAt fun w => .bind .releaseOp fun _ => ?_
  split
  next => exact .resultOp
  next =>
    refine .getBind fun s h => .bind .askOp fun _ => .getBind fun s h => ?_
    split
    next => exact .set h.forget.result
    next he2 => exact .set ((h.forget.graphRun he2).result)

theorem execTkpost (h : s.Canonical) {e} : NextCanonical (execTkpost e s) := by
  unfold Machine.execTkpost
  exact .runOp h (.bind .noTx fun _ => .ite (.modify fun _ h => h.setMe.retire) .stallOp)

theorem execTkwait (h : s.Canonical) {e} : NextCanonical (execTkwait e s) := by
  unfold Machine.execTkwait
  exact .runOp h (.bind .noTx fun _ => .ite (.modify fun _ h => h.setMe.acquire.retire) .waitOp)

theorem execQpush (h : s.Canonical) {a} : NextCanonical (execQpush a s) := by
  unfold Machine.execQpush
  exact .runOp h (.bind .noTx fun _ => .ite (.modify fun _ h => h.mapEng.retire) .stallOp)

theorem execQpop (h : s.Canonical) {d} : NextCanonical (execQpop d s) := by
  unfold Machine.execQpop
  refine .runOp h ?_
  refine .bind .noTx fun _ => ?_
  split
  next => exact .modify fun _ h => h.mapEng.result
  next => exact .stallOp

theorem execFmtq (h : s.Canonical) {a} : NextCanonical (execFmtq a s) := by
  unfold Machine.execFmtq
  exact .runOp h (.bind .noTx fun _ => .ite (.modify fun _ h => h.mapEng.retire) .stallOp)

theorem execMlease (h : s.Canonical) : NextCanonical (execMlease s) := by
  unfold Machine.execMlease
  exact .runOp h (.bind .noTx fun _ => .modify fun _ h => h.mapCluster.retire)

theorem execMleaseG (h : s.Canonical) {d a} : NextCanonical (execMleaseG d a s) := by
  unfold Machine.execMleaseG
  exact .runOp h (.bind .noTx fun _ => .ite .resultOp (.modify fun _ h => h.mapEng.result))

theorem execMrelease (h : s.Canonical) : NextCanonical (execMrelease s) := by
  unfold Machine.execMrelease
  exact .runOp h (.bind .noTx fun _ => .modify fun _ h => h.mapEng.mapCluster.releaseIfDone.retire)

theorem execChwait (h : s.Canonical) {d a hd} : NextCanonical (execChwait d a hd s) := by
  unfold Machine.execChwait
  refine .runOp h (.bind .noTx fun _ => ?_)
  exact .ite .resultOp (.ite (.modify fun _ h => h.acquire.result) (.ite .resultOp (.ite (.modify fun _ h => h.acquire.result) .waitOp)))

theorem execChid (h : s.Canonical) {d hd} : NextCanonical (execChid d hd s) := by
  unfold Machine.execChid
  exact .runOp h (.bind .noTx fun _ => .resultOp)

theorem execPortbind (h : s.Canonical) {d a n} : NextCanonical (execPortbind d a n s) := by
  unfold Machine.execPortbind
  refine .runOp h ?_
  refine .bind .noTx fun _ => ?_
  split
  next => exact .resultOp
  next => exact .modify fun _ h => h.setMe.result

theorem execTrap (h : s.Canonical) {c} : NextCanonical (execTrap c s) := by
  unfold Machine.execTrap
  exact .runOp h (.bind .noTx fun _ => .throwBecome h.syncTrap)

theorem execTret (h : s.Canonical) {k r} : NextCanonical (execTret k r s) := by
  unfold Machine.execTret
  exact .runOp h (.bind .needLevel fun _ => .bind .noTx fun _ => .modify fun _ h => h.trapReturn)

theorem execSrd (h : s.Canonical) {d n m} : NextCanonical (execSrd d n m s) := by
  unfold Machine.execSrd
  exact .runOp h (.bind .sregOp fun _ => .guarded .noTx fun _ => .modify fun _ h => .result (.ite h.acquire h))

theorem execSwr (h : s.Canonical) {t n m} : NextCanonical (execSwr t n m s) := by
  unfold Machine.execSwr
  simp only
  refine .runOp h ?_
  refine .bind .sregOp fun _ => .bind .noTx fun _ => ?_
  split
  next => exact .trapOp
  next he => exact .bind (.set (h.plainWrite he)) fun _ => .modify fun _ h => h.retire

theorem execSwrFlags (h : s.Canonical) {t} : NextCanonical (execSwrFlags t s) := by
  unfold Machine.execSwrFlags
  exact .runOp h (.bind .noTx fun _ => .modify fun _ h => h.setMe.retire)

theorem execSwrVtype (h : s.Canonical) {t} : NextCanonical (execSwrVtype t s) := by
  unfold Machine.execSwrVtype
  refine .runOp h (.bind .noTx fun _ => .ite ?_ (.modify fun _ h => h.retire))
  exact .bind .markerOp fun _ => .bind (.modify fun _ h => h.setMe) fun _ => .modify fun _ h => h.retire

theorem execSwrRrb (h : s.Canonical) {t} : NextCanonical (execSwrRrb t s) := by
  unfold Machine.execSwrRrb
  exact .runOp h (.bind .noTx fun _ => .bind .markerOp fun _ => .modify fun _ h => h.setMe.retire)

theorem execSwrEc (h : s.Canonical) {t} : NextCanonical (execSwrEc t s) := by
  unfold Machine.execSwrEc
  exact .runOp h (.bind .noTx fun _ => .bind .markerOp fun _ => .modify fun _ h => h.setMe.retire)

theorem execSwrSrseed (h : s.Canonical) {t} : NextCanonical (execSwrSrseed t s) := by
  unfold Machine.execSwrSrseed
  exact .runOp h (.bind .noTx fun _ => .ite .stallOp (.modify fun _ h => h.setMe.retire))

theorem execSwrPreempt (h : s.Canonical) {t} : NextCanonical (execSwrPreempt t s) := by
  unfold Machine.execSwrPreempt
  exact .runOp h (.bind .needLevel fun _ => .bind .noTx fun _ => .modify fun _ h => h.setMe.retire)

theorem execSwrInjcfg (h : s.Canonical) {t} : NextCanonical (execSwrInjcfg t s) := by
  unfold Machine.execSwrInjcfg
  exact .runOp h (.bind .needLevel fun _ => .bind .noTx fun _ => .modify fun _ h => h.mapDie.retire)

theorem execAccspill (h : s.Canonical) {d a b} : NextCanonical (execAccspill d a b s) := by
  unfold Machine.execAccspill
  refine .runOp h (.bind .needLevel fun _ => .bind .noTx fun _ => .ite .resultOp (.bind .physical fun _ => ?_))
  exact .ite .resultOp (.ite .stallOp (.bind .physical fun _ => .modify fun _ h => h.spillBank.result))

theorem execAccfill (h : s.Canonical) {d a b} : NextCanonical (execAccfill d a b s) := by
  unfold Machine.execAccfill
  refine .runOp h (.bind .needLevel fun _ => .bind .noTx fun _ => .ite .resultOp (.bind .physical fun _ => ?_))
  exact .ite .resultOp (.bind .physical fun _ => .modify fun _ h => h.tagBank.putBank.setSpilled.result)

theorem execCtxsave (h : s.Canonical) {d a} : NextCanonical (execCtxsave d a s) := by
  unfold Machine.execCtxsave
  refine .runOp h (.bind .needLevel fun _ => .bind .noTx fun _ => .ite .resultOp (.bind .physical fun _ => ?_))
  exact .guarded .stallOp fun _ => .modify fun _ h => h.saveTask

theorem execTlbinv (h : s.Canonical) {d a b} : NextCanonical (execTlbinv d a b s) := by
  unfold Machine.execTlbinv
  refine .runOp h (.bind .needLevel fun _ => .bind .noTx fun _ => .ite .resultOp (.bind .releaseOp fun _ => ?_))
  exact .bind (.modify fun _ h => h.tlbDrop) fun _ => .getBind fun _ _ => .guarded .stallOp fun _ => .resultOp

theorem execElogrd (h : s.Canonical) {d a b} : NextCanonical (execElogrd d a b s) := by
  unfold Machine.execElogrd
  refine .runOp h ?_
  refine .bind .needLevel fun _ => .bind .noTx fun _ => ?_
  simp only
  split
  next => exact .resultOp
  next =>
    split
    next => exact .resultOp
    next =>
      split
      next => exact .resultOp
      next => exact .ite .resultOp (.modify fun _ h => (h.draw rfl).result)

theorem execMoncall (h : s.Canonical) {d a b} : NextCanonical (execMoncall d a b s) := by
  unfold Machine.execMoncall
  refine .runOp h (.bind .needLevel fun _ => .bind .noTx fun _ => ?_)
  simp only
  split
  next => exact .resultOp
  next => exact .resultOp
  next =>
    split
    next => exact .resultOp
    next =>
      split
      next => exact .throwBecome h.monStop
      next => exact .modify fun _ h => h.setInj.result
  next => exact .resultOp

theorem execHalt (h : s.Canonical) : NextCanonical (execHalt s) := by
  unfold Machine.execHalt
  exact .runOp h (.bind .needLevel fun _ => .bind .noTx fun _ => .modify fun _ h => h.mapCore.retire)

theorem vExec (h : s.Canonical) {i w} : NextCanonical (vExec i w s) := by
  unfold Machine.vExec
  split
  next => exact .runOp h .forwardOp
  next => exact .next h.vIssue

theorem execVcfg (h : s.Canonical) {i t} : NextCanonical (execVcfg i t s) := by
  unfold Machine.execVcfg
  split
  next => exact .runOp h (.bind .forwardOp fun _ => .modify fun _ h => h.setMe)
  next => exact .vExec h

theorem mForward (h : s.Canonical) {i} : NextCanonical (mForward i s) := by
  unfold Machine.mForward
  exact .runOp h .forwardOp

theorem cForward (h : s.Canonical) {i hd} : NextCanonical (cForward i hd s) := by
  unfold Machine.cForward
  exact .runOp h .forwardOp

theorem execAllowanceRefill (h : s.Canonical) {p} : NextCanonical (execAllowanceRefill p s) := by
  unfold Machine.execAllowanceRefill
  exact .next (.ite h.mapPart.mapPkg h)

theorem execVFinish (h : s.Canonical) {i} : NextCanonical (execVFinish i s) := by
  unfold Machine.execVFinish
  refine .next ?_
  split
  next => exact h
  next =>
    simp only
    split
    next =>
      split
      next => exact h.mapSlot.vFaultBare
      next => exact h.mapSlot
    next => exact h.mapSlot

theorem execMarkerApply (h : s.Canonical) {i} : NextCanonical (execMarkerApply i s) := by
  unfold Machine.execMarkerApply
  refine .next ?_
  split
  next => exact .ite h.mapSlot h
  next => exact h

theorem execCStart (h : s.Canonical) {i} : NextCanonical (execCStart i s) := by
  unfold Machine.execCStart
  refine .next ?_
  split
  next => exact h
  next =>
    simp only
    split
    next =>
      split
      next => exact ((h.foldl fun _ _ h => h.cRetry).mapCore).cResume
      next =>
        split
        next => exact h.foldl fun _ _ h => h.cRetry
        next => exact ((h.foldl fun _ _ h => h.cRetry).mapCore).cTake
    next => exact h.foldl fun _ _ h => h.cRetry

theorem execCComplete (h : s.Canonical) {i hd} : NextCanonical (execCComplete i hd s) := by
  unfold Machine.execCComplete
  refine .next ?_
  simp only
  split
  next => exact h
  next => exact .ite h (((h.foldl fun _ _ h => h.leaveLine).endCopyPins).mapSlot)

theorem execMStart (h : s.Canonical) {i} : NextCanonical (execMStart i s) := by
  unfold Machine.execMStart
  refine .next ?_
  split
  next => exact h
  next =>
    split
    next => exact h
    next he =>
      simp only
      split
      next => exact h.takeLease he
      next =>
        split
        next =>
          split
          next => exact h.takeLease he
          next => exact .ite (h.takeLease he) (((((h.takeLease he).setSlot).mapRun).mapCluster).mBegin)
        next =>
          split
          next => exact h.takeLease he
          next =>
            split
            next => exact h.takeLease he
            next =>
              split
              next => exact h.takeLease he
              next => exact (h.takeLease he).mTake

theorem execMicroStep (h : s.Canonical) {i} : NextCanonical (execMicroStep i s) := by
  unfold Machine.execMicroStep
  refine .next ?_
  simp only
  split
  next => exact h
  next =>
    split
    next =>
      split
      next => exact h
      next =>
        split
        next => exact h
        next =>
          split
          next => exact h.mErr
          next he4 => exact ((h.mStep he4).mapRun).mapCluster
    next => exact h

theorem execMComplete (h : s.Canonical) {i} : NextCanonical (execMComplete i s) := by
  unfold Machine.execMComplete
  refine .next ?_
  split
  next => exact h
  next => exact .ite h h.mFinish

theorem execQuiescentPoint (h : s.Canonical) {i} : NextCanonical (execQuiescentPoint i s) := by
  unfold Machine.execQuiescentPoint
  refine .next ?_
  split
  next => exact h
  next => exact .ite h h.stopCampion.mapRun

theorem execLeaseIdleTimeout (h : s.Canonical) {c} : NextCanonical (execLeaseIdleTimeout c s) := by
  unfold Machine.execLeaseIdleTimeout
  refine .next ?_
  simp only
  split
  next => exact .ite h.endLease h
  next => exact h

theorem execPoolScrub (h : s.Canonical) {p} : NextCanonical (execPoolScrub p s) := by
  unfold Machine.execPoolScrub
  exact .next (.ite h (.ite h.scrubHead (h.reading (fun _ h => h.withPool.scrubHead))))

theorem execStorePerform (h : s.Canonical) {i} : NextCanonical (execStorePerform i s) := by
  unfold Machine.execStorePerform
  refine .next ?_
  split
  next => exact h
  next =>
    split
    next => exact h
    next => exact h.performQueued
    next =>
      split
      next he3 => exact (h.draw he3).performQueued

theorem execLoadBlockFill (h : s.Canonical) {i hd k} : NextCanonical (execLoadBlockFill i hd k s) := by
  unfold Machine.execLoadBlockFill
  refine .next ?_
  split
  next => exact h
  next =>
    split
    next => exact .ite h h.fillBlockLine
    next => exact h

theorem execTaskEnd (h : s.Canonical) {i} : NextCanonical (execTaskEnd i s) := by
  unfold Machine.execTaskEnd
  refine .next ?_
  split
  next => exact h
  next => exact .ite (h.reading (fun _ h => h.drainFifo.stopWork.freeSlot.leaveTask.completeWord.nodeEnded)) h

theorem execGraphNodePlace (h : s.Canonical) {p} : NextCanonical (execGraphNodePlace p s) := by
  unfold Machine.execGraphNodePlace
  refine .next ?_
  split
  next => exact h
  next =>
    split
    next => exact h
    next =>
      simp only
      split
      next => exact h.mapPart
      next => exact .ite h.mapPart.dropRec h.mapPart.place

theorem execLaunchScan (h : s.Canonical) {p} : NextCanonical (execLaunchScan p s) := by
  unfold Machine.execLaunchScan
  refine .next ?_
  simp only
  split
  next => exact h
  next =>
    split
    next => exact h.ask
    next he => exact ((h.mapPart.scanQueues he).mapPart).forget

theorem execPeriodicWake (h : s.Canonical) {p} : NextCanonical (execPeriodicWake p s) := by
  unfold Machine.execPeriodicWake
  exact .next (.ite h.wakeQueues h)

theorem execWakeWindowEnd (h : s.Canonical) {p} : NextCanonical (execWakeWindowEnd p s) := by
  unfold Machine.execWakeWindowEnd
  refine .next ?_
  simp only
  split
  next => exact .ite h.mapPart.wakeQueues h
  next => exact h

theorem execSteal (h : s.Canonical) {c} : NextCanonical (execSteal c s) := by
  unfold Machine.execSteal
  refine .next ?_
  simp only
  split
  next => exact h
  next =>
    split
    next => exact .ite h.mapCore.setDeque.mapCore.dropRec h.mapCore.setDeque.mapCore.pushHead
    next => exact .ite h.mapCore.mapCore h.mapCore.mapCore

theorem execDequeRefill (h : s.Canonical) {c} : NextCanonical (execDequeRefill c s) := by
  unfold Machine.execDequeRefill
  exact .next (.ite h.setDeque h)

theorem execPreload (h : s.Canonical) {i} : NextCanonical (execPreload i s) := by
  unfold Machine.execPreload
  refine .next ?_
  split
  next => exact h
  next =>
    split
    next => exact h
    next =>
      simp only
      split
      next => exact h.setDeque.mapSlot.preloadSegs
      next => exact h.setDeque.mapSlot

theorem execPreloadComplete (h : s.Canonical) {i} : NextCanonical (execPreloadComplete i s) := by
  unfold Machine.execPreloadComplete
  refine .next ?_
  split
  next =>
    split
    next => exact h
    next =>
      split
      next => exact h.endPreload.pushHead
      next =>
        split
        next => exact h.endPreload.resumeRec
        next =>
          split
          next => exact h.endPreload.dropRec
          next =>
            split
            next => exact h
            next => exact h.startIn (fun _ h => h.endPreload)
  next => exact h

theorem execYieldTimeout (h : s.Canonical) {i} : NextCanonical (execYieldTimeout i s) := by
  unfold Machine.execYieldTimeout
  refine .next ?_
  split
  next => exact .ite h.mapSlot h
  next => exact h

theorem execWaitSatisfied (h : s.Canonical) {i} : NextCanonical (execWaitSatisfied i s) := by
  unfold Machine.execWaitSatisfied
  refine .next ?_
  simp only
  split
  next => exact .ite h.setSlot h
  next => exact .ite h.setSlot h
  next => exact .ite h.setSlot h
  next => exact h

theorem execAwaitReread (h : s.Canonical) {i} : NextCanonical (execAwaitReread i s) := by
  unfold Machine.execAwaitReread
  refine .next ?_
  simp only
  split
  next => exact .ite (.ite (h.setSlot.asSlot (fun _ h => h.runMe .awaitOp)) ((h.setSlot.asSlot (fun _ h => h.runMe .awaitOp)).mapSlot)) h
  next => exact h

theorem execBarrierLanding (h : s.Canonical) {p} : NextCanonical (execBarrierLanding p s) := by
  unfold Machine.execBarrierLanding
  refine .next ?_
  split
  next => exact h
  next =>
    simp only
    split
    next => exact h.mapPart.sendDom
    next => exact h.mapPart.mapDom

theorem execBarwaitReturn (h : s.Canonical) {i} : NextCanonical (execBarwaitReturn i s) := by
  unfold Machine.execBarwaitReturn
  refine .next ?_
  simp only
  split
  next =>
    split
    next =>
      split
      next => exact h.barReturn
      next => exact h
    next => exact h
  next => exact h

theorem execAsyncDelivery (h : s.Canonical) {i} : NextCanonical (execAsyncDelivery i s) := by
  unfold Machine.execAsyncDelivery
  exact .next (.ite h.deliverAt h)

theorem execPreemptBudget (h : s.Canonical) {i} : NextCanonical (execPreemptBudget i s) := by
  unfold Machine.execPreemptBudget
  exact .next (.ite h.unpinPreloads.setSlot h)

theorem execSaveTorn (h : s.Canonical) {i} : NextCanonical (execSaveTorn i s) := by
  unfold Machine.execSaveTorn
  refine .next ?_
  split
  next => exact h
  next => exact .ite h.mapPart.logError.killSlot.report.cfgBusy h

theorem execCfgCtl (h : s.Canonical) : NextCanonical (execCfgCtl s) := by
  unfold Machine.execCfgCtl
  exact .next (.ite h.startConfig h)

theorem execPartRun (h : s.Canonical) {p} : NextCanonical (execPartRun p s) := by
  unfold Machine.execPartRun
  exact .next (.ite (h.reading (fun _ h => h.mapPart.adoptAll)) h)

theorem execPartStop (h : s.Canonical) {p} : NextCanonical (execPartStop p s) := by
  unfold Machine.execPartStop
  exact .next (.ite h.mapPart.flushSupervisors.quiesce.evictUnpinned h)

theorem execPartReset (h : s.Canonical) {p} : NextCanonical (execPartReset p s) := by
  unfold Machine.execPartReset
  exact .next (.ite h.resetPart h)

theorem execCoreRun (h : s.Canonical) {c} : NextCanonical (execCoreRun c s) := by
  unfold Machine.execCoreRun
  refine .next ?_
  split
  next => exact h.mapCore
  next => exact h

theorem execDma (h : s.Canonical) : NextCanonical (execDma s) := by
  unfold Machine.execDma
  exact .next (.ite h.dmaGrans.pfPut h)

theorem execPfRegisterWrite (h : s.Canonical) {off v} : NextCanonical (execPfRegisterWrite off v s) := by
  unfold Machine.execPfRegisterWrite
  refine .next ?_
  split
  next => exact .ite h.pfPut.mapPart h.pfPut
  next => exact h

theorem execKeyLoad (h : s.Canonical) {p k wrapped} : NextCanonical (execKeyLoad p k wrapped s) := by
  unfold Machine.execKeyLoad
  refine .next ?_
  simp only
  split
  next =>
    split
    next => exact h.mapPart
    next => exact h
  next => exact h

theorem execLinkCrcError (h : s.Canonical) {l failed} : NextCanonical (execLinkCrcError l failed s) := by
  unfold Machine.execLinkCrcError
  refine .next ?_
  simp only
  exact .ite h (.ite h.mapPkg (((h.draw rfl).mapPkg).logError))

theorem execThermalTrip (h : s.Canonical) : NextCanonical (execThermalTrip s) := by
  unfold Machine.execThermalTrip
  exact .next ((h.foldl fun _ _ h => h.mapCore).openReport)

theorem execSpdmRequest (h : s.Canonical) {p q} : NextCanonical (execSpdmRequest p q s) := by
  unfold Machine.execSpdmRequest
  refine .next ?_
  split
  next => exact h
  next => split <;> exact h.mapPkg

theorem execSlotReselect (h : s.Canonical) {c} : NextCanonical (execSlotReselect c s) := by
  unfold Machine.execSlotReselect
  refine .next ?_
  simp only
  split
  next =>
    split
    next => exact h.turnTo
    next => exact h
  next => exact h

theorem execStallEnd (h : s.Canonical) {i} : NextCanonical (execStallEnd i s) := by
  unfold Machine.execStallEnd
  refine .next ?_
  split
  next => exact h
  next => exact .ite h.mapSlot h

theorem execConfigCommit (h : s.Canonical) : NextCanonical (execConfigCommit s) := by
  unfold Machine.execConfigCommit
  exact .next (.ite (h.lookingAt (fun _ h => .ite h.commit h)) h)

theorem execCfgTmo (h : s.Canonical) : NextCanonical (execCfgTmo s) := by
  unfold Machine.execCfgTmo
  refine .next ?_
  split
  next => exact .ite (h.lookingAt (fun _ h => .ite h h.endConfig)) h
  next => exact h

theorem execFreshFill (h : s.Canonical) {i} : NextCanonical (execFreshFill i s) := by
  unfold Machine.execFreshFill
  refine .next ?_
  split
  next => exact h
  next => exact .ite h.recallFor h

theorem execSegmentRecall (h : s.Canonical) {i} : NextCanonical (execSegmentRecall i s) := by
  unfold Machine.execSegmentRecall
  refine .next ?_
  split
  next => exact h
  next => exact .ite h.recallFor h

theorem execWriteBack (h : s.Canonical) {c line} : NextCanonical (execWriteBack c line s) := by
  unfold Machine.execWriteBack
  exact .next (.ite h h.writeBackLine)
end NextCanonical

theorem State.Canonical.recOf {s : State} (h : s.Canonical) {c a} : (s.recOf c a).2.Canonical := by
  unfold State.recOf
  split
  next => exact h
  next => exact h.areaRec

theorem State.Canonical.dropSeg {s : State} (h : s.Canonical) {i : SegId} :
    State.Canonical { s with segs := s.segs.filter fun g => g.id ≠ i } :=
  h.of_segs rfl data_of_filter

theorem State.Canonical.setPinned {s : State} (h : s.Canonical) {i : SegId} {b : Bool} :
    (s.mapSeg i fun g => { g with sgpin := b }).Canonical := h.markSeg fun _ => rfl

namespace NextCanonical

variable {s : State}

theorem execSgfree (h : s.Canonical) {d a} : NextCanonical (execSgfree d a s) := by
  refine .runOp h (.onSegment fun _ => .bind .drainOp fun _ => .getBind fun _ _ => ?_)
  split
  next => exact .resultOp
  next => exact .ite .stallOp (.modify fun _ h => h.dropSeg.result)

theorem execSgpin (h : s.Canonical) {d a} : NextCanonical (execSgpin d a s) := by
  refine .runOp h (.bind .noTx fun _ => ?_)
  split
  next => exact .modify fun _ h => h.pinResult
  next =>
    refine .ite (.modify fun _ h => h.pinResult) (.ite (.modify fun _ h => h.pinResult) ?_)
    split
    next => exact .modify fun _ h => h.pinResult
    next hgo => exact .set (h.admitSet_go hgo).setPinned.pinResult
    next hwait => exact .throwBecome (h.admitSet_wait hwait).stallMe

theorem execSgunpin (h : s.Canonical) {d a} : NextCanonical (execSgunpin d a s) :=
  .runOp h (.onSegment fun _ => .ite (.modify fun _ h => h.setPinned.result) .resultOp)

theorem execSwrEnvcb (h : s.Canonical) {t} : NextCanonical (execSwrEnvcb t s) := by
  refine .runOp h (.bind .needLevel fun _ => .bind .noTx fun _ => .getBind fun s _ => ?_)
  refine .ite (.modify fun _ h => h.retire) (.bind .askOp fun _ => .modify fun s h => ?_)
  simp only
  split
  next => exact h.forget.mapPart.retire
  next => exact h.forget.retire

theorem execCtxload (h : s.Canonical) {d a b} : NextCanonical (execCtxload d a b s) := by
  unfold Machine.execCtxload
  refine .runOp h (.bind .needLevel fun _ => .bind .noTx fun _ => .ite .resultOp ?_)
  refine .bind .physical fun _ => .ite .resultOp (.bind .askOp fun _ => ?_)
  have hdrop := h.recOf (c := s.cur.core) (a := (s.reg a).toNat) |>.forget (p := s.partNo s.cur.core)
    |>.dropSavedRec (c := s.cur.core) (a := (s.reg a).toNat)
  refine .ite (.set hdrop.dropSaved.result) ?_
  split
  next => exact .set hdrop.loadTask.result
  next => exact .resultOp

theorem execAgEntry (h : s.Canonical) {i g} : NextCanonical (execAgEntry i g s) := by
  unfold Machine.execAgEntry
  refine .next ?_
  simp only
  split
  next =>
    refine .ite h ?_
    split
    next => exact h.agFault
    next => exact h.agFault
    next =>
      refine .ite h ?_
      split
      next => exact h.agFault
      next hgo => exact (h.admitSet_go hgo).flushLater.moveEntry
      next hwait => exact h.admitSet_wait hwait
    next => exact h.agFault
  next => exact h

theorem execCopyUnit (h : s.Canonical) {i hd} : NextCanonical (execCopyUnit i hd s) := by
  unfold Machine.execCopyUnit
  refine .next ?_
  simp only
  split
  next =>
    split
    next r _ _ _ c d b k _ =>
      obtain ⟨hleft, hwaits⟩ := CM.Keeps.cRunUnit (i := i) (hd := hd) (r := r) (w := ⟨c, d, b, some k⟩) (k := k) s h
      refine .ite h ?_
      split
      next he => exact (hleft _ _ he).setRun
      next t he =>
        cases t with
        | none => exact h
        | some t => exact hwaits t he
      next dies _ _ _ _ _ _ => exact State.Canonical.cFault (s := { s with dies := dies }) h
    next => exact h
  next => exact h

theorem execFalranRequest (h : s.Canonical) {port f q} : NextCanonical (execFalranRequest port f q s) := by
  have hr := h.receive (n := port.val) (f := f) (p := s.targetPart q)
  refine .next (.ite h ?_)
  split
  next he =>
    rw [he] at hr
    exact hr
  next he =>
    rw [he] at hr
    exact .ite hr.mapPkg hr.respond

theorem execFalranResponse (h : s.Canonical) {port f r} : NextCanonical (execFalranResponse port f r s) := by
  have hr := h.receive (n := port.val) (f := f)
    (p := (s.pkg.remotes.find? fun q => q.tag == r.tag).map fun q => s.partNo q.slot.core)
  refine .next (.ite h ?_)
  split
  next he _ =>
    rw [he] at hr
    exact hr.answer
  next he _ =>
    rw [he] at hr
    exact hr

theorem execFalranRetryRequest (h : s.Canonical) {port f} : NextCanonical (execFalranRetryRequest port f s) := by
  have hr := h.receive (n := port.val) (f := f) (p := none)
  refine .next (.ite h ?_)
  split
  next he =>
    rw [he] at hr
    exact hr
  next he =>
    rw [he] at hr
    exact .ite hr (.ite hr.portDown hr.mapPort)

theorem execColdReset {image} : NextCanonical (execColdReset image s) := by
  have hreset : State.Canonical { State.reset with agenda := s.agenda, free := s.free } :=
    ⟨rfl, fun _ hin => (List.not_mem_nil hin).elim⟩
  exact .next hreset.newLinkKeys.mapPkg

theorem exec (h : s.Canonical) {i : Instr} : NextCanonical (exec i s) := by
  cases i
  case illegal => exact .next h.trapMe
  case add | sub | and | or | xor | andn | orn | sll | srl | sra | mul | mulh | mulhu | slt | sltu | min | max | minu | maxu | clz | ctz | popc |
      rol | ror | sext | zext | bext | bins | addi | andi | ori | xori | slti | sltiu | muli | slli | srli | srai | roli | bexti | binsi | lui |
      auipc | pspace | pcast =>
    exact .next h.result
  case div | divu | rem | remu | fcmp | fcvt => exact .next h.stick.result
  case beq | bne | blt | bge | bltu | bgeu | bbs | bbc => exact .next h.branch
  case j | jal | jalr => exact .next h.transfer
  case brloop => exact .execBrloop h
  case fadd | fsub | fmul | ffma => exact .next h.fpRound
  case fmin | fmax => exact .next h.fpResult
  case ld => exact .execLd h
  case st => exact .execSt h
  case ldS => exact .execLdS h
  case stS => exact .execStS h
  case atom => exact .execAtom h
  case cas => exact .execCas h
  case mark => exact .execMark h
  case fenceRel => exact .execFenceRel h
  case fenceAcq => exact .execFenceAcq h
  case fenceAr => exact .execFenceAr h
  case lblk => exact .execLblk h
  case lblkRel => exact .execLblkRel h
  case blkwait => exact .execBlkwait h
  case txb => exact .execTxb h
  case txe => exact .execTxe h
  case txa => exact .execTxa h
  case pgalloc | pgallocNb => exact .runOp h .pgallocOp
  case pgfree => exact .execPgfree h
  case sgnew | sgnewCl => exact .runOp h .sgnewOp
  case sgfree => exact .execSgfree h
  case sgpin => exact .execSgpin h
  case sgunpin => exact .execSgunpin h
  case sgpref => exact .execSgpref h
  case sginfo => exact .execSginfo h
  case sgquota => exact .execSgquota h
  case sgsched => exact .execSgsched h
  case spawn => exact .execSpawn h
  case tend => exact .execTend h
  case yield => exact .execYield h
  case await => exact .execAwait h
  case domjoin => exact .execDomjoin h
  case domleave => exact .execDomleave h
  case bardecl => exact .execBardecl h
  case bararr => exact .execBararr h
  case barwait => exact .execBarwait h
  case scnew => exact .execScnew h
  case cancel => exact .execCancel h
  case cancelwait => exact .execCancelwait h
  case grun => exact .execGrun h
  case tkpost => exact .execTkpost h
  case tkwait => exact .execTkwait h
  case qpush => exact .execQpush h
  case qpop => exact .execQpop h
  case fmtq => exact .execFmtq h
  case mlease => exact .execMlease h
  case mleaseG => exact .execMleaseG h
  case mrelease => exact .execMrelease h
  case chwait => exact .execChwait h
  case chid => exact .execChid h
  case tdset | cdset | agset => exact .runOp h .descOp
  case portbind => exact .execPortbind h
  case trap => exact .execTrap h
  case tret => exact .execTret h
  case srd => exact .execSrd h
  case swr => exact .execSwr h
  case swrFlags => exact .execSwrFlags h
  case swrVtype => exact .execSwrVtype h
  case swrRrb => exact .execSwrRrb h
  case swrEc => exact .execSwrEc h
  case swrSrseed => exact .execSwrSrseed h
  case swrPreempt => exact .execSwrPreempt h
  case swrEnvcb => exact .execSwrEnvcb h
  case swrInjcfg => exact .execSwrInjcfg h
  case accspill => exact .execAccspill h
  case accfill => exact .execAccfill h
  case ctxsave => exact .execCtxsave h
  case ctxload => exact .execCtxload h
  case tlbinv => exact .execTlbinv h
  case elogrd => exact .execElogrd h
  case moncall => exact .execMoncall h
  case halt => exact .execHalt h
  case vnop | vadd | vsub | vmul | vfma | vfms | vmin | vmax | vabs | vneg | vand | vor | vxor | vshl | vshr | vshra | vcmpeq | vcmplt | vcmple |
      vsel | vcvt | vqmax | vqcvt | vdq | vred | vany | vall | vbcast | vperm | viota | vmov | vsplat | vexp2 | vrcp | vrsqrt | vcsum |
      vcsumSet | vcsumClr | vchk | kand | kor | kxor | knot | vxtr | vpack | vunpk =>
    exact .vExec h
  case vcfg => exact .execVcfg h
  case mnop | mma | mzero | mdrain | mloadc => exact .mForward h
  case cnop | cpy | cred | cgath | cscat | cmcast | cfill => exact .cForward h
  case allowanceRefill => exact .execAllowanceRefill h
  case kill => exact .next h.killCore
  case vFinish => exact .execVFinish h
  case markerApply => exact .execMarkerApply h
  case agEntry => exact .execAgEntry h
  case cStart i => exact .execCStart (i := i) h
  case copyUnit => exact .execCopyUnit h
  case cComplete => exact .execCComplete h
  case mStart => exact .execMStart h
  case microStep => exact .execMicroStep h
  case mComplete => exact .execMComplete h
  case quiescentPoint => exact .execQuiescentPoint h
  case leaseIdleTimeout => exact .execLeaseIdleTimeout h
  case ticketServe => exact .next h.serve
  case poolScrub => exact .execPoolScrub h
  case storePerform => exact .execStorePerform h
  case loadBlockFill => exact .execLoadBlockFill h
  case taskStart => exact .next h.taskStart
  case resume => exact .next h.taskResume
  case taskEnd => exact .execTaskEnd h
  case graphNodePlace => exact .execGraphNodePlace h
  case launchScan => exact .execLaunchScan h
  case periodicWake => exact .execPeriodicWake h
  case wakeWindowEnd => exact .execWakeWindowEnd h
  case steal => exact .execSteal h
  case dequeRefill => exact .execDequeRefill h
  case spillSweep => exact .next h.setDeque.dropRecs
  case preload => exact .execPreload h
  case preloadComplete => exact .execPreloadComplete h
  case yieldTimeout => exact .execYieldTimeout h
  case waitSatisfied => exact .execWaitSatisfied h
  case awaitReread => exact .execAwaitReread h
  case barrierLanding => exact .execBarrierLanding h
  case barwaitReturn => exact .execBarwaitReturn h
  case asyncDelivery => exact .execAsyncDelivery h
  case watchdog | loopDrainTimeout => exact .next (.ite h.setSlot h)
  case preemptBudget => exact .execPreemptBudget h
  case saveTorn => exact .execSaveTorn h
  case cfgCtl => exact .execCfgCtl h
  case partRun => exact .execPartRun h
  case partStop => exact .execPartStop h
  case partReset => exact .execPartReset h
  case coreRun => exact .execCoreRun h
  case dma => exact .execDma h
  case logSwap | doorbell | keyClear => exact .next (.ite h.mapPart h)
  case powerCap | clockThrottle => exact .next (.ite h.mapPkg h)
  case pfRegisterWrite => exact .execPfRegisterWrite h
  case keyLoad => exact .execKeyLoad h
  case linkCrcError => exact .execLinkCrcError h
  case falranRequest => exact .execFalranRequest h
  case falranData | falranAck => exact .next (.ite h h.receive)
  case falranResponse => exact .execFalranResponse h
  case falranRetryRequest => exact .execFalranRetryRequest h
  case thermalTrip => exact .execThermalTrip h
  case coldReset => exact .execColdReset
  case spdmRequest => exact .execSpdmRequest h
  case wake => exact .next h.hostWake
  case slotReselect => exact .execSlotReselect h
  case stallEnd => exact .execStallEnd h
  case compaction => exact .next h.compact
  case segmentEvict => exact .next h.evictClaimed
  case configCommit => exact .execConfigCommit h
  case cfgTmo => exact .execCfgTmo h
  case freshFill => exact .execFreshFill h
  case segmentRecall => exact .execSegmentRecall h
  case writeBack => exact .execWriteBack h

end NextCanonical

end Sys2Proof.Machine
end

section
/-! PROOF. The obligation O57: a step keeps the byte stores in their canonical form. -/

namespace Sys2Proof.Machine

namespace NextCanonical

variable {s : State} {run : Instr → State → Host.Outcome State Fault Refusal}

theorem execPc (h : s.Canonical) (hrun : ∀ i, ∀ t : State, t.Canonical → NextCanonical (run i t)) :
    NextCanonical (State.execPc run s) := by
  obtain ⟨hok, herr⟩ := Op.Keeps.bind .fetchOp (fun w => .pure (a := instrOf w)) s h
  unfold State.execPc
  split
  next hms => exact hrun _ _ (hok _ _ hms)
  next e hms =>
    cases e with
    | trap t => exact .next h.trapMe
    | become t => exact .next (herr t hms)
    | abort c => exact .next h.setMe
    | fault f => exact .fault

theorem slotTurn (h : s.Canonical) (hrun : ∀ i, ∀ t : State, t.Canonical → NextCanonical (run i t)) {i} :
    NextCanonical (State.slotTurn run i s) := by
  have hpc : NextCanonical (State.execPc run { s with cur := i, actor := .control }) :=
    execPc (s := { s with cur := i, actor := .control }) h hrun
  refine .ite (.next h) (.ite (.next h.deliverAt) ?_)
  split
  next => exact .ite hpc (.next h)
  next => exact hpc

theorem coreTurn (h : s.Canonical) (hrun : ∀ i, ∀ t : State, t.Canonical → NextCanonical (run i t)) {c} :
    NextCanonical (State.coreTurn run c s) := by
  unfold State.coreTurn
  split
  next => exact .next h
  next hsel => exact slotTurn (h.select hsel) hrun

theorem vectorTurn (h : s.Canonical) (hrun : ∀ i, ∀ t : State, t.Canonical → NextCanonical (run i t)) {i} :
    NextCanonical (State.vectorTurn run i s) := by
  unfold State.vectorTurn
  split
  next => exact .next h
  next => exact .ite (hrun _ ((s.mapCore i.core fun k => { k with vecSlot := i.slot }).asVector i) h) (.next h)

theorem carryOut (h : s.Canonical) (hrun : ∀ i, ∀ t : State, t.Canonical → NextCanonical (run i t)) {c} :
    NextCanonical (s.carryOut run c) := by
  cases c with
  | core c => exact coreTurn h hrun
  | vector i => exact vectorTurn h hrun
  | event i => exact .ite (hrun i s h) (.next h)
  | upset u => exact .next h.strikes
  | tick n => exact .next h

theorem tickOutcome {o : Host.Outcome State Fault Refusal} (ho : NextCanonical o) : NextCanonical (tickOutcome s o) := by
  cases o with
  | next t =>
    have htick : State.Canonical { t with cycle := t.cycle + 1 } := ho t rfl
    exact .next htick.after
  | fault f => exact .fault
  | refused r => exact .refused

theorem stepWith (h : s.Canonical) (hrun : ∀ i, ∀ t : State, t.Canonical → NextCanonical (run i t)) :
    NextCanonical (s.stepWith run) := by
  unfold State.stepWith
  split
  next => exact .tickOutcome (.carryOut h hrun)
  next r _ => exact .tickOutcome (.carryOut (s := { s with agenda := r }) h hrun)

end NextCanonical

/-- Settles O57: each instruction and each event keeps the form, and so does what follows from the cycle that passes. -/
theorem stepKeepsCanonical : Obligations.StepKeepsCanonical :=
  fun _ t h hstep => NextCanonical.stepWith h (fun _ _ ht => .exec ht) t hstep

end Sys2Proof.Machine
end
